-- ==== Sys2Proof/Word.lean ====
section
/-!
DEFINITION. Word.lean: the 32-bit register word, the byte, and the plainest arithmetic on them.
-/

namespace Sys2Proof

/-- A register word of BAR0 or BAR4 (R5: registers are 32 bits wide). -/
abbrev Word := BitVec 32

/-- One byte of a frame, of the packet memory or of an addressed RAM. -/
abbrev Byte := BitVec 8

/-- A bit as a number. -/
def b2n (b : Bool) : Nat := if b then 1 else 0

/-- Bit `i` of a number, as a Bool. -/
def bitOf (n i : Nat) : Bool := n.testBit i

/-- A signed reading of the low `w` bits of `n`. -/
def signedOf (w n : Nat) : Int :=
  if n % 2 ^ w < 2 ^ (w - 1) then ((n % 2 ^ w : Nat) : Int) else ((n % 2 ^ w : Nat) : Int) - ((2 ^ w : Nat) : Int)

/-- The `w`-bit two's complement of an integer. -/
def unsignedOf (w : Nat) (i : Int) : Nat := (i % ((2 ^ w : Nat) : Int)).toNat

/-- A number read from bytes, least significant first. -/
def leNat : List Byte → Nat
  | [] => 0
  | b :: t => b.toNat + 256 * leNat t

/-- A number read from bytes, most significant first. -/
def beNat (l : List Byte) : Nat := l.foldl (fun a b => 256 * a + b.toNat) 0

/-- The low `n` bytes of a number, least significant first. -/
def leBytes : Nat → Nat → List Byte
  | 0, _ => []
  | n + 1, v => BitVec.ofNat 8 v :: leBytes n (v / 256)

/-- The low `n` bytes of a number, most significant first. -/
def beBytes (n v : Nat) : List Byte := (leBytes n v).reverse

end Sys2Proof
end

