-- ==== Sys2Proof/Types.lean ====
section
/-!
DEFINITION. Types.lean: the plain data that the operands of a command and the state share: frames as they arrive, lookup
results, image records, rope messages.
-/

namespace Sys2Proof

/-- A register space a host access names: BAR0 (R553) or BAR4 (R451). -/
inductive Bar where
  | bar0 | bar4
  deriving DecidableEq, Repr

/-- The unit that a fault source belongs to and a reaction acts on (R462), with the index within its kind: `sched q p` is the scheduler
instance of port `p` in quadrant `q` (R12; `p` = 68 where no port is named), `dma c` a DMA channel of the host interface. -/
inductive FUnit where
  | tile (q : Nat) | engine (e : Nat) | station (q i : Nat) | quadrant (q : Nat) | bankGroup (g : Nat)
  | poolMgr | trafficMgr | dqxMover | lane (c : Nat) | ropeLane (n : Nat) | port (p : Nat) | dramCh (c : Nat)
  | hostIf | die (d : Nat) | core | noUnit | sched (q p : Nat) | dma (c : Nat)
  deriving DecidableEq, Repr

/-- One parsed layer (R154): header kind code and offset. -/
structure Layer where
  kind : Nat
  off : Nat
  deriving DecidableEq, Repr

/-- The fields of a 64-bit action word (R173). -/
structure Action where
  fwdOp : Nat
  lock : Bool
  copyHost : Bool
  mirror : Bool
  dest : Nat
  setTc : Bool
  tc : Nat
  setDp : Bool
  dp : Nat
  index : Nat
  metaWr : Bool
  metaPos : Nat
  rwProfile : Nat
  deriving DecidableEq, Repr

/-- An action word read from its 64 bits (R173). -/
def Action.ofNat (w : Nat) : Action :=
  { fwdOp := w % 16, lock := w.testBit 4, copyHost := w.testBit 5, mirror := w.testBit 6,
    dest := w / 2 ^ 8 % 65536, setTc := w.testBit 24, tc := w / 2 ^ 25 % 8, setDp := w.testBit 28,
    dp := w / 2 ^ 29 % 4, index := w / 2 ^ 32 % 65536, metaWr := w.testBit 48, metaPos := w / 2 ^ 49 % 4,
    rwProfile := w / 2 ^ 52 % 256 }

/-- One entry of an image's section table (R32), with the outcome of its CRC-32C. -/
structure Section where
  id : Nat
  sver : Nat
  off : Nat
  len : Nat
  crcOk : Bool
  deriving DecidableEq, Repr

/-- A LANEMAP record (R34). -/
structure LaneRec where
  lane : Nat
  rate : Nat
  port : Nat
  position : Nat
  polarity : Nat
  eqPreset : Nat
  deriving DecidableEq, Repr

/-- A PORTS record (R34). -/
structure PortRec where
  port : Nat
  mode : Nat
  quadrant : Nat
  /-- MACSEC as it stands: 0 off, 1 on. -/
  macsecCode : Nat
  maxFrame : Nat
  holdMs : Nat
  nominal : Nat
  deriving DecidableEq, Repr

def PortRec.macsec (r : PortRec) : Bool := r.macsecCode == 1

/-- An edge of a parse-graph node (R151). -/
structure Edge where
  value : Nat
  mask : Nat
  next : Nat
  adv : Nat
  deriving DecidableEq, Repr

/-- A parse-graph node record (R151). -/
structure Node where
  node : Nat
  kind : Nat
  entry : Nat
  record : Bool
  edges : List Edge
  deriving DecidableEq, Repr

/-- A key window (R150): START in 2-byte units and the WIDTH code. -/
structure KeyWin where
  start : Nat
  width : Nat
  deriving DecidableEq, Repr

/-- The width in bytes of a key window's WIDTH code (R150). -/
def KeyWin.bytes (w : KeyWin) : Nat :=
  match w.width with
  | 0 => 22 | 1 => 44 | 2 => 16 | _ => 64

/-- The PARSE section (R150, R151). -/
structure ParseRec where
  reach16 : Nat
  layers : Nat
  reachAction : Nat
  wins : List KeyWin
  nodes : List Node
  deriving DecidableEq, Repr

/-- A STATIONS record (R34): the station of one position of one quadrant. -/
structure StationRec where
  quadrant : Nat
  position : Nat
  kind : Nat
  table : Nat
  keySel : Nat
  deriving DecidableEq, Repr

/-- The kinds of table of a TILES record (R34) and of FWD_TBLk_GEOM; `other` is a code that the record may not have. -/
inductive TableKind where
  | fdb | stream | exactFlow | lpm | treeCache | tcam | other (code : Nat)
  deriving DecidableEq, Repr

/-- A TILES record (R34): tile and block masks per quadrant, DRAM extension, carved geometry, seeds, ageing time. -/
structure TileRec where
  table : Nat
  kind : TableKind
  glob : Bool
  tileMasks : List Nat
  blockMasks : List Nat
  buckets : Nat
  dramMib : Nat
  seed0 : Nat
  seed1 : Nat
  ageS : Nat
  deriving DecidableEq, Repr

/-- One entry of a gate list: gate states (or the stream gate's word) and the interval in ns. -/
structure GateEntry where
  states : Nat
  interval : Nat
  deriving DecidableEq, Repr

/-- The per-class part of a SCHED record (R34). -/
structure ClassRec where
  weight : Nat
  burst : Nat
  maxSdu : Nat
  maxResUs : Nat
  cbsEn : Bool
  idleSlope : Nat
  rank : Nat
  admitAt : Option Nat
  deriving DecidableEq, Repr

/-- A SCHED record (R34). -/
structure SchedRec where
  port : Nat
  strict : Nat
  pmacMask : Nat
  gateEn : Bool
  cycleNs : Nat
  gates : List GateEntry
  classes : List ClassRec
  deriving DecidableEq, Repr

/-- A POOLS record (R34). -/
structure PoolRec where
  beads : Nat
  warn1 : Nat
  warn2 : Nat
  full : Nat
  /-- RESERVED and DQX_OK as they stand: 0 or 1. -/
  reservedCode : Nat
  tcs : Nat
  dqxCode : Nat
  rank : Nat
  admitAt : Option Nat
  deriving DecidableEq, Repr

def PoolRec.reserved (r : PoolRec) : Bool := r.reservedCode == 1
def PoolRec.dqxOk (r : PoolRec) : Bool := r.dqxCode == 1

/-- A SAFETY group record (R34). -/
structure GroupRec where
  cls : Nat
  belayUs : Nat
  deriving DecidableEq, Repr

/-- A SAFETY source record (R34). -/
structure SourceRec where
  source : Nat
  n : Nat
  wUs : Nat
  deriving DecidableEq, Repr

/-- The AGEING section (R34). -/
structure AgeingRec where
  /-- REPLAN_EN as it stands: 0 or 1. -/
  replanCode : Nat
  intervalH : Nat
  tLow : Int
  tHigh : Int
  avsMin : Nat
  avsMax : Nat
  laneFloorMv : Nat
  laneFloorMui : Nat
  sramFloorMv : Nat
  deriving DecidableEq, Repr

def AgeingRec.replanEn (r : AgeingRec) : Bool := r.replanCode == 1

/-- A STREAMS record (R34). -/
structure StreamRec where
  handle : Nat
  home : Nat
  /-- REPLICATE, CRITICAL and the recovery algorithm (0 vector, 1 match) as they stand. -/
  replicateCode : Nat
  criticalCode : Nat
  algCode : Nat
  history : Nat
  rank : Nat
  admitAt : Option Nat
  deriving DecidableEq, Repr

def StreamRec.replicate (r : StreamRec) : Bool := r.replicateCode == 1
def StreamRec.critical (r : StreamRec) : Bool := r.criticalCode == 1
def StreamRec.matchAlg (r : StreamRec) : Bool := r.algCode == 1

/-- A match-register pair of a PATCH block (R34). -/
structure MatchRec where
  romAddr : Nat
  patchIdx : Nat
  deriving DecidableEq, Repr

/-- A PATCH block for one ROM copy (R34). -/
structure PatchRec where
  copy : Nat
  words : List Nat
  matches_ : List MatchRec
  deriving DecidableEq, Repr

/-- What a read of a slot or the fetch of a push brings: whether it completes, the bytes, and the records of the sections whose byte
layout the spec does not give (DESIGN CHOICE, assumption log 83).  `injEn` is the value of FLT_CTL.INJ_EN that the image gives (R475). -/
structure ImageFile where
  readOk : Bool
  bytes : List Byte
  tiles : List TileRec
  sched : List SchedRec
  pools : List PoolRec
  dqxMib : Nat
  groups : List GroupRec
  sources : List SourceRec
  ageing : AgeingRec
  streams : List StreamRec
  patches : List PatchRec
  injEn : Bool
  deriving DecidableEq, Repr

/-- A Shutra image as the loader reads it (R31–R34): the header, the section table, the records of the sections, and the
parts that its signature check takes.  `formOk`: what version 2 reserves is 0, and each section has the length of whole records. -/
structure Image where
  formOk : Bool
  injEn : Bool
  readOk : Bool
  magic : Nat
  fmtVer : Nat
  fmtMin : Nat
  epoch : Nat
  compatEpoch : Nat
  stepMask : Nat
  variantMask : Nat
  keySlot : Nat
  length : Nat
  sectionCount : Nat
  flags : Nat
  buildId : Nat
  drainMax : Nat
  sections : List Section
  sigForm : Bool
  pubKey : List Byte
  signature : List Byte
  digest : List Byte
  streamsDigest : List Byte
  lanes : List LaneRec
  ports : List PortRec
  parse : ParseRec
  stations : List StationRec
  tiles : List TileRec
  sched : List SchedRec
  pools : List PoolRec
  dqxMib : Nat
  groups : List GroupRec
  sources : List SourceRec
  ageing : AgeingRec
  streams : List StreamRec
  patches : List PatchRec
  deriving DecidableEq, Repr

/-- HOST_SEAL, bit 0 of FLAGS (R31). -/
def Image.hostSeal (i : Image) : Bool := i.flags.testBit 0
/-- SERVICE_FWD, bit 1 of FLAGS (R31). -/
def Image.serviceFwd (i : Image) : Bool := i.flags.testBit 1
/-- PAIR, bit 2 of FLAGS (R31). -/
def Image.pair (i : Image) : Bool := i.flags.testBit 2
/-- SENIOR_IMAGE, bit 3 of FLAGS (R31). -/
def Image.senior (i : Image) : Bool := i.flags.testBit 3

/-- Whose lookup a command names: a frame at its ingress station, a copy at its egress station, or a result slot of a thread. -/
inductive Look where
  | frame (fid : Nat)
  | copy (fid port : Nat)
  | thread (e s slot : Nat)
  deriving DecidableEq, Repr

/-- What a lane's receiver shows as its bring-up goes on: the modes that the partner advertises (R95), the FEC that negotiation resolved (R89,
R95) and the lane's skew in ns (R97). -/
structure LaneSeen where
  modes : List Nat
  fec : Nat
  skew : Nat
  deriving DecidableEq, Repr

/-- What the lane of a wake detector receives (R123): the detector, and the ordered sets with the gap in ns before each. -/
structure WakeHeard where
  det : Nat
  sets : List (Nat × List Nat)
  deriving DecidableEq, Repr

/-- Where a detector finds a fault (R24, R455, R458): the unit at fault, and the frame, copy or lookup in which it finds it, if it is one. -/
structure FaultAt where
  unit : FUnit
  victim : Option Look
  deriving DecidableEq, Repr

/-- How a frame ends at the MAC (R104, R114): the number of bytes on the wire with the FCS, the checks that the MAC and the PCS conclude, and
the codewords that the RS-FEC decoders of its lanes corrected or could not correct meanwhile (R125): lane, corrected, uncorrectable. -/
structure FrameEndInfo where
  /-- Bytes received since the last bead request. -/
  data : List Byte
  wire : Nat
  fcsBad : Bool
  tailMarked : Bool
  assyErr : Bool
  codewords : List (Nat × Nat × Nat)
  deriving DecidableEq, Repr

/-- A gate control block (R331): a port's or a stream gate's. -/
inductive GateId where
  | port (p : Nat)
  | stream (g : Nat)
  deriving DecidableEq, Repr

/-- A received heartbeat (R362): whether its CRC is good, and its fields. -/
structure Heartbeat where
  crcOk : Bool
  ver : Nat
  mode : Nat
  twin : Nat
  senior : Bool
  roles : Bool
  counter : Nat
  session : Nat
  isolated : Nat
  rxlock : Nat
  epoch : Nat
  deriving DecidableEq, Repr

/-- A received state message whose VER is not checked (R364, R366): HELLO, or a KIND that the table does not have. -/
structure Hello where
  kind : Nat
  vmin : Nat
  vmax : Nat
  senior : Bool
  ack : Bool
  pair : Bool
  epoch : Nat
  compat : Nat
  digest : List Byte
  deriving DecidableEq, Repr

/-- A received SEQ_RESUME (R364): its VER, its entries of HANDLE and NEXT, and LAST. -/
structure SeqResume where
  ver : Nat
  entries : List (Nat × Nat)
  last : Bool
  deriving DecidableEq, Repr

/-- What one issue of a DRAM read finds (R410). -/
inductive DramFinding where
  | ok | parity | stamp | double | poison | single
  deriving DecidableEq, Repr

/-- The user of a DRAM request (R411); a sealed image line serves the patch words of a ROM copy, and `both` says that its second
copy has failed too. -/
inductive DramUser where
  | treeFill (t : Look) | flow (t : Look) | dqx | journal | imageLine (copy : Nat) (both : Bool) | snapshot | host
  deriving DecidableEq, Repr

/-- A DRAM request that ends (R399–R411): the logical rank and its line, in the mapped rows or the band, with the mapped address of the former; whether the spare of a
running migration answered; a write or a read; its latency in ns; what its issue and the second issue that R410 makes found. -/
structure DramDone where
  rank : Nat
  band : Bool
  line : Nat
  addr : Nat
  spare : Bool
  write : Bool
  ns : Nat
  first : DramFinding
  again : DramFinding
  user : DramUser
  deriving DecidableEq, Repr
/-- One ring oscillator as read (R486): its number, its corrected frequency in MHz, its slowdown against the baseline in 0.01 %. -/
structure RoReading where
  ro : Nat
  freq : Nat
  slow : Int
  deriving DecidableEq, Repr

/-- One step of a lane retune (R495): the change of each CTLE and DFE tap in codes, the eye read after it, and the uncorrectable
codewords counted during it. -/
structure RetuneStep where
  deltas : List Int
  height : Nat
  width : Nat
  uncorr : Nat
  deriving DecidableEq, Repr

/-- What a re-plan measures at its steps 3 to 5 (R488, R491, R494, R495): the SRAM margin, the margin after a change of the assist, the
eyes of the lanes before their retune (lane, height, width), the steps of the retunes by lane, and the narrowest eyes of the DRAM
channels (read, write). -/
structure Margins where
  sram : Nat
  sramAfter : Nat
  eyes : List (Nat × Nat × Nat)
  tunes : List (Nat × List RetuneStep)
  dram : List (Nat × Nat)
  deriving DecidableEq, Repr

end Sys2Proof
end

