-- ==== Sys2Proof/Syntax.lean ====
section
/-!
DEFINITION. Syntax.lean: the commands of the block, one constructor for each row of spec/opcode_table.json.  A register
index, a port, a lane or an engine is a number here; WellFormed.lean says which values a row admits.
-/

namespace Sys2Proof

/-- The commands (spec/opcode_table.json): first those with operands, then those without, each group in the table's order (Lean's
runtime numbers at most 244 constructors that have fields). -/
inductive Instr where
  /-- REGISTER_WRITE (R6): A host write to a BAR0 register that has no row of its own is applied according to the access code of each field. -/
  | registerWrite (bar : Bar) (off size val ev : Nat)
  /-- PAIR_LO_READ (R9): A read of the _LO half of a 64-bit pair latches the _HI half for the next _HI read. -/
  | pairLoRead (off : Nat)
  /-- READ_CLEAR (R6): A read of an RC field returns the value and then clears it, keeping any same-cycle event for the next read. -/
  | readClear (bar : Bar) (off size ev : Nat)
  /-- BAR2_WRITE (R423): A host write to a BAR2 table or record area is applied as 4-byte writes, each checked under R190 where it touches a versioned object. -/
  | bar2Write (addr size data : Nat)
  /-- TCAM_ROW_WRITE (R213): An accepted compare-word write to a TCAM row is applied in three cycles and fanned out for global tables. -/
  | tcamRowWrite (addr data : Nat)
  /-- METER_RECORD_WRITE (R323): A write of the word at bytes 12-15 of a meter record resets both of its buckets to full. -/
  | meterRecordWrite (addr data : Nat)
  /-- RECOVERY_RECORD_WRITE (R389): A write of bit 0 in the word at bytes 12-15 of a sequencing record sets TAKE_ANY; every other write is ignored. -/
  | recoveryRecordWrite (addr data : Nat)
  /-- DRAM_WINDOW_WRITE (R398): A host write through the DRAM window is merged into DRAM; writes beyond MAPPED or into the DQX region are ignored. -/
  | dramWindowWrite (addr : Nat) (data : List Byte) (enables : Nat)
  /-- FRAME_ARRIVAL (R14): The first bit of a frame reaches a port's PCS; the quadrant of the port takes ownership and the ingress timestamp is taken. -/
  | frameArrival (fid port : Nat) (preempt : Bool) (writer : Nat) (vhdr : List Byte)
  /-- PARSE_THREAD_START (R129): The parse station starts a parse thread for a frame on a parse engine with a free slot and stamps the generation tag. -/
  | parseThreadStart (fid slot : Nat)
  /-- PARSE_SLOT_TIMEOUT (R129): A frame that has waited 64 core cycles without a free parse slot is dropped as a congestion drop and counted in HSQ_NOSLOT_CNT. -/
  | parseSlotTimeout (fid : Nat)
  /-- KEY_SET_HANDOVER (R130): A finished parse hands its key set to the first ingress station once every earlier frame of its ingress port has been handed over or dropped. -/
  | keySetHandover (fid : Nat)
  /-- STATION_LOOKUP (R170): An ingress or egress station makes its one lookup for a frame under the frame's generation tag. -/
  | stationLookup (t : Look)
  /-- LOOKUP_RESULT_RETURN (R141): A lookup result returns from a table tile, TCAM or DRAM after its access time. -/
  | lookupResultReturn (t : Look) (confirmFail : Bool)
  /-- ACTION_RESOLUTION (R175): After position 9 the device runs stream filtering, sequencing, elimination and action resolution to form the copy list. -/
  | actionResolution (fid : Nat)
  /-- ENQUEUE (R269): The traffic manager admits or drops each copy of the frame in ascending egress port order and links the admitted copies to their queues. -/
  | enqueue (fid : Nat)
  /-- FRAME_DATA_BEAD_REQUEST (R258): An ingress writer requests a bead for each 256 bytes that arrive, and the request is served or gets the empty indication. -/
  | frameDataBeadRequest (fid : Nat) (data : List Byte)
  /-- BEAD_WAIT_SERVED (R264): A waiting bead request of the DQX mover, host DMA or device-generated frames is served once its pool has room. -/
  | beadWaitServed (slot : Nat)
  /-- BEAD_QUARANTINE_END (R265): After 64 core cycles a freed bead joins the free list and its last charge is released. -/
  | beadQuarantineEnd (bead : Nat)
  /-- BEAD_FREE (R267): A requester frees a bead, and the free is applied, decremented or refused against the bead record. -/
  | beadFree (addr requester : Nat) (who : Look)
  /-- FRAME_END (R163): The last byte of a frame arrives; the FCS, ICV and length checks conclude, a learn event is presented and meter estimates are corrected. -/
  | frameEnd (fid : Nat) (e : FrameEndInfo)
  /-- CUT_THROUGH_START (R272): A cut-through copy starts once the ingress lookups have finished and S bytes have been written, or the frame has ended. -/
  | cutThroughStart (fid port : Nat)
  /-- SCHEDULER_SELECT (R307): In a cycle in which a MAC can start a frame, the scheduler selects the highest eligible strict queue or the weighted group. -/
  | schedulerSelect (port : Nat)
  /-- DEQUEUE_EGRESS_PASS (R334): A dequeued copy builds its egress key set and makes its egress pass under the current generation. -/
  | dequeueEgressPass (fid port : Nat)
  /-- EGRESS_RESOLUTION (R335): After position 13 the copy is dropped or proceeds to rewrite, and its mirror and host copies are added. -/
  | egressResolution (fid port : Nat)
  /-- REWRITE_THREAD_START (R338): A rewrite thread starts at dequeue and applies the profile's operations in their fixed order. -/
  | rewriteThreadStart (fid port slot : Nat)
  /-- COPY_TRANSMIT_END (R101): A copy completes transmission, releases its bead charges and updates its tallies. -/
  | copyTransmitEnd (fid port : Nat)
  /-- RECIRCULATE_ENTRY (R349): A P67 copy, rewritten with the mirror profile, re-enters ingress at P66's quadrant as a recirculated frame. -/
  | recirculateEntry (fid newFid : Nat)
  /-- NOP (R135): Microword NOP does nothing. -/
  | nop (e sl : Nat)
  /-- ADD (R135): Microword ADD sets gD to gA plus gB and sets the flags. -/
  | add (e sl d a b : Nat)
  /-- SUB (R135): Microword SUB sets gD to gA minus gB and sets the flags. -/
  | sub (e sl d a b : Nat)
  /-- AND (R135): Microword AND sets gD to gA AND gB and sets the flags. -/
  | andW (e sl d a b : Nat)
  /-- OR (R135): Microword OR sets gD to gA OR gB and sets the flags. -/
  | orW (e sl d a b : Nat)
  /-- XOR (R135): Microword XOR sets gD to gA XOR gB and sets the flags. -/
  | xor (e sl d a b : Nat)
  /-- SHF (R135): Microword SHF sets gD to gA shifted by the SUB amount. -/
  | shf (e sl d a sub : Nat)
  /-- ADDI (R135): Microword ADDI sets gD to gA plus IMM10. -/
  | addi (e sl d a imm : Nat)
  /-- ANDI (R135): Microword ANDI sets gD to gA AND IMM10. -/
  | andi (e sl d a imm : Nat)
  /-- CMP (R135): Microword CMP compares gA with gB and sets the flags. -/
  | cmp (e sl a b : Nat)
  /-- CMPI (R135): Microword CMPI compares gA with IMM10 and sets the flags. -/
  | cmpi (e sl a imm : Nat)
  /-- MOVI (R135): Microword MOVI loads IMM14 into gD. -/
  | movi (e sl d imm : Nat)
  /-- ORH (R135): Microword ORH ORs IMM8 into the high byte of gD. -/
  | orh (e sl d imm : Nat)
  /-- EXR (R135): Microword EXR loads 1 or 2 header bytes into gD, stalling until they arrive. -/
  | exr (e sl d off len : Nat)
  /-- EXK (R135): Microword EXK copies 1-16 header bytes into the key set. -/
  | exk (e sl off len kpos : Nat)
  /-- KEYR (R135): Microword KEYR writes gA into two key bytes. -/
  | keyr (e sl a kpos : Nat)
  /-- KEYI (R135): Microword KEYI writes IMM8 into one key byte. -/
  | keyi (e sl imm kpos : Nat)
  /-- ADVH (R135): Microword ADVH advances the header pointer, setting RX past 255. -/
  | advh (e sl a imm : Nat)
  /-- SETL (R154): Microword SETL appends a layer of kind IMM10 at HP, or ends the parse at the reach or the layer limit. -/
  | setl (e sl imm : Nat)
  /-- SETF (R135): Microword SETF sets a frame flag to the given value. -/
  | setf (e sl flag : Nat) (value : Bool)
  /-- STAMP (R162): Microword STAMP re-stamps the frame with the current generation if the thread has issued no LKP. -/
  | stamp (e sl : Nat)
  /-- LKP (R135): Microword LKP issues a table lookup into a result slot. -/
  | lkp (e sl table keySel slot : Nat)
  /-- LDT (R135): Microword LDT loads a word of a lookup result into gD, stalling until the result returns. -/
  | ldt (e sl d word slot : Nat)
  /-- LDM (R135): Microword LDM reads one tile word into g2 and g3. -/
  | ldm (e sl table : Nat)
  /-- STM (R135): Microword STM compare-and-writes one tile word and clears Z on failure. -/
  | stm (e sl table : Nat)
  /-- BR (R136): Microword BR branches to its target if COND holds. -/
  | br (e sl cond target : Nat)
  /-- CALL (R136): Microword CALL pushes the return address and branches, aborting on a full stack. -/
  | call (e sl target : Nat)
  /-- RET (R136): Microword RET pops the return address, aborting on an empty stack. -/
  | ret (e sl : Nat)
  /-- JX (R135): Microword JX jumps to ADDR16 in either address space. -/
  | jx (e sl addr : Nat)
  /-- BTAB (R135): Microword BTAB jumps into a 16-entry table indexed by gA. -/
  | btab (e sl a imm : Nat)
  /-- WAIT (R137): Microword WAIT makes the thread wait on a header, result or stroke condition. -/
  | wait (e sl wc arg : Nat) (tsel tf : Bool)
  /-- WAIT_SATISFIED (R137): The condition of a waiting thread is met, or the frame ends, and the thread continues. -/
  | waitSatisfied (e sl : Nat)
  /-- WAIT_TIMEOUT (R139): A wait times out; the thread aborts, or sets TO and continues when TF = 1. -/
  | waitTimeout (e sl : Nat)
  /-- PUSH (R347): Edit microword PUSH inserts key bytes into the edit window. -/
  | push (e sl off len kpos : Nat)
  /-- POP (R347): Edit microword POP removes bytes from the edit window. -/
  | pop (e sl off len kpos : Nat)
  /-- REPL (R347): Edit microword REPL overwrites window bytes and adds the checksum delta. -/
  | repl (e sl off len kpos : Nat)
  /-- CSUM (R347): Edit microword CSUM applies the L4 accumulator or regenerates an IPv4 checksum. -/
  | csum (e sl off len kpos : Nat)
  /-- DONE (R135): Microword DONE ends the thread normally. -/
  | done (e sl : Nat)
  /-- DROP (R155): Microword DROP ends the thread and drops the frame or copy with its reason. -/
  | drop (e sl reason : Nat)
  /-- TRAP (R155): Microword TRAP ends the thread and sends the frame or copy to the host with its reason. -/
  | trap (e sl reason : Nat)
  /-- SAMPLE_RECORD (R147): The engine stops the causing thread within its skid and writes HSQ_SAMPLE for a sample point. -/
  | sampleRecord (e sl : Nat)
  /-- HOUSEKEEPING_TASK_START (R131): The housekeeping engine starts a thread for a task whose trigger fired once a slot is free. -/
  | housekeepingTaskStart (kind slot entry : Nat)
  /-- PATCH_RAM_SCRUB (R146): Housekeeping scrubs every patch RAM once per millisecond and corrects single-bit errors. -/
  | patchRamScrub (copy word errors : Nat)
  /-- PATCH_WORD_REWRITE (R146): An uncorrectable patch word is rewritten from the sealed image copy, releasing the stalled fetches. -/
  | patchWordRewrite (copy word : Nat)
  /-- ROM_SIGNATURE_RECHECK (R143): After an uncorrectable ROM fetch the device repeats the signature check of that copy. -/
  | romSignatureRecheck (copy : Nat) (ok : Bool)
  /-- GENERATION_DRAINED (R195): The drain count of a superseded generation reaches 0. -/
  | generationDrained (gen : Nat)
  /-- DRAIN_TIMEOUT (R196): A generation not drained 20 µs after its supersession sets DRAIN_TMO and raises station residency sources. -/
  | drainTimeout (gen : Nat)
  /-- GENERATION_RETIRED (R197): Housekeeping finishes settling the journal and the generation retires. -/
  | generationRetired (gen : Nat)
  /-- TCAM_ROW_CHECK (R216): Every 300 core cycles a block compares one row with its mirror and repairs a row that differs. -/
  | tcamRowCheck (q block row fault : Nat)
  /-- TABLE_INSERT (R233): An FWD_INS_CTL GO with OP insert inserts an FDB or LPM entry, possibly with cuckoo moves. -/
  | tableInsert (table : Nat) (shadow : Bool)
  /-- TABLE_DELETE (R233): An FWD_INS_CTL GO with OP delete stages the death of an entry or withdraws its birth. -/
  | tableDelete (table : Nat) (shadow : Bool)
  /-- TABLE_FIND (R233): An FWD_INS_CTL GO with OP find reports the slot of an entry. -/
  | tableFind (table : Nat) (shadow : Bool)
  /-- SHADOW_CLEAR (R246): A write of CLEAR starts writing life word 0000h to every slot of the shadow bank. -/
  | shadowClear (table : Nat)
  /-- SHADOW_CLEAR_DONE (R246): The clear of the shadow bank ends and CLEARING returns to 0. -/
  | shadowClearDone (table : Nat)
  /-- LEARN_HOLD_EXPIRY (R239): A learn-filter entry whose hold expires is written to the learn ring and freed. -/
  | learnHoldExpiry (entry : Nat)
  /-- AGEING_VISIT (R243): The ageing sweep visits an FDB slot, clearing AGE or staging the death of an entry. -/
  | ageingVisit (table slot : Nat)
  /-- DQX_SPILL (R275): A queue whose on-chip beads exceed SPILL moves its first tail frame to the DRAM segment. -/
  | dqxSpill (port tc : Nat)
  /-- DQX_REFILL (R275): A queue whose head holds fewer than REFILL beads moves its first DRAM frame to the head. -/
  | dqxRefill (port tc : Nat) (uncorrectable : Bool)
  /-- LINK_FAULT_DETECT (R99): Loss of signal, CDR, lock or a local fault is detected on a port, starting the down debounce. -/
  | linkFaultDetect (port lane kind : Nat)
  /-- PORT_DOWN (R99): A link fault lasting DOWN_US declares the port down, truncating, cutting and holding its frames. -/
  | portDown (port : Nat)
  /-- PORT_HOLD_EXPIRY (R277): The hold of a down port expires and its queues are flushed. -/
  | portHoldExpiry (port : Nat)
  /-- HOLD_FLUSH_COMPLETE (R277): The flush of an expired hold ends and the hold state becomes expired. -/
  | holdFlushComplete (port : Nat)
  /-- LANE_BRINGUP_START (R94): The device starts bringing up a lane bound in LANEMAP. -/
  | laneBringupStart (lane : Nat)
  /-- LANE_LOCK (R94): A lane completes bring-up and locks. -/
  | laneLock (lane step : Nat) (seen : LaneSeen)
  /-- LANE_TRAIN_LIMIT_EXPIRY (R94): A lane not locked within TRAIN_LIMIT + 5 ms is declared down together with its port. -/
  | laneTrainLimitExpiry (lane : Nat)
  /-- LANE_RETRY (R96): A lane declared down is retried in the background every 1 s. -/
  | laneRetry (lane : Nat)
  /-- AN_RESTART (R95): After an auto-negotiation mismatch, negotiation restarts every 1 s. -/
  | anRestart (lane : Nat)
  /-- LAN_RETRAIN (R96): A write of LAN_CTL.RETRAIN restarts bring-up at once and takes the port down. -/
  | lanRetrain (lane : Nat)
  /-- PORT_UP (R98): A locked port is declared up at once in Ascent, or after UP_MS afterwards. -/
  | portUp (port : Nat)
  /-- PORT_SHUTDOWN (R103): A write of MAC_CTL.EN = 0 starts the shutdown of a port. -/
  | portShutdown (port : Nat)
  /-- PORT_SHUTDOWN_COMPLETE (R103): The shutdown flush ends and a pending enable returns the port. -/
  | portShutdownComplete (port : Nat)
  /-- PAUSE_FRAME_RX (R107): A received pause or PFC frame starts or replaces the pause timers of its classes. -/
  | pauseFrameRx (port op : Nat) (badFcs : Bool) (prios : List (Nat × Nat))
  /-- PAUSE_TIMER_EXPIRY (R107): A pause timer runs out and releases its class. -/
  | pauseTimerExpiry (port tc : Nat)
  /-- PAUSE_FRAME_TX (R109): A generated pause or PFC frame is sent at the next frame boundary of the express MAC. -/
  | pauseFrameTx (port : Nat)
  /-- PAUSE_REFRESH (R109): The pause frame is repeated every REFRESH quanta while back-pressure lasts. -/
  | pauseRefresh (port : Nat)
  /-- VERIFY_RESPONSE (R111): A verify response arrives and preemption becomes active. -/
  | verifyResponse (port : Nat)
  /-- VERIFY_TIMEOUT (R111): A verify packet is not answered within VERIFY_MS; it is retried, or the verify fails. -/
  | verifyTimeout (port : Nat)
  /-- WAKE_TX (R124): A write of MAC_CTL.WAKE_TX starts a 200 µs burst of wake ordered sets. -/
  | wakeTx (port : Nat)
  /-- WAKE_BURST_END (R124): The wake burst ends after 200 µs and frames resume. -/
  | wakeBurstEnd (port : Nat)
  /-- REQ_PARK (R69): AON_MODE_REQ with REQ park starts the park sequence. -/
  | reqPark (key : Nat) (i2c : Bool)
  /-- REQ_HOLD (R83): AON_MODE_REQ with REQ hold enters Hold, or is kept pending during a transition. -/
  | reqHold (key : Nat) (i2c : Bool)
  /-- REQ_WARM (R67): AON_MODE_REQ with REQ warm performs a warm reset and runs Ascent from step 3. -/
  | reqWarm (key : Nat) (i2c : Bool)
  /-- REQ_TEST (R63): AON_MODE_REQ with REQ test enters Test from Ascent before the seal or in image wait. -/
  | reqTest (key : Nat) (i2c : Bool)
  /-- REQ_SERVICE (R85): AON_MODE_REQ with REQ service enters Service. -/
  | reqService (key : Nat) (i2c : Bool)
  /-- REQ_RESUME (R63): AON_MODE_REQ with REQ resume returns from Service to the mode held before. -/
  | reqResume (key : Nat) (i2c : Bool)
  /-- WAKE_PIN (R73): A WAKE pin held at its active level for DEBOUNCE wakes the device from Bivouac. -/
  | wakePin (pins levels heldMs : Nat)
  /-- WAKE_DETECTOR (R123): An armed lane detector that receives 16 wake ordered sets wakes the device. -/
  | wakeDetector (heard : WakeHeard)
  /-- WAKE_I2C (R558): A write of A5h to MGT_WAKE with I2C_EN = 1 wakes the device from Bivouac. -/
  | wakeI2c (value : Nat)
  /-- SHORT_ASCENT_DRAM_READY (R77): DRAM leaves self-refresh and the image copy is checked, written and sealed. -/
  | shortAscentDramReady (copyOk : Bool)
  /-- SNAPSHOT_RESTORED (R77): The snapshot is checked and restored, or lost under R78. -/
  | snapshotRestored (digestOk : Bool)
  /-- AON_POWER_ON (R540): VDD_AON reaches 90 % and the always-on domain starts from reset. -/
  | aonPowerOn (strap : Bool)
  /-- COLD_RESET (R79): PORST_N held low for 10 µs performs a cold reset, a power cycle when VDD_CORE was down. -/
  | coldReset (vcoreLow : Bool)
  /-- PORST_RELEASE (R65): PORST_N released with PWRGOOD high starts the cold Ascent and samples SENIOR. -/
  | porstRelease (senior : Bool)
  /-- PCIE_LINK_UP (R65): The PCIe link reaches L0 and BAR0 opens. -/
  | pcieLinkUp (gen width : Nat)
  /-- DRAM_TRAINING_DONE (R405): DRAM training ends, or a failed rank is spared or held in Ascent. -/
  | dramTrainingDone (failed : List Nat)
  /-- DRAM_TRAINING_RETRY (R408): With TRAIN_FAIL set, training is retried every 1 s. -/
  | dramTrainingRetry (failed : List Nat)
  /-- SLOT_VERIFY_DONE (R42): A slot read and verification ends; the structure is written, or the next slot or image wait follows. -/
  | slotVerifyDone (slotB : Bool) (file : ImageFile)
  /-- PUSH_VERIFY_DONE (R44): A pushed image is fetched and verified and then loaded, programmed into a slot or refused. -/
  | pushVerifyDone (file : ImageFile) (other : Option ImageFile)
  /-- SLOT_PROGRAM_DONE (R45): Slot programming, read-back and re-verification end and the result is reported. -/
  | slotProgramDone (file : ImageFile)
  /-- DOMAIN_STEP (R289): TSY_DOMn_CMD.STEP adds ADJ to the domain time. -/
  | domainStep (n : Nat)
  /-- DOMAIN_SET (R289): TSY_DOMn_CMD.SET loads the domain time. -/
  | domainSet (n : Nat)
  /-- DOMAIN_SLEW (R289): TSY_DOMn_CMD.SLEW starts adding ADJ gradually. -/
  | domainSlew (n : Nat)
  /-- SLEW_DONE (R289): A slew completes and SLEW_DONE is raised. -/
  | slewDone (n : Nat)
  /-- TS_FIFO_POP (R301): A read of TSY_PORTp_TX_INFO returns and removes the head timestamp entry. -/
  | tsFifoPop (port : Nat)
  /-- GATE_CHANGE (R317): A write of GCTL.CHANGE checks the admin list and schedules the switch time, or refuses it. -/
  | gateChange (g : GateId)
  /-- GATE_CANCEL (R319): A write of GCTL.CANCEL cancels a pending gate change. -/
  | gateCancel (g : GateId)
  /-- GATE_SWITCH (R318): Working time reaching S copies the admin list into the operational copy and starts it. -/
  | gateSwitch (g : GateId)
  /-- GATE_ENTRY_ADVANCE (R311): The interval of a gate-list entry ends and the next entry comes into force. -/
  | gateEntryAdvance (g : GateId)
  /-- HEARTBEAT_RX (R363): A received heartbeat is checked for validity and its session and counter are kept. -/
  | heartbeatRx (m : Heartbeat)
  /-- HELLO_RX (R366): A received HELLO chooses the version, checks seniority and epochs, and pairs or refuses. -/
  | helloRx (m : Hello)
  /-- SEQ_RESUME_RX (R375): Receipt of the partner's last SEQ_RESUME adopts generator values and completes pairing or handback. -/
  | seqResumeRx (m : SeqResume)
  /-- PARK_MSG_RX (R71): A received PARK state message records the partner as parked and enters Solo. -/
  | parkMsgRx (ver : Nat)
  /-- SERVICE_MSG_RX (R371): A received SERVICE state message keeps Paired or sets partner away. -/
  | serviceMsgRx (ver : Nat) (fwd : Bool)
  /-- LEAP_MSG_RX (R51): A received LEAP state message makes the twin take over the partner's streams. -/
  | leapMsgRx (ver : Nat)
  /-- LEAP_ABORT_MSG_RX (R54): A received LEAP_ABORT state message hands the streams back. -/
  | leapAbortMsgRx (ver : Nat)
  /-- SAFETY_MSG_RX (R371): A received safety message records a partner fault, or sets partner away on Hold. -/
  | safetyMsgRx (m : List Byte)
  /-- TIME_MSG_RX (R387): A received time message updates OFS, DELAY and the partner's time registers. -/
  | timeMsgRx (m : List Byte)
  /-- ROPE_FC_RX (R386): A received flow-control message holds or releases rope classes. -/
  | ropeFcRx (mask : Nat)
  /-- ROPE_FC_RELEASE (R386): A held rope class is released 300 µs after the last message that held it. -/
  | ropeFcRelease (tc : Nat)
  /-- ROPE_LANE_LOSS (R358): A logical rope lane loses lock and the rope is re-formed on the remaining lanes. -/
  | ropeLaneLoss (log : Nat)
  /-- TWN_SWAP (R359): A write of TWN_CTL.SWAP, or a worn lane, requests a swap for the spare. -/
  | twnSwap (lane : Nat) (worn : Bool)
  /-- SWAP_REQ_RX (R359): The senior twin answers a received SWAP_REQ with SWAP_AT. -/
  | swapReqRx (ver lane : Nat)
  /-- SWAP_AT_APPLY (R359): At the named codeword, both twins carry the logical lane on the spare. -/
  | swapAtApply (lane : Nat)
  /-- FRER_RESET_TIMEOUT (R380): A recovery function that passes no frame for RESET_MS sets TAKE_ANY. -/
  | frerResetTimeout (handle : Nat)
  /-- RANK_RETIRE (R413): A write of DRC_CTL.RETIRE, or a first uncorrectable read, starts the migration of a logical rank. -/
  | rankRetire (rank : Nat) (ue : Bool)
  /-- MIGRATION_DONE (R414): The copy ends, the spare carries the logical rank and MIG_DONE is raised. -/
  | migrationDone (poisoned : List Nat)
  /-- REFRESH_DUE (R402): A rank's refresh interval expires, and the refresh is issued or postponed. -/
  | refreshDue (ch rank : Nat) (busy : Bool)
  /-- REFRESH_READOUT (R402): The refresh-rate readout of each rank is read every 16 ms or 1 ms. -/
  | refreshReadout (ch rank code : Nat) (hot : Bool)
  /-- REFRESH_CATCHUP (R403): A rank idle for 100 ns receives its postponed refreshes back to back. -/
  | refreshCatchup (ch rank : Nat)
  /-- WCK_OSC_READ (R406): Every 4 ms the WCK-to-DQ oscillator is read and lane delays are adjusted. -/
  | wckOscRead (ch : Nat)
  /-- DRAM_REQUEST_COMPLETE (R410): A DRAM access completes and its read is checked, corrected or found uncorrectable. -/
  | dramRequestComplete (r : DramDone)
  /-- DRAM_REQUEST_TIMEOUT (R401): A DRAM request not completed in 20 µs is abandoned as uncorrectable. -/
  | dramRequestTimeout (r : DramDone)
  /-- PATROL_SCRUB (R412): Patrol scrub reads each line of every rank once per 24 operating hours. -/
  | patrolScrub (r : DramDone)
  /-- DMA_GO (R432): A write of HDM_DMAc_CTL.GO checks and starts a general DMA transfer, or refuses it. -/
  | dmaGo (c : Nat)
  /-- DMA_STOP (R440): A write of CTL.STOP ends a transfer after its current burst. -/
  | dmaStop (c : Nat)
  /-- DMA_SHUTDOWN (R440): A write of CTL.EN = 0 starts the shutdown of a DMA channel. -/
  | dmaShutdown (c : Nat)
  /-- DMA_BURST_DONE (R433): A DMA burst completes and the arbiter grants the next burst by priority. -/
  | dmaBurstDone (c : Nat) (data : List Byte) (bad : List Nat)
  /-- DMA_TRANSFER_DONE (R434): A transfer ends, the CRC is stored or written and DONE is set. -/
  | dmaTransferDone (c : Nat)
  /-- DMA_REQUEST_ERROR (R438): A PCIe error on a device-initiated request stops the transfer with ERR 5h. -/
  | dmaRequestError (c kind : Nat)
  /-- RING_DOORBELL (R450): A write of HDM_RINGn_TAIL produces descriptors for a ring. -/
  | ringDoorbell (n val : Nat)
  /-- TX_DESCRIPTOR_PROCESS (R442): A tx ring channel reads a descriptor and its frame, injects it on P64 and advances HEAD. -/
  | txDescriptorProcess (r fid : Nat) (desc data : List Byte)
  /-- RX_COMPLETION (R443): A copy to P64 is written to an rx buffer and its descriptor is completed in place. -/
  | rxCompletion (fid : Nat) (desc : List Byte) (poison : Bool)
  /-- RING_SHUTDOWN (R445): A write of a ring's EN = 0 starts its shutdown. -/
  | ringShutdown (n : Nat)
  /-- RING_COAL_TIMEOUT (R449): COAL_US after the first unreported completion, the ring's vector is sent. -/
  | ringCoalTimeout (n : Nat)
  /-- PCIE_LINK_CHANGE (R420): The PCIe link changes rate or width, raising LINK_CHG and re-granting P64. -/
  | pcieLinkChange (gen width : Nat)
  /-- HOST_INTERFACE_RESET (R446): A PCIe hot reset, FLR or PERST resets DMA, rings, mailbox and MSI-X. -/
  | hostInterfaceReset (perst : Bool)
  /-- MSIX_UNMASK (R424): Unmasking a vector with its PBA bit set sends one message. -/
  | msixUnmask (vector : Nat)
  /-- FAULT_EVENT (R455): A detector reports an event at a source, which is counted as consequential, minor or severe. -/
  | faultEvent (source : Nat) (found : FaultAt)
  /-- FAULT_ACK_HANDLED (R459): FLT_GRPg_ACK with MODE handled closes the event without a reaction. -/
  | faultAckHandled (g : Nat)
  /-- FAULT_ACK_REACT (R459): FLT_GRPg_ACK with MODE react starts the reaction in the next cycle. -/
  | faultAckReact (g : Nat)
  /-- BELAY_EXPIRY (R461): The belay expires without an ACK and the group's reaction starts. -/
  | belayExpiry (g : Nat)
  /-- REACTION_COMPLETE (R461): A reaction completes, the END safety message is sent and a pending restart runs. -/
  | reactionComplete (g : Nat)
  /-- REACTION_TIMEOUT (R464): A reaction not completed within its bound is escalated to the next reaction. -/
  | reactionTimeout (g : Nat)
  /-- SHADOW_END (R466): The settle time after a reaction passes and its reaction shadow ends. -/
  | shadowEnd (g : Nat)
  /-- FAULT_INJECT (R475): A write of FLT_INJ.GO with INJ_EN = 1 presents one event of a source. -/
  | faultInject (source : Nat)
  /-- QUADRANT_HEARTBEAT_TIMEOUT (R468): No probe returned from a quadrant for 100 µs fires its FG24 source. -/
  | quadrantHeartbeatTimeout (q : Nat)
  /-- RWL_CRC_CHECK (R468): Every 100 µs FG45 compares each quadrant's RWL registers with the CRC stored at the seal. -/
  | rwlCrcCheck (bad : Nat)
  /-- TEMP_EXCURSION (R490): A junction sensor outside the limits for 1 s sets EXCURSION and writes a cairn. -/
  | tempExcursion (sensor : Nat) (temp : Int)
  /-- REPLAN_DONE (R491): A re-plan computes margins and the projection, writes the margin cairn and raises DONE. -/
  | replanDone (m : Margins)
  /-- AVS_STEP (R493): Every 100 µs the device sends one 5 mV VOUT_COMMAND step toward the core target. -/
  | avsStep (ack : Bool) (readMv : Nat) (fault : Bool)
  /-- PMBUS_NACK_RETRY (R493): 1 ms after a PMBus NACK the command is repeated, and a second NACK raises source 393. -/
  | pmbusNackRetry (ack : Bool) (readMv : Nat) (fault : Bool)
  /-- RO_READ (R486): Every 1 s the ring oscillators are read and the core voltage is raised if needed. -/
  | roRead (l : List RoReading)
  /-- EYE_READ (R487): Every 60 s the eye of each lane that is up is sampled. -/
  | eyeRead (lane height width : Nat)
  /-- PMBUS_ALERT (R536): PMB_ALERT_N makes the device read STATUS_WORD and raise source 395 on a fault bit. -/
  | pmbusAlert (rail : Nat) (fault : Bool)
  /-- CAIRN_WRITE (R510): The recording task writes the oldest queued cairn to the next free slot. -/
  | cairnWrite (writeFails : Bool)
  /-- CAIRN_SAMPLE_TICK (R507): Every 4 ms queue depths and the hottest sensor are sampled into histogram bins. -/
  | cairnSampleTick (sensor : Nat) (temp : Int)
  /-- CAIRN_WINDOW_READ (R515): A read of the cairn window at offset FFCh with AUTO_ADV advances the cursor. -/
  | cairnWindowRead (off : Nat)
  /-- STRM_SEL (R526): A write of TLY_STRM_SEL captures the six tallies of a stream handle. -/
  | strmSel (handle : Nat)
  /-- I2C_WRITE (R557): A management-port write transaction takes effect on its fourth data byte. -/
  | i2cWrite (ptr : Nat) (bytes : List Byte)
  /-- I2C_READ (R557): A management-port read transaction latches the register and returns its bytes. -/
  | i2cRead (ptr count : Nat)
  /-- DRAM_RETRAIN_DONE (R406): The retraining of every rank's read and write eyes ends, DRC_CHc_EYE is reported and RETRAINED is raised. -/
  | dramRetrainDone (eyes : List (Nat × Nat))
  /-- LOCK_REGAINED (R98): A lane or port that lost its link regains lock, which cancels a running DOWN_US debounce or, after a declaration down outside Ascent, starts UP_MS. -/
  | lockRegained (port : Nat)
  /-- COMMIT_GO (R192): A write of CLS_COMMIT.GO starts a commit, or is refused as busy, outstanding or root. -/
  | commitGo
  /-- STROKE (R193): When every earlier write has landed, the generation advances in all quadrants and the held writes are applied. -/
  | stroke
  /-- COMMIT_DISCARD (R199): A write of CLS_COMMIT.DISCARD reverts the staging of NEXT, or reports busy. -/
  | commitDiscard
  /-- DISCARD_COMPLETE (R199): A discard ends with the journal of NEXT empty and RESULT set to discarded. -/
  | discardComplete
  /-- TABLE_COMMAND_COMPLETE (R233): A table command completes, sets RESULT and raises INS_DONE. -/
  | tableCommandComplete
  /-- PARK_SEND_TIMEOUT (R69): After 10 ms of sending queued frames, the park flushes the rest. -/
  | parkSendTimeout
  /-- PARK_DRAINED (R69): With no frame in any pipeline, the park writes the snapshot and retention store, puts DRAM in self-refresh and switches the rails off. -/
  | parkDrained
  /-- HOLD_PENDING_EXECUTE (R62): A pending Hold request is carried out as soon as the running transition ends. -/
  | holdPendingExecute
  /-- WAKE_ALARM (R73): The real-time counter reaching AON_ALARM wakes the device. -/
  | wakeAlarm
  /-- SHORT_ASCENT_PWRGOOD (R77): PWRGOOD rises in a short Ascent and the PLLs start. -/
  | shortAscentPwrgood
  /-- RAIL_RETRY (R543): If PWRGOOD has not risen 20 ms after a wake, or 100 ms after the last retry, the switched rails are cycled. -/
  | railRetry
  /-- XTAL_STABLE (R540): After 2 s of stable crystal the oscillator check of source 10 is armed. -/
  | xtalStable
  /-- PWRGOOD_FALL (R542): PWRGOOD falling outside the park performs a cold reset held until PWRGOOD rises. -/
  | pwrgoodFall
  /-- ASCENT_PLL_LOCK (R65): The core, time and PCIe PLLs lock and the clock monitors are armed. -/
  | ascentPllLock
  /-- ASCENT_SELF_CHECK_PASS (R65): The ROM signatures and the collector self-check pass, starting array init, DRAM and PCIe training and the slot read. -/
  | ascentSelfCheckPass
  /-- ARRAY_INIT_DONE (R65): Every SRAM, TCAM and buffer macro holds zero with valid check bits. -/
  | arrayInitDone
  /-- SEAL (R48): A write of IMG_CTL.SEAL seals a loaded HOST_SEAL image, locking RWL registers and power-gating unused units. -/
  | seal
  /-- SEAL_TIMEOUT (R46): 50 ms after loading without a host seal, the device seals. -/
  | sealTimeout
  /-- ASCENT_LANES_SETTLED (R65): Bound lanes are trained or declared down; Viram starts, or the device enters Solo with the rope down. -/
  | ascentLanesSettled
  /-- IMG_PUSH (R44): A write of IMG_CTL.PUSH starts the fetch of a pushed image, or is refused with code 0Eh. -/
  | imgPush
  /-- FLOOR_RAISE (R39): A write of IMG_CTL.FLOOR_RAISE in Service raises the OTP epoch floor. -/
  | floorRaise
  /-- LEAP (R50): A write of IMG_CTL.LEAP starts a leapfrog, or is refused with code 10h. -/
  | leap
  /-- LEAP_ABORT (R54): A write of IMG_CTL.LEAP_ABORT in step 2 or 3 aborts the leapfrog. -/
  | leapAbort
  /-- LEAP_QUEUES_EMPTY (R51): The leaping twin's queues empty and it enters Service and loads its image. -/
  | leapQueuesEmpty
  /-- LEAP_DRAIN_MAX_EXPIRY (R51): DRAIN_MAX expires, the remaining frames are flushed and the twin enters Service. -/
  | leapDrainMaxExpiry
  /-- TIME_SNAPSHOT (R295): TSY_SNAP_CTL.GO captures local time and both domain times in one cycle. -/
  | timeSnapshot
  /-- PPS_IN_CAPTURE (R296): A rising edge on PPS_IN captures local time. -/
  | ppsInCapture
  /-- PPS_OUT_RISE (R297): PPS_OUT rises at each whole second plus offset of its domain. -/
  | ppsOutRise
  /-- PPS_OUT_FALL (R297): PPS_OUT falls WIDTH_US after its rise. -/
  | ppsOutFall
  /-- RTC_LOAD (R298): A write of TSY_RTC_CTL.LOAD requests a load of the real-time counter. -/
  | rtcLoad
  /-- RTC_LOAD_APPLY (R298): At the next whole second of working time the real-time counter is loaded. -/
  | rtcLoadApply
  /-- HEARTBEAT_SEND (R362): A twin sends a Viram heartbeat every 50 µs. -/
  | heartbeatSend
  /-- ROPE_LOST (R370): 150 µs without a valid heartbeat loses the rope and enters crevasse. -/
  | ropeLost
  /-- HELLO_SEND (R367): A twin sends HELLO every 1 ms while negotiating and every 1 s while refused. -/
  | helloSend
  /-- TIME_MSG_SEND (R387): A Paired twin sends a time message every 1 ms. -/
  | timeMsgSend
  /-- ROPE_FC_SEND (R386): A flow-control message holding classes is sent every 100 µs during back-pressure, and cleared at its end. -/
  | ropeFcSend
  /-- ROPE_REFORM_DONE (R358): A rope re-forming ends, the available rate changes and LANE_LOST is raised. -/
  | ropeReformDone
  /-- ROLE_TAKE (R383): A write of TWN_CTL.ROLE_TAKE in crevasse or refused takes the shared roles. -/
  | roleTake
  /-- DRAM_RETRAIN (R406): A write of DRC_CTL.RETRAIN retrains every rank's read and write eyes. -/
  | dramRetrain
  /-- DESC_OTP_BURN (R391): A write of DRC_CTL.OTP_BURN in Test programs the memory descriptor into OTP once. -/
  | descOtpBurn
  /-- MB_HELLO (R428): Mailbox request HELLO negotiates the mailbox framing version. -/
  | mbHello
  /-- MB_ECHO (R429): Mailbox request ECHO returns its payload. -/
  | mbEcho
  /-- MB_CAIRN_CLEAR (R518): Mailbox request CAIRN_CLEAR returns a nonce or checks a code and starts a clear. -/
  | mbCairnClear
  /-- MB_JTAG_CHALLENGE (R429): Mailbox request JTAG_CHALLENGE returns a fresh nonce. -/
  | mbJtagChallenge
  /-- MB_JTAG_UNLOCK (R429): Mailbox request JTAG_UNLOCK checks a signed response and unlocks JTAG. -/
  | mbJtagUnlock
  /-- MB_OTP_KEY (R429): Mailbox request OTP_KEY programs an empty key-hash slot in Test. -/
  | mbOtpKey
  /-- MB_OTP_REVOKE (R429): Mailbox request OTP_REVOKE sets a slot's revocation bit. -/
  | mbOtpRevoke
  /-- PROBE_SEND (R468): Every 50 µs the die supervisor sends a probe descriptor through each powered quadrant. -/
  | probeSend
  /-- HOLD_SAFETY_REPEAT (R473): In Hold, the safety message is repeated every 1 ms. -/
  | holdSafetyRepeat
  /-- REPLAN_INTERVAL (R490): INTERVAL_H operating hours after the last re-plan, a re-plan starts or becomes pending. -/
  | replanInterval
  /-- EXCURSION_RECOVERED (R490): 10 s back within the limits after an excursion triggers a re-plan. -/
  | excursionRecovered
  /-- REPLAN_AFTER_ENTRY (R490): Within 1 s of entering Paired or Solo after an Ascent, a re-plan starts. -/
  | replanAfterEntry
  /-- AGE_RUN (R490): A write of AGE_CTL.RUN requests a re-plan. -/
  | ageRun
  /-- CAIRN_INTERVAL_END (R509): The record interval ends and port, temperature and fault-count cairns are queued. -/
  | cairnIntervalEnd
  /-- CAIRN_EXPORT (R516): A write of CRN_CTL.EXPORT_GO starts exporting slots through channel 14. -/
  | cairnExport
  /-- CAIRN_EXPORT_STOP (R516): A write of EXPORT_STOP ends the export after the current burst. -/
  | cairnExportStop
  /-- CAIRN_EXPORT_DONE (R516): The export reaches the write index and raises EXPORT_DONE. -/
  | cairnExportDone
  /-- CAIRN_KEY_BURN (R517): A write of CRN_CTL.KEY_BURN in Test programs the clearing key once. -/
  | cairnKeyBurn
  /-- CAIRN_CLEAR_DONE (R519): A clear of the store ends, slot 0 gets a Cleared cairn and CLEARED is raised. -/
  | cairnClearDone
  /-- CLEAR_PORTS (R531): TLY_CTL.CLEAR_PORTS clears every port tally. -/
  | clearPorts
  /-- CLEAR_EVT (R531): TLY_CTL.CLEAR_EVT clears every event tally. -/
  | clearEvt
  /-- CLEAR_STRM (R531): TLY_CTL.CLEAR_STRM clears every stream tally. -/
  | clearStrm
  /-- SNAP_GO (R529): TLY_CTL.SNAP_GO captures the selected tallies and starts writing a record. -/
  | snapGo
  /-- SNAP_STOP (R529): TLY_CTL.SNAP_STOP ends the record after the current burst without a header. -/
  | snapStop
  /-- SNAP_PERIODIC (R529): Every SNAP_PERIOD_MS a snapshot starts, or is skipped while busy. -/
  | snapPeriodic
  /-- SNAP_DONE (R530): The snapshot header is written last and SNAP_DONE is raised. -/
  | snapDone
  /-- BW_WINDOW_END (R525): At the end of each bandwidth window the port rates and peaks are updated. -/
  | bwWindowEnd
  deriving DecidableEq, Repr

end Sys2Proof
end

