-- ==== Sys2Proof/Decode.lean ====
section
/-!
DEFINITION. Decode.lean: the commands that a word spells by the bits of spec/opcode_table.json (no row gives bits), and the
encoding of the Hiostac microwords (R134, R135): 24 bits, the opcode in [23:18], the format fixed by the opcode.
-/

namespace Sys2Proof

/-- The command that a word spells by the table's bits: the table gives no row any bits, so no word spells a command. -/
def decodeTableWord (_nbits _w : Nat) : Option Instr := none

/-! ### Fields of a microword (R134) -/

/-- Bits [hi:lo] of a word, by the lowest bit and the width. -/
def bits (w lo width : Nat) : Nat := w / 2 ^ lo % 2 ^ width

/-- A condition on the fields that must be 0, else no opcode. -/
def onlyIf (c : Bool) (i : Instr) : Option Instr := if c then some i else none

/-- Format R: D, A, B in [17:14], [13:10], [9:6]; SUB in [5:0] (R134).  A field that a format has and a word does not use, and that
neither R134 nor R135 says must be 0, is not looked at. -/
def decodeR (e sl w : Nat) : Option Instr :=
  let d := bits w 14 4
  let a := bits w 10 4
  let b := bits w 6 4
  let sub := bits w 0 6
  match bits w 18 6 with
  | 0x01 => some (.add e sl d a b)
  | 0x02 => some (.sub e sl d a b)
  | 0x03 => some (.andW e sl d a b)
  | 0x04 => some (.orW e sl d a b)
  | 0x05 => some (.xor e sl d a b)
  | 0x06 => some (.shf e sl d a sub)
  | 0x09 => onlyIf (d == 0) (.cmp e sl a b)
  | _ => none

/-- Formats I and M: D, A and IMM10; D and IMM14, or IMM8 for ORH (R134). -/
def decodeI (e sl w : Nat) : Option Instr :=
  let d := bits w 14 4
  let a := bits w 10 4
  let imm := bits w 0 10
  match bits w 18 6 with
  | 0x07 => some (.addi e sl d a imm)
  | 0x08 => some (.andi e sl d a imm)
  | 0x0A => onlyIf (d == 0) (.cmpi e sl a imm)
  | 0x0B => some (.movi e sl d (bits w 0 14))
  | 0x0C => onlyIf (bits w 8 6 == 0) (.orh e sl d (bits w 0 8))
  | 0x14 => some (.advh e sl a imm)
  | 0x15 => some (.setl e sl imm)
  | 0x24 => onlyIf (d == 0) (.btab e sl a imm)
  | _ => none

/-- Formats X and K: OFF8, LEN − 1 and KPOS (R134). -/
def decodeK (e sl w : Nat) : Option Instr :=
  let off := bits w 10 8
  let len := bits w 6 4 + 1
  let kpos := bits w 0 6
  match bits w 18 6 with
  | 0x10 => onlyIf (bits w 0 2 == 0) (.exr e sl (bits w 14 4) (bits w 6 8) (bits w 2 4 + 1))
  | 0x11 => some (.exk e sl off len kpos)
  | 0x2A => some (.push e sl off len kpos)
  | 0x2B => some (.pop e sl off len kpos)
  | 0x2C => some (.repl e sl off len kpos)
  | 0x2D => some (.csum e sl off len kpos)
  | 0x12 => onlyIf (bits w 6 8 == 0) (.keyr e sl (bits w 14 4) kpos)
  | 0x13 => onlyIf (bits w 14 4 == 0) (.keyi e sl (bits w 6 8) kpos)
  | _ => none

/-- Formats B, L, W, T and V (R134). -/
def decodeB (e sl w : Nat) : Option Instr :=
  match bits w 18 6 with
  | 0x20 => some (.br e sl (bits w 15 3) (bits w 0 15))
  | 0x21 => onlyIf (bits w 15 3 == 0) (.call e sl (bits w 0 15))
  | 0x23 => onlyIf (bits w 16 2 == 0) (.jx e sl (bits w 0 16))
  | 0x28 => onlyIf (bits w 0 6 == 0) (.wait e sl (bits w 16 2) (bits w 8 8) (w.testBit 7) (w.testBit 6))
  | 0x18 => onlyIf (bits w 0 7 == 0) (.lkp e sl (bits w 12 6) (bits w 9 3) (bits w 7 2))
  | 0x1A => onlyIf (bits w 0 7 == 0) (.ldm e sl (bits w 12 6))
  | 0x1B => onlyIf (bits w 0 7 == 0) (.stm e sl (bits w 12 6))
  | 0x19 => onlyIf (bits w 10 4 == 0 && bits w 0 5 == 0) (.ldt e sl (bits w 14 4) (bits w 7 3) (bits w 5 2))
  | _ => none

/-- Format N (R134). -/
def decodeN (e sl w : Nat) : Option Instr :=
  match bits w 18 6 with
  | 0x00 => onlyIf (bits w 0 18 == 0) (.nop e sl)
  | 0x16 => onlyIf (bits w 7 11 == 0) (.setf e sl (bits w 0 6) (w.testBit 6))
  | 0x17 => onlyIf (bits w 0 18 == 0) (.stamp e sl)
  | 0x22 => onlyIf (bits w 0 18 == 0) (.ret e sl)
  | 0x30 => onlyIf (bits w 0 18 == 0) (.done e sl)
  | 0x31 => onlyIf (bits w 8 10 == 0) (.drop e sl (bits w 0 8))
  | 0x32 => onlyIf (bits w 8 10 == 0) (.trap e sl (bits w 0 8))
  | _ => none

/-- The word command that a 24-bit microword names when thread `sl` of engine `e` issues it; none for any other opcode (R135). -/
def decodeMicro (e sl w : Nat) : Option Instr :=
  if 2 ^ 24 ≤ w then none
  else if [0x01, 0x02, 0x03, 0x04, 0x05, 0x06, 0x09].contains (bits w 18 6) then decodeR e sl w
  else if [0x07, 0x08, 0x0A, 0x0B, 0x0C, 0x14, 0x15, 0x24].contains (bits w 18 6) then decodeI e sl w
  else if [0x10, 0x11, 0x12, 0x13, 0x2A, 0x2B, 0x2C, 0x2D].contains (bits w 18 6) then decodeK e sl w
  else if [0x18, 0x19, 0x1A, 0x1B, 0x20, 0x21, 0x23, 0x28].contains (bits w 18 6) then decodeB e sl w
  else decodeN e sl w

/-! ### The encoder -/

/-- An opcode with its 18 operand bits. -/
def word (op low : Nat) : Nat := op * 2 ^ 18 + low

/-- Format R. -/
def fmtR (op d a b sub : Nat) : Nat := word op (d * 2 ^ 14 + a * 2 ^ 10 + b * 2 ^ 6 + sub)
/-- Format I. -/
def fmtI (op d a imm : Nat) : Nat := word op (d * 2 ^ 14 + a * 2 ^ 10 + imm)
/-- Format K. -/
def fmtK (op off len kpos : Nat) : Nat := word op (off * 2 ^ 10 + (len - 1) * 2 ^ 6 + kpos)

/-- The microword of a word command (R134, R135); none for every other command. -/
def encodeMicro : Instr → Option Nat
  | .nop _ _ => some (word 0x00 0)
  | .add _ _ d a b => some (fmtR 0x01 d a b 0)
  | .sub _ _ d a b => some (fmtR 0x02 d a b 0)
  | .andW _ _ d a b => some (fmtR 0x03 d a b 0)
  | .orW _ _ d a b => some (fmtR 0x04 d a b 0)
  | .xor _ _ d a b => some (fmtR 0x05 d a b 0)
  | .shf _ _ d a sub => some (fmtR 0x06 d a 0 sub)
  | .addi _ _ d a imm => some (fmtI 0x07 d a imm)
  | .andi _ _ d a imm => some (fmtI 0x08 d a imm)
  | .cmp _ _ a b => some (fmtR 0x09 0 a b 0)
  | .cmpi _ _ a imm => some (fmtI 0x0A 0 a imm)
  | .movi _ _ d imm => some (word 0x0B (d * 2 ^ 14 + imm))
  | .orh _ _ d imm => some (word 0x0C (d * 2 ^ 14 + imm))
  | .exr _ _ d off len => some (word 0x10 (d * 2 ^ 14 + off * 2 ^ 6 + (len - 1) * 2 ^ 2))
  | .exk _ _ off len kpos => some (fmtK 0x11 off len kpos)
  | .keyr _ _ a kpos => some (word 0x12 (a * 2 ^ 14 + kpos))
  | .keyi _ _ imm kpos => some (word 0x13 (imm * 2 ^ 6 + kpos))
  | .advh _ _ a imm => some (fmtI 0x14 0 a imm)
  | .setl _ _ imm => some (word 0x15 imm)
  | .setf _ _ flag value => some (word 0x16 (b2n value * 2 ^ 6 + flag))
  | .stamp _ _ => some (word 0x17 0)
  | .lkp _ _ table keySel slot => some (word 0x18 (table * 2 ^ 12 + keySel * 2 ^ 9 + slot * 2 ^ 7))
  | .ldt _ _ d w slot => some (word 0x19 (d * 2 ^ 14 + w * 2 ^ 7 + slot * 2 ^ 5))
  | .ldm _ _ table => some (word 0x1A (table * 2 ^ 12))
  | .stm _ _ table => some (word 0x1B (table * 2 ^ 12))
  | .br _ _ cond target => some (word 0x20 (cond * 2 ^ 15 + target))
  | .call _ _ target => some (word 0x21 target)
  | .ret _ _ => some (word 0x22 0)
  | .jx _ _ addr => some (word 0x23 addr)
  | .btab _ _ a imm => some (fmtI 0x24 0 a imm)
  | .wait _ _ wc arg tsel tf => some (word 0x28 (wc * 2 ^ 16 + arg * 2 ^ 8 + b2n tsel * 2 ^ 7 + b2n tf * 2 ^ 6))
  | .push _ _ off len kpos => some (fmtK 0x2A off len kpos)
  | .pop _ _ off len kpos => some (fmtK 0x2B off len kpos)
  | .repl _ _ off len kpos => some (fmtK 0x2C off len kpos)
  | .csum _ _ off len kpos => some (fmtK 0x2D off len kpos)
  | .done _ _ => some (word 0x30 0)
  | .drop _ _ reason => some (word 0x31 reason)
  | .trap _ _ reason => some (word 0x32 reason)
  | _ => none

end Sys2Proof
end

