-- ==== Sys2Proof/Config.lean ====
section
/-!
DEFINITION. Config.lean: what the spec fixes outside its own text (cryptographic functions, ROM contents) and the values
it leaves open.  Every constant here is opaque: nothing in Lean can evaluate it, so a statement that mentions one holds
whatever its value is.
-/

namespace Sys2Proof.Config

/-- A value the spec leaves open, one for each use: applied to State.freeCtr, which the use advances (DESIGN CHOICE, assumption log 5). -/
opaque freeNat : Nat → Nat

/-- SHA-384, left uninterpreted (DESIGN CHOICE, assumption log 6). -/
opaque sha384 : List Byte → List Byte

/-- HMAC-SHA-384 of a key and a message, left uninterpreted (DESIGN CHOICE, assumption log 6). -/
opaque hmacSha384 : List Byte → List Byte → List Byte

/-- Whether an ECDSA P-384 signature verifies: key, digest, signature; left uninterpreted (DESIGN CHOICE, assumption log 6). -/
opaque ecdsaOk : List Byte → List Byte → List Byte → Bool

/-- A byte of the key stream of AES-256 in counter mode, by key, nonce and position: the cipher suites are IEEE 802.1AE's, whose text the
spec does not hold (DESIGN CHOICE, assumption log 91). -/
opaque gcmByte : List Nat → Nat → Nat → Byte

/-- A byte of the ICV that GCM-AES-256 makes: key, nonce, authenticated bytes, encrypted bytes, position (DESIGN CHOICE, assumption log 91). -/
opaque gcmTag : List Nat → Nat → List Byte → List Byte → Nat → Byte

/-- The gate states of a block whose operational list has no entry, by block offset: the spec states none (DESIGN CHOICE, assumption log 11). -/
opaque emptyGate : Nat → Nat

/-- The BAR2 address of the tile word that LDM and STM of a table name by g0 and g1: the spec states no form (DESIGN CHOICE, assumption log 12). -/
opaque tileWordAddr : Nat → Nat → Nat → Nat

/-- The set of the tree cache that holds a line: the spec states no index function (DESIGN CHOICE, assumption log 13). -/
opaque treeSet : Nat → Nat

/-- The traffic class of a replicated stream's replicas, by handle: no record states it (DESIGN CHOICE, assumption log 16). -/
opaque streamTc : Nat → Nat

/-- The progress of a migration in thousandths, by the time units since it began: the spec gives the copy no rate (DESIGN CHOICE,
DESIGN CHOICE, assumption log 106). -/
opaque migPermille : Nat → Nat

/-- The refresh interval in ns of a rank whose readout lies beyond the rated range: the spec states none (DESIGN CHOICE, assumption log 17). -/
opaque trefiBeyond : Nat

end Sys2Proof.Config
end

