-- ==== Sys2Proof/Machine/RegMap.lean ====
section
/-!
DEFINITION. Machine/RegMap.lean: every register of BAR0 and BAR4 as the register tables of the spec give them
(R3, R4, R57–R59, R86–R88, R125, R126, R148, R149, R167, R168, R200–R202, R219, R220, R250–R252, R280–R283, R299–R301,
R330–R332, R351–R354, R388, R417, R418, R447–R449, R451, R482–R484, R500, R501, R520, R521–R523, R532–R534, R553, R556).
`rNAME` is a register's offset, `NAME_FIELD` a field of it; `barMap` gives every field's access code and reset value.
A reserved field has no row: it reads 0 and ignores writes.  A reset value the table calls Image, OTP, Strap or AON
is 0 here and is set by the load or the power-on that gives it (DESIGN CHOICE, assumption log 3).
-/

namespace Sys2Proof.Machine

/-- A register field: the offset of its register, its lowest bit and its width. -/
structure Fld where
  off : Nat
  lo : Nat
  width : Nat
  deriving DecidableEq, Repr

/-- The access codes of R6. -/
inductive Acc where
  | ro | rw | wo | w1c | w1s | rc | rwl | rws | rwg
  deriving DecidableEq, Repr

/-- One field of a register row: lowest bit, width, access code, reset value. -/
structure RegFld where
  lo : Nat
  width : Nat
  acc : Acc
  reset : Nat
  deriving DecidableEq, Repr

/-- A register of a block: offset in the block, stride and count of its replication, its fields. -/
structure RegRow where
  off : Nat
  stride : Nat
  count : Nat
  flds : List RegFld
  deriving DecidableEq, Repr

/-- A replicated block of registers (R553): base, stride, count, rows. -/
structure RegGrp where
  base : Nat
  stride : Nat
  count : Nat
  rows : List RegRow
  deriving DecidableEq, Repr

abbrev rGLB_ID_LO : Nat := 0x0
abbrev GLB_ID_LO_VENDOR : Fld := ⟨rGLB_ID_LO, 0, 16⟩
abbrev GLB_ID_LO_DEVICE : Fld := ⟨rGLB_ID_LO, 16, 16⟩
abbrev rGLB_ID_HI : Nat := 0x4
abbrev GLB_ID_HI_STEP_MINOR : Fld := ⟨rGLB_ID_HI, 0, 4⟩
abbrev GLB_ID_HI_STEP_MAJOR : Fld := ⟨rGLB_ID_HI, 4, 4⟩
abbrev GLB_ID_HI_FRONT_LANES : Fld := ⟨rGLB_ID_HI, 8, 8⟩
abbrev rIMG_CTL : Nat := 0x10000
abbrev IMG_CTL_SEAL : Fld := ⟨rIMG_CTL, 0, 1⟩
abbrev IMG_CTL_PUSH : Fld := ⟨rIMG_CTL, 1, 1⟩
abbrev IMG_CTL_DEST : Fld := ⟨rIMG_CTL, 2, 2⟩
abbrev IMG_CTL_LEAP : Fld := ⟨rIMG_CTL, 4, 1⟩
abbrev IMG_CTL_LEAP_ABORT : Fld := ⟨rIMG_CTL, 5, 1⟩
abbrev IMG_CTL_FLOOR_RAISE : Fld := ⟨rIMG_CTL, 6, 1⟩
abbrev rIMG_STATUS : Nat := 0x10004
abbrev IMG_STATUS_STATE : Fld := ⟨rIMG_STATUS, 0, 4⟩
abbrev IMG_STATUS_SLOT : Fld := ⟨rIMG_STATUS, 4, 1⟩
abbrev IMG_STATUS_PUSHED : Fld := ⟨rIMG_STATUS, 5, 1⟩
abbrev IMG_STATUS_FALLBACK : Fld := ⟨rIMG_STATUS, 6, 1⟩
abbrev IMG_STATUS_HOST_MODIFIED : Fld := ⟨rIMG_STATUS, 7, 1⟩
abbrev IMG_STATUS_FAIL_A : Fld := ⟨rIMG_STATUS, 8, 8⟩
abbrev IMG_STATUS_FAIL_B : Fld := ⟨rIMG_STATUS, 16, 8⟩
abbrev IMG_STATUS_FAIL_PUSH : Fld := ⟨rIMG_STATUS, 24, 8⟩
abbrev rIMG_PUSH_ADDR_LO : Nat := 0x10008
abbrev IMG_PUSH_ADDR_LO_ADDR : Fld := ⟨rIMG_PUSH_ADDR_LO, 0, 32⟩
abbrev rIMG_PUSH_ADDR_HI : Nat := 0x1000C
abbrev IMG_PUSH_ADDR_HI_ADDR : Fld := ⟨rIMG_PUSH_ADDR_HI, 0, 32⟩
abbrev rIMG_PUSH_LEN : Nat := 0x10010
abbrev IMG_PUSH_LEN_LEN : Fld := ⟨rIMG_PUSH_LEN, 0, 23⟩
abbrev rIMG_RUN : Nat := 0x10014
abbrev IMG_RUN_EPOCH : Fld := ⟨rIMG_RUN, 0, 16⟩
abbrev IMG_RUN_FMT : Fld := ⟨rIMG_RUN, 16, 16⟩
abbrev rIMG_CAP : Nat := 0x10018
abbrev IMG_CAP_FMT_MIN : Fld := ⟨rIMG_CAP, 0, 8⟩
abbrev IMG_CAP_FMT_MAX : Fld := ⟨rIMG_CAP, 8, 8⟩
abbrev IMG_CAP_FLOOR : Fld := ⟨rIMG_CAP, 16, 16⟩
abbrev rIMG_OTP_KEYS : Nat := 0x1001C
abbrev IMG_OTP_KEYS_VALID : Fld := ⟨rIMG_OTP_KEYS, 0, 4⟩
abbrev IMG_OTP_KEYS_REVOKED : Fld := ⟨rIMG_OTP_KEYS, 4, 4⟩
abbrev IMG_OTP_KEYS_RAISES : Fld := ⟨rIMG_OTP_KEYS, 8, 6⟩
abbrev rIMG_SLOT_INFO : Nat := 0x10020
abbrev IMG_SLOT_INFO_EPOCH_A : Fld := ⟨rIMG_SLOT_INFO, 0, 16⟩
abbrev IMG_SLOT_INFO_EPOCH_B : Fld := ⟨rIMG_SLOT_INFO, 16, 16⟩
abbrev rAON_MODE_REQ : Nat := 0x20000
abbrev AON_MODE_REQ_REQ : Fld := ⟨rAON_MODE_REQ, 0, 4⟩
abbrev AON_MODE_REQ_KEY : Fld := ⟨rAON_MODE_REQ, 16, 16⟩
abbrev rAON_MODE_INFO : Nat := 0x20004
abbrev AON_MODE_INFO_PREV : Fld := ⟨rAON_MODE_INFO, 0, 4⟩
abbrev AON_MODE_INFO_CAUSE : Fld := ⟨rAON_MODE_INFO, 4, 4⟩
abbrev AON_MODE_INFO_REQ_RESULT : Fld := ⟨rAON_MODE_INFO, 8, 2⟩
abbrev AON_MODE_INFO_HOLD_PENDING : Fld := ⟨rAON_MODE_INFO, 10, 1⟩
abbrev AON_MODE_INFO_C4_LATCH : Fld := ⟨rAON_MODE_INFO, 11, 1⟩
abbrev AON_MODE_INFO_SNAP_LOST : Fld := ⟨rAON_MODE_INFO, 12, 1⟩
abbrev AON_MODE_INFO_PARTNER_PARKED : Fld := ⟨rAON_MODE_INFO, 13, 1⟩
abbrev rAON_WAKE_CFG : Nat := 0x20008
abbrev AON_WAKE_CFG_PIN_EN : Fld := ⟨rAON_WAKE_CFG, 0, 8⟩
abbrev AON_WAKE_CFG_PIN_POL : Fld := ⟨rAON_WAKE_CFG, 8, 8⟩
abbrev AON_WAKE_CFG_DEBOUNCE : Fld := ⟨rAON_WAKE_CFG, 16, 4⟩
abbrev AON_WAKE_CFG_ALARM_EN : Fld := ⟨rAON_WAKE_CFG, 20, 1⟩
abbrev AON_WAKE_CFG_I2C_EN : Fld := ⟨rAON_WAKE_CFG, 21, 1⟩
abbrev rAON_WAKE_DET (n : Nat) : Nat := 0x20020 + 0x4 * n
abbrev AON_WAKE_DET_LANE (n : Nat) : Fld := ⟨rAON_WAKE_DET n, 0, 5⟩
abbrev AON_WAKE_DET_EN (n : Nat) : Fld := ⟨rAON_WAKE_DET n, 8, 1⟩
abbrev AON_WAKE_DET_ARMED (n : Nat) : Fld := ⟨rAON_WAKE_DET n, 16, 1⟩
abbrev rAON_WAKE_CAUSE : Nat := 0x20040
abbrev AON_WAKE_CAUSE_PIN : Fld := ⟨rAON_WAKE_CAUSE, 0, 8⟩
abbrev AON_WAKE_CAUSE_DET : Fld := ⟨rAON_WAKE_CAUSE, 8, 8⟩
abbrev AON_WAKE_CAUSE_ALARM : Fld := ⟨rAON_WAKE_CAUSE, 16, 1⟩
abbrev AON_WAKE_CAUSE_I2C : Fld := ⟨rAON_WAKE_CAUSE, 17, 1⟩
abbrev rAON_ALARM : Nat := 0x20044
abbrev AON_ALARM_SECONDS : Fld := ⟨rAON_ALARM, 0, 32⟩
abbrev rAON_RESET_CAUSE : Nat := 0x20048
abbrev AON_RESET_CAUSE_POWER_ON : Fld := ⟨rAON_RESET_CAUSE, 0, 1⟩
abbrev AON_RESET_CAUSE_PORST : Fld := ⟨rAON_RESET_CAUSE, 1, 1⟩
abbrev AON_RESET_CAUSE_WARM : Fld := ⟨rAON_RESET_CAUSE, 2, 1⟩
abbrev AON_RESET_CAUSE_C4_CYCLE : Fld := ⟨rAON_RESET_CAUSE, 3, 1⟩
abbrev AON_RESET_CAUSE_WAKE : Fld := ⟨rAON_RESET_CAUSE, 4, 1⟩
abbrev rAON_PCYCLE : Nat := 0x2004C
abbrev AON_PCYCLE_COUNT : Fld := ⟨rAON_PCYCLE, 0, 24⟩
abbrev rAON_OPSEC_LO : Nat := 0x20050
abbrev AON_OPSEC_LO_SECONDS : Fld := ⟨rAON_OPSEC_LO, 0, 32⟩
abbrev rAON_OPSEC_HI : Nat := 0x20054
abbrev AON_OPSEC_HI_SECONDS : Fld := ⟨rAON_OPSEC_HI, 0, 8⟩
abbrev rLAN_CTL (c : Nat) : Nat := 0x100000 + 0x1000 * c
abbrev LAN_CTL_AN_EN (c : Nat) : Fld := ⟨rLAN_CTL c, 0, 1⟩
abbrev LAN_CTL_LT_EN (c : Nat) : Fld := ⟨rLAN_CTL c, 1, 1⟩
abbrev LAN_CTL_RETRAIN (c : Nat) : Fld := ⟨rLAN_CTL c, 2, 1⟩
abbrev LAN_CTL_TRAIN_LIMIT (c : Nat) : Fld := ⟨rLAN_CTL c, 8, 7⟩
abbrev rLAN_STATUS (c : Nat) : Nat := 0x100004 + 0x1000 * c
abbrev LAN_STATUS_SIGNAL (c : Nat) : Fld := ⟨rLAN_STATUS c, 0, 1⟩
abbrev LAN_STATUS_CDR_LOCK (c : Nat) : Fld := ⟨rLAN_STATUS c, 1, 1⟩
abbrev LAN_STATUS_TRAINED (c : Nat) : Fld := ⟨rLAN_STATUS c, 2, 1⟩
abbrev LAN_STATUS_AN_DONE (c : Nat) : Fld := ⟨rLAN_STATUS c, 3, 1⟩
abbrev LAN_STATUS_AN_MISMATCH (c : Nat) : Fld := ⟨rLAN_STATUS c, 4, 1⟩
abbrev LAN_STATUS_LOCKED (c : Nat) : Fld := ⟨rLAN_STATUS c, 5, 1⟩
abbrev LAN_STATUS_DOWN_DECLARED (c : Nat) : Fld := ⟨rLAN_STATUS c, 6, 1⟩
abbrev LAN_STATUS_EQ_PRESET (c : Nat) : Fld := ⟨rLAN_STATUS c, 8, 4⟩
abbrev rLAN_FEC_CORR (c : Nat) : Nat := 0x100008 + 0x1000 * c
abbrev LAN_FEC_CORR_COUNT (c : Nat) : Fld := ⟨rLAN_FEC_CORR c, 0, 32⟩
abbrev rLAN_FEC_UNCORR (c : Nat) : Nat := 0x10000C + 0x1000 * c
abbrev LAN_FEC_UNCORR_COUNT (c : Nat) : Fld := ⟨rLAN_FEC_UNCORR c, 0, 32⟩
abbrev rLAN_EYE (c : Nat) : Nat := 0x100010 + 0x1000 * c
abbrev LAN_EYE_HEIGHT (c : Nat) : Fld := ⟨rLAN_EYE c, 0, 16⟩
abbrev LAN_EYE_WIDTH (c : Nat) : Fld := ⟨rLAN_EYE c, 16, 16⟩
abbrev rMAC_CTL (p : Nat) : Nat := 0x200000 + 0x1000 * p
abbrev MAC_CTL_EN (p : Nat) : Fld := ⟨rMAC_CTL p, 0, 1⟩
abbrev MAC_CTL_RX_PAUSE_EN (p : Nat) : Fld := ⟨rMAC_CTL p, 1, 1⟩
abbrev MAC_CTL_TX_PAUSE_EN (p : Nat) : Fld := ⟨rMAC_CTL p, 2, 1⟩
abbrev MAC_CTL_FC_MODE (p : Nat) : Fld := ⟨rMAC_CTL p, 3, 1⟩
abbrev MAC_CTL_PREEMPT_EN (p : Nat) : Fld := ⟨rMAC_CTL p, 4, 1⟩
abbrev MAC_CTL_VERIFY_DIS (p : Nat) : Fld := ⟨rMAC_CTL p, 5, 1⟩
abbrev MAC_CTL_WAKE_TX (p : Nat) : Fld := ⟨rMAC_CTL p, 6, 1⟩
abbrev MAC_CTL_PFC_IGNORE (p : Nat) : Fld := ⟨rMAC_CTL p, 16, 8⟩
abbrev rMAC_STATUS (p : Nat) : Nat := 0x200004 + 0x1000 * p
abbrev MAC_STATUS_LINK (p : Nat) : Fld := ⟨rMAC_STATUS p, 0, 1⟩
abbrev MAC_STATUS_EN_PENDING (p : Nat) : Fld := ⟨rMAC_STATUS p, 1, 1⟩
abbrev MAC_STATUS_SHUTDOWN (p : Nat) : Fld := ⟨rMAC_STATUS p, 2, 1⟩
abbrev MAC_STATUS_LOCAL_FAULT (p : Nat) : Fld := ⟨rMAC_STATUS p, 3, 1⟩
abbrev MAC_STATUS_REMOTE_FAULT (p : Nat) : Fld := ⟨rMAC_STATUS p, 4, 1⟩
abbrev MAC_STATUS_VERIFY (p : Nat) : Fld := ⟨rMAC_STATUS p, 5, 2⟩
abbrev MAC_STATUS_LINK_CHG (p : Nat) : Fld := ⟨rMAC_STATUS p, 7, 1⟩
abbrev MAC_STATUS_PAUSED (p : Nat) : Fld := ⟨rMAC_STATUS p, 8, 8⟩
abbrev MAC_STATUS_WAKE_TX_BUSY (p : Nat) : Fld := ⟨rMAC_STATUS p, 16, 1⟩
abbrev rMAC_LINK_CFG (p : Nat) : Nat := 0x200008 + 0x1000 * p
abbrev MAC_LINK_CFG_DOWN_US (p : Nat) : Fld := ⟨rMAC_LINK_CFG p, 0, 10⟩
abbrev MAC_LINK_CFG_UP_MS (p : Nat) : Fld := ⟨rMAC_LINK_CFG p, 16, 7⟩
abbrev rMAC_PFC_MAP (p : Nat) : Nat := 0x20000C + 0x1000 * p
abbrev MAC_PFC_MAP_MAP (p : Nat) : Fld := ⟨rMAC_PFC_MAP p, 0, 24⟩
abbrev rMAC_PAUSE_TX (p : Nat) : Nat := 0x200010 + 0x1000 * p
abbrev MAC_PAUSE_TX_QUANTA (p : Nat) : Fld := ⟨rMAC_PAUSE_TX p, 0, 16⟩
abbrev MAC_PAUSE_TX_REFRESH (p : Nat) : Fld := ⟨rMAC_PAUSE_TX p, 16, 16⟩
abbrev rMAC_PREEMPT (p : Nat) : Nat := 0x200014 + 0x1000 * p
abbrev MAC_PREEMPT_PMAC_MASK (p : Nat) : Fld := ⟨rMAC_PREEMPT p, 0, 8⟩
abbrev MAC_PREEMPT_ADD_FRAG (p : Nat) : Fld := ⟨rMAC_PREEMPT p, 8, 2⟩
abbrev MAC_PREEMPT_VERIFY_MS (p : Nat) : Fld := ⟨rMAC_PREEMPT p, 16, 7⟩
abbrev rMAC_TS_ADJ (p : Nat) : Nat := 0x200018 + 0x1000 * p
abbrev MAC_TS_ADJ_RX_ADJ (p : Nat) : Fld := ⟨rMAC_TS_ADJ p, 0, 16⟩
abbrev MAC_TS_ADJ_TX_ADJ (p : Nat) : Fld := ⟨rMAC_TS_ADJ p, 16, 16⟩
abbrev rMAC_SEC_CTL (p : Nat) : Nat := 0x200040 + 0x1000 * p
abbrev MAC_SEC_CTL_VALIDATE (p : Nat) : Fld := ⟨rMAC_SEC_CTL p, 0, 2⟩
abbrev MAC_SEC_CTL_XPN (p : Nat) : Fld := ⟨rMAC_SEC_CTL p, 2, 1⟩
abbrev MAC_SEC_CTL_CONF_OFFSET (p : Nat) : Fld := ⟨rMAC_SEC_CTL p, 3, 2⟩
abbrev MAC_SEC_CTL_PROTECT (p : Nat) : Fld := ⟨rMAC_SEC_CTL p, 5, 1⟩
abbrev MAC_SEC_CTL_ENCRYPT (p : Nat) : Fld := ⟨rMAC_SEC_CTL p, 6, 1⟩
abbrev MAC_SEC_CTL_INCLUDE_SCI (p : Nat) : Fld := ⟨rMAC_SEC_CTL p, 7, 1⟩
abbrev MAC_SEC_CTL_TX_AN (p : Nat) : Fld := ⟨rMAC_SEC_CTL p, 8, 2⟩
abbrev rMAC_SEC_EXEMPT (p : Nat) (n : Nat) : Nat := 0x200044 + 0x1000 * p + 0x4 * n
abbrev MAC_SEC_EXEMPT_ETYPE (p : Nat) (n : Nat) : Fld := ⟨rMAC_SEC_EXEMPT p n, 0, 16⟩
abbrev MAC_SEC_EXEMPT_EN (p : Nat) (n : Nat) : Fld := ⟨rMAC_SEC_EXEMPT p n, 16, 1⟩
abbrev rMAC_SEC_SEL (p : Nat) : Nat := 0x200054 + 0x1000 * p
abbrev MAC_SEC_SEL_AN (p : Nat) : Fld := ⟨rMAC_SEC_SEL p, 0, 2⟩
abbrev MAC_SEC_SEL_SC (p : Nat) : Fld := ⟨rMAC_SEC_SEL p, 2, 4⟩
abbrev rMAC_SEC_KEY (p : Nat) (n : Nat) : Nat := 0x200058 + 0x1000 * p + 0x4 * n
abbrev MAC_SEC_KEY_KEY (p : Nat) (n : Nat) : Fld := ⟨rMAC_SEC_KEY p n, 0, 32⟩
abbrev rMAC_SEC_SALT (p : Nat) (n : Nat) : Nat := 0x200078 + 0x1000 * p + 0x4 * n
abbrev MAC_SEC_SALT_SALT (p : Nat) (n : Nat) : Fld := ⟨rMAC_SEC_SALT p n, 0, 32⟩
abbrev rMAC_SEC_SSCI (p : Nat) : Nat := 0x200084 + 0x1000 * p
abbrev MAC_SEC_SSCI_SSCI (p : Nat) : Fld := ⟨rMAC_SEC_SSCI p, 0, 32⟩
abbrev rMAC_SEC_PN_LO (p : Nat) : Nat := 0x200088 + 0x1000 * p
abbrev MAC_SEC_PN_LO_PN (p : Nat) : Fld := ⟨rMAC_SEC_PN_LO p, 0, 32⟩
abbrev rMAC_SEC_PN_HI (p : Nat) : Nat := 0x20008C + 0x1000 * p
abbrev MAC_SEC_PN_HI_PN (p : Nat) : Fld := ⟨rMAC_SEC_PN_HI p, 0, 32⟩
abbrev rMAC_SEC_SCI_LO (p : Nat) : Nat := 0x200090 + 0x1000 * p
abbrev MAC_SEC_SCI_LO_SCI (p : Nat) : Fld := ⟨rMAC_SEC_SCI_LO p, 0, 32⟩
abbrev rMAC_SEC_SCI_HI (p : Nat) : Nat := 0x200094 + 0x1000 * p
abbrev MAC_SEC_SCI_HI_SCI (p : Nat) : Fld := ⟨rMAC_SEC_SCI_HI p, 0, 32⟩
abbrev rMAC_SEC_REPLAY (p : Nat) : Nat := 0x200098 + 0x1000 * p
abbrev MAC_SEC_REPLAY_WINDOW (p : Nat) : Fld := ⟨rMAC_SEC_REPLAY p, 0, 30⟩
abbrev MAC_SEC_REPLAY_REPLAY_EN (p : Nat) : Fld := ⟨rMAC_SEC_REPLAY p, 31, 1⟩
abbrev rMAC_SEC_TX_EN (p : Nat) : Nat := 0x20009C + 0x1000 * p
abbrev MAC_SEC_TX_EN_EN (p : Nat) : Fld := ⟨rMAC_SEC_TX_EN p, 0, 4⟩
abbrev MAC_SEC_TX_EN_EXHAUSTED (p : Nat) : Fld := ⟨rMAC_SEC_TX_EN p, 4, 4⟩
abbrev MAC_SEC_TX_EN_PN_NEAR (p : Nat) : Fld := ⟨rMAC_SEC_TX_EN p, 8, 4⟩
abbrev rMAC_SEC_RX_EN (p : Nat) : Nat := 0x2000A0 + 0x1000 * p
abbrev MAC_SEC_RX_EN_EN (p : Nat) : Fld := ⟨rMAC_SEC_RX_EN p, 0, 32⟩
abbrev rHSQ_ENG_STATUS (e : Nat) : Nat := 0x300000 + 0x1000 * e
abbrev HSQ_ENG_STATUS_COPY (e : Nat) : Fld := ⟨rHSQ_ENG_STATUS e, 0, 3⟩
abbrev HSQ_ENG_STATUS_KIND (e : Nat) : Fld := ⟨rHSQ_ENG_STATUS e, 3, 2⟩
abbrev HSQ_ENG_STATUS_POWERED (e : Nat) : Fld := ⟨rHSQ_ENG_STATUS e, 5, 1⟩
abbrev HSQ_ENG_STATUS_BUSY (e : Nat) : Fld := ⟨rHSQ_ENG_STATUS e, 8, 7⟩
abbrev HSQ_ENG_STATUS_PEAK (e : Nat) : Fld := ⟨rHSQ_ENG_STATUS e, 16, 7⟩
abbrev rHSQ_WAIT_TMO (e : Nat) : Nat := 0x300004 + 0x1000 * e
abbrev HSQ_WAIT_TMO_LONG_NS (e : Nat) : Fld := ⟨rHSQ_WAIT_TMO e, 0, 11⟩
abbrev HSQ_WAIT_TMO_SHORT_NS (e : Nat) : Fld := ⟨rHSQ_WAIT_TMO e, 16, 11⟩
abbrev rHSQ_ABORT_CNT (e : Nat) : Nat := 0x300008 + 0x1000 * e
abbrev HSQ_ABORT_CNT_COUNT (e : Nat) : Fld := ⟨rHSQ_ABORT_CNT e, 0, 32⟩
abbrev rHSQ_ABORT_INFO (e : Nat) : Nat := 0x30000C + 0x1000 * e
abbrev HSQ_ABORT_INFO_ADDR (e : Nat) : Fld := ⟨rHSQ_ABORT_INFO e, 0, 16⟩
abbrev HSQ_ABORT_INFO_CAUSE (e : Nat) : Fld := ⟨rHSQ_ABORT_INFO e, 16, 4⟩
abbrev HSQ_ABORT_INFO_THREAD (e : Nat) : Fld := ⟨rHSQ_ABORT_INFO e, 20, 6⟩
abbrev HSQ_ABORT_INFO_VALID (e : Nat) : Fld := ⟨rHSQ_ABORT_INFO e, 31, 1⟩
abbrev rHSQ_NOSLOT_CNT (e : Nat) : Nat := 0x300010 + 0x1000 * e
abbrev HSQ_NOSLOT_CNT_COUNT (e : Nat) : Fld := ⟨rHSQ_NOSLOT_CNT e, 0, 32⟩
abbrev rHSQ_SAMPLE (e : Nat) : Nat := 0x300020 + 0x1000 * e
abbrev HSQ_SAMPLE_ADDR (e : Nat) : Fld := ⟨rHSQ_SAMPLE e, 0, 16⟩
abbrev HSQ_SAMPLE_SKID (e : Nat) : Fld := ⟨rHSQ_SAMPLE e, 16, 4⟩
abbrev HSQ_SAMPLE_THREAD (e : Nat) : Fld := ⟨rHSQ_SAMPLE e, 20, 6⟩
abbrev HSQ_SAMPLE_ENDED (e : Nat) : Fld := ⟨rHSQ_SAMPLE e, 26, 1⟩
abbrev HSQ_SAMPLE_VALID (e : Nat) : Fld := ⟨rHSQ_SAMPLE e, 31, 1⟩
abbrev rHSQ_SAMPLE_LOST (e : Nat) : Nat := 0x300024 + 0x1000 * e
abbrev HSQ_SAMPLE_LOST_COUNT (e : Nat) : Fld := ⟨rHSQ_SAMPLE_LOST e, 0, 16⟩
abbrev rHSQ_ROM_STATUS (c : Nat) : Nat := 0x320000 + 0x4000 * c
abbrev HSQ_ROM_STATUS_ROM_VER (c : Nat) : Fld := ⟨rHSQ_ROM_STATUS c, 0, 16⟩
abbrev HSQ_ROM_STATUS_SIG_OK (c : Nat) : Fld := ⟨rHSQ_ROM_STATUS c, 16, 1⟩
abbrev HSQ_ROM_STATUS_PATCHED (c : Nat) : Fld := ⟨rHSQ_ROM_STATUS c, 17, 1⟩
abbrev rHSQ_PATCH_ECC (c : Nat) : Nat := 0x320004 + 0x4000 * c
abbrev HSQ_PATCH_ECC_CORR (c : Nat) : Fld := ⟨rHSQ_PATCH_ECC c, 0, 16⟩
abbrev HSQ_PATCH_ECC_UNCORR (c : Nat) : Fld := ⟨rHSQ_PATCH_ECC c, 16, 16⟩
abbrev rHSQ_MATCH (c : Nat) (n : Nat) : Nat := 0x320100 + 0x4000 * c + 0x4 * n
abbrev HSQ_MATCH_ROM_ADDR (c : Nat) (n : Nat) : Fld := ⟨rHSQ_MATCH c n, 0, 15⟩
abbrev HSQ_MATCH_PATCH_IDX (c : Nat) (n : Nat) : Fld := ⟨rHSQ_MATCH c n, 16, 11⟩
abbrev HSQ_MATCH_VALID (c : Nat) (n : Nat) : Fld := ⟨rHSQ_MATCH c n, 31, 1⟩
abbrev rHSQ_PATCH_WORD (c : Nat) (m : Nat) : Nat := 0x322000 + 0x4000 * c + 0x4 * m
abbrev HSQ_PATCH_WORD_WORD (c : Nat) (m : Nat) : Fld := ⟨rHSQ_PATCH_WORD c m, 0, 24⟩
abbrev rPRS_CFG : Nat := 0x340000
abbrev PRS_CFG_REACH : Fld := ⟨rPRS_CFG, 0, 9⟩
abbrev PRS_CFG_LAYERS : Fld := ⟨rPRS_CFG, 16, 5⟩
abbrev PRS_CFG_REACH_ACTION : Fld := ⟨rPRS_CFG, 24, 1⟩
abbrev rPRS_GRAPH : Nat := 0x340004
abbrev PRS_GRAPH_NODES : Fld := ⟨rPRS_GRAPH, 0, 9⟩
abbrev rPRS_KEYWIN (n : Nat) : Nat := 0x340008 + 0x4 * n
abbrev PRS_KEYWIN_START (n : Nat) : Fld := ⟨rPRS_KEYWIN n, 0, 6⟩
abbrev PRS_KEYWIN_WIDTH (n : Nat) : Fld := ⟨rPRS_KEYWIN n, 6, 2⟩
abbrev rPRS_VXLAN_PORT : Nat := 0x340028
abbrev PRS_VXLAN_PORT_PORT : Fld := ⟨rPRS_VXLAN_PORT, 0, 16⟩
abbrev PRS_VXLAN_PORT_EN : Fld := ⟨rPRS_VXLAN_PORT, 16, 1⟩
abbrev rPRS_DOIP_PORT : Nat := 0x34002C
abbrev PRS_DOIP_PORT_PORT : Fld := ⟨rPRS_DOIP_PORT, 0, 16⟩
abbrev PRS_DOIP_PORT_EN : Fld := ⟨rPRS_DOIP_PORT, 16, 1⟩
abbrev rPRS_SOMEIP_PORT (n : Nat) : Nat := 0x340030 + 0x4 * n
abbrev PRS_SOMEIP_PORT_PORT (n : Nat) : Fld := ⟨rPRS_SOMEIP_PORT n, 0, 16⟩
abbrev PRS_SOMEIP_PORT_EN (n : Nat) : Fld := ⟨rPRS_SOMEIP_PORT n, 16, 1⟩
abbrev rPRS_Q_FRAMES (q : Nat) : Nat := 0x341000 + 0x1000 * q
abbrev PRS_Q_FRAMES_COUNT (q : Nat) : Fld := ⟨rPRS_Q_FRAMES q, 0, 32⟩
abbrev rPRS_Q_REACH_EXH (q : Nat) : Nat := 0x341004 + 0x1000 * q
abbrev PRS_Q_REACH_EXH_COUNT (q : Nat) : Fld := ⟨rPRS_Q_REACH_EXH q, 0, 32⟩
abbrev rPRS_Q_MALFORMED (q : Nat) : Nat := 0x341008 + 0x1000 * q
abbrev PRS_Q_MALFORMED_COUNT (q : Nat) : Fld := ⟨rPRS_Q_MALFORMED q, 0, 32⟩
abbrev rPRS_Q_LAST_MAL (q : Nat) : Nat := 0x34100C + 0x1000 * q
abbrev PRS_Q_LAST_MAL_PORT (q : Nat) : Fld := ⟨rPRS_Q_LAST_MAL q, 0, 7⟩
abbrev PRS_Q_LAST_MAL_CAUSE (q : Nat) : Fld := ⟨rPRS_Q_LAST_MAL q, 8, 3⟩
abbrev PRS_Q_LAST_MAL_LAYER (q : Nat) : Fld := ⟨rPRS_Q_LAST_MAL q, 12, 4⟩
abbrev PRS_Q_LAST_MAL_OFFSET (q : Nat) : Fld := ⟨rPRS_Q_LAST_MAL q, 16, 8⟩
abbrev PRS_Q_LAST_MAL_VALID (q : Nat) : Fld := ⟨rPRS_Q_LAST_MAL q, 31, 1⟩
abbrev rPRS_Q_PEAK_NS (q : Nat) : Nat := 0x341010 + 0x1000 * q
abbrev PRS_Q_PEAK_NS_NS (q : Nat) : Fld := ⟨rPRS_Q_PEAK_NS q, 0, 12⟩
abbrev rCLS_GEN : Nat := 0x400000
abbrev CLS_GEN_CURRENT : Fld := ⟨rCLS_GEN, 0, 16⟩
abbrev CLS_GEN_NEXT : Fld := ⟨rCLS_GEN, 16, 16⟩
abbrev rCLS_COMMIT : Nat := 0x400004
abbrev CLS_COMMIT_GO : Fld := ⟨rCLS_COMMIT, 0, 1⟩
abbrev CLS_COMMIT_DISCARD : Fld := ⟨rCLS_COMMIT, 1, 1⟩
abbrev rCLS_COMMIT_STATUS : Nat := 0x400008
abbrev CLS_COMMIT_STATUS_RESULT : Fld := ⟨rCLS_COMMIT_STATUS, 0, 3⟩
abbrev CLS_COMMIT_STATUS_GEN : Fld := ⟨rCLS_COMMIT_STATUS, 16, 16⟩
abbrev rCLS_OUTSTANDING : Nat := 0x40000C
abbrev CLS_OUTSTANDING_COUNT : Fld := ⟨rCLS_OUTSTANDING, 0, 3⟩
abbrev CLS_OUTSTANDING_TAGS : Fld := ⟨rCLS_OUTSTANDING, 8, 8⟩
abbrev CLS_OUTSTANDING_OLDEST : Fld := ⟨rCLS_OUTSTANDING, 16, 16⟩
abbrev rCLS_DRAIN (t : Nat) : Nat := 0x400010 + 0x4 * t
abbrev CLS_DRAIN_GEN (t : Nat) : Fld := ⟨rCLS_DRAIN t, 0, 16⟩
abbrev CLS_DRAIN_COUNT (t : Nat) : Fld := ⟨rCLS_DRAIN t, 16, 12⟩
abbrev CLS_DRAIN_DRAINED (t : Nat) : Fld := ⟨rCLS_DRAIN t, 28, 1⟩
abbrev CLS_DRAIN_SETTLED (t : Nat) : Fld := ⟨rCLS_DRAIN t, 29, 1⟩
abbrev CLS_DRAIN_RETIRED (t : Nat) : Fld := ⟨rCLS_DRAIN t, 30, 1⟩
abbrev CLS_DRAIN_OUTSTANDING (t : Nat) : Fld := ⟨rCLS_DRAIN t, 31, 1⟩
abbrev rCLS_JOURNAL : Nat := 0x400030
abbrev CLS_JOURNAL_STAGED : Fld := ⟨rCLS_JOURNAL, 0, 19⟩
abbrev rCLS_STROKE_NS : Nat := 0x400034
abbrev CLS_STROKE_NS_NS : Fld := ⟨rCLS_STROKE_NS, 0, 32⟩
abbrev rCLS_STROKE_SEC : Nat := 0x400038
abbrev CLS_STROKE_SEC_SEC : Fld := ⟨rCLS_STROKE_SEC, 0, 32⟩
abbrev rCLS_DRAIN_PEAK_NS : Nat := 0x40003C
abbrev CLS_DRAIN_PEAK_NS_NS : Fld := ⟨rCLS_DRAIN_PEAK_NS, 0, 16⟩
abbrev rCLS_INT_STATUS : Nat := 0x400040
abbrev CLS_INT_STATUS_DONE : Fld := ⟨rCLS_INT_STATUS, 0, 1⟩
abbrev CLS_INT_STATUS_REFUSED : Fld := ⟨rCLS_INT_STATUS, 1, 1⟩
abbrev CLS_INT_STATUS_DRAINED : Fld := ⟨rCLS_INT_STATUS, 2, 1⟩
abbrev CLS_INT_STATUS_RETIRED : Fld := ⟨rCLS_INT_STATUS, 3, 1⟩
abbrev CLS_INT_STATUS_WRITE_REFUSED : Fld := ⟨rCLS_INT_STATUS, 4, 1⟩
abbrev CLS_INT_STATUS_DRAIN_TMO : Fld := ⟨rCLS_INT_STATUS, 5, 1⟩
abbrev rCLS_INT_EN : Nat := 0x400044
abbrev CLS_INT_EN_EN : Fld := ⟨rCLS_INT_EN, 0, 6⟩
abbrev rCLS_WREF_CNT : Nat := 0x400048
abbrev CLS_WREF_CNT_COUNT : Fld := ⟨rCLS_WREF_CNT, 0, 32⟩
abbrev rCLS_WREF_ADDR_LO : Nat := 0x40004C
abbrev CLS_WREF_ADDR_LO_ADDR : Fld := ⟨rCLS_WREF_ADDR_LO, 0, 32⟩
abbrev rCLS_WREF_ADDR_HI : Nat := 0x400050
abbrev CLS_WREF_ADDR_HI_ADDR : Fld := ⟨rCLS_WREF_ADDR_HI, 0, 32⟩
abbrev rCLS_WREF_CAUSE : Nat := 0x400054
abbrev CLS_WREF_CAUSE_CAUSE : Fld := ⟨rCLS_WREF_CAUSE, 0, 3⟩
abbrev rCLS_Q_POS (q : Nat) (n : Nat) : Nat := 0x401000 + 0x1000 * q + 0x4 * n
abbrev CLS_Q_POS_KIND (q : Nat) (n : Nat) : Fld := ⟨rCLS_Q_POS q n, 0, 3⟩
abbrev CLS_Q_POS_TABLE (q : Nat) (n : Nat) : Fld := ⟨rCLS_Q_POS q n, 8, 6⟩
abbrev CLS_Q_POS_KEYSEL (q : Nat) (n : Nat) : Fld := ⟨rCLS_Q_POS q n, 16, 3⟩
abbrev rCLS_Q_MISS_LO (q : Nat) (n : Nat) : Nat := 0x401040 + 0x1000 * q + 0x8 * n
abbrev CLS_Q_MISS_LO_ACTION (q : Nat) (n : Nat) : Fld := ⟨rCLS_Q_MISS_LO q n, 0, 32⟩
abbrev rCLS_Q_MISS_HI (q : Nat) (n : Nat) : Nat := 0x401044 + 0x1000 * q + 0x8 * n
abbrev CLS_Q_MISS_HI_ACTION (q : Nat) (n : Nat) : Fld := ⟨rCLS_Q_MISS_HI q n, 0, 32⟩
abbrev rCLS_Q_TREE_HIT (q : Nat) : Nat := 0x4010C0 + 0x1000 * q
abbrev CLS_Q_TREE_HIT_COUNT (q : Nat) : Fld := ⟨rCLS_Q_TREE_HIT q, 0, 32⟩
abbrev rCLS_Q_TREE_MISS (q : Nat) : Nat := 0x4010C4 + 0x1000 * q
abbrev CLS_Q_TREE_MISS_COUNT (q : Nat) : Fld := ⟨rCLS_Q_TREE_MISS q, 0, 32⟩
abbrev rCLS_Q_WALK_PEAK_NS (q : Nat) : Nat := 0x4010C8 + 0x1000 * q
abbrev CLS_Q_WALK_PEAK_NS_NS (q : Nat) : Fld := ⟨rCLS_Q_WALK_PEAK_NS q, 0, 16⟩
abbrev rCLS_Q_WALK_ABORT (q : Nat) : Nat := 0x4010CC + 0x1000 * q
abbrev CLS_Q_WALK_ABORT_COUNT (q : Nat) : Fld := ⟨rCLS_Q_WALK_ABORT q, 0, 32⟩
abbrev rCLS_Q_FLOW_DRAM_HIT (q : Nat) : Nat := 0x4010D0 + 0x1000 * q
abbrev CLS_Q_FLOW_DRAM_HIT_COUNT (q : Nat) : Fld := ⟨rCLS_Q_FLOW_DRAM_HIT q, 0, 32⟩
abbrev rCLS_Q_UNRESOLVED (q : Nat) : Nat := 0x4010D4 + 0x1000 * q
abbrev CLS_Q_UNRESOLVED_COUNT (q : Nat) : Fld := ⟨rCLS_Q_UNRESOLVED q, 0, 32⟩
abbrev rCLS_Q_BAD_OP (q : Nat) : Nat := 0x4010D8 + 0x1000 * q
abbrev CLS_Q_BAD_OP_COUNT (q : Nat) : Fld := ⟨rCLS_Q_BAD_OP q, 0, 32⟩
abbrev rCLS_ROOT_ADDR (k : Nat) (s : Nat) : Nat := 0x408000 + 0x40 * k + 0x8 * s
abbrev CLS_ROOT_ADDR_LINE (k : Nat) (s : Nat) : Fld := ⟨rCLS_ROOT_ADDR k s, 0, 24⟩
abbrev rCLS_ROOT_LIFE (k : Nat) (s : Nat) : Nat := 0x408004 + 0x40 * k + 0x8 * s
abbrev CLS_ROOT_LIFE_LIFE (k : Nat) (s : Nat) : Fld := ⟨rCLS_ROOT_LIFE k s, 0, 16⟩
abbrev rASM_TBL_CFG (k : Nat) : Nat := 0x480000 + 0x4 * k
abbrev ASM_TBL_CFG_CHAIN (k : Nat) : Fld := ⟨rASM_TBL_CFG k, 0, 1⟩
abbrev ASM_TBL_CFG_GLOBAL (k : Nat) : Fld := ⟨rASM_TBL_CFG k, 1, 1⟩
abbrev ASM_TBL_CFG_PF_EN (k : Nat) : Fld := ⟨rASM_TBL_CFG k, 2, 1⟩
abbrev ASM_TBL_CFG_PF_BIT (k : Nat) : Fld := ⟨rASM_TBL_CFG k, 4, 9⟩
abbrev ASM_TBL_CFG_BLOCKS (k : Nat) : Fld := ⟨rASM_TBL_CFG k, 16, 5⟩
abbrev rASM_Q_BLK (q : Nat) (n : Nat) : Nat := 0x481000 + 0x1000 * q + 0x4 * n
abbrev ASM_Q_BLK_TABLE (q : Nat) (n : Nat) : Fld := ⟨rASM_Q_BLK q n, 0, 6⟩
abbrev ASM_Q_BLK_USED (q : Nat) (n : Nat) : Fld := ⟨rASM_Q_BLK q n, 6, 1⟩
abbrev ASM_Q_BLK_ODD (q : Nat) (n : Nat) : Fld := ⟨rASM_Q_BLK q n, 7, 1⟩
abbrev ASM_Q_BLK_POWERED (q : Nat) (n : Nat) : Fld := ⟨rASM_Q_BLK q n, 8, 1⟩
abbrev rASM_Q_SEARCH (q : Nat) : Nat := 0x481060 + 0x1000 * q
abbrev ASM_Q_SEARCH_COUNT (q : Nat) : Fld := ⟨rASM_Q_SEARCH q, 0, 32⟩
abbrev rASM_Q_COMPARED (q : Nat) : Nat := 0x481064 + 0x1000 * q
abbrev ASM_Q_COMPARED_COUNT (q : Nat) : Fld := ⟨rASM_Q_COMPARED q, 0, 32⟩
abbrev rASM_Q_CONFIRM_FAIL (q : Nat) : Nat := 0x481068 + 0x1000 * q
abbrev ASM_Q_CONFIRM_FAIL_COUNT (q : Nat) : Fld := ⟨rASM_Q_CONFIRM_FAIL q, 0, 16⟩
abbrev rASM_Q_REPAIR (q : Nat) : Nat := 0x48106C + 0x1000 * q
abbrev ASM_Q_REPAIR_COUNT (q : Nat) : Fld := ⟨rASM_Q_REPAIR q, 0, 16⟩
abbrev rASM_Q_LOST_DROP (q : Nat) : Nat := 0x481070 + 0x1000 * q
abbrev ASM_Q_LOST_DROP_COUNT (q : Nat) : Fld := ⟨rASM_Q_LOST_DROP q, 0, 32⟩
abbrev rASM_Q_LOST_INFO (q : Nat) : Nat := 0x481074 + 0x1000 * q
abbrev ASM_Q_LOST_INFO_ROW (q : Nat) : Fld := ⟨rASM_Q_LOST_INFO q, 0, 9⟩
abbrev ASM_Q_LOST_INFO_BLOCK (q : Nat) : Fld := ⟨rASM_Q_LOST_INFO q, 16, 5⟩
abbrev ASM_Q_LOST_INFO_VALID (q : Nat) : Fld := ⟨rASM_Q_LOST_INFO q, 31, 1⟩
abbrev rFWD_LEARN_CFG : Nat := 0x500000
abbrev FWD_LEARN_CFG_EN : Fld := ⟨rFWD_LEARN_CFG, 0, 1⟩
abbrev FWD_LEARN_CFG_STATIC_DROP : Fld := ⟨rFWD_LEARN_CFG, 1, 1⟩
abbrev FWD_LEARN_CFG_HOLD_US : Fld := ⟨rFWD_LEARN_CFG, 8, 16⟩
abbrev rFWD_LEARN_PORTS0 : Nat := 0x500004
abbrev FWD_LEARN_PORTS0_EN : Fld := ⟨rFWD_LEARN_PORTS0, 0, 32⟩
abbrev rFWD_LEARN_PORTS1 : Nat := 0x500008
abbrev FWD_LEARN_PORTS1_EN : Fld := ⟨rFWD_LEARN_PORTS1, 0, 32⟩
abbrev rFWD_LEARN_PORTS2 : Nat := 0x50000C
abbrev FWD_LEARN_PORTS2_EN : Fld := ⟨rFWD_LEARN_PORTS2, 0, 4⟩
abbrev rFWD_LRING_BASE_LO : Nat := 0x500010
abbrev FWD_LRING_BASE_LO_ADDR : Fld := ⟨rFWD_LRING_BASE_LO, 0, 32⟩
abbrev rFWD_LRING_BASE_HI : Nat := 0x500014
abbrev FWD_LRING_BASE_HI_ADDR : Fld := ⟨rFWD_LRING_BASE_HI, 0, 32⟩
abbrev rFWD_LRING_CFG : Nat := 0x500018
abbrev FWD_LRING_CFG_EN : Fld := ⟨rFWD_LRING_CFG, 0, 1⟩
abbrev FWD_LRING_CFG_THRESH : Fld := ⟨rFWD_LRING_CFG, 16, 16⟩
abbrev rFWD_LRING_HEAD : Nat := 0x50001C
abbrev FWD_LRING_HEAD_INDEX : Fld := ⟨rFWD_LRING_HEAD, 0, 16⟩
abbrev FWD_LRING_HEAD_PHASE : Fld := ⟨rFWD_LRING_HEAD, 16, 1⟩
abbrev rFWD_LRING_TAIL : Nat := 0x500020
abbrev FWD_LRING_TAIL_INDEX : Fld := ⟨rFWD_LRING_TAIL, 0, 16⟩
abbrev rFWD_FILTER_USED : Nat := 0x500024
abbrev FWD_FILTER_USED_COUNT : Fld := ⟨rFWD_FILTER_USED, 0, 13⟩
abbrev rFWD_LEARN_POSTED : Nat := 0x500028
abbrev FWD_LEARN_POSTED_COUNT : Fld := ⟨rFWD_LEARN_POSTED, 0, 32⟩
abbrev rFWD_LEARN_SUPPR : Nat := 0x50002C
abbrev FWD_LEARN_SUPPR_COUNT : Fld := ⟨rFWD_LEARN_SUPPR, 0, 32⟩
abbrev rFWD_LEARN_CONTESTED : Nat := 0x500030
abbrev FWD_LEARN_CONTESTED_COUNT : Fld := ⟨rFWD_LEARN_CONTESTED, 0, 32⟩
abbrev rFWD_LEARN_FILT_FULL : Nat := 0x500034
abbrev FWD_LEARN_FILT_FULL_COUNT : Fld := ⟨rFWD_LEARN_FILT_FULL, 0, 32⟩
abbrev rFWD_LEARN_RING_FULL : Nat := 0x500038
abbrev FWD_LEARN_RING_FULL_COUNT : Fld := ⟨rFWD_LEARN_RING_FULL, 0, 32⟩
abbrev rFWD_INT_STATUS : Nat := 0x50003C
abbrev FWD_INT_STATUS_RING_THRESH : Fld := ⟨rFWD_INT_STATUS, 0, 1⟩
abbrev FWD_INT_STATUS_RING_FULL : Fld := ⟨rFWD_INT_STATUS, 1, 1⟩
abbrev FWD_INT_STATUS_REHASH_REQ : Fld := ⟨rFWD_INT_STATUS, 2, 1⟩
abbrev FWD_INT_STATUS_INS_DONE : Fld := ⟨rFWD_INT_STATUS, 3, 1⟩
abbrev FWD_INT_STATUS_AGE_SKIP : Fld := ⟨rFWD_INT_STATUS, 4, 1⟩
abbrev rFWD_INT_EN : Nat := 0x500040
abbrev FWD_INT_EN_EN : Fld := ⟨rFWD_INT_EN, 0, 5⟩
abbrev rFWD_ROPE_EGR_LO : Nat := 0x500044
abbrev FWD_ROPE_EGR_LO_MASK : Fld := ⟨rFWD_ROPE_EGR_LO, 0, 32⟩
abbrev rFWD_ROPE_EGR_HI : Nat := 0x500048
abbrev FWD_ROPE_EGR_HI_MASK : Fld := ⟨rFWD_ROPE_EGR_HI, 0, 32⟩
abbrev rFWD_INS_KEY (n : Nat) : Nat := 0x50004C + 0x4 * n
abbrev FWD_INS_KEY_KEY (n : Nat) : Fld := ⟨rFWD_INS_KEY n, 0, 32⟩
abbrev rFWD_INS_DATA_LO : Nat := 0x500060
abbrev FWD_INS_DATA_LO_DATA : Fld := ⟨rFWD_INS_DATA_LO, 0, 32⟩
abbrev rFWD_INS_DATA_HI : Nat := 0x500064
abbrev FWD_INS_DATA_HI_DATA : Fld := ⟨rFWD_INS_DATA_HI, 0, 32⟩
abbrev rFWD_INS_CTL : Nat := 0x500068
abbrev FWD_INS_CTL_TABLE : Fld := ⟨rFWD_INS_CTL, 0, 6⟩
abbrev FWD_INS_CTL_OP : Fld := ⟨rFWD_INS_CTL, 6, 2⟩
abbrev FWD_INS_CTL_SHADOW : Fld := ⟨rFWD_INS_CTL, 8, 1⟩
abbrev FWD_INS_CTL_GO : Fld := ⟨rFWD_INS_CTL, 9, 1⟩
abbrev rFWD_INS_STATUS : Nat := 0x50006C
abbrev FWD_INS_STATUS_RESULT : Fld := ⟨rFWD_INS_STATUS, 0, 3⟩
abbrev FWD_INS_STATUS_MOVES : Fld := ⟨rFWD_INS_STATUS, 8, 6⟩
abbrev rFWD_INS_SLOT : Nat := 0x500070
abbrev FWD_INS_SLOT_INDEX : Fld := ⟨rFWD_INS_SLOT, 0, 18⟩
abbrev FWD_INS_SLOT_BANK : Fld := ⟨rFWD_INS_SLOT, 18, 1⟩
abbrev FWD_INS_SLOT_VALID : Fld := ⟨rFWD_INS_SLOT, 31, 1⟩
abbrev rFWD_TBL_LOC (k : Nat) : Nat := 0x501000 + 0x20 * k
abbrev FWD_TBL_LOC_OFFSET (k : Nat) : Fld := ⟨rFWD_TBL_LOC k, 0, 32⟩
abbrev rFWD_TBL_GEOM (k : Nat) : Nat := 0x501004 + 0x20 * k
abbrev FWD_TBL_GEOM_KIND (k : Nat) : Fld := ⟨rFWD_TBL_GEOM k, 0, 3⟩
abbrev FWD_TBL_GEOM_GLOBAL (k : Nat) : Fld := ⟨rFWD_TBL_GEOM k, 3, 1⟩
abbrev FWD_TBL_GEOM_BUCKETS (k : Nat) : Fld := ⟨rFWD_TBL_GEOM k, 8, 16⟩
abbrev rFWD_TBL_BANK (k : Nat) : Nat := 0x501008 + 0x20 * k
abbrev FWD_TBL_BANK_ACTIVE (k : Nat) : Fld := ⟨rFWD_TBL_BANK k, 0, 1⟩
abbrev FWD_TBL_BANK_CUR_ACTIVE (k : Nat) : Fld := ⟨rFWD_TBL_BANK k, 1, 1⟩
abbrev FWD_TBL_BANK_SHADOW_FREE (k : Nat) : Fld := ⟨rFWD_TBL_BANK k, 2, 1⟩
abbrev FWD_TBL_BANK_CLEAR (k : Nat) : Fld := ⟨rFWD_TBL_BANK k, 3, 1⟩
abbrev FWD_TBL_BANK_CLEARING (k : Nat) : Fld := ⟨rFWD_TBL_BANK k, 4, 1⟩
abbrev rFWD_TBL_SEED0 (k : Nat) : Nat := 0x50100C + 0x20 * k
abbrev FWD_TBL_SEED0_SEED (k : Nat) : Fld := ⟨rFWD_TBL_SEED0 k, 0, 32⟩
abbrev rFWD_TBL_SEED1 (k : Nat) : Nat := 0x501010 + 0x20 * k
abbrev FWD_TBL_SEED1_SEED (k : Nat) : Fld := ⟨rFWD_TBL_SEED1 k, 0, 32⟩
abbrev rFWD_TBL_AGE (k : Nat) : Nat := 0x501014 + 0x20 * k
abbrev FWD_TBL_AGE_AGE_S (k : Nat) : Fld := ⟨rFWD_TBL_AGE k, 0, 16⟩
abbrev rFWD_TBL_LIVE (k : Nat) : Nat := 0x501018 + 0x20 * k
abbrev FWD_TBL_LIVE_COUNT (k : Nat) : Fld := ⟨rFWD_TBL_LIVE k, 0, 19⟩
abbrev rFWD_TBL_AGED (k : Nat) : Nat := 0x50101C + 0x20 * k
abbrev FWD_TBL_AGED_COUNT (k : Nat) : Fld := ⟨rFWD_TBL_AGED k, 0, 32⟩
abbrev rFWD_Q_SRC (q : Nat) : Nat := 0x508000 + 0x1000 * q
abbrev FWD_Q_SRC_POS (q : Nat) : Fld := ⟨rFWD_Q_SRC q, 0, 4⟩
abbrev FWD_Q_SRC_PRESENT (q : Nat) : Fld := ⟨rFWD_Q_SRC q, 4, 1⟩
abbrev rFWD_Q_SRC_HIT (q : Nat) : Nat := 0x508004 + 0x1000 * q
abbrev FWD_Q_SRC_HIT_COUNT (q : Nat) : Fld := ⟨rFWD_Q_SRC_HIT q, 0, 32⟩
abbrev rFWD_Q_SRC_MISS (q : Nat) : Nat := 0x508008 + 0x1000 * q
abbrev FWD_Q_SRC_MISS_COUNT (q : Nat) : Fld := ⟨rFWD_Q_SRC_MISS q, 0, 32⟩
abbrev rFWD_Q_SRC_MOVE (q : Nat) : Nat := 0x50800C + 0x1000 * q
abbrev FWD_Q_SRC_MOVE_COUNT (q : Nat) : Fld := ⟨rFWD_Q_SRC_MOVE q, 0, 32⟩
abbrev rFWD_Q_STATIC_VIOL (q : Nat) : Nat := 0x508010 + 0x1000 * q
abbrev FWD_Q_STATIC_VIOL_COUNT (q : Nat) : Fld := ⟨rFWD_Q_STATIC_VIOL q, 0, 32⟩
abbrev rFWD_Q_STREAM_BAD (q : Nat) : Nat := 0x508014 + 0x1000 * q
abbrev FWD_Q_STREAM_BAD_COUNT (q : Nat) : Fld := ⟨rFWD_Q_STREAM_BAD q, 0, 32⟩
abbrev rFWD_Q_ROPE_FILTER (q : Nat) : Nat := 0x508018 + 0x1000 * q
abbrev FWD_Q_ROPE_FILTER_COUNT (q : Nat) : Fld := ⟨rFWD_Q_ROPE_FILTER q, 0, 32⟩
abbrev rFWD_Q_NOSRC (q : Nat) : Nat := 0x50801C + 0x1000 * q
abbrev FWD_Q_NOSRC_COUNT (q : Nat) : Fld := ⟨rFWD_Q_NOSRC q, 0, 32⟩
abbrev rBPM_FREE : Nat := 0x600000
abbrev BPM_FREE_COUNT : Fld := ⟨rBPM_FREE, 0, 19⟩
abbrev rBPM_USABLE : Nat := 0x600004
abbrev BPM_USABLE_COUNT : Fld := ⟨rBPM_USABLE, 0, 19⟩
abbrev rBPM_INT_STATUS : Nat := 0x600008
abbrev BPM_INT_STATUS_WARN2 : Fld := ⟨rBPM_INT_STATUS, 0, 1⟩
abbrev BPM_INT_STATUS_BADPTR : Fld := ⟨rBPM_INT_STATUS, 1, 1⟩
abbrev BPM_INT_STATUS_DFREE : Fld := ⟨rBPM_INT_STATUS, 2, 1⟩
abbrev BPM_INT_STATUS_FFREE : Fld := ⟨rBPM_INT_STATUS, 3, 1⟩
abbrev BPM_INT_STATUS_SHRINK : Fld := ⟨rBPM_INT_STATUS, 4, 1⟩
abbrev BPM_INT_STATUS_EXHAUST : Fld := ⟨rBPM_INT_STATUS, 5, 1⟩
abbrev rBPM_INT_EN : Nat := 0x60000C
abbrev BPM_INT_EN_EN : Fld := ⟨rBPM_INT_EN, 0, 6⟩
abbrev rBPM_WARN2_POOLS : Nat := 0x600010
abbrev BPM_WARN2_POOLS_POOLS : Fld := ⟨rBPM_WARN2_POOLS, 0, 16⟩
abbrev rBPM_BADPTR_CNT : Nat := 0x600014
abbrev BPM_BADPTR_CNT_COUNT : Fld := ⟨rBPM_BADPTR_CNT, 0, 32⟩
abbrev rBPM_DFREE_CNT : Nat := 0x600018
abbrev BPM_DFREE_CNT_COUNT : Fld := ⟨rBPM_DFREE_CNT, 0, 32⟩
abbrev rBPM_FFREE_CNT : Nat := 0x60001C
abbrev BPM_FFREE_CNT_COUNT : Fld := ⟨rBPM_FFREE_CNT, 0, 32⟩
abbrev rBPM_REFUSE_PTR : Nat := 0x600020
abbrev BPM_REFUSE_PTR_ADDR : Fld := ⟨rBPM_REFUSE_PTR, 0, 32⟩
abbrev rBPM_REFUSE_INFO : Nat := 0x600024
abbrev BPM_REFUSE_INFO_REQ : Fld := ⟨rBPM_REFUSE_INFO, 0, 12⟩
abbrev BPM_REFUSE_INFO_CAUSE : Fld := ⟨rBPM_REFUSE_INFO, 16, 2⟩
abbrev BPM_REFUSE_INFO_OWNER : Fld := ⟨rBPM_REFUSE_INFO, 18, 12⟩
abbrev BPM_REFUSE_INFO_VALID : Fld := ⟨rBPM_REFUSE_INFO, 31, 1⟩
abbrev rBPM_POOL_CFG (n : Nat) : Nat := 0x601000 + 0x40 * n
abbrev BPM_POOL_CFG_TCS (n : Nat) : Fld := ⟨rBPM_POOL_CFG n, 0, 8⟩
abbrev BPM_POOL_CFG_RESERVED (n : Nat) : Fld := ⟨rBPM_POOL_CFG n, 8, 1⟩
abbrev BPM_POOL_CFG_DQX_OK (n : Nat) : Fld := ⟨rBPM_POOL_CFG n, 9, 1⟩
abbrev BPM_POOL_CFG_RANK (n : Nat) : Fld := ⟨rBPM_POOL_CFG n, 10, 3⟩
abbrev BPM_POOL_CFG_ADMIT (n : Nat) : Fld := ⟨rBPM_POOL_CFG n, 16, 16⟩
abbrev rBPM_POOL_BEADS (n : Nat) : Nat := 0x601004 + 0x40 * n
abbrev BPM_POOL_BEADS_QUOTA (n : Nat) : Fld := ⟨rBPM_POOL_BEADS n, 0, 19⟩
abbrev rBPM_POOL_CARVED (n : Nat) : Nat := 0x601008 + 0x40 * n
abbrev BPM_POOL_CARVED_COUNT (n : Nat) : Fld := ⟨rBPM_POOL_CARVED n, 0, 19⟩
abbrev rBPM_POOL_WARN1 (n : Nat) : Nat := 0x60100C + 0x40 * n
abbrev BPM_POOL_WARN1_BEADS (n : Nat) : Fld := ⟨rBPM_POOL_WARN1 n, 0, 19⟩
abbrev rBPM_POOL_WARN2 (n : Nat) : Nat := 0x601010 + 0x40 * n
abbrev BPM_POOL_WARN2_BEADS (n : Nat) : Fld := ⟨rBPM_POOL_WARN2 n, 0, 19⟩
abbrev rBPM_POOL_FULL (n : Nat) : Nat := 0x601014 + 0x40 * n
abbrev BPM_POOL_FULL_BEADS (n : Nat) : Fld := ⟨rBPM_POOL_FULL n, 0, 19⟩
abbrev rBPM_POOL_XON (n : Nat) : Nat := 0x601018 + 0x40 * n
abbrev BPM_POOL_XON_XON_GAP (n : Nat) : Fld := ⟨rBPM_POOL_XON n, 0, 16⟩
abbrev rBPM_POOL_OCC (n : Nat) : Nat := 0x60101C + 0x40 * n
abbrev BPM_POOL_OCC_BEADS (n : Nat) : Fld := ⟨rBPM_POOL_OCC n, 0, 19⟩
abbrev BPM_POOL_OCC_WARN2_ACT (n : Nat) : Fld := ⟨rBPM_POOL_OCC n, 30, 1⟩
abbrev BPM_POOL_OCC_BP (n : Nat) : Fld := ⟨rBPM_POOL_OCC n, 31, 1⟩
abbrev rBPM_POOL_PEAK (n : Nat) : Nat := 0x601020 + 0x40 * n
abbrev BPM_POOL_PEAK_BEADS (n : Nat) : Fld := ⟨rBPM_POOL_PEAK n, 0, 19⟩
abbrev rBPM_POOL_DROP (n : Nat) : Nat := 0x601024 + 0x40 * n
abbrev BPM_POOL_DROP_COUNT (n : Nat) : Fld := ⟨rBPM_POOL_DROP n, 0, 32⟩
abbrev rBPM_POOL_EXHAUST (n : Nat) : Nat := 0x601028 + 0x40 * n
abbrev BPM_POOL_EXHAUST_COUNT (n : Nat) : Fld := ⟨rBPM_POOL_EXHAUST n, 0, 32⟩
abbrev rBPM_POOL_WAIT (n : Nat) : Nat := 0x60102C + 0x40 * n
abbrev BPM_POOL_WAIT_COUNT (n : Nat) : Fld := ⟨rBPM_POOL_WAIT n, 0, 4⟩
abbrev rSWC_DQX_CFG : Nat := 0x640000
abbrev SWC_DQX_CFG_EN : Fld := ⟨rSWC_DQX_CFG, 0, 1⟩
abbrev SWC_DQX_CFG_SIZE_MIB : Fld := ⟨rSWC_DQX_CFG, 16, 16⟩
abbrev rSWC_DQX_THR : Nat := 0x640004
abbrev SWC_DQX_THR_SPILL : Fld := ⟨rSWC_DQX_THR, 0, 16⟩
abbrev SWC_DQX_THR_REFILL : Fld := ⟨rSWC_DQX_THR, 16, 16⟩
abbrev rSWC_DQX_USED : Nat := 0x640008
abbrev SWC_DQX_USED_SLOTS : Fld := ⟨rSWC_DQX_USED, 0, 24⟩
abbrev rSWC_DQX_ERR : Nat := 0x64000C
abbrev SWC_DQX_ERR_COUNT : Fld := ⟨rSWC_DQX_ERR, 0, 32⟩
abbrev rSWC_DQX_FULL_CNT : Nat := 0x640010
abbrev SWC_DQX_FULL_CNT_COUNT : Fld := ⟨rSWC_DQX_FULL_CNT, 0, 32⟩
abbrev rSWC_PORT_HOLD (p : Nat) : Nat := 0x641000 + 0x100 * p
abbrev SWC_PORT_HOLD_HOLD_MS (p : Nat) : Fld := ⟨rSWC_PORT_HOLD p, 0, 10⟩
abbrev SWC_PORT_HOLD_STATE (p : Nat) : Fld := ⟨rSWC_PORT_HOLD p, 16, 2⟩
abbrev rSWC_PORT_HOLD_LEFT (p : Nat) : Nat := 0x641004 + 0x100 * p
abbrev SWC_PORT_HOLD_LEFT_US (p : Nat) : Fld := ⟨rSWC_PORT_HOLD_LEFT p, 0, 20⟩
abbrev rSWC_PORT_CT (p : Nat) : Nat := 0x641008 + 0x100 * p
abbrev SWC_PORT_CT_CT_EN (p : Nat) : Fld := ⟨rSWC_PORT_CT p, 0, 1⟩
abbrev rSWC_PORT_QDEPTH (p : Nat) (t : Nat) : Nat := 0x641020 + 0x100 * p + 0x4 * t
abbrev SWC_PORT_QDEPTH_BEADS (p : Nat) (t : Nat) : Fld := ⟨rSWC_PORT_QDEPTH p t, 0, 19⟩
abbrev rSWC_PORT_QDQX (p : Nat) (t : Nat) : Nat := 0x641040 + 0x100 * p + 0x4 * t
abbrev SWC_PORT_QDQX_SLOTS (p : Nat) (t : Nat) : Fld := ⟨rSWC_PORT_QDQX p t, 0, 24⟩
abbrev rTSY_CTL : Nat := 0x680000
abbrev TSY_CTL_WORK : Fld := ⟨rTSY_CTL, 0, 1⟩
abbrev rTSY_SNAP_CTL : Nat := 0x680004
abbrev TSY_SNAP_CTL_GO : Fld := ⟨rTSY_SNAP_CTL, 0, 1⟩
abbrev rTSY_SNAP_LOCAL_NS : Nat := 0x680010
abbrev TSY_SNAP_LOCAL_NS_NS : Fld := ⟨rTSY_SNAP_LOCAL_NS, 0, 32⟩
abbrev rTSY_SNAP_LOCAL_SEC_LO : Nat := 0x680014
abbrev TSY_SNAP_LOCAL_SEC_LO_SEC : Fld := ⟨rTSY_SNAP_LOCAL_SEC_LO, 0, 32⟩
abbrev rTSY_SNAP_LOCAL_SEC_HI : Nat := 0x680018
abbrev TSY_SNAP_LOCAL_SEC_HI_SEC : Fld := ⟨rTSY_SNAP_LOCAL_SEC_HI, 0, 16⟩
abbrev rTSY_SNAP_DOM_NS (n : Nat) : Nat := 0x680020 + 0x10 * n
abbrev TSY_SNAP_DOM_NS_NS (n : Nat) : Fld := ⟨rTSY_SNAP_DOM_NS n, 0, 32⟩
abbrev rTSY_SNAP_DOM_SEC_LO (n : Nat) : Nat := 0x680024 + 0x10 * n
abbrev TSY_SNAP_DOM_SEC_LO_SEC (n : Nat) : Fld := ⟨rTSY_SNAP_DOM_SEC_LO n, 0, 32⟩
abbrev rTSY_SNAP_DOM_SEC_HI (n : Nat) : Nat := 0x680028 + 0x10 * n
abbrev TSY_SNAP_DOM_SEC_HI_SEC (n : Nat) : Fld := ⟨rTSY_SNAP_DOM_SEC_HI n, 0, 16⟩
abbrev rTSY_PPS_IN_NS : Nat := 0x680080
abbrev TSY_PPS_IN_NS_NS : Fld := ⟨rTSY_PPS_IN_NS, 0, 32⟩
abbrev rTSY_PPS_IN_SEC : Nat := 0x680084
abbrev TSY_PPS_IN_SEC_SEC : Fld := ⟨rTSY_PPS_IN_SEC, 0, 32⟩
abbrev rTSY_PPS_IN_STAT : Nat := 0x680088
abbrev TSY_PPS_IN_STAT_COUNT : Fld := ⟨rTSY_PPS_IN_STAT, 0, 16⟩
abbrev TSY_PPS_IN_STAT_OVERRUN : Fld := ⟨rTSY_PPS_IN_STAT, 30, 1⟩
abbrev TSY_PPS_IN_STAT_VALID : Fld := ⟨rTSY_PPS_IN_STAT, 31, 1⟩
abbrev rTSY_PPS_OUT_CFG : Nat := 0x68008C
abbrev TSY_PPS_OUT_CFG_EN : Fld := ⟨rTSY_PPS_OUT_CFG, 0, 1⟩
abbrev TSY_PPS_OUT_CFG_DOM : Fld := ⟨rTSY_PPS_OUT_CFG, 1, 1⟩
abbrev TSY_PPS_OUT_CFG_WIDTH_US : Fld := ⟨rTSY_PPS_OUT_CFG, 13, 19⟩
abbrev rTSY_PPS_OUT_OFS : Nat := 0x680090
abbrev TSY_PPS_OUT_OFS_OFFSET_NS : Fld := ⟨rTSY_PPS_OUT_OFS, 0, 32⟩
abbrev rTSY_RTC_SEC_LO : Nat := 0x6800A0
abbrev TSY_RTC_SEC_LO_SEC : Fld := ⟨rTSY_RTC_SEC_LO, 0, 32⟩
abbrev rTSY_RTC_SEC_HI : Nat := 0x6800A4
abbrev TSY_RTC_SEC_HI_SEC : Fld := ⟨rTSY_RTC_SEC_HI, 0, 16⟩
abbrev rTSY_RTC_SUB : Nat := 0x6800A8
abbrev TSY_RTC_SUB_SUB : Fld := ⟨rTSY_RTC_SUB, 0, 15⟩
abbrev rTSY_RTC_CTL : Nat := 0x6800AC
abbrev TSY_RTC_CTL_LOAD : Fld := ⟨rTSY_RTC_CTL, 0, 1⟩
abbrev TSY_RTC_CTL_AUTO : Fld := ⟨rTSY_RTC_CTL, 1, 1⟩
abbrev rTSY_INT_STATUS : Nat := 0x6800B0
abbrev TSY_INT_STATUS_PPS_IN : Fld := ⟨rTSY_INT_STATUS, 0, 1⟩
abbrev TSY_INT_STATUS_SLEW_DONE : Fld := ⟨rTSY_INT_STATUS, 1, 1⟩
abbrev TSY_INT_STATUS_TS_OVERFLOW : Fld := ⟨rTSY_INT_STATUS, 2, 1⟩
abbrev rTSY_INT_EN : Nat := 0x6800B4
abbrev TSY_INT_EN_EN : Fld := ⟨rTSY_INT_EN, 0, 3⟩
abbrev rTSY_DOM_CFG (n : Nat) : Nat := 0x680100 + 0x40 * n
abbrev TSY_DOM_CFG_DOMAIN_NUM (n : Nat) : Fld := ⟨rTSY_DOM_CFG n, 0, 7⟩
abbrev TSY_DOM_CFG_SYNCED (n : Nat) : Fld := ⟨rTSY_DOM_CFG n, 8, 1⟩
abbrev rTSY_DOM_RATE (n : Nat) : Nat := 0x680104 + 0x40 * n
abbrev TSY_DOM_RATE_RATE (n : Nat) : Fld := ⟨rTSY_DOM_RATE n, 0, 32⟩
abbrev rTSY_DOM_ADJ (n : Nat) : Nat := 0x680108 + 0x40 * n
abbrev TSY_DOM_ADJ_ADJ (n : Nat) : Fld := ⟨rTSY_DOM_ADJ n, 0, 32⟩
abbrev rTSY_DOM_CMD (n : Nat) : Nat := 0x68010C + 0x40 * n
abbrev TSY_DOM_CMD_STEP (n : Nat) : Fld := ⟨rTSY_DOM_CMD n, 0, 1⟩
abbrev TSY_DOM_CMD_SET (n : Nat) : Fld := ⟨rTSY_DOM_CMD n, 1, 1⟩
abbrev TSY_DOM_CMD_SLEW (n : Nat) : Fld := ⟨rTSY_DOM_CMD n, 2, 1⟩
abbrev rTSY_DOM_SET_NS (n : Nat) : Nat := 0x680110 + 0x40 * n
abbrev TSY_DOM_SET_NS_NS (n : Nat) : Fld := ⟨rTSY_DOM_SET_NS n, 0, 32⟩
abbrev rTSY_DOM_SET_SEC_LO (n : Nat) : Nat := 0x680114 + 0x40 * n
abbrev TSY_DOM_SET_SEC_LO_SEC (n : Nat) : Fld := ⟨rTSY_DOM_SET_SEC_LO n, 0, 32⟩
abbrev rTSY_DOM_SET_SEC_HI (n : Nat) : Nat := 0x680118 + 0x40 * n
abbrev TSY_DOM_SET_SEC_HI_SEC (n : Nat) : Fld := ⟨rTSY_DOM_SET_SEC_HI n, 0, 16⟩
abbrev rTSY_DOM_STATUS (n : Nat) : Nat := 0x68011C + 0x40 * n
abbrev TSY_DOM_STATUS_SLEWING (n : Nat) : Fld := ⟨rTSY_DOM_STATUS n, 0, 1⟩
abbrev TSY_DOM_STATUS_JUMPS (n : Nat) : Fld := ⟨rTSY_DOM_STATUS n, 16, 16⟩
abbrev rTSY_PORT_TX_NS (p : Nat) : Nat := 0x681000 + 0x10 * p
abbrev TSY_PORT_TX_NS_NS (p : Nat) : Fld := ⟨rTSY_PORT_TX_NS p, 0, 32⟩
abbrev rTSY_PORT_TX_SEC (p : Nat) : Nat := 0x681004 + 0x10 * p
abbrev TSY_PORT_TX_SEC_SEC (p : Nat) : Fld := ⟨rTSY_PORT_TX_SEC p, 0, 32⟩
abbrev rTSY_PORT_TX_INFO (p : Nat) : Nat := 0x681008 + 0x10 * p
abbrev TSY_PORT_TX_INFO_TAG (p : Nat) : Fld := ⟨rTSY_PORT_TX_INFO p, 0, 8⟩
abbrev TSY_PORT_TX_INFO_DEPTH (p : Nat) : Fld := ⟨rTSY_PORT_TX_INFO p, 8, 3⟩
abbrev TSY_PORT_TX_INFO_OVERFLOW (p : Nat) : Fld := ⟨rTSY_PORT_TX_INFO p, 16, 8⟩
abbrev TSY_PORT_TX_INFO_VALID (p : Nat) : Fld := ⟨rTSY_PORT_TX_INFO p, 31, 1⟩
abbrev rSCH_PORT_CFG (p : Nat) : Nat := 0x700000 + 0x2000 * p
abbrev SCH_PORT_CFG_STRICT (p : Nat) : Fld := ⟨rSCH_PORT_CFG p, 0, 3⟩
abbrev rSCH_PORT_RATE (p : Nat) : Nat := 0x700004 + 0x2000 * p
abbrev SCH_PORT_RATE_AVAIL_MBPS (p : Nat) : Fld := ⟨rSCH_PORT_RATE p, 0, 32⟩
abbrev rSCH_PORT_PMAP (p : Nat) : Nat := 0x700008 + 0x2000 * p
abbrev SCH_PORT_PMAP_PCP_MAP (p : Nat) : Fld := ⟨rSCH_PORT_PMAP p, 0, 24⟩
abbrev SCH_PORT_PMAP_DEFAULT_TC (p : Nat) : Fld := ⟨rSCH_PORT_PMAP p, 24, 3⟩
abbrev SCH_PORT_PMAP_DSCP_EN (p : Nat) : Fld := ⟨rSCH_PORT_PMAP p, 28, 1⟩
abbrev rSCH_PORT_DSCP (p : Nat) (n : Nat) : Nat := 0x70000C + 0x2000 * p + 0x4 * n
abbrev SCH_PORT_DSCP_MAP (p : Nat) (n : Nat) : Fld := ⟨rSCH_PORT_DSCP p n, 0, 30⟩
abbrev rSCH_PORT_QCFG (p : Nat) (t : Nat) : Nat := 0x700100 + 0x2000 * p + 0x20 * t
abbrev SCH_PORT_QCFG_WEIGHT (p : Nat) (t : Nat) : Fld := ⟨rSCH_PORT_QCFG p t, 0, 16⟩
abbrev SCH_PORT_QCFG_MAX_SDU (p : Nat) (t : Nat) : Fld := ⟨rSCH_PORT_QCFG p t, 16, 16⟩
abbrev rSCH_PORT_QBURST (p : Nat) (t : Nat) : Nat := 0x700104 + 0x2000 * p + 0x20 * t
abbrev SCH_PORT_QBURST_BURST (p : Nat) (t : Nat) : Fld := ⟨rSCH_PORT_QBURST p t, 0, 24⟩
abbrev rSCH_PORT_QCBS (p : Nat) (t : Nat) : Nat := 0x700108 + 0x2000 * p + 0x20 * t
abbrev SCH_PORT_QCBS_IDLE_SLOPE (p : Nat) (t : Nat) : Fld := ⟨rSCH_PORT_QCBS p t, 0, 30⟩
abbrev SCH_PORT_QCBS_CBS_EN (p : Nat) (t : Nat) : Fld := ⟨rSCH_PORT_QCBS p t, 31, 1⟩
abbrev rSCH_PORT_QRES (p : Nat) (t : Nat) : Nat := 0x70010C + 0x2000 * p + 0x20 * t
abbrev SCH_PORT_QRES_MAX_RES_US (p : Nat) (t : Nat) : Fld := ⟨rSCH_PORT_QRES p t, 0, 20⟩
abbrev rSCH_PORT_QGUAR (p : Nat) (t : Nat) : Nat := 0x700110 + 0x2000 * p + 0x20 * t
abbrev SCH_PORT_QGUAR_RANK (p : Nat) (t : Nat) : Fld := ⟨rSCH_PORT_QGUAR p t, 0, 3⟩
abbrev SCH_PORT_QGUAR_BROKEN (p : Nat) (t : Nat) : Fld := ⟨rSCH_PORT_QGUAR p t, 3, 1⟩
abbrev SCH_PORT_QGUAR_ADMIT (p : Nat) (t : Nat) : Fld := ⟨rSCH_PORT_QGUAR p t, 16, 16⟩
abbrev rSCH_PORT_QCREDIT (p : Nat) (t : Nat) : Nat := 0x700114 + 0x2000 * p + 0x20 * t
abbrev SCH_PORT_QCREDIT_CREDIT (p : Nat) (t : Nat) : Fld := ⟨rSCH_PORT_QCREDIT p t, 0, 32⟩
abbrev rSCH_PORT_QDEFICIT (p : Nat) (t : Nat) : Nat := 0x700118 + 0x2000 * p + 0x20 * t
abbrev SCH_PORT_QDEFICIT_DEFICIT (p : Nat) (t : Nat) : Fld := ⟨rSCH_PORT_QDEFICIT p t, 0, 32⟩
abbrev rSCH_PORT_QALLOC (p : Nat) (t : Nat) : Nat := 0x70011C + 0x2000 * p + 0x20 * t
abbrev SCH_PORT_QALLOC_RATE (p : Nat) (t : Nat) : Fld := ⟨rSCH_PORT_QALLOC p t, 0, 30⟩
abbrev rGATE_GCTL (b : Nat) : Nat := b
abbrev GATE_GCTL_GATE_EN (b : Nat) : Fld := ⟨rGATE_GCTL b, 0, 1⟩
abbrev GATE_GCTL_CHANGE (b : Nat) : Fld := ⟨rGATE_GCTL b, 1, 1⟩
abbrev GATE_GCTL_CANCEL (b : Nat) : Fld := ⟨rGATE_GCTL b, 2, 1⟩
abbrev GATE_GCTL_ADMIN_LEN (b : Nat) : Fld := ⟨rGATE_GCTL b, 8, 11⟩
abbrev rGATE_ADMIN_BASE_NS (b : Nat) : Nat := b + 0x4
abbrev GATE_ADMIN_BASE_NS_NS (b : Nat) : Fld := ⟨rGATE_ADMIN_BASE_NS b, 0, 30⟩
abbrev rGATE_ADMIN_BASE_SEC_LO (b : Nat) : Nat := b + 0x8
abbrev GATE_ADMIN_BASE_SEC_LO_SEC (b : Nat) : Fld := ⟨rGATE_ADMIN_BASE_SEC_LO b, 0, 32⟩
abbrev rGATE_ADMIN_BASE_SEC_HI (b : Nat) : Nat := b + 0xC
abbrev GATE_ADMIN_BASE_SEC_HI_SEC (b : Nat) : Fld := ⟨rGATE_ADMIN_BASE_SEC_HI b, 0, 16⟩
abbrev rGATE_ADMIN_CYCLE_NS (b : Nat) : Nat := b + 0x10
abbrev GATE_ADMIN_CYCLE_NS_NS (b : Nat) : Fld := ⟨rGATE_ADMIN_CYCLE_NS b, 0, 30⟩
abbrev rGATE_GSTATUS (b : Nat) : Nat := b + 0x14
abbrev GATE_GSTATUS_PENDING (b : Nat) : Fld := ⟨rGATE_GSTATUS b, 0, 1⟩
abbrev GATE_GSTATUS_REFUSED (b : Nat) : Fld := ⟨rGATE_GSTATUS b, 1, 1⟩
abbrev GATE_GSTATUS_CAUSE (b : Nat) : Fld := ⟨rGATE_GSTATUS b, 2, 2⟩
abbrev GATE_GSTATUS_ACTIVE (b : Nat) : Fld := ⟨rGATE_GSTATUS b, 4, 1⟩
abbrev GATE_GSTATUS_STATES (b : Nat) : Fld := ⟨rGATE_GSTATUS b, 8, 8⟩
abbrev GATE_GSTATUS_ENTRY (b : Nat) : Fld := ⟨rGATE_GSTATUS b, 16, 10⟩
abbrev rGATE_CHANGE_NS (b : Nat) : Nat := b + 0x18
abbrev GATE_CHANGE_NS_NS (b : Nat) : Fld := ⟨rGATE_CHANGE_NS b, 0, 32⟩
abbrev rGATE_CHANGE_SEC (b : Nat) : Nat := b + 0x1C
abbrev GATE_CHANGE_SEC_SEC (b : Nat) : Fld := ⟨rGATE_CHANGE_SEC b, 0, 32⟩
abbrev rGATE_OPER_CYCLE_NS (b : Nat) : Nat := b + 0x20
abbrev GATE_OPER_CYCLE_NS_NS (b : Nat) : Fld := ⟨rGATE_OPER_CYCLE_NS b, 0, 30⟩
abbrev rGATE_OPER_LEN (b : Nat) : Nat := b + 0x24
abbrev GATE_OPER_LEN_LEN (b : Nat) : Fld := ⟨rGATE_OPER_LEN b, 0, 11⟩
abbrev rGATE_OPER_BASE_NS (b : Nat) : Nat := b + 0x28
abbrev GATE_OPER_BASE_NS_NS (b : Nat) : Fld := ⟨rGATE_OPER_BASE_NS b, 0, 30⟩
abbrev rGATE_OPER_BASE_SEC (b : Nat) : Nat := b + 0x2C
abbrev GATE_OPER_BASE_SEC_SEC (b : Nat) : Fld := ⟨rGATE_OPER_BASE_SEC b, 0, 32⟩
abbrev rSCH_INT_STATUS : Nat := 0x788000
abbrev SCH_INT_STATUS_GUAR_BROKEN : Fld := ⟨rSCH_INT_STATUS, 0, 1⟩
abbrev SCH_INT_STATUS_GATE_REFUSED : Fld := ⟨rSCH_INT_STATUS, 1, 1⟩
abbrev SCH_INT_STATUS_SF_BLOCKED : Fld := ⟨rSCH_INT_STATUS, 2, 1⟩
abbrev SCH_INT_STATUS_GATE_SWITCHED : Fld := ⟨rSCH_INT_STATUS, 3, 1⟩
abbrev rSCH_INT_EN : Nat := 0x788004
abbrev SCH_INT_EN_EN : Fld := ⟨rSCH_INT_EN, 0, 4⟩
abbrev rSCH_BROKEN_CNT : Nat := 0x788008
abbrev SCH_BROKEN_CNT_COUNT : Fld := ⟨rSCH_BROKEN_CNT, 0, 32⟩
abbrev rSCH_SF_LAST_BLOCK : Nat := 0x78800C
abbrev SCH_SF_LAST_BLOCK_HANDLE : Fld := ⟨rSCH_SF_LAST_BLOCK, 0, 16⟩
abbrev SCH_SF_LAST_BLOCK_VALID : Fld := ⟨rSCH_SF_LAST_BLOCK, 31, 1⟩
abbrev rEGR_PROF_W0 (n : Nat) : Nat := 0x800000 + 0x10 * n
abbrev EGR_PROF_W0_W (n : Nat) : Fld := ⟨rEGR_PROF_W0 n, 0, 32⟩
abbrev rEGR_PROF_W1 (n : Nat) : Nat := 0x800004 + 0x10 * n
abbrev EGR_PROF_W1_W (n : Nat) : Fld := ⟨rEGR_PROF_W1 n, 0, 32⟩
abbrev rEGR_PROF_W2 (n : Nat) : Nat := 0x800008 + 0x10 * n
abbrev EGR_PROF_W2_W (n : Nat) : Fld := ⟨rEGR_PROF_W2 n, 0, 32⟩
abbrev rEGR_PROF_W3 (n : Nat) : Nat := 0x80000C + 0x10 * n
abbrev EGR_PROF_W3_W (n : Nat) : Fld := ⟨rEGR_PROF_W3 n, 0, 32⟩
abbrev rEGR_MIRROR_CFG : Nat := 0x801000
abbrev EGR_MIRROR_CFG_PROFILE : Fld := ⟨rEGR_MIRROR_CFG, 0, 8⟩
abbrev EGR_MIRROR_CFG_TRUNC : Fld := ⟨rEGR_MIRROR_CFG, 16, 14⟩
abbrev rEGR_Q_COPIES (q : Nat) : Nat := 0x802000 + 0x1000 * q
abbrev EGR_Q_COPIES_COUNT (q : Nat) : Fld := ⟨rEGR_Q_COPIES q, 0, 32⟩
abbrev rEGR_Q_STORED (q : Nat) : Nat := 0x802004 + 0x1000 * q
abbrev EGR_Q_STORED_COUNT (q : Nat) : Fld := ⟨rEGR_Q_STORED q, 0, 32⟩
abbrev rEGR_Q_TRUNC (q : Nat) : Nat := 0x802008 + 0x1000 * q
abbrev EGR_Q_TRUNC_COUNT (q : Nat) : Fld := ⟨rEGR_Q_TRUNC q, 0, 32⟩
abbrev rEGR_Q_PEAK_NS (q : Nat) : Nat := 0x80200C + 0x1000 * q
abbrev EGR_Q_PEAK_NS_NS (q : Nat) : Fld := ⟨rEGR_Q_PEAK_NS q, 0, 12⟩
abbrev rEGR_PORT_SA_LO (p : Nat) : Nat := 0x810000 + 0x20 * p
abbrev EGR_PORT_SA_LO_MAC (p : Nat) : Fld := ⟨rEGR_PORT_SA_LO p, 0, 32⟩
abbrev rEGR_PORT_SA_HI (p : Nat) : Nat := 0x810004 + 0x20 * p
abbrev EGR_PORT_SA_HI_MAC (p : Nat) : Fld := ⟨rEGR_PORT_SA_HI p, 0, 16⟩
abbrev rEGR_PORT_PCP (p : Nat) : Nat := 0x810008 + 0x20 * p
abbrev EGR_PORT_PCP_MAP (p : Nat) : Fld := ⟨rEGR_PORT_PCP p, 0, 24⟩
abbrev rEGR_PORT_DSCP_LO (p : Nat) : Nat := 0x81000C + 0x20 * p
abbrev EGR_PORT_DSCP_LO_MAP (p : Nat) : Fld := ⟨rEGR_PORT_DSCP_LO p, 0, 30⟩
abbrev rEGR_PORT_DSCP_HI (p : Nat) : Nat := 0x810010 + 0x20 * p
abbrev EGR_PORT_DSCP_HI_MAP (p : Nat) : Fld := ⟨rEGR_PORT_DSCP_HI p, 0, 18⟩
abbrev rTWN_CTL : Nat := 0x880000
abbrev TWN_CTL_ROLE_TAKE : Fld := ⟨rTWN_CTL, 0, 1⟩
abbrev TWN_CTL_SWAP : Fld := ⟨rTWN_CTL, 1, 1⟩
abbrev TWN_CTL_SWAP_LANE : Fld := ⟨rTWN_CTL, 2, 2⟩
abbrev TWN_CTL_VMAX : Fld := ⟨rTWN_CTL, 8, 4⟩
abbrev rTWN_STATUS : Nat := 0x880004
abbrev TWN_STATUS_SENIOR : Fld := ⟨rTWN_STATUS, 0, 1⟩
abbrev TWN_STATUS_STATE : Fld := ⟨rTWN_STATUS, 1, 4⟩
abbrev TWN_STATUS_VIRAM : Fld := ⟨rTWN_STATUS, 8, 4⟩
abbrev TWN_STATUS_PARTNER_MODE : Fld := ⟨rTWN_STATUS, 12, 4⟩
abbrev TWN_STATUS_LANES : Fld := ⟨rTWN_STATUS, 16, 3⟩
abbrev TWN_STATUS_SPARE_USED : Fld := ⟨rTWN_STATUS, 19, 1⟩
abbrev TWN_STATUS_SPARE_READY : Fld := ⟨rTWN_STATUS, 20, 1⟩
abbrev TWN_STATUS_ROLES : Fld := ⟨rTWN_STATUS, 21, 1⟩
abbrev TWN_STATUS_LAST_CAUSE : Fld := ⟨rTWN_STATUS, 24, 4⟩
abbrev rTWN_PEER : Nat := 0x880008
abbrev TWN_PEER_EPOCH : Fld := ⟨rTWN_PEER, 0, 16⟩
abbrev TWN_PEER_COMPAT_EPOCH : Fld := ⟨rTWN_PEER, 16, 16⟩
abbrev rTWN_INT_STATUS : Nat := 0x88000C
abbrev TWN_INT_STATUS_CREVASSE : Fld := ⟨rTWN_INT_STATUS, 0, 1⟩
abbrev TWN_INT_STATUS_REJOIN : Fld := ⟨rTWN_INT_STATUS, 1, 1⟩
abbrev TWN_INT_STATUS_PAIR_REFUSED : Fld := ⟨rTWN_INT_STATUS, 2, 1⟩
abbrev TWN_INT_STATUS_LANE_LOST : Fld := ⟨rTWN_INT_STATUS, 3, 1⟩
abbrev TWN_INT_STATUS_LANE_SWAP : Fld := ⟨rTWN_INT_STATUS, 4, 1⟩
abbrev TWN_INT_STATUS_STREAM_LOSS : Fld := ⟨rTWN_INT_STATUS, 5, 1⟩
abbrev TWN_INT_STATUS_PARTNER_FAULT : Fld := ⟨rTWN_INT_STATUS, 6, 1⟩
abbrev TWN_INT_STATUS_PARTNER_AWAY : Fld := ⟨rTWN_INT_STATUS, 7, 1⟩
abbrev rTWN_INT_EN : Nat := 0x880010
abbrev TWN_INT_EN_EN : Fld := ⟨rTWN_INT_EN, 0, 8⟩
abbrev rTWN_REFUSE : Nat := 0x880014
abbrev TWN_REFUSE_CAUSE : Fld := ⟨rTWN_REFUSE, 0, 4⟩
abbrev rTWN_LANE_MAP : Nat := 0x880018
abbrev TWN_LANE_MAP_LOG0 : Fld := ⟨rTWN_LANE_MAP, 0, 3⟩
abbrev TWN_LANE_MAP_LOG1 : Fld := ⟨rTWN_LANE_MAP, 4, 3⟩
abbrev TWN_LANE_MAP_LOG2 : Fld := ⟨rTWN_LANE_MAP, 8, 3⟩
abbrev TWN_LANE_MAP_LOG3 : Fld := ⟨rTWN_LANE_MAP, 12, 3⟩
abbrev TWN_LANE_MAP_SPARE : Fld := ⟨rTWN_LANE_MAP, 16, 3⟩
abbrev TWN_LANE_MAP_ACTIVE : Fld := ⟨rTWN_LANE_MAP, 20, 4⟩
abbrev rTWN_HB_MISSED : Nat := 0x88001C
abbrev TWN_HB_MISSED_COUNT : Fld := ⟨rTWN_HB_MISSED, 0, 32⟩
abbrev rTWN_HB_GAP_US : Nat := 0x880020
abbrev TWN_HB_GAP_US_US : Fld := ⟨rTWN_HB_GAP_US, 0, 16⟩
abbrev rTWN_CREV_CNT : Nat := 0x880024
abbrev TWN_CREV_CNT_COUNT : Fld := ⟨rTWN_CREV_CNT, 0, 32⟩
abbrev rTWN_UNSEQ_DROP : Nat := 0x880028
abbrev TWN_UNSEQ_DROP_COUNT : Fld := ⟨rTWN_UNSEQ_DROP, 0, 32⟩
abbrev rTWN_NOTHOME_DROP : Nat := 0x88002C
abbrev TWN_NOTHOME_DROP_COUNT : Fld := ⟨rTWN_NOTHOME_DROP, 0, 32⟩
abbrev rTWN_FRER_CFG : Nat := 0x880030
abbrev TWN_FRER_CFG_RESET_MS : Fld := ⟨rTWN_FRER_CFG, 0, 16⟩
abbrev rTWN_LOSS_LAST : Nat := 0x880034
abbrev TWN_LOSS_LAST_HANDLE : Fld := ⟨rTWN_LOSS_LAST, 0, 16⟩
abbrev TWN_LOSS_LAST_VALID : Fld := ⟨rTWN_LOSS_LAST, 31, 1⟩
abbrev rTWN_PARTNER_FAULT : Nat := 0x880038
abbrev TWN_PARTNER_FAULT_GROUP : Fld := ⟨rTWN_PARTNER_FAULT, 0, 6⟩
abbrev TWN_PARTNER_FAULT_CLASS : Fld := ⟨rTWN_PARTNER_FAULT, 8, 3⟩
abbrev TWN_PARTNER_FAULT_VALID : Fld := ⟨rTWN_PARTNER_FAULT, 31, 1⟩
abbrev rTWN_FC : Nat := 0x88003C
abbrev TWN_FC_XOFF_RX : Fld := ⟨rTWN_FC, 0, 8⟩
abbrev TWN_FC_XOFF_TX : Fld := ⟨rTWN_FC, 8, 8⟩
abbrev rTWN_TIME_OFS_LO : Nat := 0x880040
abbrev TWN_TIME_OFS_LO_OFS : Fld := ⟨rTWN_TIME_OFS_LO, 0, 32⟩
abbrev rTWN_TIME_OFS_HI : Nat := 0x880044
abbrev TWN_TIME_OFS_HI_OFS : Fld := ⟨rTWN_TIME_OFS_HI, 0, 32⟩
abbrev rTWN_TIME_DELAY : Nat := 0x880048
abbrev TWN_TIME_DELAY_NS : Fld := ⟨rTWN_TIME_DELAY, 0, 16⟩
abbrev rTWN_PEER_WORK_LO : Nat := 0x88004C
abbrev TWN_PEER_WORK_LO_OFS : Fld := ⟨rTWN_PEER_WORK_LO, 0, 32⟩
abbrev rTWN_PEER_WORK_HI : Nat := 0x880050
abbrev TWN_PEER_WORK_HI_OFS : Fld := ⟨rTWN_PEER_WORK_HI, 0, 32⟩
abbrev rTWN_PEER_TIME : Nat := 0x880054
abbrev TWN_PEER_TIME_SYNCED0 : Fld := ⟨rTWN_PEER_TIME, 0, 1⟩
abbrev TWN_PEER_TIME_SYNCED1 : Fld := ⟨rTWN_PEER_TIME, 1, 1⟩
abbrev TWN_PEER_TIME_WORK : Fld := ⟨rTWN_PEER_TIME, 2, 1⟩
abbrev TWN_PEER_TIME_VALID : Fld := ⟨rTWN_PEER_TIME, 31, 1⟩
abbrev rTWN_HOME_ONLY_LO : Nat := 0x880058
abbrev TWN_HOME_ONLY_LO_MASK : Fld := ⟨rTWN_HOME_ONLY_LO, 0, 32⟩
abbrev rTWN_HOME_ONLY_HI : Nat := 0x88005C
abbrev TWN_HOME_ONLY_HI_MASK : Fld := ⟨rTWN_HOME_ONLY_HI, 0, 32⟩
abbrev rDRC_GEOM : Nat := 0x900000
abbrev DRC_GEOM_RANKS : Fld := ⟨rDRC_GEOM, 0, 2⟩
abbrev DRC_GEOM_SPARE_EN : Fld := ⟨rDRC_GEOM, 2, 1⟩
abbrev DRC_GEOM_ROW_BITS : Fld := ⟨rDRC_GEOM, 8, 5⟩
abbrev DRC_GEOM_RANK_128M : Fld := ⟨rDRC_GEOM, 16, 8⟩
abbrev rDRC_MAP_CFG : Nat := 0x900004
abbrev DRC_MAP_CFG_COL_LO : Fld := ⟨rDRC_MAP_CFG, 0, 6⟩
abbrev DRC_MAP_CFG_ROW_LO : Fld := ⟨rDRC_MAP_CFG, 8, 6⟩
abbrev rDRC_MAP_MASK_LO (n : Nat) : Nat := 0x900010 + 0x8 * n
abbrev DRC_MAP_MASK_LO_MASK (n : Nat) : Fld := ⟨rDRC_MAP_MASK_LO n, 0, 32⟩
abbrev rDRC_MAP_MASK_HI (n : Nat) : Nat := 0x900014 + 0x8 * n
abbrev DRC_MAP_MASK_HI_MASK (n : Nat) : Fld := ⟨rDRC_MAP_MASK_HI n, 0, 8⟩
abbrev rDRC_MAPPED : Nat := 0x900048
abbrev DRC_MAPPED_MIB : Fld := ⟨rDRC_MAPPED, 0, 16⟩
abbrev rDRC_WIN_BASE : Nat := 0x90004C
abbrev DRC_WIN_BASE_MIB : Fld := ⟨rDRC_WIN_BASE, 0, 15⟩
abbrev rDRC_CTL : Nat := 0x900050
abbrev DRC_CTL_RETIRE : Fld := ⟨rDRC_CTL, 0, 1⟩
abbrev DRC_CTL_RANK : Fld := ⟨rDRC_CTL, 1, 3⟩
abbrev DRC_CTL_RETRAIN : Fld := ⟨rDRC_CTL, 4, 1⟩
abbrev DRC_CTL_OTP_BURN : Fld := ⟨rDRC_CTL, 5, 1⟩
abbrev rDRC_STATUS : Nat := 0x900054
abbrev DRC_STATUS_TRAINED : Fld := ⟨rDRC_STATUS, 0, 1⟩
abbrev DRC_STATUS_TRAIN_FAIL : Fld := ⟨rDRC_STATUS, 1, 1⟩
abbrev DRC_STATUS_DESC_BAD : Fld := ⟨rDRC_STATUS, 2, 1⟩
abbrev DRC_STATUS_MIGRATING : Fld := ⟨rDRC_STATUS, 3, 1⟩
abbrev DRC_STATUS_MIG_RANK : Fld := ⟨rDRC_STATUS, 4, 3⟩
abbrev DRC_STATUS_STRICT : Fld := ⟨rDRC_STATUS, 7, 1⟩
abbrev DRC_STATUS_SPARE_USED : Fld := ⟨rDRC_STATUS, 8, 2⟩
abbrev DRC_STATUS_SPARE_FAILED : Fld := ⟨rDRC_STATUS, 10, 2⟩
abbrev DRC_STATUS_MIG_PERMILLE : Fld := ⟨rDRC_STATUS, 12, 10⟩
abbrev rDRC_INT_STATUS : Nat := 0x900058
abbrev DRC_INT_STATUS_UE : Fld := ⟨rDRC_INT_STATUS, 0, 1⟩
abbrev DRC_INT_STATUS_MIG_START : Fld := ⟨rDRC_INT_STATUS, 1, 1⟩
abbrev DRC_INT_STATUS_MIG_DONE : Fld := ⟨rDRC_INT_STATUS, 2, 1⟩
abbrev DRC_INT_STATUS_HOT : Fld := ⟨rDRC_INT_STATUS, 3, 1⟩
abbrev DRC_INT_STATUS_RETRAINED : Fld := ⟨rDRC_INT_STATUS, 4, 1⟩
abbrev rDRC_INT_EN : Nat := 0x90005C
abbrev DRC_INT_EN_EN : Fld := ⟨rDRC_INT_EN, 0, 5⟩
abbrev rDRC_RGN_DQX : Nat := 0x900060
abbrev DRC_RGN_DQX_BASE_MIB : Fld := ⟨rDRC_RGN_DQX, 0, 16⟩
abbrev DRC_RGN_DQX_SIZE_MIB : Fld := ⟨rDRC_RGN_DQX, 16, 16⟩
abbrev rDRC_RGN_TBL (k : Nat) : Nat := 0x900100 + 0x4 * k
abbrev DRC_RGN_TBL_BASE_MIB (k : Nat) : Fld := ⟨rDRC_RGN_TBL k, 0, 16⟩
abbrev DRC_RGN_TBL_SIZE_MIB (k : Nat) : Fld := ⟨rDRC_RGN_TBL k, 16, 16⟩
abbrev rDRC_CH_STATE (c : Nat) : Nat := 0x901000 + 0x1000 * c
abbrev DRC_CH_STATE_RK0 (c : Nat) : Fld := ⟨rDRC_CH_STATE c, 0, 2⟩
abbrev DRC_CH_STATE_RK1 (c : Nat) : Fld := ⟨rDRC_CH_STATE c, 2, 2⟩
abbrev DRC_CH_STATE_SPARE_HERE (c : Nat) : Fld := ⟨rDRC_CH_STATE c, 4, 1⟩
abbrev DRC_CH_STATE_RATE0 (c : Nat) : Fld := ⟨rDRC_CH_STATE c, 8, 3⟩
abbrev DRC_CH_STATE_RATE1 (c : Nat) : Fld := ⟨rDRC_CH_STATE c, 12, 3⟩
abbrev DRC_CH_STATE_HOT (c : Nat) : Fld := ⟨rDRC_CH_STATE c, 16, 2⟩
abbrev DRC_CH_STATE_STRICT (c : Nat) : Fld := ⟨rDRC_CH_STATE c, 18, 1⟩
abbrev rDRC_CH_CE (c : Nat) : Nat := 0x901004 + 0x1000 * c
abbrev DRC_CH_CE_COUNT (c : Nat) : Fld := ⟨rDRC_CH_CE c, 0, 32⟩
abbrev rDRC_CH_UE (c : Nat) : Nat := 0x901008 + 0x1000 * c
abbrev DRC_CH_UE_COUNT (c : Nat) : Fld := ⟨rDRC_CH_UE c, 0, 32⟩
abbrev rDRC_CH_CAPAR (c : Nat) : Nat := 0x90100C + 0x1000 * c
abbrev DRC_CH_CAPAR_COUNT (c : Nat) : Fld := ⟨rDRC_CH_CAPAR c, 0, 32⟩
abbrev rDRC_CH_LAST_UE (c : Nat) : Nat := 0x901010 + 0x1000 * c
abbrev DRC_CH_LAST_UE_LINE (c : Nat) : Fld := ⟨rDRC_CH_LAST_UE c, 0, 26⟩
abbrev DRC_CH_LAST_UE_RANK (c : Nat) : Fld := ⟨rDRC_CH_LAST_UE c, 26, 1⟩
abbrev DRC_CH_LAST_UE_BAND (c : Nat) : Fld := ⟨rDRC_CH_LAST_UE c, 27, 1⟩
abbrev DRC_CH_LAST_UE_CAUSE (c : Nat) : Fld := ⟨rDRC_CH_LAST_UE c, 28, 3⟩
abbrev DRC_CH_LAST_UE_VALID (c : Nat) : Fld := ⟨rDRC_CH_LAST_UE c, 31, 1⟩
abbrev rDRC_CH_REFRESH (c : Nat) : Nat := 0x901014 + 0x1000 * c
abbrev DRC_CH_REFRESH_TREFI0_NS (c : Nat) : Fld := ⟨rDRC_CH_REFRESH c, 0, 16⟩
abbrev DRC_CH_REFRESH_TREFI1_NS (c : Nat) : Fld := ⟨rDRC_CH_REFRESH c, 16, 16⟩
abbrev rDRC_CH_POSTPONE (c : Nat) : Nat := 0x901018 + 0x1000 * c
abbrev DRC_CH_POSTPONE_NOW (c : Nat) : Fld := ⟨rDRC_CH_POSTPONE c, 0, 4⟩
abbrev DRC_CH_POSTPONE_PEAK (c : Nat) : Fld := ⟨rDRC_CH_POSTPONE c, 8, 4⟩
abbrev DRC_CH_POSTPONE_URGENT (c : Nat) : Fld := ⟨rDRC_CH_POSTPONE c, 16, 16⟩
abbrev rDRC_CH_EYE (c : Nat) : Nat := 0x90101C + 0x1000 * c
abbrev DRC_CH_EYE_RD_PS (c : Nat) : Fld := ⟨rDRC_CH_EYE c, 0, 16⟩
abbrev DRC_CH_EYE_WR_PS (c : Nat) : Fld := ⟨rDRC_CH_EYE c, 16, 16⟩
abbrev rDRC_CH_LAT_PEAK (c : Nat) : Nat := 0x901020 + 0x1000 * c
abbrev DRC_CH_LAT_PEAK_NS (c : Nat) : Fld := ⟨rDRC_CH_LAT_PEAK c, 0, 16⟩
abbrev rHDM_LINK : Nat := 0xA00000
abbrev HDM_LINK_GEN : Fld := ⟨rHDM_LINK, 0, 4⟩
abbrev HDM_LINK_WIDTH : Fld := ⟨rHDM_LINK, 8, 4⟩
abbrev rHDM_INT_STATUS : Nat := 0xA00004
abbrev HDM_INT_STATUS_LINK_CHG : Fld := ⟨rHDM_INT_STATUS, 0, 1⟩
abbrev HDM_INT_STATUS_MB_DONE : Fld := ⟨rHDM_INT_STATUS, 1, 1⟩
abbrev HDM_INT_STATUS_MB_REFUSED : Fld := ⟨rHDM_INT_STATUS, 2, 1⟩
abbrev HDM_INT_STATUS_HOST_ERR : Fld := ⟨rHDM_INT_STATUS, 3, 1⟩
abbrev rHDM_INT_EN : Nat := 0xA00008
abbrev HDM_INT_EN_EN : Fld := ⟨rHDM_INT_EN, 0, 4⟩
abbrev rHDM_RX_TCMAP : Nat := 0xA0000C
abbrev HDM_RX_TCMAP_MAP : Fld := ⟨rHDM_RX_TCMAP, 0, 24⟩
abbrev rHDM_ERR_INFO : Nat := 0xA00010
abbrev HDM_ERR_INFO_KIND : Fld := ⟨rHDM_ERR_INFO, 0, 4⟩
abbrev HDM_ERR_INFO_CHANNEL : Fld := ⟨rHDM_ERR_INFO, 4, 5⟩
abbrev HDM_ERR_INFO_VALID : Fld := ⟨rHDM_ERR_INFO, 31, 1⟩
abbrev rHDM_ERR_CNT : Nat := 0xA00014
abbrev HDM_ERR_CNT_COUNT : Fld := ⟨rHDM_ERR_CNT, 0, 32⟩
abbrev rHDM_DMA_SRC_LO (c : Nat) : Nat := 0xA01000 + 0x40 * c
abbrev HDM_DMA_SRC_LO_ADDR (c : Nat) : Fld := ⟨rHDM_DMA_SRC_LO c, 0, 32⟩
abbrev rHDM_DMA_SRC_HI (c : Nat) : Nat := 0xA01004 + 0x40 * c
abbrev HDM_DMA_SRC_HI_ADDR (c : Nat) : Fld := ⟨rHDM_DMA_SRC_HI c, 0, 32⟩
abbrev rHDM_DMA_DST_LO (c : Nat) : Nat := 0xA01008 + 0x40 * c
abbrev HDM_DMA_DST_LO_ADDR (c : Nat) : Fld := ⟨rHDM_DMA_DST_LO c, 0, 32⟩
abbrev rHDM_DMA_DST_HI (c : Nat) : Nat := 0xA0100C + 0x40 * c
abbrev HDM_DMA_DST_HI_ADDR (c : Nat) : Fld := ⟨rHDM_DMA_DST_HI c, 0, 32⟩
abbrev rHDM_DMA_CNT (c : Nat) : Nat := 0xA01010 + 0x40 * c
abbrev HDM_DMA_CNT_BYTES (c : Nat) : Fld := ⟨rHDM_DMA_CNT c, 0, 25⟩
abbrev rHDM_DMA_CTL (c : Nat) : Nat := 0xA01014 + 0x40 * c
abbrev HDM_DMA_CTL_GO (c : Nat) : Fld := ⟨rHDM_DMA_CTL c, 0, 1⟩
abbrev HDM_DMA_CTL_STOP (c : Nat) : Fld := ⟨rHDM_DMA_CTL c, 1, 1⟩
abbrev HDM_DMA_CTL_EN (c : Nat) : Fld := ⟨rHDM_DMA_CTL c, 2, 1⟩
abbrev HDM_DMA_CTL_SRC_SPACE (c : Nat) : Fld := ⟨rHDM_DMA_CTL c, 3, 2⟩
abbrev HDM_DMA_CTL_DST_SPACE (c : Nat) : Fld := ⟨rHDM_DMA_CTL c, 5, 2⟩
abbrev HDM_DMA_CTL_CRC_WR (c : Nat) : Fld := ⟨rHDM_DMA_CTL c, 7, 1⟩
abbrev HDM_DMA_CTL_INT_EN (c : Nat) : Fld := ⟨rHDM_DMA_CTL c, 8, 1⟩
abbrev HDM_DMA_CTL_ROLE (c : Nat) : Fld := ⟨rHDM_DMA_CTL c, 9, 3⟩
abbrev rHDM_DMA_STATUS (c : Nat) : Nat := 0xA01018 + 0x40 * c
abbrev HDM_DMA_STATUS_BUSY (c : Nat) : Fld := ⟨rHDM_DMA_STATUS c, 0, 1⟩
abbrev HDM_DMA_STATUS_DONE (c : Nat) : Fld := ⟨rHDM_DMA_STATUS c, 1, 1⟩
abbrev HDM_DMA_STATUS_DIR (c : Nat) : Fld := ⟨rHDM_DMA_STATUS c, 2, 1⟩
abbrev HDM_DMA_STATUS_STOPPED (c : Nat) : Fld := ⟨rHDM_DMA_STATUS c, 3, 1⟩
abbrev HDM_DMA_STATUS_SHUTDOWN (c : Nat) : Fld := ⟨rHDM_DMA_STATUS c, 4, 1⟩
abbrev HDM_DMA_STATUS_EN_PENDING (c : Nat) : Fld := ⟨rHDM_DMA_STATUS c, 5, 1⟩
abbrev HDM_DMA_STATUS_POISON (c : Nat) : Fld := ⟨rHDM_DMA_STATUS c, 6, 1⟩
abbrev HDM_DMA_STATUS_REFUSED (c : Nat) : Fld := ⟨rHDM_DMA_STATUS c, 7, 1⟩
abbrev HDM_DMA_STATUS_ERR (c : Nat) : Fld := ⟨rHDM_DMA_STATUS c, 8, 4⟩
abbrev rHDM_DMA_CRC (c : Nat) : Nat := 0xA0101C + 0x40 * c
abbrev HDM_DMA_CRC_CRC (c : Nat) : Fld := ⟨rHDM_DMA_CRC c, 0, 32⟩
abbrev rHDM_DMA_DONE_BYTES (c : Nat) : Nat := 0xA01020 + 0x40 * c
abbrev HDM_DMA_DONE_BYTES_BYTES (c : Nat) : Fld := ⟨rHDM_DMA_DONE_BYTES c, 0, 25⟩
abbrev rHDM_RING_BASE_LO (n : Nat) : Nat := 0xA02000 + 0x40 * n
abbrev HDM_RING_BASE_LO_ADDR (n : Nat) : Fld := ⟨rHDM_RING_BASE_LO n, 0, 32⟩
abbrev rHDM_RING_BASE_HI (n : Nat) : Nat := 0xA02004 + 0x40 * n
abbrev HDM_RING_BASE_HI_ADDR (n : Nat) : Fld := ⟨rHDM_RING_BASE_HI n, 0, 32⟩
abbrev rHDM_RING_CFG (n : Nat) : Nat := 0xA02008 + 0x40 * n
abbrev HDM_RING_CFG_EN (n : Nat) : Fld := ⟨rHDM_RING_CFG n, 0, 1⟩
abbrev HDM_RING_CFG_SIZE_LOG2 (n : Nat) : Fld := ⟨rHDM_RING_CFG n, 8, 5⟩
abbrev HDM_RING_CFG_COAL_FRAMES (n : Nat) : Fld := ⟨rHDM_RING_CFG n, 16, 8⟩
abbrev HDM_RING_CFG_COAL_US (n : Nat) : Fld := ⟨rHDM_RING_CFG n, 24, 8⟩
abbrev rHDM_RING_HEAD (n : Nat) : Nat := 0xA0200C + 0x40 * n
abbrev HDM_RING_HEAD_INDEX (n : Nat) : Fld := ⟨rHDM_RING_HEAD n, 0, 16⟩
abbrev HDM_RING_HEAD_PHASE (n : Nat) : Fld := ⟨rHDM_RING_HEAD n, 16, 1⟩
abbrev rHDM_RING_WB_LO (n : Nat) : Nat := 0xA02010 + 0x40 * n
abbrev HDM_RING_WB_LO_ADDR (n : Nat) : Fld := ⟨rHDM_RING_WB_LO n, 0, 32⟩
abbrev rHDM_RING_WB_HI (n : Nat) : Nat := 0xA02014 + 0x40 * n
abbrev HDM_RING_WB_HI_ADDR (n : Nat) : Fld := ⟨rHDM_RING_WB_HI n, 0, 32⟩
abbrev rHDM_RING_STATUS (n : Nat) : Nat := 0xA02018 + 0x40 * n
abbrev HDM_RING_STATUS_SHUTDOWN (n : Nat) : Fld := ⟨rHDM_RING_STATUS n, 0, 1⟩
abbrev HDM_RING_STATUS_EN_PENDING (n : Nat) : Fld := ⟨rHDM_RING_STATUS n, 1, 1⟩
abbrev rHDM_RING_FRAMES (n : Nat) : Nat := 0xA0201C + 0x40 * n
abbrev HDM_RING_FRAMES_COUNT (n : Nat) : Fld := ⟨rHDM_RING_FRAMES n, 0, 32⟩
abbrev rHDM_RING_DROP (n : Nat) : Nat := 0xA02020 + 0x40 * n
abbrev HDM_RING_DROP_COUNT (n : Nat) : Fld := ⟨rHDM_RING_DROP n, 0, 32⟩
abbrev rHDM_RING_TAIL (n : Nat) : Nat := 0x8 * n
abbrev HDM_RING_TAIL_INDEX (n : Nat) : Fld := ⟨rHDM_RING_TAIL n, 0, 16⟩
abbrev rHDM_MB_REQ (i : Nat) : Nat := 0x1000 + 0x4 * i
abbrev HDM_MB_REQ_DATA (i : Nat) : Fld := ⟨rHDM_MB_REQ i, 0, 32⟩
abbrev rHDM_MB_RSP (i : Nat) : Nat := 0x1400 + 0x4 * i
abbrev HDM_MB_RSP_DATA (i : Nat) : Fld := ⟨rHDM_MB_RSP i, 0, 32⟩
abbrev rHDM_MB_DOORBELL : Nat := 0x1800
abbrev HDM_MB_DOORBELL_RING : Fld := ⟨rHDM_MB_DOORBELL, 0, 1⟩
abbrev rHDM_MB_STATUS : Nat := 0x1804
abbrev HDM_MB_STATUS_BUSY : Fld := ⟨rHDM_MB_STATUS, 0, 1⟩
abbrev HDM_MB_STATUS_DONE : Fld := ⟨rHDM_MB_STATUS, 1, 1⟩
abbrev HDM_MB_STATUS_VER : Fld := ⟨rHDM_MB_STATUS, 4, 4⟩
abbrev rFLT_CTL : Nat := 0xB00000
abbrev FLT_CTL_INJ_EN : Fld := ⟨rFLT_CTL, 0, 1⟩
abbrev rFLT_STATUS : Nat := 0xB00004
abbrev FLT_STATUS_FAULT_N : Fld := ⟨rFLT_STATUS, 0, 1⟩
abbrev FLT_STATUS_SHADOW : Fld := ⟨rFLT_STATUS, 1, 1⟩
abbrev FLT_STATUS_ISOLATED : Fld := ⟨rFLT_STATUS, 2, 1⟩
abbrev FLT_STATUS_LAST_GROUP : Fld := ⟨rFLT_STATUS, 8, 6⟩
abbrev FLT_STATUS_LAST_CLASS : Fld := ⟨rFLT_STATUS, 16, 3⟩
abbrev rFLT_PENDING_LO : Nat := 0xB00008
abbrev FLT_PENDING_LO_GROUPS : Fld := ⟨rFLT_PENDING_LO, 0, 32⟩
abbrev rFLT_PENDING_HI : Nat := 0xB0000C
abbrev FLT_PENDING_HI_GROUPS : Fld := ⟨rFLT_PENDING_HI, 0, 16⟩
abbrev rFLT_SEVERE_LO : Nat := 0xB00010
abbrev FLT_SEVERE_LO_GROUPS : Fld := ⟨rFLT_SEVERE_LO, 0, 32⟩
abbrev rFLT_SEVERE_HI : Nat := 0xB00014
abbrev FLT_SEVERE_HI_GROUPS : Fld := ⟨rFLT_SEVERE_HI, 0, 16⟩
abbrev rFLT_INT_EN_LO : Nat := 0xB00018
abbrev FLT_INT_EN_LO_EN : Fld := ⟨rFLT_INT_EN_LO, 0, 32⟩
abbrev rFLT_INT_EN_HI : Nat := 0xB0001C
abbrev FLT_INT_EN_HI_EN : Fld := ⟨rFLT_INT_EN_HI, 0, 16⟩
abbrev rFLT_ISO : Nat := 0xB00020
abbrev FLT_ISO_QUAD : Fld := ⟨rFLT_ISO, 0, 4⟩
abbrev FLT_ISO_CORE : Fld := ⟨rFLT_ISO, 4, 1⟩
abbrev FLT_ISO_CHIPLET : Fld := ⟨rFLT_ISO, 5, 2⟩
abbrev FLT_ISO_DQX : Fld := ⟨rFLT_ISO, 7, 1⟩
abbrev rFLT_ISO_PORTS_LO : Nat := 0xB00024
abbrev FLT_ISO_PORTS_LO_PORTS : Fld := ⟨rFLT_ISO_PORTS_LO, 0, 32⟩
abbrev rFLT_ISO_PORTS_HI : Nat := 0xB00028
abbrev FLT_ISO_PORTS_HI_PORTS : Fld := ⟨rFLT_ISO_PORTS_HI, 0, 32⟩
abbrev rFLT_ISO_BANKS : Nat := 0xB0002C
abbrev FLT_ISO_BANKS_GROUPS : Fld := ⟨rFLT_ISO_BANKS, 0, 16⟩
abbrev rFLT_ISO_ENG : Nat := 0xB00030
abbrev FLT_ISO_ENG_ENGINES : Fld := ⟨rFLT_ISO_ENG, 0, 16⟩
abbrev rFLT_C4_CAUSE : Nat := 0xB00034
abbrev FLT_C4_CAUSE_SOURCE : Fld := ⟨rFLT_C4_CAUSE, 0, 9⟩
abbrev FLT_C4_CAUSE_VALID : Fld := ⟨rFLT_C4_CAUSE, 31, 1⟩
abbrev rFLT_INJ : Nat := 0xB00038
abbrev FLT_INJ_SOURCE : Fld := ⟨rFLT_INJ, 0, 9⟩
abbrev FLT_INJ_GO : Fld := ⟨rFLT_INJ, 31, 1⟩
abbrev rFLT_CONSEQ_CNT : Nat := 0xB0003C
abbrev FLT_CONSEQ_CNT_COUNT : Fld := ⟨rFLT_CONSEQ_CNT, 0, 32⟩
abbrev rFLT_ESCAL_CNT : Nat := 0xB00040
abbrev FLT_ESCAL_CNT_COUNT : Fld := ⟨rFLT_ESCAL_CNT, 0, 32⟩
abbrev rFLT_GRP_CFG (g : Nat) : Nat := 0xB01000 + 0x20 * g
abbrev FLT_GRP_CFG_CLASS (g : Nat) : Fld := ⟨rFLT_GRP_CFG g, 0, 3⟩
abbrev FLT_GRP_CFG_BELAY_US (g : Nat) : Fld := ⟨rFLT_GRP_CFG g, 8, 17⟩
abbrev rFLT_GRP_STATUS (g : Nat) : Nat := 0xB01004 + 0x20 * g
abbrev FLT_GRP_STATUS_STATE (g : Nat) : Fld := ⟨rFLT_GRP_STATUS g, 0, 2⟩
abbrev FLT_GRP_STATUS_ACKED (g : Nat) : Fld := ⟨rFLT_GRP_STATUS g, 2, 1⟩
abbrev FLT_GRP_STATUS_PENDING_RESTART (g : Nat) : Fld := ⟨rFLT_GRP_STATUS g, 3, 1⟩
abbrev FLT_GRP_STATUS_LAST_SOURCE (g : Nat) : Fld := ⟨rFLT_GRP_STATUS g, 4, 9⟩
abbrev FLT_GRP_STATUS_ACTION (g : Nat) : Fld := ⟨rFLT_GRP_STATUS g, 16, 3⟩
abbrev rFLT_GRP_ACK (g : Nat) : Nat := 0xB01008 + 0x20 * g
abbrev FLT_GRP_ACK_ACK (g : Nat) : Fld := ⟨rFLT_GRP_ACK g, 0, 1⟩
abbrev FLT_GRP_ACK_MODE (g : Nat) : Fld := ⟨rFLT_GRP_ACK g, 1, 2⟩
abbrev rFLT_GRP_SEVERE (g : Nat) : Nat := 0xB0100C + 0x20 * g
abbrev FLT_GRP_SEVERE_COUNT (g : Nat) : Fld := ⟨rFLT_GRP_SEVERE g, 0, 32⟩
abbrev rFLT_GRP_BELAY_LEFT (g : Nat) : Nat := 0xB01010 + 0x20 * g
abbrev FLT_GRP_BELAY_LEFT_US (g : Nat) : Fld := ⟨rFLT_GRP_BELAY_LEFT g, 0, 17⟩
abbrev rFLT_GRP_REACTIONS (g : Nat) : Nat := 0xB01014 + 0x20 * g
abbrev FLT_GRP_REACTIONS_COUNT (g : Nat) : Fld := ⟨rFLT_GRP_REACTIONS g, 0, 16⟩
abbrev FLT_GRP_REACTIONS_ESCALATED (g : Nat) : Fld := ⟨rFLT_GRP_REACTIONS g, 16, 16⟩
abbrev rFLT_SRC_CFG (s : Nat) : Nat := 0xB02000 + 0x10 * s
abbrev FLT_SRC_CFG_N (s : Nat) : Fld := ⟨rFLT_SRC_CFG s, 0, 8⟩
abbrev FLT_SRC_CFG_W_US (s : Nat) : Fld := ⟨rFLT_SRC_CFG s, 8, 24⟩
abbrev rFLT_SRC_CNT (s : Nat) : Nat := 0xB02004 + 0x10 * s
abbrev FLT_SRC_CNT_EVENTS (s : Nat) : Fld := ⟨rFLT_SRC_CNT s, 0, 32⟩
abbrev rFLT_SRC_STATE (s : Nat) : Nat := 0xB02008 + 0x10 * s
abbrev FLT_SRC_STATE_WIN_COUNT (s : Nat) : Fld := ⟨rFLT_SRC_STATE s, 0, 8⟩
abbrev FLT_SRC_STATE_SOFT (s : Nat) : Fld := ⟨rFLT_SRC_STATE s, 16, 1⟩
abbrev FLT_SRC_STATE_SHADOWED (s : Nat) : Fld := ⟨rFLT_SRC_STATE s, 17, 1⟩
abbrev rFLT_SRC_CONSEQ (s : Nat) : Nat := 0xB0200C + 0x10 * s
abbrev FLT_SRC_CONSEQ_COUNT (s : Nat) : Fld := ⟨rFLT_SRC_CONSEQ s, 0, 16⟩
abbrev rAGE_CTL : Nat := 0xB80000
abbrev AGE_CTL_REPLAN_EN : Fld := ⟨rAGE_CTL, 0, 1⟩
abbrev AGE_CTL_RUN : Fld := ⟨rAGE_CTL, 1, 1⟩
abbrev rAGE_CFG : Nat := 0xB80004
abbrev AGE_CFG_INTERVAL_H : Fld := ⟨rAGE_CFG, 0, 10⟩
abbrev AGE_CFG_T_LOW : Fld := ⟨rAGE_CFG, 16, 8⟩
abbrev AGE_CFG_T_HIGH : Fld := ⟨rAGE_CFG, 24, 8⟩
abbrev rAGE_STATUS : Nat := 0xB80008
abbrev AGE_STATUS_RUNNING : Fld := ⟨rAGE_STATUS, 0, 1⟩
abbrev AGE_STATUS_PENDING : Fld := ⟨rAGE_STATUS, 1, 1⟩
abbrev AGE_STATUS_VCORE_LIMIT : Fld := ⟨rAGE_STATUS, 2, 1⟩
abbrev AGE_STATUS_LANE_LOW : Fld := ⟨rAGE_STATUS, 3, 1⟩
abbrev AGE_STATUS_SRAM_LOW : Fld := ⟨rAGE_STATUS, 4, 1⟩
abbrev AGE_STATUS_DRAM_LOW : Fld := ⟨rAGE_STATUS, 5, 1⟩
abbrev AGE_STATUS_PROJ_LOW : Fld := ⟨rAGE_STATUS, 6, 1⟩
abbrev AGE_STATUS_EXCURSION : Fld := ⟨rAGE_STATUS, 7, 1⟩
abbrev AGE_STATUS_STEP : Fld := ⟨rAGE_STATUS, 8, 3⟩
abbrev rAGE_AVS : Nat := 0xB8000C
abbrev AGE_AVS_TARGET_MV : Fld := ⟨rAGE_AVS, 0, 10⟩
abbrev AGE_AVS_READ_MV : Fld := ⟨rAGE_AVS, 16, 10⟩
abbrev rAGE_AVS_WIN : Nat := 0xB80010
abbrev AGE_AVS_WIN_MIN_MV : Fld := ⟨rAGE_AVS_WIN, 0, 10⟩
abbrev AGE_AVS_WIN_MAX_MV : Fld := ⟨rAGE_AVS_WIN, 16, 10⟩
abbrev rAGE_CORE : Nat := 0xB80014
abbrev AGE_CORE_BASE_MV : Fld := ⟨rAGE_CORE, 0, 10⟩
abbrev AGE_CORE_WORST_RO : Fld := ⟨rAGE_CORE, 10, 6⟩
abbrev AGE_CORE_WORST_DEG : Fld := ⟨rAGE_CORE, 16, 16⟩
abbrev rAGE_SRAM : Nat := 0xB80018
abbrev AGE_SRAM_MARGIN_MV : Fld := ⟨rAGE_SRAM, 0, 8⟩
abbrev AGE_SRAM_FLOOR_MV : Fld := ⟨rAGE_SRAM, 8, 8⟩
abbrev AGE_SRAM_WASSIST : Fld := ⟨rAGE_SRAM, 16, 3⟩
abbrev AGE_SRAM_RASSIST : Fld := ⟨rAGE_SRAM, 20, 2⟩
abbrev rAGE_LANE_FLOOR : Nat := 0xB8001C
abbrev AGE_LANE_FLOOR_HEIGHT_MV : Fld := ⟨rAGE_LANE_FLOOR, 0, 16⟩
abbrev AGE_LANE_FLOOR_WIDTH_MUI : Fld := ⟨rAGE_LANE_FLOOR, 16, 16⟩
abbrev rAGE_DRAM_FLOOR : Nat := 0xB80020
abbrev AGE_DRAM_FLOOR_PS : Fld := ⟨rAGE_DRAM_FLOOR, 0, 16⟩
abbrev rAGE_MARGIN : Nat := 0xB80024
abbrev AGE_MARGIN_PROJ_DAYS : Fld := ⟨rAGE_MARGIN, 0, 16⟩
abbrev AGE_MARGIN_LIMIT_DAYS : Fld := ⟨rAGE_MARGIN, 16, 16⟩
abbrev rAGE_LANES_LOW_LO : Nat := 0xB80028
abbrev AGE_LANES_LOW_LO_FRONT : Fld := ⟨rAGE_LANES_LOW_LO, 0, 24⟩
abbrev rAGE_LANES_LOW_HI : Nat := 0xB8002C
abbrev AGE_LANES_LOW_HI_ROPE : Fld := ⟨rAGE_LANES_LOW_HI, 0, 5⟩
abbrev rAGE_REPLANS : Nat := 0xB80030
abbrev AGE_REPLANS_COUNT : Fld := ⟨rAGE_REPLANS, 0, 32⟩
abbrev rAGE_INT_STATUS : Nat := 0xB80034
abbrev AGE_INT_STATUS_DONE : Fld := ⟨rAGE_INT_STATUS, 0, 1⟩
abbrev AGE_INT_STATUS_LIMIT : Fld := ⟨rAGE_INT_STATUS, 1, 1⟩
abbrev AGE_INT_STATUS_EXCURSION : Fld := ⟨rAGE_INT_STATUS, 2, 1⟩
abbrev rAGE_INT_EN : Nat := 0xB80038
abbrev AGE_INT_EN_EN : Fld := ⟨rAGE_INT_EN, 0, 3⟩
abbrev rAGE_RO (n : Nat) : Nat := 0xB80100 + 0x4 * n
abbrev AGE_RO_FREQ_MHZ (n : Nat) : Fld := ⟨rAGE_RO n, 0, 16⟩
abbrev AGE_RO_DEG (n : Nat) : Fld := ⟨rAGE_RO n, 16, 16⟩
abbrev rCRN_CTL : Nat := 0xC00000
abbrev CRN_CTL_EXPORT_GO : Fld := ⟨rCRN_CTL, 0, 1⟩
abbrev CRN_CTL_EXPORT_STOP : Fld := ⟨rCRN_CTL, 1, 1⟩
abbrev CRN_CTL_AUTO_ADV : Fld := ⟨rCRN_CTL, 2, 1⟩
abbrev CRN_CTL_KEY_BURN : Fld := ⟨rCRN_CTL, 3, 1⟩
abbrev rCRN_CFG : Nat := 0xC00004
abbrev CRN_CFG_INTERVAL_H : Fld := ⟨rCRN_CFG, 0, 4⟩
abbrev CRN_CFG_FMT_REQ : Fld := ⟨rCRN_CFG, 8, 4⟩
abbrev CRN_CFG_NEAR_FULL : Fld := ⟨rCRN_CFG, 16, 8⟩
abbrev rCRN_STATUS : Nat := 0xC00008
abbrev CRN_STATUS_USED : Fld := ⟨rCRN_STATUS, 0, 17⟩
abbrev CRN_STATUS_FULL : Fld := ⟨rCRN_STATUS, 17, 1⟩
abbrev CRN_STATUS_CLEARING : Fld := ⟨rCRN_STATUS, 18, 1⟩
abbrev CRN_STATUS_KEY_SET : Fld := ⟨rCRN_STATUS, 19, 1⟩
abbrev CRN_STATUS_EXPORTING : Fld := ⟨rCRN_STATUS, 20, 1⟩
abbrev CRN_STATUS_FMT : Fld := ⟨rCRN_STATUS, 24, 4⟩
abbrev rCRN_CAP : Nat := 0xC0000C
abbrev CRN_CAP_FMT_MIN : Fld := ⟨rCRN_CAP, 0, 8⟩
abbrev CRN_CAP_FMT_MAX : Fld := ⟨rCRN_CAP, 8, 8⟩
abbrev rCRN_CURSOR : Nat := 0xC00010
abbrev CRN_CURSOR_INDEX : Fld := ⟨rCRN_CURSOR, 0, 16⟩
abbrev rCRN_LOST : Nat := 0xC00014
abbrev CRN_LOST_COUNT : Fld := ⟨rCRN_LOST, 0, 32⟩
abbrev rCRN_DROPPED : Nat := 0xC00018
abbrev CRN_DROPPED_COUNT : Fld := ⟨rCRN_DROPPED, 0, 32⟩
abbrev rCRN_SKIPPED : Nat := 0xC0001C
abbrev CRN_SKIPPED_COUNT : Fld := ⟨rCRN_SKIPPED, 0, 32⟩
abbrev rCRN_EXPORT_ADDR_LO : Nat := 0xC00020
abbrev CRN_EXPORT_ADDR_LO_ADDR : Fld := ⟨rCRN_EXPORT_ADDR_LO, 0, 32⟩
abbrev rCRN_EXPORT_ADDR_HI : Nat := 0xC00024
abbrev CRN_EXPORT_ADDR_HI_ADDR : Fld := ⟨rCRN_EXPORT_ADDR_HI, 0, 32⟩
abbrev rCRN_EXPORT_FROM : Nat := 0xC00028
abbrev CRN_EXPORT_FROM_INDEX : Fld := ⟨rCRN_EXPORT_FROM, 0, 16⟩
abbrev rCRN_EXPORT_DONE : Nat := 0xC0002C
abbrev CRN_EXPORT_DONE_SLOTS : Fld := ⟨rCRN_EXPORT_DONE, 0, 17⟩
abbrev rCRN_INT_STATUS : Nat := 0xC00030
abbrev CRN_INT_STATUS_NEAR_FULL : Fld := ⟨rCRN_INT_STATUS, 0, 1⟩
abbrev CRN_INT_STATUS_FULL : Fld := ⟨rCRN_INT_STATUS, 1, 1⟩
abbrev CRN_INT_STATUS_EXPORT_DONE : Fld := ⟨rCRN_INT_STATUS, 2, 1⟩
abbrev CRN_INT_STATUS_CLEARED : Fld := ⟨rCRN_INT_STATUS, 3, 1⟩
abbrev CRN_INT_STATUS_DROPPED : Fld := ⟨rCRN_INT_STATUS, 4, 1⟩
abbrev rCRN_INT_EN : Nat := 0xC00034
abbrev CRN_INT_EN_EN : Fld := ⟨rCRN_INT_EN, 0, 5⟩
abbrev rCRN_OTP_KEY (n : Nat) : Nat := 0xC00040 + 0x4 * n
abbrev CRN_OTP_KEY_KEY (n : Nat) : Fld := ⟨rCRN_OTP_KEY n, 0, 32⟩
abbrev rCRN_WINDOW (i : Nat) : Nat := 0xC01000 + 0x4 * i
abbrev CRN_WINDOW_DATA (i : Nat) : Fld := ⟨rCRN_WINDOW i, 0, 32⟩
abbrev rTLY_CTL : Nat := 0xC80000
abbrev TLY_CTL_CLEAR_PORTS : Fld := ⟨rTLY_CTL, 0, 1⟩
abbrev TLY_CTL_CLEAR_EVT : Fld := ⟨rTLY_CTL, 1, 1⟩
abbrev TLY_CTL_CLEAR_STRM : Fld := ⟨rTLY_CTL, 2, 1⟩
abbrev TLY_CTL_SNAP_GO : Fld := ⟨rTLY_CTL, 3, 1⟩
abbrev TLY_CTL_SNAP_STOP : Fld := ⟨rTLY_CTL, 4, 1⟩
abbrev rTLY_CFG : Nat := 0xC80004
abbrev TLY_CFG_BW_WIN_US : Fld := ⟨rTLY_CFG, 0, 10⟩
abbrev TLY_CFG_SNAP_PERIOD_MS : Fld := ⟨rTLY_CFG, 16, 16⟩
abbrev rTLY_SNAP_ADDR_LO : Nat := 0xC80008
abbrev TLY_SNAP_ADDR_LO_ADDR : Fld := ⟨rTLY_SNAP_ADDR_LO, 0, 32⟩
abbrev rTLY_SNAP_ADDR_HI : Nat := 0xC8000C
abbrev TLY_SNAP_ADDR_HI_ADDR : Fld := ⟨rTLY_SNAP_ADDR_HI, 0, 32⟩
abbrev rTLY_SNAP_SCOPE : Nat := 0xC80010
abbrev TLY_SNAP_SCOPE_PORTS : Fld := ⟨rTLY_SNAP_SCOPE, 0, 1⟩
abbrev TLY_SNAP_SCOPE_EVENTS : Fld := ⟨rTLY_SNAP_SCOPE, 1, 1⟩
abbrev TLY_SNAP_SCOPE_STREAMS : Fld := ⟨rTLY_SNAP_SCOPE, 2, 1⟩
abbrev rTLY_SNAP_STRM : Nat := 0xC80014
abbrev TLY_SNAP_STRM_FIRST : Fld := ⟨rTLY_SNAP_STRM, 0, 16⟩
abbrev TLY_SNAP_STRM_COUNT : Fld := ⟨rTLY_SNAP_STRM, 16, 16⟩
abbrev rTLY_SNAP_STATUS : Nat := 0xC80018
abbrev TLY_SNAP_STATUS_BUSY : Fld := ⟨rTLY_SNAP_STATUS, 0, 1⟩
abbrev TLY_SNAP_STATUS_DONE : Fld := ⟨rTLY_SNAP_STATUS, 1, 1⟩
abbrev TLY_SNAP_STATUS_SEQ : Fld := ⟨rTLY_SNAP_STATUS, 16, 16⟩
abbrev rTLY_SNAP_SKIP : Nat := 0xC8001C
abbrev TLY_SNAP_SKIP_COUNT : Fld := ⟨rTLY_SNAP_SKIP, 0, 32⟩
abbrev rTLY_INT_STATUS : Nat := 0xC80020
abbrev TLY_INT_STATUS_SNAP_DONE : Fld := ⟨rTLY_INT_STATUS, 0, 1⟩
abbrev TLY_INT_STATUS_CARRY : Fld := ⟨rTLY_INT_STATUS, 1, 1⟩
abbrev TLY_INT_STATUS_SAMPLE : Fld := ⟨rTLY_INT_STATUS, 2, 1⟩
abbrev TLY_INT_STATUS_SNAP_SKIP : Fld := ⟨rTLY_INT_STATUS, 3, 1⟩
abbrev rTLY_INT_EN : Nat := 0xC80024
abbrev TLY_INT_EN_EN : Fld := ⟨rTLY_INT_EN, 0, 4⟩
abbrev rTLY_CARRY_PORTS (n : Nat) : Nat := 0xC80028 + 0x4 * n
abbrev TLY_CARRY_PORTS_PORTS (n : Nat) : Fld := ⟨rTLY_CARRY_PORTS n, 0, 32⟩
abbrev rTLY_STRM_SEL : Nat := 0xC80040
abbrev TLY_STRM_SEL_HANDLE : Fld := ⟨rTLY_STRM_SEL, 0, 16⟩
abbrev rTLY_STRM_CNT_LO (k : Nat) : Nat := 0xC80048 + 0x8 * k
abbrev TLY_STRM_CNT_LO_VALUE (k : Nat) : Fld := ⟨rTLY_STRM_CNT_LO k, 0, 32⟩
abbrev rTLY_STRM_CNT_HI (k : Nat) : Nat := 0xC8004C + 0x8 * k
abbrev TLY_STRM_CNT_HI_VALUE (k : Nat) : Fld := ⟨rTLY_STRM_CNT_HI k, 0, 16⟩
abbrev TLY_STRM_CNT_HI_CARRY (k : Nat) : Fld := ⟨rTLY_STRM_CNT_HI k, 31, 1⟩
abbrev rTLY_P_BW_RX (p : Nat) : Nat := 0xC90800 + 0x1000 * p
abbrev TLY_P_BW_RX_MBPS (p : Nat) : Fld := ⟨rTLY_P_BW_RX p, 0, 20⟩
abbrev rTLY_P_BW_TX (p : Nat) : Nat := 0xC90804 + 0x1000 * p
abbrev TLY_P_BW_TX_MBPS (p : Nat) : Fld := ⟨rTLY_P_BW_TX p, 0, 20⟩
abbrev rTLY_P_PEAK_RX (p : Nat) : Nat := 0xC90808 + 0x1000 * p
abbrev TLY_P_PEAK_RX_MBPS (p : Nat) : Fld := ⟨rTLY_P_PEAK_RX p, 0, 20⟩
abbrev rTLY_P_PEAK_TX (p : Nat) : Nat := 0xC9080C + 0x1000 * p
abbrev TLY_P_PEAK_TX_MBPS (p : Nat) : Fld := ⟨rTLY_P_PEAK_TX p, 0, 20⟩
abbrev rTLY_Q_EVT_CFG (q : Nat) (n : Nat) : Nat := 0xC81000 + 0x1000 * q + 0x40 * n
abbrev TLY_Q_EVT_CFG_EVENT (q : Nat) (n : Nat) : Fld := ⟨rTLY_Q_EVT_CFG q n, 0, 6⟩
abbrev TLY_Q_EVT_CFG_PORT (q : Nat) (n : Nat) : Fld := ⟨rTLY_Q_EVT_CFG q n, 8, 7⟩
abbrev TLY_Q_EVT_CFG_POS (q : Nat) (n : Nat) : Fld := ⟨rTLY_Q_EVT_CFG q n, 16, 4⟩
abbrev TLY_Q_EVT_CFG_EN (q : Nat) (n : Nat) : Fld := ⟨rTLY_Q_EVT_CFG q n, 24, 1⟩
abbrev TLY_Q_EVT_CFG_SAMPLE_EN (q : Nat) (n : Nat) : Fld := ⟨rTLY_Q_EVT_CFG q n, 25, 1⟩
abbrev rTLY_Q_EVT_PERIOD (q : Nat) (n : Nat) : Nat := 0xC81004 + 0x1000 * q + 0x40 * n
abbrev TLY_Q_EVT_PERIOD_EVENTS (q : Nat) (n : Nat) : Fld := ⟨rTLY_Q_EVT_PERIOD q n, 0, 24⟩
abbrev rTLY_Q_EVT_LO (q : Nat) (n : Nat) : Nat := 0xC81008 + 0x1000 * q + 0x40 * n
abbrev TLY_Q_EVT_LO_VALUE (q : Nat) (n : Nat) : Fld := ⟨rTLY_Q_EVT_LO q n, 0, 32⟩
abbrev rTLY_Q_EVT_HI (q : Nat) (n : Nat) : Nat := 0xC8100C + 0x1000 * q + 0x40 * n
abbrev TLY_Q_EVT_HI_VALUE (q : Nat) (n : Nat) : Fld := ⟨rTLY_Q_EVT_HI q n, 0, 16⟩
abbrev TLY_Q_EVT_HI_CARRY (q : Nat) (n : Nat) : Fld := ⟨rTLY_Q_EVT_HI q n, 31, 1⟩
abbrev rTLY_Q_EVT_SAMPLES (q : Nat) (n : Nat) : Nat := 0xC81010 + 0x1000 * q + 0x40 * n
abbrev TLY_Q_EVT_SAMPLES_COUNT (q : Nat) (n : Nat) : Fld := ⟨rTLY_Q_EVT_SAMPLES q n, 0, 32⟩
abbrev rTLY_Q_SAMPLE_SRC (q : Nat) : Nat := 0xC81800 + 0x1000 * q
abbrev TLY_Q_SAMPLE_SRC_TALLY (q : Nat) : Fld := ⟨rTLY_Q_SAMPLE_SRC q, 0, 5⟩
abbrev TLY_Q_SAMPLE_SRC_ENGINE (q : Nat) : Fld := ⟨rTLY_Q_SAMPLE_SRC q, 8, 5⟩
abbrev TLY_Q_SAMPLE_SRC_VALID (q : Nat) : Fld := ⟨rTLY_Q_SAMPLE_SRC q, 31, 1⟩
abbrev rGLB_MODE : Nat := 0x8
abbrev GLB_MODE_MODE : Fld := ⟨rGLB_MODE, 0, 4⟩
abbrev GLB_MODE_TRANSITION : Fld := ⟨rGLB_MODE, 4, 1⟩
abbrev GLB_MODE_SEALED : Fld := ⟨rGLB_MODE, 5, 1⟩
abbrev GLB_MODE_SENIOR : Fld := ⟨rGLB_MODE, 6, 1⟩
abbrev GLB_MODE_TWIN : Fld := ⟨rGLB_MODE, 8, 3⟩
abbrev GLB_MODE_ISOLATED : Fld := ⟨rGLB_MODE, 11, 1⟩
abbrev GLB_MODE_FAULT : Fld := ⟨rGLB_MODE, 12, 1⟩
abbrev rGLB_INT_STATUS : Nat := 0xC
abbrev GLB_INT_STATUS_MODE_CHG : Fld := ⟨rGLB_INT_STATUS, 0, 1⟩
abbrev GLB_INT_STATUS_IMG_EVENT : Fld := ⟨rGLB_INT_STATUS, 1, 1⟩
abbrev rGLB_INT_EN : Nat := 0x10
abbrev GLB_INT_EN_EN : Fld := ⟨rGLB_INT_EN, 0, 2⟩
abbrev rGLB_INT_SRC : Nat := 0x14
abbrev GLB_INT_SRC_VECTORS : Fld := ⟨rGLB_INT_SRC, 0, 13⟩
abbrev rGLB_SCRATCH : Nat := 0x18
abbrev GLB_SCRATCH_DATA : Fld := ⟨rGLB_SCRATCH, 0, 32⟩

/-- GLB registers (R3, R4, R556). -/
def glbRows : List RegRow := [
  ⟨0x0, 0x0, 1, [⟨0, 16, .ro, 0xA21⟩, ⟨16, 16, .ro, 0x2400⟩]⟩,
  ⟨0x4, 0x0, 1, [⟨0, 4, .ro, 0x1⟩, ⟨4, 4, .ro, 0x2⟩, ⟨8, 8, .ro, 0x18⟩]⟩,
  ⟨0x8, 0x0, 1, [⟨0, 4, .ro, 0x1⟩, ⟨4, 1, .ro, 0⟩, ⟨5, 1, .ro, 0⟩, ⟨6, 1, .ro, 0⟩, ⟨8, 3, .ro, 0x1⟩, ⟨11, 1, .ro, 0⟩, ⟨12, 1, .ro, 0x1⟩]⟩,
  ⟨0xC, 0x0, 1, [⟨0, 1, .w1c, 0⟩, ⟨1, 1, .w1c, 0⟩]⟩,
  ⟨0x10, 0x0, 1, [⟨0, 2, .rw, 0⟩]⟩,
  ⟨0x14, 0x0, 1, [⟨0, 13, .ro, 0⟩]⟩,
  ⟨0x18, 0x0, 1, [⟨0, 32, .rws, 0⟩]⟩]

/-- IMG registers (R57–R59). -/
def imgRows : List RegRow := [
  ⟨0x0, 0x0, 1, [⟨0, 1, .w1s, 0⟩, ⟨1, 1, .w1s, 0⟩, ⟨2, 2, .rw, 0⟩, ⟨4, 1, .w1s, 0⟩, ⟨5, 1, .w1s, 0⟩, ⟨6, 1, .w1s, 0⟩]⟩,
  ⟨0x4, 0x0, 1, [⟨0, 4, .ro, 0⟩, ⟨4, 1, .ro, 0⟩, ⟨5, 1, .ro, 0⟩, ⟨6, 1, .ro, 0⟩, ⟨7, 1, .ro, 0⟩, ⟨8, 8, .ro, 0⟩, ⟨16, 8, .ro, 0⟩, ⟨24, 8, .ro, 0⟩]⟩,
  ⟨0x8, 0x0, 1, [⟨0, 32, .rw, 0⟩]⟩,
  ⟨0xC, 0x0, 1, [⟨0, 32, .rw, 0⟩]⟩,
  ⟨0x10, 0x0, 1, [⟨0, 23, .rw, 0⟩]⟩,
  ⟨0x14, 0x0, 1, [⟨0, 16, .ro, 0⟩, ⟨16, 16, .ro, 0⟩]⟩,
  ⟨0x18, 0x0, 1, [⟨0, 8, .ro, 0x1⟩, ⟨8, 8, .ro, 0x2⟩, ⟨16, 16, .ro, 0⟩]⟩,
  ⟨0x1C, 0x0, 1, [⟨0, 4, .ro, 0⟩, ⟨4, 4, .ro, 0⟩, ⟨8, 6, .ro, 0⟩]⟩,
  ⟨0x20, 0x0, 1, [⟨0, 16, .ro, 0xFFFF⟩, ⟨16, 16, .ro, 0xFFFF⟩]⟩]

/-- AON registers (R86–R88). -/
def aonRows : List RegRow := [
  ⟨0x0, 0x0, 1, [⟨0, 4, .wo, 0⟩, ⟨16, 16, .wo, 0⟩]⟩,
  ⟨0x4, 0x0, 1, [⟨0, 4, .ro, 0x1⟩, ⟨4, 4, .ro, 0⟩, ⟨8, 2, .ro, 0⟩, ⟨10, 1, .ro, 0⟩, ⟨11, 1, .ro, 0⟩, ⟨12, 1, .w1c, 0⟩, ⟨13, 1, .ro, 0⟩]⟩,
  ⟨0x8, 0x0, 1, [⟨0, 8, .rw, 0⟩, ⟨8, 8, .rw, 0⟩, ⟨16, 4, .rw, 0⟩, ⟨20, 1, .rw, 0⟩, ⟨21, 1, .rw, 0⟩]⟩,
  ⟨0x20, 0x4, 8, [⟨0, 5, .rw, 0⟩, ⟨8, 1, .rw, 0⟩, ⟨16, 1, .ro, 0⟩]⟩,
  ⟨0x40, 0x0, 1, [⟨0, 8, .w1c, 0⟩, ⟨8, 8, .w1c, 0⟩, ⟨16, 1, .w1c, 0⟩, ⟨17, 1, .w1c, 0⟩]⟩,
  ⟨0x44, 0x0, 1, [⟨0, 32, .rw, 0⟩]⟩,
  ⟨0x48, 0x0, 1, [⟨0, 1, .ro, 0x1⟩, ⟨1, 1, .ro, 0⟩, ⟨2, 1, .ro, 0⟩, ⟨3, 1, .ro, 0⟩, ⟨4, 1, .ro, 0⟩]⟩,
  ⟨0x4C, 0x0, 1, [⟨0, 24, .ro, 0⟩]⟩,
  ⟨0x50, 0x0, 1, [⟨0, 32, .ro, 0⟩]⟩,
  ⟨0x54, 0x0, 1, [⟨0, 8, .ro, 0⟩]⟩]

/-- LAN registers of one lane (R125). -/
def lanRows : List RegRow := [
  ⟨0x0, 0x0, 1, [⟨0, 1, .rw, 0⟩, ⟨1, 1, .rw, 0x1⟩, ⟨2, 1, .w1s, 0⟩, ⟨8, 7, .rw, 0x50⟩]⟩,
  ⟨0x4, 0x0, 1, [⟨0, 1, .ro, 0⟩, ⟨1, 1, .ro, 0⟩, ⟨2, 1, .ro, 0⟩, ⟨3, 1, .ro, 0⟩, ⟨4, 1, .ro, 0⟩, ⟨5, 1, .ro, 0⟩, ⟨6, 1, .ro, 0⟩, ⟨8, 4, .ro, 0⟩]⟩,
  ⟨0x8, 0x0, 1, [⟨0, 32, .rc, 0⟩]⟩,
  ⟨0xC, 0x0, 1, [⟨0, 32, .rc, 0⟩]⟩,
  ⟨0x10, 0x0, 1, [⟨0, 16, .ro, 0⟩, ⟨16, 16, .ro, 0⟩]⟩]

/-- MAC registers of one port (R126). -/
def macRows : List RegRow := [
  ⟨0x0, 0x0, 1, [⟨0, 1, .rw, 0x1⟩, ⟨1, 1, .rw, 0x1⟩, ⟨2, 1, .rw, 0x1⟩, ⟨3, 1, .rw, 0x1⟩, ⟨4, 1, .rw, 0⟩, ⟨5, 1, .rw, 0⟩, ⟨6, 1, .w1s, 0⟩, ⟨16, 8, .rw, 0⟩]⟩,
  ⟨0x4, 0x0, 1, [⟨0, 1, .ro, 0⟩, ⟨1, 1, .ro, 0⟩, ⟨2, 1, .ro, 0⟩, ⟨3, 1, .ro, 0⟩, ⟨4, 1, .ro, 0⟩, ⟨5, 2, .ro, 0⟩, ⟨7, 1, .w1c, 0⟩, ⟨8, 8, .ro, 0⟩, ⟨16, 1, .ro, 0⟩]⟩,
  ⟨0x8, 0x0, 1, [⟨0, 10, .rw, 0xA⟩, ⟨16, 7, .rw, 0x1⟩]⟩,
  ⟨0xC, 0x0, 1, [⟨0, 24, .rw, 0xFAC688⟩]⟩,
  ⟨0x10, 0x0, 1, [⟨0, 16, .rw, 0xFFFF⟩, ⟨16, 16, .rw, 0x7FFF⟩]⟩,
  ⟨0x14, 0x0, 1, [⟨0, 8, .ro, 0⟩, ⟨8, 2, .rw, 0⟩, ⟨16, 7, .rw, 0xA⟩]⟩,
  ⟨0x18, 0x0, 1, [⟨0, 16, .rw, 0⟩, ⟨16, 16, .rw, 0⟩]⟩,
  ⟨0x40, 0x0, 1, [⟨0, 2, .rw, 0x2⟩, ⟨2, 1, .rw, 0x1⟩, ⟨3, 2, .rw, 0⟩, ⟨5, 1, .rw, 0x1⟩, ⟨6, 1, .rw, 0x1⟩, ⟨7, 1, .rw, 0x1⟩, ⟨8, 2, .rw, 0⟩]⟩,
  ⟨0x44, 0x4, 4, [⟨0, 16, .rw, 0⟩, ⟨16, 1, .rw, 0⟩]⟩,
  ⟨0x54, 0x0, 1, [⟨0, 2, .rw, 0⟩, ⟨2, 4, .rw, 0⟩]⟩,
  ⟨0x58, 0x4, 8, [⟨0, 32, .wo, 0⟩]⟩,
  ⟨0x78, 0x4, 3, [⟨0, 32, .wo, 0⟩]⟩,
  ⟨0x84, 0x0, 1, [⟨0, 32, .rw, 0⟩]⟩,
  ⟨0x88, 0x0, 1, [⟨0, 32, .rw, 0⟩]⟩,
  ⟨0x8C, 0x0, 1, [⟨0, 32, .rw, 0⟩]⟩,
  ⟨0x90, 0x0, 1, [⟨0, 32, .rw, 0⟩]⟩,
  ⟨0x94, 0x0, 1, [⟨0, 32, .rw, 0⟩]⟩,
  ⟨0x98, 0x0, 1, [⟨0, 30, .rw, 0⟩, ⟨31, 1, .rw, 0x1⟩]⟩,
  ⟨0x9C, 0x0, 1, [⟨0, 4, .rw, 0⟩, ⟨4, 4, .ro, 0⟩, ⟨8, 4, .w1c, 0⟩]⟩,
  ⟨0xA0, 0x0, 1, [⟨0, 32, .rw, 0⟩]⟩]

/-- MAC registers of P64, P66 and P67, which have no MAC: MAC_CTL bits [5:0] and the registers from 014h onward read 0 and ignore writes (R126). -/
def macRowsNoMac : List RegRow := [
  ⟨0x0, 0x0, 1, [⟨6, 1, .w1s, 0⟩, ⟨16, 8, .rw, 0⟩]⟩,
  ⟨0x4, 0x0, 1, [⟨0, 1, .ro, 0⟩, ⟨1, 1, .ro, 0⟩, ⟨2, 1, .ro, 0⟩, ⟨3, 1, .ro, 0⟩, ⟨4, 1, .ro, 0⟩, ⟨5, 2, .ro, 0⟩, ⟨7, 1, .w1c, 0⟩, ⟨8, 8, .ro, 0⟩, ⟨16, 1, .ro, 0⟩]⟩,
  ⟨0x8, 0x0, 1, [⟨0, 10, .rw, 0xA⟩, ⟨16, 7, .rw, 0x1⟩]⟩,
  ⟨0xC, 0x0, 1, [⟨0, 24, .rw, 0xFAC688⟩]⟩,
  ⟨0x10, 0x0, 1, [⟨0, 16, .rw, 0xFFFF⟩, ⟨16, 16, .rw, 0x7FFF⟩]⟩]

/-- Registers of one Hiostac engine (R148). -/
def hsqEngRows : List RegRow := [
  ⟨0x0, 0x0, 1, [⟨0, 3, .ro, 0⟩, ⟨3, 2, .ro, 0⟩, ⟨5, 1, .ro, 0⟩, ⟨8, 7, .ro, 0⟩, ⟨16, 7, .rc, 0⟩]⟩,
  ⟨0x4, 0x0, 1, [⟨0, 11, .rw, 0x7D0⟩, ⟨16, 11, .rw, 0xC8⟩]⟩,
  ⟨0x8, 0x0, 1, [⟨0, 32, .rc, 0⟩]⟩,
  ⟨0xC, 0x0, 1, [⟨0, 16, .ro, 0⟩, ⟨16, 4, .ro, 0⟩, ⟨20, 6, .ro, 0⟩, ⟨31, 1, .w1c, 0⟩]⟩,
  ⟨0x10, 0x0, 1, [⟨0, 32, .rc, 0⟩]⟩,
  ⟨0x20, 0x0, 1, [⟨0, 16, .ro, 0⟩, ⟨16, 4, .ro, 0⟩, ⟨20, 6, .ro, 0⟩, ⟨26, 1, .ro, 0⟩, ⟨31, 1, .w1c, 0⟩]⟩,
  ⟨0x24, 0x0, 1, [⟨0, 16, .rc, 0⟩]⟩]

/-- Registers of one ROM copy (R149). -/
def hsqRomRows : List RegRow := [
  ⟨0x0, 0x0, 1, [⟨0, 16, .ro, 0xB01⟩, ⟨16, 1, .ro, 0⟩, ⟨17, 1, .ro, 0⟩]⟩,
  ⟨0x4, 0x0, 1, [⟨0, 16, .rc, 0⟩, ⟨16, 16, .rc, 0⟩]⟩,
  ⟨0x100, 0x4, 64, [⟨0, 15, .rwl, 0⟩, ⟨16, 11, .rwl, 0⟩, ⟨31, 1, .rwl, 0⟩]⟩,
  ⟨0x2000, 0x4, 2048, [⟨0, 24, .rwl, 0⟩]⟩]

/-- Global parser registers (R167). -/
def prsRows : List RegRow := [
  ⟨0x0, 0x0, 1, [⟨0, 9, .ro, 0⟩, ⟨16, 5, .ro, 0⟩, ⟨24, 1, .ro, 0⟩]⟩,
  ⟨0x4, 0x0, 1, [⟨0, 9, .ro, 0⟩]⟩,
  ⟨0x8, 0x4, 8, [⟨0, 6, .ro, 0⟩, ⟨6, 2, .ro, 0⟩]⟩,
  ⟨0x28, 0x0, 1, [⟨0, 16, .rwg, 0x12B5⟩, ⟨16, 1, .rwg, 0x1⟩]⟩,
  ⟨0x2C, 0x0, 1, [⟨0, 16, .rwg, 0x3458⟩, ⟨16, 1, .rwg, 0x1⟩]⟩,
  ⟨0x30, 0x4, 8, [⟨0, 16, .rwg, 0⟩, ⟨16, 1, .rwg, 0⟩]⟩]

/-- Parser registers of one quadrant (R168). -/
def prsQRows : List RegRow := [
  ⟨0x0, 0x0, 1, [⟨0, 32, .rc, 0⟩]⟩,
  ⟨0x4, 0x0, 1, [⟨0, 32, .rc, 0⟩]⟩,
  ⟨0x8, 0x0, 1, [⟨0, 32, .rc, 0⟩]⟩,
  ⟨0xC, 0x0, 1, [⟨0, 7, .ro, 0⟩, ⟨8, 3, .ro, 0⟩, ⟨12, 4, .ro, 0⟩, ⟨16, 8, .ro, 0⟩, ⟨31, 1, .w1c, 0⟩]⟩,
  ⟨0x10, 0x0, 1, [⟨0, 12, .rc, 0⟩]⟩]

/-- Global CLS registers (R200). -/
def clsRows : List RegRow := [
  ⟨0x0, 0x0, 1, [⟨0, 16, .ro, 0x1⟩, ⟨16, 16, .ro, 0x2⟩]⟩,
  ⟨0x4, 0x0, 1, [⟨0, 1, .w1s, 0⟩, ⟨1, 1, .w1s, 0⟩]⟩,
  ⟨0x8, 0x0, 1, [⟨0, 3, .ro, 0⟩, ⟨16, 16, .ro, 0x1⟩]⟩,
  ⟨0xC, 0x0, 1, [⟨0, 3, .ro, 0x1⟩, ⟨8, 8, .ro, 0x2⟩, ⟨16, 16, .ro, 0x1⟩]⟩,
  ⟨0x10, 0x4, 8, [⟨0, 16, .ro, 0⟩, ⟨16, 12, .ro, 0⟩, ⟨28, 1, .ro, 0⟩, ⟨29, 1, .ro, 0⟩, ⟨30, 1, .ro, 0⟩, ⟨31, 1, .ro, 0⟩]⟩,
  ⟨0x30, 0x0, 1, [⟨0, 19, .ro, 0⟩]⟩,
  ⟨0x34, 0x0, 1, [⟨0, 32, .ro, 0⟩]⟩,
  ⟨0x38, 0x0, 1, [⟨0, 32, .ro, 0⟩]⟩,
  ⟨0x3C, 0x0, 1, [⟨0, 16, .rc, 0⟩]⟩,
  ⟨0x40, 0x0, 1, [⟨0, 1, .w1c, 0⟩, ⟨1, 1, .w1c, 0⟩, ⟨2, 1, .w1c, 0⟩, ⟨3, 1, .w1c, 0⟩, ⟨4, 1, .w1c, 0⟩, ⟨5, 1, .w1c, 0⟩]⟩,
  ⟨0x44, 0x0, 1, [⟨0, 6, .rw, 0⟩]⟩,
  ⟨0x48, 0x0, 1, [⟨0, 32, .rc, 0⟩]⟩,
  ⟨0x4C, 0x0, 1, [⟨0, 32, .ro, 0⟩]⟩,
  ⟨0x50, 0x0, 1, [⟨0, 32, .ro, 0⟩]⟩,
  ⟨0x54, 0x0, 1, [⟨0, 3, .ro, 0⟩]⟩]

/-- CLS registers of one quadrant (R201). -/
def clsQRows : List RegRow := [
  ⟨0x0, 0x4, 14, [⟨0, 3, .ro, 0⟩, ⟨8, 6, .ro, 0⟩, ⟨16, 3, .ro, 0⟩]⟩,
  ⟨0x40, 0x8, 14, [⟨0, 32, .rwg, 0⟩]⟩,
  ⟨0x44, 0x8, 14, [⟨0, 32, .rwg, 0⟩]⟩,
  ⟨0xC0, 0x0, 1, [⟨0, 32, .rc, 0⟩]⟩,
  ⟨0xC4, 0x0, 1, [⟨0, 32, .rc, 0⟩]⟩,
  ⟨0xC8, 0x0, 1, [⟨0, 16, .rc, 0⟩]⟩,
  ⟨0xCC, 0x0, 1, [⟨0, 32, .rc, 0⟩]⟩,
  ⟨0xD0, 0x0, 1, [⟨0, 32, .rc, 0⟩]⟩,
  ⟨0xD4, 0x0, 1, [⟨0, 32, .rc, 0⟩]⟩,
  ⟨0xD8, 0x0, 1, [⟨0, 32, .rc, 0⟩]⟩]

/-- Root slots of one tree table (R202). -/
def clsRootRows : List RegRow := [
  ⟨0x0, 0x8, 8, [⟨0, 24, .rw, 0⟩]⟩,
  ⟨0x4, 0x8, 8, [⟨0, 16, .rw, 0⟩]⟩]

/-- TCAM table registers (R219). -/
def asmTblRows : List RegRow := [
  ⟨0x0, 0x0, 1, [⟨0, 1, .ro, 0⟩, ⟨1, 1, .ro, 0⟩, ⟨2, 1, .rwg, 0⟩, ⟨4, 9, .rwg, 0⟩, ⟨16, 5, .ro, 0⟩]⟩]

/-- TCAM registers of one quadrant (R220). -/
def asmQRows : List RegRow := [
  ⟨0x0, 0x4, 24, [⟨0, 6, .ro, 0⟩, ⟨6, 1, .ro, 0⟩, ⟨7, 1, .ro, 0⟩, ⟨8, 1, .ro, 0⟩]⟩,
  ⟨0x60, 0x0, 1, [⟨0, 32, .rc, 0⟩]⟩,
  ⟨0x64, 0x0, 1, [⟨0, 32, .rc, 0⟩]⟩,
  ⟨0x68, 0x0, 1, [⟨0, 16, .rc, 0⟩]⟩,
  ⟨0x6C, 0x0, 1, [⟨0, 16, .rc, 0⟩]⟩,
  ⟨0x70, 0x0, 1, [⟨0, 32, .rc, 0⟩]⟩,
  ⟨0x74, 0x0, 1, [⟨0, 9, .ro, 0⟩, ⟨16, 5, .ro, 0⟩, ⟨31, 1, .w1c, 0⟩]⟩]

/-- Global FWD registers (R250). -/
def fwdRows : List RegRow := [
  ⟨0x0, 0x0, 1, [⟨0, 1, .rw, 0x1⟩, ⟨1, 1, .rw, 0⟩, ⟨8, 16, .rw, 0x3E8⟩]⟩,
  ⟨0x4, 0x0, 1, [⟨0, 32, .rw, 0xFFFFFFFF⟩]⟩,
  ⟨0x8, 0x0, 1, [⟨0, 32, .rw, 0xFFFFFFFF⟩]⟩,
  ⟨0xC, 0x0, 1, [⟨0, 4, .rw, 0xF⟩]⟩,
  ⟨0x10, 0x0, 1, [⟨0, 32, .rw, 0⟩]⟩,
  ⟨0x14, 0x0, 1, [⟨0, 32, .rw, 0⟩]⟩,
  ⟨0x18, 0x0, 1, [⟨0, 1, .rw, 0⟩, ⟨16, 16, .rw, 0x1⟩]⟩,
  ⟨0x1C, 0x0, 1, [⟨0, 16, .ro, 0⟩, ⟨16, 1, .ro, 0x1⟩]⟩,
  ⟨0x20, 0x0, 1, [⟨0, 16, .rw, 0⟩]⟩,
  ⟨0x24, 0x0, 1, [⟨0, 13, .ro, 0⟩]⟩,
  ⟨0x28, 0x0, 1, [⟨0, 32, .rc, 0⟩]⟩,
  ⟨0x2C, 0x0, 1, [⟨0, 32, .rc, 0⟩]⟩,
  ⟨0x30, 0x0, 1, [⟨0, 32, .rc, 0⟩]⟩,
  ⟨0x34, 0x0, 1, [⟨0, 32, .rc, 0⟩]⟩,
  ⟨0x38, 0x0, 1, [⟨0, 32, .rc, 0⟩]⟩,
  ⟨0x3C, 0x0, 1, [⟨0, 1, .w1c, 0⟩, ⟨1, 1, .w1c, 0⟩, ⟨2, 1, .w1c, 0⟩, ⟨3, 1, .w1c, 0⟩, ⟨4, 1, .w1c, 0⟩]⟩,
  ⟨0x40, 0x0, 1, [⟨0, 5, .rw, 0⟩]⟩,
  ⟨0x44, 0x0, 1, [⟨0, 32, .rw, 0xFFFFFFFF⟩]⟩,
  ⟨0x48, 0x0, 1, [⟨0, 32, .rw, 0xFFFFFFFF⟩]⟩,
  ⟨0x4C, 0x4, 5, [⟨0, 32, .rw, 0⟩]⟩,
  ⟨0x60, 0x0, 1, [⟨0, 32, .rw, 0⟩]⟩,
  ⟨0x64, 0x0, 1, [⟨0, 32, .rw, 0⟩]⟩,
  ⟨0x68, 0x0, 1, [⟨0, 6, .rw, 0⟩, ⟨6, 2, .rw, 0⟩, ⟨8, 1, .rw, 0⟩, ⟨9, 1, .w1s, 0⟩]⟩,
  ⟨0x6C, 0x0, 1, [⟨0, 3, .ro, 0⟩, ⟨8, 6, .ro, 0⟩]⟩,
  ⟨0x70, 0x0, 1, [⟨0, 18, .ro, 0⟩, ⟨18, 1, .ro, 0⟩, ⟨31, 1, .ro, 0⟩]⟩]

/-- FWD registers of one table (R251). -/
def fwdTblRows : List RegRow := [
  ⟨0x0, 0x0, 1, [⟨0, 32, .ro, 0⟩]⟩,
  ⟨0x4, 0x0, 1, [⟨0, 3, .ro, 0⟩, ⟨3, 1, .ro, 0⟩, ⟨8, 16, .ro, 0⟩]⟩,
  ⟨0x8, 0x0, 1, [⟨0, 1, .rwg, 0⟩, ⟨1, 1, .ro, 0⟩, ⟨2, 1, .ro, 0x1⟩, ⟨3, 1, .w1s, 0⟩, ⟨4, 1, .ro, 0⟩]⟩,
  ⟨0xC, 0x0, 1, [⟨0, 32, .rw, 0⟩]⟩,
  ⟨0x10, 0x0, 1, [⟨0, 32, .rw, 0⟩]⟩,
  ⟨0x14, 0x0, 1, [⟨0, 16, .rw, 0⟩]⟩,
  ⟨0x18, 0x0, 1, [⟨0, 19, .ro, 0⟩]⟩,
  ⟨0x1C, 0x0, 1, [⟨0, 32, .rc, 0⟩]⟩]

/-- FWD registers of one quadrant (R252). -/
def fwdQRows : List RegRow := [
  ⟨0x0, 0x0, 1, [⟨0, 4, .ro, 0⟩, ⟨4, 1, .ro, 0⟩]⟩,
  ⟨0x4, 0x0, 1, [⟨0, 32, .rc, 0⟩]⟩,
  ⟨0x8, 0x0, 1, [⟨0, 32, .rc, 0⟩]⟩,
  ⟨0xC, 0x0, 1, [⟨0, 32, .rc, 0⟩]⟩,
  ⟨0x10, 0x0, 1, [⟨0, 32, .rc, 0⟩]⟩,
  ⟨0x14, 0x0, 1, [⟨0, 32, .rc, 0⟩]⟩,
  ⟨0x18, 0x0, 1, [⟨0, 32, .rc, 0⟩]⟩,
  ⟨0x1C, 0x0, 1, [⟨0, 32, .rc, 0⟩]⟩]

/-- Global bead pool registers (R280). -/
def bpmRows : List RegRow := [
  ⟨0x0, 0x0, 1, [⟨0, 19, .ro, 0x40000⟩]⟩,
  ⟨0x4, 0x0, 1, [⟨0, 19, .ro, 0x40000⟩]⟩,
  ⟨0x8, 0x0, 1, [⟨0, 1, .w1c, 0⟩, ⟨1, 1, .w1c, 0⟩, ⟨2, 1, .w1c, 0⟩, ⟨3, 1, .w1c, 0⟩, ⟨4, 1, .w1c, 0⟩, ⟨5, 1, .w1c, 0⟩]⟩,
  ⟨0xC, 0x0, 1, [⟨0, 6, .rw, 0⟩]⟩,
  ⟨0x10, 0x0, 1, [⟨0, 16, .w1c, 0⟩]⟩,
  ⟨0x14, 0x0, 1, [⟨0, 32, .rc, 0⟩]⟩,
  ⟨0x18, 0x0, 1, [⟨0, 32, .rc, 0⟩]⟩,
  ⟨0x1C, 0x0, 1, [⟨0, 32, .rc, 0⟩]⟩,
  ⟨0x20, 0x0, 1, [⟨0, 32, .ro, 0⟩]⟩,
  ⟨0x24, 0x0, 1, [⟨0, 12, .ro, 0⟩, ⟨16, 2, .ro, 0⟩, ⟨18, 12, .ro, 0⟩, ⟨31, 1, .w1c, 0⟩]⟩]

/-- Registers of one bead pool (R281). -/
def bpmPoolRows : List RegRow := [
  ⟨0x0, 0x0, 1, [⟨0, 8, .ro, 0⟩, ⟨8, 1, .ro, 0⟩, ⟨9, 1, .ro, 0⟩, ⟨10, 3, .ro, 0⟩, ⟨16, 16, .ro, 0⟩]⟩,
  ⟨0x4, 0x0, 1, [⟨0, 19, .ro, 0⟩]⟩,
  ⟨0x8, 0x0, 1, [⟨0, 19, .ro, 0⟩]⟩,
  ⟨0xC, 0x0, 1, [⟨0, 19, .rwl, 0⟩]⟩,
  ⟨0x10, 0x0, 1, [⟨0, 19, .rwl, 0⟩]⟩,
  ⟨0x14, 0x0, 1, [⟨0, 19, .rwl, 0⟩]⟩,
  ⟨0x18, 0x0, 1, [⟨0, 16, .rw, 0x40⟩]⟩,
  ⟨0x1C, 0x0, 1, [⟨0, 19, .ro, 0⟩, ⟨30, 1, .ro, 0⟩, ⟨31, 1, .ro, 0⟩]⟩,
  ⟨0x20, 0x0, 1, [⟨0, 19, .rc, 0⟩]⟩,
  ⟨0x24, 0x0, 1, [⟨0, 32, .rc, 0⟩]⟩,
  ⟨0x28, 0x0, 1, [⟨0, 32, .rc, 0⟩]⟩,
  ⟨0x2C, 0x0, 1, [⟨0, 4, .ro, 0⟩]⟩]

/-- Global switch core registers (R282). -/
def swcRows : List RegRow := [
  ⟨0x0, 0x0, 1, [⟨0, 1, .rw, 0x1⟩, ⟨16, 16, .ro, 0⟩]⟩,
  ⟨0x4, 0x0, 1, [⟨0, 16, .rw, 0x2000⟩, ⟨16, 16, .rw, 0x800⟩]⟩,
  ⟨0x8, 0x0, 1, [⟨0, 24, .ro, 0⟩]⟩,
  ⟨0xC, 0x0, 1, [⟨0, 32, .rc, 0⟩]⟩,
  ⟨0x10, 0x0, 1, [⟨0, 32, .rc, 0⟩]⟩]

/-- Switch core registers of one port (R283). -/
def swcPortRows : List RegRow := [
  ⟨0x0, 0x0, 1, [⟨0, 10, .rw, 0⟩, ⟨16, 2, .ro, 0⟩]⟩,
  ⟨0x4, 0x0, 1, [⟨0, 20, .ro, 0⟩]⟩,
  ⟨0x8, 0x0, 1, [⟨0, 1, .rw, 0x1⟩]⟩,
  ⟨0x20, 0x4, 8, [⟨0, 19, .ro, 0⟩]⟩,
  ⟨0x40, 0x4, 8, [⟨0, 24, .ro, 0⟩]⟩]

/-- Global time registers (R299). -/
def tsyRows : List RegRow := [
  ⟨0x0, 0x0, 1, [⟨0, 1, .rw, 0⟩]⟩,
  ⟨0x4, 0x0, 1, [⟨0, 1, .w1s, 0⟩]⟩,
  ⟨0x10, 0x0, 1, [⟨0, 32, .ro, 0⟩]⟩,
  ⟨0x14, 0x0, 1, [⟨0, 32, .ro, 0⟩]⟩,
  ⟨0x18, 0x0, 1, [⟨0, 16, .ro, 0⟩]⟩,
  ⟨0x20, 0x10, 2, [⟨0, 32, .ro, 0⟩]⟩,
  ⟨0x24, 0x10, 2, [⟨0, 32, .ro, 0⟩]⟩,
  ⟨0x28, 0x10, 2, [⟨0, 16, .ro, 0⟩]⟩,
  ⟨0x80, 0x0, 1, [⟨0, 32, .ro, 0⟩]⟩,
  ⟨0x84, 0x0, 1, [⟨0, 32, .ro, 0⟩]⟩,
  ⟨0x88, 0x0, 1, [⟨0, 16, .ro, 0⟩, ⟨30, 1, .w1c, 0⟩, ⟨31, 1, .w1c, 0⟩]⟩,
  ⟨0x8C, 0x0, 1, [⟨0, 1, .rw, 0⟩, ⟨1, 1, .rw, 0⟩, ⟨13, 19, .rw, 0x3E8⟩]⟩,
  ⟨0x90, 0x0, 1, [⟨0, 32, .rw, 0⟩]⟩,
  ⟨0xA0, 0x0, 1, [⟨0, 32, .ro, 0⟩]⟩,
  ⟨0xA4, 0x0, 1, [⟨0, 16, .ro, 0⟩]⟩,
  ⟨0xA8, 0x0, 1, [⟨0, 15, .ro, 0⟩]⟩,
  ⟨0xAC, 0x0, 1, [⟨0, 1, .w1s, 0⟩, ⟨1, 1, .rw, 0⟩]⟩,
  ⟨0xB0, 0x0, 1, [⟨0, 1, .w1c, 0⟩, ⟨1, 1, .w1c, 0⟩, ⟨2, 1, .w1c, 0⟩]⟩,
  ⟨0xB4, 0x0, 1, [⟨0, 3, .rw, 0⟩]⟩]

/-- Registers of one time domain (R300). -/
def tsyDomRows : List RegRow := [
  ⟨0x0, 0x0, 1, [⟨0, 7, .rw, 0⟩, ⟨8, 1, .rw, 0⟩]⟩,
  ⟨0x4, 0x0, 1, [⟨0, 32, .rw, 0⟩]⟩,
  ⟨0x8, 0x0, 1, [⟨0, 32, .rw, 0⟩]⟩,
  ⟨0xC, 0x0, 1, [⟨0, 1, .w1s, 0⟩, ⟨1, 1, .w1s, 0⟩, ⟨2, 1, .w1s, 0⟩]⟩,
  ⟨0x10, 0x0, 1, [⟨0, 32, .rw, 0⟩]⟩,
  ⟨0x14, 0x0, 1, [⟨0, 32, .rw, 0⟩]⟩,
  ⟨0x18, 0x0, 1, [⟨0, 16, .rw, 0⟩]⟩,
  ⟨0x1C, 0x0, 1, [⟨0, 1, .ro, 0⟩, ⟨16, 16, .rc, 0⟩]⟩]

/-- Timestamp FIFO registers of one port (R301); P64, P66 and P67 have none. -/
def tsyFifoRows : List RegRow := [
  ⟨0x0, 0x0, 1, [⟨0, 32, .ro, 0⟩]⟩,
  ⟨0x4, 0x0, 1, [⟨0, 32, .ro, 0⟩]⟩,
  ⟨0x8, 0x0, 1, [⟨0, 8, .rc, 0⟩, ⟨8, 3, .rc, 0⟩, ⟨16, 8, .rc, 0⟩, ⟨31, 1, .rc, 0⟩]⟩]

/-- Scheduler registers of one port P0–P63 with its gate control block (R330, R331). -/
def schPortRows : List RegRow := [
  ⟨0x0, 0x0, 1, [⟨0, 3, .ro, 0⟩]⟩,
  ⟨0x4, 0x0, 1, [⟨0, 32, .ro, 0⟩]⟩,
  ⟨0x8, 0x0, 1, [⟨0, 24, .rwg, 0xFAC688⟩, ⟨24, 3, .rwg, 0⟩, ⟨28, 1, .rwg, 0⟩]⟩,
  ⟨0xC, 0x4, 7, [⟨0, 30, .rwg, 0⟩]⟩,
  ⟨0x100, 0x20, 8, [⟨0, 16, .rw, 0⟩, ⟨16, 16, .rwl, 0⟩]⟩,
  ⟨0x104, 0x20, 8, [⟨0, 24, .rw, 0⟩]⟩,
  ⟨0x108, 0x20, 8, [⟨0, 30, .rwl, 0⟩, ⟨31, 1, .rwl, 0⟩]⟩,
  ⟨0x10C, 0x20, 8, [⟨0, 20, .ro, 0⟩]⟩,
  ⟨0x110, 0x20, 8, [⟨0, 3, .ro, 0⟩, ⟨3, 1, .ro, 0⟩, ⟨16, 16, .ro, 0⟩]⟩,
  ⟨0x114, 0x20, 8, [⟨0, 32, .ro, 0⟩]⟩,
  ⟨0x118, 0x20, 8, [⟨0, 32, .ro, 0⟩]⟩,
  ⟨0x11C, 0x20, 8, [⟨0, 30, .ro, 0⟩]⟩,
  ⟨0x40, 0x0, 1, [⟨0, 1, .rw, 0⟩, ⟨1, 1, .w1s, 0⟩, ⟨2, 1, .w1s, 0⟩, ⟨8, 11, .rw, 0x1⟩]⟩,
  ⟨0x44, 0x0, 1, [⟨0, 30, .rw, 0⟩]⟩,
  ⟨0x48, 0x0, 1, [⟨0, 32, .rw, 0⟩]⟩,
  ⟨0x4C, 0x0, 1, [⟨0, 16, .rw, 0⟩]⟩,
  ⟨0x50, 0x0, 1, [⟨0, 30, .rw, 0⟩]⟩,
  ⟨0x54, 0x0, 1, [⟨0, 1, .ro, 0⟩, ⟨1, 1, .w1c, 0⟩, ⟨2, 2, .ro, 0⟩, ⟨4, 1, .ro, 0⟩, ⟨8, 8, .ro, 0xFF⟩, ⟨16, 10, .ro, 0⟩]⟩,
  ⟨0x58, 0x0, 1, [⟨0, 32, .ro, 0⟩]⟩,
  ⟨0x5C, 0x0, 1, [⟨0, 32, .ro, 0⟩]⟩,
  ⟨0x60, 0x0, 1, [⟨0, 30, .ro, 0⟩]⟩,
  ⟨0x64, 0x0, 1, [⟨0, 11, .ro, 0⟩]⟩,
  ⟨0x68, 0x0, 1, [⟨0, 30, .ro, 0⟩]⟩,
  ⟨0x6C, 0x0, 1, [⟨0, 32, .ro, 0⟩]⟩]

/-- Scheduler registers of P64–P67: the priority map fields read 0 (R330). -/
def schPortRowsNoMap : List RegRow := [
  ⟨0x0, 0x0, 1, [⟨0, 3, .ro, 0⟩]⟩,
  ⟨0x4, 0x0, 1, [⟨0, 32, .ro, 0⟩]⟩,
  ⟨0x100, 0x20, 8, [⟨0, 16, .rw, 0⟩, ⟨16, 16, .rwl, 0⟩]⟩,
  ⟨0x104, 0x20, 8, [⟨0, 24, .rw, 0⟩]⟩,
  ⟨0x108, 0x20, 8, [⟨0, 30, .rwl, 0⟩, ⟨31, 1, .rwl, 0⟩]⟩,
  ⟨0x10C, 0x20, 8, [⟨0, 20, .ro, 0⟩]⟩,
  ⟨0x110, 0x20, 8, [⟨0, 3, .ro, 0⟩, ⟨3, 1, .ro, 0⟩, ⟨16, 16, .ro, 0⟩]⟩,
  ⟨0x114, 0x20, 8, [⟨0, 32, .ro, 0⟩]⟩,
  ⟨0x118, 0x20, 8, [⟨0, 32, .ro, 0⟩]⟩,
  ⟨0x11C, 0x20, 8, [⟨0, 30, .ro, 0⟩]⟩,
  ⟨0x40, 0x0, 1, [⟨0, 1, .rw, 0⟩, ⟨1, 1, .w1s, 0⟩, ⟨2, 1, .w1s, 0⟩, ⟨8, 11, .rw, 0x1⟩]⟩,
  ⟨0x44, 0x0, 1, [⟨0, 30, .rw, 0⟩]⟩,
  ⟨0x48, 0x0, 1, [⟨0, 32, .rw, 0⟩]⟩,
  ⟨0x4C, 0x0, 1, [⟨0, 16, .rw, 0⟩]⟩,
  ⟨0x50, 0x0, 1, [⟨0, 30, .rw, 0⟩]⟩,
  ⟨0x54, 0x0, 1, [⟨0, 1, .ro, 0⟩, ⟨1, 1, .w1c, 0⟩, ⟨2, 2, .ro, 0⟩, ⟨4, 1, .ro, 0⟩, ⟨8, 8, .ro, 0xFF⟩, ⟨16, 10, .ro, 0⟩]⟩,
  ⟨0x58, 0x0, 1, [⟨0, 32, .ro, 0⟩]⟩,
  ⟨0x5C, 0x0, 1, [⟨0, 32, .ro, 0⟩]⟩,
  ⟨0x60, 0x0, 1, [⟨0, 30, .ro, 0⟩]⟩,
  ⟨0x64, 0x0, 1, [⟨0, 11, .ro, 0⟩]⟩,
  ⟨0x68, 0x0, 1, [⟨0, 30, .ro, 0⟩]⟩,
  ⟨0x6C, 0x0, 1, [⟨0, 32, .ro, 0⟩]⟩]

/-- Global scheduler registers (R332). -/
def schRows : List RegRow := [
  ⟨0x0, 0x0, 1, [⟨0, 1, .w1c, 0⟩, ⟨1, 1, .w1c, 0⟩, ⟨2, 1, .w1c, 0⟩, ⟨3, 1, .w1c, 0⟩]⟩,
  ⟨0x4, 0x0, 1, [⟨0, 4, .rw, 0⟩]⟩,
  ⟨0x8, 0x0, 1, [⟨0, 32, .rc, 0⟩]⟩,
  ⟨0xC, 0x0, 1, [⟨0, 16, .ro, 0⟩, ⟨31, 1, .w1c, 0⟩]⟩]

/-- Gate control block of one stream gate (R331). -/
def gateRows : List RegRow := [
  ⟨0x0, 0x0, 1, [⟨0, 1, .rw, 0⟩, ⟨1, 1, .w1s, 0⟩, ⟨2, 1, .w1s, 0⟩, ⟨8, 11, .rw, 0x1⟩]⟩,
  ⟨0x4, 0x0, 1, [⟨0, 30, .rw, 0⟩]⟩,
  ⟨0x8, 0x0, 1, [⟨0, 32, .rw, 0⟩]⟩,
  ⟨0xC, 0x0, 1, [⟨0, 16, .rw, 0⟩]⟩,
  ⟨0x10, 0x0, 1, [⟨0, 30, .rw, 0x3B9ACA00⟩]⟩,
  ⟨0x14, 0x0, 1, [⟨0, 1, .ro, 0⟩, ⟨1, 1, .w1c, 0⟩, ⟨2, 2, .ro, 0⟩, ⟨4, 1, .ro, 0⟩, ⟨8, 8, .ro, 0x1⟩, ⟨16, 10, .ro, 0⟩]⟩,
  ⟨0x18, 0x0, 1, [⟨0, 32, .ro, 0⟩]⟩,
  ⟨0x1C, 0x0, 1, [⟨0, 32, .ro, 0⟩]⟩,
  ⟨0x20, 0x0, 1, [⟨0, 30, .ro, 0⟩]⟩,
  ⟨0x24, 0x0, 1, [⟨0, 11, .ro, 0⟩]⟩,
  ⟨0x28, 0x0, 1, [⟨0, 30, .ro, 0⟩]⟩,
  ⟨0x2C, 0x0, 1, [⟨0, 32, .ro, 0⟩]⟩]

/-- One rewrite profile, n = 1–255 (R351); the words of n = 0 read 0. -/
def egrProfRows : List RegRow := [
  ⟨0x0, 0x0, 1, [⟨0, 32, .rwg, 0⟩]⟩,
  ⟨0x4, 0x0, 1, [⟨0, 32, .rwg, 0⟩]⟩,
  ⟨0x8, 0x0, 1, [⟨0, 32, .rwg, 0⟩]⟩,
  ⟨0xC, 0x0, 1, [⟨0, 32, .rwg, 0⟩]⟩]

/-- Global egress registers (R352). -/
def egrRows : List RegRow := [
  ⟨0x0, 0x0, 1, [⟨0, 8, .rwg, 0⟩, ⟨16, 14, .rwg, 0⟩]⟩]

/-- Egress registers of one quadrant (R353). -/
def egrQRows : List RegRow := [
  ⟨0x0, 0x0, 1, [⟨0, 32, .rc, 0⟩]⟩,
  ⟨0x4, 0x0, 1, [⟨0, 32, .rc, 0⟩]⟩,
  ⟨0x8, 0x0, 1, [⟨0, 32, .rc, 0⟩]⟩,
  ⟨0xC, 0x0, 1, [⟨0, 12, .rc, 0⟩]⟩]

/-- Egress registers of one port (R354). -/
def egrPortRows : List RegRow := [
  ⟨0x0, 0x0, 1, [⟨0, 32, .rwg, 0⟩]⟩,
  ⟨0x4, 0x0, 1, [⟨0, 16, .rwg, 0⟩]⟩,
  ⟨0x8, 0x0, 1, [⟨0, 24, .rwg, 0xFAC688⟩]⟩,
  ⟨0xC, 0x0, 1, [⟨0, 30, .rwg, 0⟩]⟩,
  ⟨0x10, 0x0, 1, [⟨0, 18, .rwg, 0⟩]⟩]

/-- Twin registers (R388). -/
def twnRows : List RegRow := [
  ⟨0x0, 0x0, 1, [⟨0, 1, .w1s, 0⟩, ⟨1, 1, .w1s, 0⟩, ⟨2, 2, .rw, 0⟩, ⟨8, 4, .rw, 0x2⟩]⟩,
  ⟨0x4, 0x0, 1, [⟨0, 1, .ro, 0⟩, ⟨1, 4, .ro, 0x1⟩, ⟨8, 4, .ro, 0⟩, ⟨12, 4, .ro, 0xF⟩, ⟨16, 3, .ro, 0⟩, ⟨19, 1, .ro, 0⟩, ⟨20, 1, .ro, 0⟩, ⟨21, 1, .ro, 0⟩, ⟨24, 4, .ro, 0⟩]⟩,
  ⟨0x8, 0x0, 1, [⟨0, 16, .ro, 0⟩, ⟨16, 16, .ro, 0⟩]⟩,
  ⟨0xC, 0x0, 1, [⟨0, 1, .w1c, 0⟩, ⟨1, 1, .w1c, 0⟩, ⟨2, 1, .w1c, 0⟩, ⟨3, 1, .w1c, 0⟩, ⟨4, 1, .w1c, 0⟩, ⟨5, 1, .w1c, 0⟩, ⟨6, 1, .w1c, 0⟩, ⟨7, 1, .w1c, 0⟩]⟩,
  ⟨0x10, 0x0, 1, [⟨0, 8, .rw, 0⟩]⟩,
  ⟨0x14, 0x0, 1, [⟨0, 4, .ro, 0⟩]⟩,
  ⟨0x18, 0x0, 1, [⟨0, 3, .ro, 0⟩, ⟨4, 3, .ro, 0x1⟩, ⟨8, 3, .ro, 0x2⟩, ⟨12, 3, .ro, 0x3⟩, ⟨16, 3, .ro, 0x4⟩, ⟨20, 4, .ro, 0⟩]⟩,
  ⟨0x1C, 0x0, 1, [⟨0, 32, .rc, 0⟩]⟩,
  ⟨0x20, 0x0, 1, [⟨0, 16, .rc, 0⟩]⟩,
  ⟨0x24, 0x0, 1, [⟨0, 32, .rc, 0⟩]⟩,
  ⟨0x28, 0x0, 1, [⟨0, 32, .rc, 0⟩]⟩,
  ⟨0x2C, 0x0, 1, [⟨0, 32, .rc, 0⟩]⟩,
  ⟨0x30, 0x0, 1, [⟨0, 16, .rw, 0x64⟩]⟩,
  ⟨0x34, 0x0, 1, [⟨0, 16, .ro, 0⟩, ⟨31, 1, .w1c, 0⟩]⟩,
  ⟨0x38, 0x0, 1, [⟨0, 6, .ro, 0⟩, ⟨8, 3, .ro, 0⟩, ⟨31, 1, .w1c, 0⟩]⟩,
  ⟨0x3C, 0x0, 1, [⟨0, 8, .ro, 0⟩, ⟨8, 8, .ro, 0⟩]⟩,
  ⟨0x40, 0x0, 1, [⟨0, 32, .ro, 0⟩]⟩,
  ⟨0x44, 0x0, 1, [⟨0, 32, .ro, 0⟩]⟩,
  ⟨0x48, 0x0, 1, [⟨0, 16, .ro, 0⟩]⟩,
  ⟨0x4C, 0x0, 1, [⟨0, 32, .ro, 0⟩]⟩,
  ⟨0x50, 0x0, 1, [⟨0, 32, .ro, 0⟩]⟩,
  ⟨0x54, 0x0, 1, [⟨0, 1, .ro, 0⟩, ⟨1, 1, .ro, 0⟩, ⟨2, 1, .ro, 0⟩, ⟨31, 1, .ro, 0⟩]⟩,
  ⟨0x58, 0x0, 1, [⟨0, 32, .rw, 0⟩]⟩,
  ⟨0x5C, 0x0, 1, [⟨0, 32, .rw, 0⟩]⟩]

/-- Global DRAM registers (R417). -/
def drcRows : List RegRow := [
  ⟨0x0, 0x0, 1, [⟨0, 2, .ro, 0⟩, ⟨2, 1, .ro, 0⟩, ⟨8, 5, .ro, 0⟩, ⟨16, 8, .ro, 0⟩]⟩,
  ⟨0x4, 0x0, 1, [⟨0, 6, .ro, 0⟩, ⟨8, 6, .ro, 0⟩]⟩,
  ⟨0x10, 0x8, 7, [⟨0, 32, .ro, 0⟩]⟩,
  ⟨0x14, 0x8, 7, [⟨0, 8, .ro, 0⟩]⟩,
  ⟨0x48, 0x0, 1, [⟨0, 16, .ro, 0⟩]⟩,
  ⟨0x4C, 0x0, 1, [⟨0, 15, .rw, 0⟩]⟩,
  ⟨0x50, 0x0, 1, [⟨0, 1, .w1s, 0⟩, ⟨1, 3, .rw, 0⟩, ⟨4, 1, .w1s, 0⟩, ⟨5, 1, .w1s, 0⟩]⟩,
  ⟨0x54, 0x0, 1, [⟨0, 1, .ro, 0⟩, ⟨1, 1, .ro, 0⟩, ⟨2, 1, .ro, 0⟩, ⟨3, 1, .ro, 0⟩, ⟨4, 3, .ro, 0⟩, ⟨7, 1, .ro, 0x1⟩, ⟨8, 2, .ro, 0⟩, ⟨10, 2, .ro, 0⟩, ⟨12, 10, .ro, 0⟩]⟩,
  ⟨0x58, 0x0, 1, [⟨0, 1, .w1c, 0⟩, ⟨1, 1, .w1c, 0⟩, ⟨2, 1, .w1c, 0⟩, ⟨3, 1, .w1c, 0⟩, ⟨4, 1, .w1c, 0⟩]⟩,
  ⟨0x5C, 0x0, 1, [⟨0, 5, .rw, 0⟩]⟩,
  ⟨0x60, 0x0, 1, [⟨0, 16, .ro, 0⟩, ⟨16, 16, .ro, 0⟩]⟩,
  ⟨0x100, 0x4, 64, [⟨0, 16, .ro, 0⟩, ⟨16, 16, .ro, 0⟩]⟩]

/-- Registers of one DRAM channel (R418). -/
def drcChRows : List RegRow := [
  ⟨0x0, 0x0, 1, [⟨0, 2, .ro, 0⟩, ⟨2, 2, .ro, 0x3⟩, ⟨4, 1, .ro, 0⟩, ⟨8, 3, .ro, 0x2⟩, ⟨12, 3, .ro, 0x2⟩, ⟨16, 2, .ro, 0⟩, ⟨18, 1, .ro, 0x1⟩]⟩,
  ⟨0x4, 0x0, 1, [⟨0, 32, .rc, 0⟩]⟩,
  ⟨0x8, 0x0, 1, [⟨0, 32, .rc, 0⟩]⟩,
  ⟨0xC, 0x0, 1, [⟨0, 32, .rc, 0⟩]⟩,
  ⟨0x10, 0x0, 1, [⟨0, 26, .ro, 0⟩, ⟨26, 1, .ro, 0⟩, ⟨27, 1, .ro, 0⟩, ⟨28, 3, .ro, 0⟩, ⟨31, 1, .w1c, 0⟩]⟩,
  ⟨0x14, 0x0, 1, [⟨0, 16, .ro, 0xF42⟩, ⟨16, 16, .ro, 0xF42⟩]⟩,
  ⟨0x18, 0x0, 1, [⟨0, 4, .ro, 0⟩, ⟨8, 4, .rc, 0⟩, ⟨16, 16, .rc, 0⟩]⟩,
  ⟨0x1C, 0x0, 1, [⟨0, 16, .ro, 0⟩, ⟨16, 16, .ro, 0⟩]⟩,
  ⟨0x20, 0x0, 1, [⟨0, 16, .rc, 0⟩]⟩]

/-- Global host interface registers (R447). -/
def hdmRows : List RegRow := [
  ⟨0x0, 0x0, 1, [⟨0, 4, .ro, 0⟩, ⟨8, 4, .ro, 0⟩]⟩,
  ⟨0x4, 0x0, 1, [⟨0, 1, .w1c, 0⟩, ⟨1, 1, .w1c, 0⟩, ⟨2, 1, .w1c, 0⟩, ⟨3, 1, .w1c, 0⟩]⟩,
  ⟨0x8, 0x0, 1, [⟨0, 4, .rw, 0⟩]⟩,
  ⟨0xC, 0x0, 1, [⟨0, 24, .rw, 0⟩]⟩,
  ⟨0x10, 0x0, 1, [⟨0, 4, .ro, 0⟩, ⟨4, 5, .ro, 0⟩, ⟨31, 1, .w1c, 0⟩]⟩,
  ⟨0x14, 0x0, 1, [⟨0, 32, .rc, 0⟩]⟩]

/-- Registers of one DMA channel (R448). -/
def hdmDmaRows : List RegRow := [
  ⟨0x0, 0x0, 1, [⟨0, 32, .rw, 0⟩]⟩,
  ⟨0x4, 0x0, 1, [⟨0, 32, .rw, 0⟩]⟩,
  ⟨0x8, 0x0, 1, [⟨0, 32, .rw, 0⟩]⟩,
  ⟨0xC, 0x0, 1, [⟨0, 32, .rw, 0⟩]⟩,
  ⟨0x10, 0x0, 1, [⟨0, 25, .rw, 0⟩]⟩,
  ⟨0x14, 0x0, 1, [⟨0, 1, .w1s, 0⟩, ⟨1, 1, .w1s, 0⟩, ⟨2, 1, .rw, 0x1⟩, ⟨3, 2, .rw, 0⟩, ⟨5, 2, .rw, 0⟩, ⟨7, 1, .rw, 0⟩, ⟨8, 1, .rw, 0⟩, ⟨9, 3, .ro, 0⟩]⟩,
  ⟨0x18, 0x0, 1, [⟨0, 1, .ro, 0⟩, ⟨1, 1, .w1c, 0⟩, ⟨2, 1, .ro, 0⟩, ⟨3, 1, .ro, 0⟩, ⟨4, 1, .ro, 0⟩, ⟨5, 1, .ro, 0⟩, ⟨6, 1, .ro, 0⟩, ⟨7, 1, .ro, 0⟩, ⟨8, 4, .ro, 0⟩]⟩,
  ⟨0x1C, 0x0, 1, [⟨0, 32, .ro, 0⟩]⟩,
  ⟨0x20, 0x0, 1, [⟨0, 25, .ro, 0⟩]⟩]

/-- Registers of one ring (R449). -/
def hdmRingRows : List RegRow := [
  ⟨0x0, 0x0, 1, [⟨0, 32, .rw, 0⟩]⟩,
  ⟨0x4, 0x0, 1, [⟨0, 32, .rw, 0⟩]⟩,
  ⟨0x8, 0x0, 1, [⟨0, 1, .rw, 0⟩, ⟨8, 5, .rw, 0x6⟩, ⟨16, 8, .rw, 0⟩, ⟨24, 8, .rw, 0⟩]⟩,
  ⟨0xC, 0x0, 1, [⟨0, 16, .ro, 0⟩, ⟨16, 1, .ro, 0x1⟩]⟩,
  ⟨0x10, 0x0, 1, [⟨0, 32, .rw, 0⟩]⟩,
  ⟨0x14, 0x0, 1, [⟨0, 32, .rw, 0⟩]⟩,
  ⟨0x18, 0x0, 1, [⟨0, 1, .ro, 0⟩, ⟨1, 1, .ro, 0⟩]⟩,
  ⟨0x1C, 0x0, 1, [⟨0, 32, .rc, 0⟩]⟩,
  ⟨0x20, 0x0, 1, [⟨0, 32, .rc, 0⟩]⟩]

/-- Global fault registers (R482). -/
def fltRows : List RegRow := [
  ⟨0x0, 0x0, 1, [⟨0, 1, .rwl, 0⟩]⟩,
  ⟨0x4, 0x0, 1, [⟨0, 1, .ro, 0x1⟩, ⟨1, 1, .ro, 0⟩, ⟨2, 1, .ro, 0⟩, ⟨8, 6, .ro, 0⟩, ⟨16, 3, .ro, 0⟩]⟩,
  ⟨0x8, 0x0, 1, [⟨0, 32, .ro, 0⟩]⟩,
  ⟨0xC, 0x0, 1, [⟨0, 16, .ro, 0⟩]⟩,
  ⟨0x10, 0x0, 1, [⟨0, 32, .w1c, 0⟩]⟩,
  ⟨0x14, 0x0, 1, [⟨0, 16, .w1c, 0⟩]⟩,
  ⟨0x18, 0x0, 1, [⟨0, 32, .rw, 0⟩]⟩,
  ⟨0x1C, 0x0, 1, [⟨0, 16, .rw, 0⟩]⟩,
  ⟨0x20, 0x0, 1, [⟨0, 4, .ro, 0⟩, ⟨4, 1, .ro, 0⟩, ⟨5, 2, .ro, 0⟩, ⟨7, 1, .ro, 0⟩]⟩,
  ⟨0x24, 0x0, 1, [⟨0, 32, .ro, 0⟩]⟩,
  ⟨0x28, 0x0, 1, [⟨0, 32, .ro, 0⟩]⟩,
  ⟨0x2C, 0x0, 1, [⟨0, 16, .ro, 0⟩]⟩,
  ⟨0x30, 0x0, 1, [⟨0, 16, .ro, 0⟩]⟩,
  ⟨0x34, 0x0, 1, [⟨0, 9, .ro, 0⟩, ⟨31, 1, .ro, 0⟩]⟩,
  ⟨0x38, 0x0, 1, [⟨0, 9, .wo, 0⟩, ⟨31, 1, .w1s, 0⟩]⟩,
  ⟨0x3C, 0x0, 1, [⟨0, 32, .rc, 0⟩]⟩,
  ⟨0x40, 0x0, 1, [⟨0, 32, .rc, 0⟩]⟩]

/-- Registers of one fault group (R483). -/
def fltGrpRows : List RegRow := [
  ⟨0x0, 0x0, 1, [⟨0, 3, .rwl, 0⟩, ⟨8, 17, .rwl, 0⟩]⟩,
  ⟨0x4, 0x0, 1, [⟨0, 2, .ro, 0⟩, ⟨2, 1, .ro, 0⟩, ⟨3, 1, .ro, 0⟩, ⟨4, 9, .ro, 0⟩, ⟨16, 3, .ro, 0⟩]⟩,
  ⟨0x8, 0x0, 1, [⟨0, 1, .w1s, 0⟩, ⟨1, 2, .wo, 0⟩]⟩,
  ⟨0xC, 0x0, 1, [⟨0, 32, .rc, 0⟩]⟩,
  ⟨0x10, 0x0, 1, [⟨0, 17, .ro, 0⟩]⟩,
  ⟨0x14, 0x0, 1, [⟨0, 16, .rc, 0⟩, ⟨16, 16, .rc, 0⟩]⟩]

/-- Registers of one fault source (R484). -/
def fltSrcRows : List RegRow := [
  ⟨0x0, 0x0, 1, [⟨0, 8, .rwl, 0⟩, ⟨8, 24, .rwl, 0⟩]⟩,
  ⟨0x4, 0x0, 1, [⟨0, 32, .rc, 0⟩]⟩,
  ⟨0x8, 0x0, 1, [⟨0, 8, .ro, 0⟩, ⟨16, 1, .ro, 0⟩, ⟨17, 1, .ro, 0⟩]⟩,
  ⟨0xC, 0x0, 1, [⟨0, 16, .rc, 0⟩]⟩]

/-- Ageing registers (R500). -/
def ageRows : List RegRow := [
  ⟨0x0, 0x0, 1, [⟨0, 1, .rw, 0⟩, ⟨1, 1, .w1s, 0⟩]⟩,
  ⟨0x4, 0x0, 1, [⟨0, 10, .ro, 0⟩, ⟨16, 8, .ro, 0⟩, ⟨24, 8, .ro, 0⟩]⟩,
  ⟨0x8, 0x0, 1, [⟨0, 1, .ro, 0⟩, ⟨1, 1, .ro, 0⟩, ⟨2, 1, .ro, 0⟩, ⟨3, 1, .ro, 0⟩, ⟨4, 1, .ro, 0⟩, ⟨5, 1, .ro, 0⟩, ⟨6, 1, .ro, 0⟩, ⟨7, 1, .w1c, 0⟩, ⟨8, 3, .ro, 0⟩]⟩,
  ⟨0xC, 0x0, 1, [⟨0, 10, .ro, 0⟩, ⟨16, 10, .ro, 0⟩]⟩,
  ⟨0x10, 0x0, 1, [⟨0, 10, .ro, 0⟩, ⟨16, 10, .ro, 0⟩]⟩,
  ⟨0x14, 0x0, 1, [⟨0, 10, .ro, 0⟩, ⟨10, 6, .ro, 0⟩, ⟨16, 16, .ro, 0⟩]⟩,
  ⟨0x18, 0x0, 1, [⟨0, 8, .ro, 0⟩, ⟨8, 8, .ro, 0⟩, ⟨16, 3, .ro, 0⟩, ⟨20, 2, .ro, 0⟩]⟩,
  ⟨0x1C, 0x0, 1, [⟨0, 16, .ro, 0⟩, ⟨16, 16, .ro, 0⟩]⟩,
  ⟨0x20, 0x0, 1, [⟨0, 16, .rw, 0x64⟩]⟩,
  ⟨0x24, 0x0, 1, [⟨0, 16, .ro, 0xFFFF⟩, ⟨16, 16, .rw, 0x16D⟩]⟩,
  ⟨0x28, 0x0, 1, [⟨0, 24, .ro, 0⟩]⟩,
  ⟨0x2C, 0x0, 1, [⟨0, 5, .ro, 0⟩]⟩,
  ⟨0x30, 0x0, 1, [⟨0, 32, .rc, 0⟩]⟩,
  ⟨0x34, 0x0, 1, [⟨0, 1, .w1c, 0⟩, ⟨1, 1, .w1c, 0⟩, ⟨2, 1, .w1c, 0⟩]⟩,
  ⟨0x38, 0x0, 1, [⟨0, 3, .rw, 0⟩]⟩]

/-- Reading of one ring oscillator (R501). -/
def ageRoRows : List RegRow := [
  ⟨0x0, 0x0, 1, [⟨0, 16, .ro, 0⟩, ⟨16, 16, .ro, 0⟩]⟩]

/-- Cairn store registers (R520). -/
def crnRows : List RegRow := [
  ⟨0x0, 0x0, 1, [⟨0, 1, .w1s, 0⟩, ⟨1, 1, .w1s, 0⟩, ⟨2, 1, .rw, 0⟩, ⟨3, 1, .w1s, 0⟩]⟩,
  ⟨0x4, 0x0, 1, [⟨0, 4, .rws, 0x4⟩, ⟨8, 4, .rws, 0x2⟩, ⟨16, 8, .rws, 0xF0⟩]⟩,
  ⟨0x8, 0x0, 1, [⟨0, 17, .ro, 0⟩, ⟨17, 1, .ro, 0⟩, ⟨18, 1, .ro, 0⟩, ⟨19, 1, .ro, 0⟩, ⟨20, 1, .ro, 0⟩, ⟨24, 4, .ro, 0x2⟩]⟩,
  ⟨0xC, 0x0, 1, [⟨0, 8, .ro, 0x1⟩, ⟨8, 8, .ro, 0x2⟩]⟩,
  ⟨0x10, 0x0, 1, [⟨0, 16, .rw, 0⟩]⟩,
  ⟨0x14, 0x0, 1, [⟨0, 32, .ro, 0⟩]⟩,
  ⟨0x18, 0x0, 1, [⟨0, 32, .rc, 0⟩]⟩,
  ⟨0x1C, 0x0, 1, [⟨0, 32, .rc, 0⟩]⟩,
  ⟨0x20, 0x0, 1, [⟨0, 32, .rw, 0⟩]⟩,
  ⟨0x24, 0x0, 1, [⟨0, 32, .rw, 0⟩]⟩,
  ⟨0x28, 0x0, 1, [⟨0, 16, .rw, 0⟩]⟩,
  ⟨0x2C, 0x0, 1, [⟨0, 17, .ro, 0⟩]⟩,
  ⟨0x30, 0x0, 1, [⟨0, 1, .w1c, 0⟩, ⟨1, 1, .w1c, 0⟩, ⟨2, 1, .w1c, 0⟩, ⟨3, 1, .w1c, 0⟩, ⟨4, 1, .w1c, 0⟩]⟩,
  ⟨0x34, 0x0, 1, [⟨0, 5, .rw, 0⟩]⟩,
  ⟨0x40, 0x4, 8, [⟨0, 32, .wo, 0⟩]⟩,
  ⟨0x1000, 0x4, 1024, [⟨0, 32, .ro, 0⟩]⟩]

/-- Global tally registers (R532). -/
def tlyRows : List RegRow := [
  ⟨0x0, 0x0, 1, [⟨0, 1, .w1s, 0⟩, ⟨1, 1, .w1s, 0⟩, ⟨2, 1, .w1s, 0⟩, ⟨3, 1, .w1s, 0⟩, ⟨4, 1, .w1s, 0⟩]⟩,
  ⟨0x4, 0x0, 1, [⟨0, 10, .rw, 0x64⟩, ⟨16, 16, .rw, 0⟩]⟩,
  ⟨0x8, 0x0, 1, [⟨0, 32, .rw, 0⟩]⟩,
  ⟨0xC, 0x0, 1, [⟨0, 32, .rw, 0⟩]⟩,
  ⟨0x10, 0x0, 1, [⟨0, 1, .rw, 0x1⟩, ⟨1, 1, .rw, 0x1⟩, ⟨2, 1, .rw, 0⟩]⟩,
  ⟨0x14, 0x0, 1, [⟨0, 16, .rw, 0⟩, ⟨16, 16, .rw, 0⟩]⟩,
  ⟨0x18, 0x0, 1, [⟨0, 1, .ro, 0⟩, ⟨1, 1, .w1c, 0⟩, ⟨16, 16, .ro, 0⟩]⟩,
  ⟨0x1C, 0x0, 1, [⟨0, 32, .rc, 0⟩]⟩,
  ⟨0x20, 0x0, 1, [⟨0, 1, .w1c, 0⟩, ⟨1, 1, .w1c, 0⟩, ⟨2, 1, .w1c, 0⟩, ⟨3, 1, .w1c, 0⟩]⟩,
  ⟨0x24, 0x0, 1, [⟨0, 4, .rw, 0⟩]⟩,
  ⟨0x28, 0x4, 3, [⟨0, 32, .ro, 0⟩]⟩,
  ⟨0x40, 0x0, 1, [⟨0, 16, .rw, 0⟩]⟩,
  ⟨0x48, 0x8, 6, [⟨0, 32, .ro, 0⟩]⟩,
  ⟨0x4C, 0x8, 6, [⟨0, 16, .ro, 0⟩, ⟨31, 1, .w1c, 0⟩]⟩]

/-- Bandwidth registers of one port (R533). -/
def tlyBwRows : List RegRow := [
  ⟨0x800, 0x0, 1, [⟨0, 20, .ro, 0⟩]⟩,
  ⟨0x804, 0x0, 1, [⟨0, 20, .ro, 0⟩]⟩,
  ⟨0x808, 0x0, 1, [⟨0, 20, .rc, 0⟩]⟩,
  ⟨0x80C, 0x0, 1, [⟨0, 20, .rc, 0⟩]⟩]

/-- The tallies of one port (R521, R523): index i at 8 × i, _LO then _HI. -/
def tlyPortRows : List RegRow := [
  ⟨0x0, 0x8, 200, [⟨0, 32, .ro, 0⟩]⟩,
  ⟨0x4, 0x8, 200, [⟨0, 16, .ro, 0⟩, ⟨31, 1, .w1c, 0⟩]⟩] ++ tlyBwRows

/-- Event tallies of one quadrant (R534). -/
def tlyQRows : List RegRow := [
  ⟨0x0, 0x40, 32, [⟨0, 6, .rw, 0⟩, ⟨8, 7, .rw, 0x7F⟩, ⟨16, 4, .rw, 0xF⟩, ⟨24, 1, .rw, 0⟩, ⟨25, 1, .rw, 0⟩]⟩,
  ⟨0x4, 0x40, 32, [⟨0, 24, .rw, 0⟩]⟩,
  ⟨0x8, 0x40, 32, [⟨0, 32, .ro, 0⟩]⟩,
  ⟨0xC, 0x40, 32, [⟨0, 16, .ro, 0⟩, ⟨31, 1, .w1c, 0⟩]⟩,
  ⟨0x10, 0x40, 32, [⟨0, 32, .rc, 0⟩]⟩,
  ⟨0x800, 0x0, 1, [⟨0, 5, .ro, 0⟩, ⟨8, 5, .ro, 0⟩, ⟨31, 1, .w1c, 0⟩]⟩]

/-- BAR4 ring tails and mailbox (R451). -/
def bar4Rows : List RegRow := [
  ⟨0x0, 0x8, 16, [⟨0, 16, .rw, 0⟩]⟩,
  ⟨0x1000, 0x4, 256, [⟨0, 32, .rw, 0⟩]⟩,
  ⟨0x1400, 0x4, 256, [⟨0, 32, .ro, 0⟩]⟩,
  ⟨0x1800, 0x0, 1, [⟨0, 1, .w1s, 0⟩]⟩,
  ⟨0x1804, 0x0, 1, [⟨0, 1, .ro, 0⟩, ⟨1, 1, .w1c, 0⟩, ⟨4, 4, .ro, 0⟩]⟩]

/-- The blocks of BAR0 (R553). -/
def bar0Groups : List RegGrp := [
  ⟨0x0, 0x10000, 1, glbRows⟩,
  ⟨0x10000, 0x10000, 1, imgRows⟩,
  ⟨0x20000, 0x10000, 1, aonRows⟩,
  ⟨0x100000, 0x1000, 24, lanRows⟩,
  ⟨0x140000, 0x1000, 5, lanRows⟩,
  ⟨0x200000, 0x1000, 64, macRows⟩,
  ⟨0x240000, 0x1000, 1, macRowsNoMac⟩,
  ⟨0x241000, 0x1000, 1, macRows⟩,
  ⟨0x242000, 0x1000, 2, macRowsNoMac⟩,
  ⟨0x300000, 0x1000, 17, hsqEngRows⟩,
  ⟨0x320000, 0x4000, 5, hsqRomRows⟩,
  ⟨0x340000, 0x1000, 1, prsRows⟩,
  ⟨0x341000, 0x1000, 4, prsQRows⟩,
  ⟨0x400000, 0x1000, 1, clsRows⟩,
  ⟨0x401000, 0x1000, 4, clsQRows⟩,
  ⟨0x408000, 0x40, 64, clsRootRows⟩,
  ⟨0x480000, 0x4, 64, asmTblRows⟩,
  ⟨0x481000, 0x1000, 4, asmQRows⟩,
  ⟨0x500000, 0x1000, 1, fwdRows⟩,
  ⟨0x501000, 0x20, 64, fwdTblRows⟩,
  ⟨0x508000, 0x1000, 4, fwdQRows⟩,
  ⟨0x600000, 0x1000, 1, bpmRows⟩,
  ⟨0x601000, 0x40, 16, bpmPoolRows⟩,
  ⟨0x640000, 0x1000, 1, swcRows⟩,
  ⟨0x641000, 0x100, 68, swcPortRows⟩,
  ⟨0x680000, 0x100, 1, tsyRows⟩,
  ⟨0x680100, 0x40, 2, tsyDomRows⟩,
  ⟨0x681000, 0x10, 64, tsyFifoRows⟩,
  ⟨0x681410, 0x10, 1, tsyFifoRows⟩,
  ⟨0x700000, 0x2000, 64, schPortRows⟩,
  ⟨0x780000, 0x2000, 4, schPortRowsNoMap⟩,
  ⟨0x788000, 0x1000, 1, schRows⟩,
  ⟨0x789000, 0x40, 256, gateRows⟩,
  ⟨0x800010, 0x10, 255, egrProfRows⟩,
  ⟨0x801000, 0x1000, 1, egrRows⟩,
  ⟨0x802000, 0x1000, 4, egrQRows⟩,
  ⟨0x810000, 0x20, 64, egrPortRows⟩,
  ⟨0x880000, 0x1000, 1, twnRows⟩,
  ⟨0x900000, 0x1000, 1, drcRows⟩,
  ⟨0x901000, 0x1000, 4, drcChRows⟩,
  ⟨0xA00000, 0x1000, 1, hdmRows⟩,
  ⟨0xA01000, 0x40, 32, hdmDmaRows⟩,
  ⟨0xA02000, 0x40, 16, hdmRingRows⟩,
  ⟨0xB00000, 0x1000, 1, fltRows⟩,
  ⟨0xB01000, 0x20, 48, fltGrpRows⟩,
  ⟨0xB02000, 0x10, 412, fltSrcRows⟩,
  ⟨0xB80000, 0x100, 1, ageRows⟩,
  ⟨0xB80100, 0x4, 64, ageRoRows⟩,
  ⟨0xC00000, 0x2000, 1, crnRows⟩,
  ⟨0xC80000, 0x1000, 1, tlyRows⟩,
  ⟨0xC90000, 0x1000, 68, tlyPortRows⟩,
  ⟨0xC81000, 0x1000, 4, tlyQRows⟩]

/-- The blocks of BAR4 (R451). -/
def bar4Groups : List RegGrp := [⟨0x0, 0x2000, 1, bar4Rows⟩]

/-- The _LO registers of pairs that hold one quantity (R9): offset, stride and count of the block, stride and count of the row.
The _HI half stands at the next higher offset.  EGR_PORTp_DSCP_LO and _HI (R354) are not among them: their MAP is a table of 6-bit
values and not the low and high bits of one value (DESIGN CHOICE, assumption log 74). -/
def pairRows : List (Nat × Nat × Nat × Nat × Nat) := [
  (0x10008, 0x0, 1, 0x0, 1),
  (0x20050, 0x0, 1, 0x0, 1),
  (0x200088, 0x1000, 64, 0x0, 1),
  (0x200090, 0x1000, 64, 0x0, 1),
  (0x40004C, 0x0, 1, 0x0, 1),
  (0x401040, 0x1000, 4, 0x8, 14),
  (0x500010, 0x0, 1, 0x0, 1),
  (0x680014, 0x0, 1, 0x0, 1),
  (0x680024, 0x0, 1, 0x10, 2),
  (0x6800A0, 0x0, 1, 0x0, 1),
  (0x680114, 0x40, 2, 0x0, 1),
  (0x700048, 0x2000, 68, 0x0, 1),
  (0x789008, 0x40, 256, 0x0, 1),
  (0x810000, 0x20, 64, 0x0, 1),
  (0x880040, 0x0, 1, 0x0, 1),
  (0x88004C, 0x0, 1, 0x0, 1),
  (0x900010, 0x0, 1, 0x8, 7),
  (0xA01000, 0x40, 32, 0x0, 1),
  (0xA01008, 0x40, 32, 0x0, 1),
  (0xA02000, 0x40, 16, 0x0, 1),
  (0xA02010, 0x40, 16, 0x0, 1),
  (0xC00020, 0x0, 1, 0x0, 1),
  (0xC80008, 0x0, 1, 0x0, 1),
  (0xC80048, 0x0, 1, 0x8, 6),
  (0xC81008, 0x1000, 4, 0x40, 32),
  (0xC90000, 0x1000, 68, 0x8, 200)]

end Sys2Proof.Machine
end

