-- ==== Sys2Proof/Machine/Sparse.lean ====
section
/-!
DEFINITION. Machine/Sparse.lean: sparse maps kept as association lists in one canonical form (keys strictly rising, no
entry equal to what an unlisted key reads as), for register words, bytes of memory and counters kept by number; and
keyed updates of plain lists.
-/

namespace Sys2Proof.Machine

/-- What key `k` reads as: its entry, or the default `d k` where none is listed. -/
def sget {α : Type} (d : Nat → α) : List (Nat × α) → Nat → α
  | [], k => d k
  | (k', v) :: t, k => if k' = k then v else sget d t k

/-- Drop every entry of key `k`. -/
def sdel {α : Type} : List (Nat × α) → Nat → List (Nat × α)
  | [], _ => []
  | (k', v) :: t, k => if k' = k then sdel t k else (k', v) :: sdel t k

/-- Put an entry at key `k`, keeping the keys rising. -/
def sput {α : Type} : List (Nat × α) → Nat → α → List (Nat × α)
  | [], k, v => [(k, v)]
  | (k', v') :: t, k, v =>
    if k < k' then (k, v) :: (k', v') :: t
    else if k' = k then (k, v) :: t
    else (k', v') :: sput t k v

/-- Write `v` at key `k`: writing what an unlisted key reads as removes the entry. -/
def sset {α : Type} [DecidableEq α] (d : Nat → α) (m : List (Nat × α)) (k : Nat) (v : α) : List (Nat × α) :=
  if v = d k then sdel m k else sput m k v

/-- Every key of the list lies above `b`. -/
def keysAbove {α : Type} (b : Nat) : List (Nat × α) → Bool
  | [] => true
  | (k, _) :: t => decide (b < k) && keysAbove k t

/-- The keys rise strictly. -/
def keysRise {α : Type} : List (Nat × α) → Bool
  | [] => true
  | (k, _) :: t => keysAbove k t

/-- No entry equals what an unlisted key reads as. -/
def noDefault {α : Type} [DecidableEq α] (d : Nat → α) : List (Nat × α) → Bool
  | [] => true
  | (k, v) :: t => decide (v ≠ d k) && noDefault d t

/-- The canonical form of a sparse map. -/
def swf {α : Type} [DecidableEq α] (d : Nat → α) (m : List (Nat × α)) : Bool := keysRise m && noDefault d m

/-- What an unlisted byte of memory reads as (DESIGN CHOICE, assumption log 4). -/
def zeroByte (_ : Nat) : BitVec 8 := 0

/-- The canonical form of a memory of bytes: addresses strictly rising, no listed byte equal to what an unlisted address reads as. -/
def Memory.wf (m : List (Nat × BitVec 8)) : Bool := swf zeroByte m

/-- Read `n` bytes from address `a` upward. -/
def readBytes (m : List (Nat × BitVec 8)) (a : Nat) : Nat → List (BitVec 8)
  | 0 => []
  | n + 1 => sget zeroByte m a :: readBytes m (a + 1) n

/-- Write bytes from address `a` upward. -/
def writeBytes (m : List (Nat × BitVec 8)) (a : Nat) : List (BitVec 8) → List (Nat × BitVec 8)
  | [] => m
  | b :: t => writeBytes (sset zeroByte m a b) (a + 1) t

/-- The first element that satisfies `p`, replaced by its image under `f`. -/
def updFirst {α : Type} (p : α → Bool) (f : α → α) : List α → List α
  | [] => []
  | a :: t => if p a then f a :: t else a :: updFirst p f t

/-- Keep entries whose key satisfies `p`. -/
def keepKeys {α : Type} (p : Nat → Bool) (m : List (Nat × α)) : List (Nat × α) := m.filter (fun e => p e.1)

end Sys2Proof.Machine
end

