-- ==== Sys2Proof/Machine/State.lean ====
section
/-!
DEFINITION. Machine/State.lean: the state of the block.  The registers of BAR0 and BAR4 are words of two sparse files
(every register is named in Machine/RegMap.lean); the addressed memories are sparse byte lists; everything the spec names
that no register holds stands in the records below, one per unit.  All of it is plain data.
-/

namespace Sys2Proof.Machine

/-- Why the block could stop.  No command of this model raises one: the spec gives every command an effect. -/
inductive Fault where
  /-- Raised by no command and by no step: the block has no fault of its own that stops it (safe: nothing raises it). -/
  | none
  deriving DecidableEq, Repr

/-- Why a command could have no meaning. -/
inductive Refusal where
  /-- Raised by exec's arm of a command that has no meaning yet, with the command's mnemonic (safe: the block stops). -/
  | notModelled (mnemonic : String)
  deriving DecidableEq, Repr

/-- What the block sends out: the model's record of its outputs, newest first (DESIGN CHOICE, assumption log 9). -/
inductive Out where
  /-- An MSI-X message of a vector, with the instant at which it goes out (R424). -/
  | msix (vector at_ : Nat)
  /-- A posted write to host memory. -/
  | hostWrite (addr : Nat) (bytes : List Byte)
  /-- A Viram message on the rope: its header and its content, without the CRC-32 that the rope MAC adds (R360–R364). -/
  | rope (bytes : List Byte)
  /-- A copy that left a port: its bytes on the wire with the FCS, and whether it was tail-marked (R19). -/
  | frame (port : Nat) (bytes : List Byte) (bad : Bool)
  /-- What a front port's MAC sends of its own: 0 a pause and 1 a PFC frame, 2 a verify packet, 3 a wake burst, 4 remote fault begun (1) or
  ended (0); with its argument. -/
  | mac (port kind arg : Nat)
  /-- A PMBus command to the regulator of a rail. -/
  | pmbus (rail cmd value : Nat)
  /-- An edge of PPS_OUT (R297). -/
  | pps (level : Bool)
  /-- Bytes returned on the management port (R557). -/
  | i2c (bytes : List Byte)
  /-- A command to a DRAM rank: channel, rank, command code. -/
  | dram (channel rank cmd : Nat)
  deriving DecidableEq, Repr

/-- The OTP contents: programmed once, kept through every reset. -/
structure Otp where
  /-- Rilys 2416 (R1): L16–L23 fused off. -/
  is2416 : Bool
  /-- SHA-384 hashes of the image keys, four slots, empty when not programmed (R40, R41). -/
  keyHash : List (List Byte)
  /-- Revocation bits of the four slots. -/
  revoked : Nat
  /-- Epoch floor and raises used (R39). -/
  floor : Nat
  raises : Nat
  /-- The clearing key (R517). -/
  cairnKey : Option (List Byte)
  /-- The memory descriptor (R391): the words of DRC_GEOM, DRC_MAP_CFG and the DRC_MAP_MASK pairs; whether it was burned. -/
  desc : List (Nat × Word)
  descBurned : Bool
  /-- The core base voltage in mV (R492). -/
  baseMv : Nat
  deriving DecidableEq, Repr

/-- The kinds of Ascent (R65, R75). -/
inductive AscentKind where
  | none | cold | short
  deriving DecidableEq, Repr

/-- The mode controller and the always-on domain (R60–R88). -/
structure ModeSt where
  /-- The mode held before Service (R63). -/
  resume : Nat
  /-- The Ascent under way and the last step of R65 or R77 completed. -/
  ascent : AscentKind
  step : Nat
  /-- PORST_N held low, PWRGOOD high, the SENIOR strap as sampled (R65, R355, R540). -/
  porst : Bool
  pwrgood : Bool
  senior : Bool
  strap : Bool
  /-- Arrays written, DRAM open, PCIe link at L0, ROM signatures passed (R65). -/
  arrays : Bool
  dramOpen : Bool
  pcieUp : Bool
  romOk : Bool
  /-- The park sequence: 0 none, 1 sending queued frames, 2 waiting for the drain; its send limit (R69). -/
  park : Nat
  parkEnd : Nat
  /-- A park asked for during a reaction, and a wake latched during the park. -/
  parkWaits : Bool
  wakeLatched : Bool
  /-- Paired or Solo entered since PORST_N was released (R472). -/
  everRan : Bool
  /-- Earliest end of the present assertion of FAULT_N (R472). -/
  faultUntil : Nat
  /-- A mode entry to Paired or Solo is due as Abseil because a unit was isolated meanwhile. -/
  abseilDue : Bool
  /-- Admission stopped on every port (park, Hold, Service, leapfrog step 2). -/
  admitStop : Bool
  /-- Operating time accumulated and, outside Bivouac, when the present span began (R80). -/
  opBase : Nat
  opSince : Option Nat
  /-- Crystal stable check armed, 2 s after AON power-on (R540). -/
  xtal : Bool
  aonAt : Nat
  /-- Clock monitors armed (R65 step 2). -/
  clkMon : Bool
  /-- PCYCLE at a C4 Hold whose cairn is not yet written (R514). -/
  c4Hold : Option Nat
  /-- The retention store: valid, image digest, snapshot digest (of a layout the spec does not give: assumption log 5), generation,
  wrapping key present (R72). -/
  retValid : Bool
  retImage : List Byte
  retSnap : Nat
  retGen : Nat
  wrapKey : Bool
  /-- The lane equaliser settings of the retention store: the preset of each lane that was trained (R72, R96). -/
  retEq : List (Nat × Nat × List Int)
  /-- The rate of the lane of each armed detector (R74, R123). -/
  detRates : List (Nat × Nat)
  /-- Wake and rail timing. -/
  wakeAt : Nat
  railRetryAt : Nat
  deriving DecidableEq, Repr

/-- A fault reaction running or in its shadow (R461, R466). -/
structure Reaction where
  group : Nat
  source : Nat
  cls : Nat
  unit : FUnit
  escalated : Bool
  start : Nat
  /-- The local time of the event in ns (R473); the lanes and the quadrants of the ports that a lane or port reaction shadows (R466). -/
  evNs : Nat
  lanes : List Nat
  quads : List Nat
  /-- When it completed; its shadow ends the settle time later. -/
  done : Option Nat
  deriving DecidableEq, Repr

/-- The fault collector (R452–R475). -/
structure FaultSt where
  /-- WIN_START of each source (R455). -/
  winStart : List (Nat × Nat)
  /-- Belay deadlines by group (R457). -/
  belay : List (Nat × Nat)
  reactions : List Reaction
  /-- When the last shadow of a reaction for a source ended, and the class of that reaction (R464). -/
  shadowEnd : List (Nat × (Nat × Nat))
  /-- By group, the unit of its last severe event and the local time of that event in ns (R457, R462, R473). -/
  sevUnit : List (Nat × FUnit)
  sevNs : List (Nat × Nat)
  /-- The safety message sent on entry to Hold, which is repeated there (R473). -/
  holdMsg : List Byte
  /-- Quadrant restarts held as pending: quadrant and source (R465). -/
  pendRestart : List (Nat × Nat)
  /-- Isolated units that FLT_ISO does not name: DRAM channels, lanes, rope lanes (R462). -/
  isoUnits : List FUnit
  /-- The RWL values compared by FG45: the check stored at the seal, bad quadrants (R468). -/
  probeAt : List (Nat × Nat)
  /-- Per-source counts of the current record interval: events, consequential, severe (R507). -/
  accum : List (Nat × (Nat × Nat × Nat))
  deriving DecidableEq, Repr

/-- One cairn (R503) before it is laid out in its slot. -/
structure Cairn where
  kind : Nat
  flags : Nat
  key : Nat
  firstSec : Nat
  pcycle : Nat
  lastSec : Nat
  rep : Nat
  payload : List Byte
  deriving DecidableEq, Repr

/-- The cairn store (R502–R520). -/
structure CairnSt where
  /-- The MRAM: 65,536 slots of 64 bytes. -/
  mram : List Host.Cell
  /-- The recording queue of 256 entries (R510). -/
  queue : List Cairn
  /-- Histogram accumulators: queue depth bins of each port, temperature bins, extremes (R507). -/
  qBins : List (Nat × Nat)
  tBins : List (Nat × Nat)
  qPeak : List (Nat × Nat)
  resPeak : List (Nat × Nat)
  tLow : Int
  tHigh : Int
  tSensor : Nat
  nearFullDone : Bool
  /-- The clear: running, nonce outstanding, failed codes (R518, R519). -/
  nonce : Option Nat
  failCodes : Nat
  exportAddr : Nat
  exportEnd : Nat
  exportFrom : Nat
  exportNext : Nat
  deriving DecidableEq, Repr

/-- What a microword thread works for (R127). -/
inductive Target where
  | frame (fid : Nat)
  | copy (fid port : Nat)
  | task (kind : Nat)
  deriving DecidableEq, Repr

/-- A wait of a thread (R137–R139): condition, argument, TF, when it times out, and whether a word implied it. -/
structure WaitSt where
  wc : Nat
  arg : Nat
  tf : Bool
  deadline : Nat
  issuedAt : Nat
  implied : Bool
  /-- The address fetched for the waiting word. -/
  addr : Nat
  deriving DecidableEq, Repr

/-- A result slot of a thread (R132): empty, issued and not returned, or returned with its words. -/
inductive ResSlot where
  | empty
  | issued (table keySel issuedAt : Nat)
  | returned (words : List Nat)
  deriving DecidableEq, Repr

/-- A Hiostac thread (R132). -/
structure Thread where
  eng : Nat
  slot : Nat
  target : Target
  g : List Nat
  z : Bool
  n : Bool
  c : Bool
  eof : Bool
  rx : Bool
  tmo : Bool
  hp : Nat
  kc : Nat
  stack : List Nat
  results : List ResSlot
  /-- The address of the word the thread issues next, before any redirect. -/
  pc : Nat
  wait : Option WaitSt
  /-- Current parse-graph node (R153). -/
  node : Nat
  /-- LKP issued (R162). -/
  looked : Bool
  /-- Match registers in force when it started (R145). -/
  patched : Bool
  startAt : Nat
  /-- A redirected ROM address that it fetches again and again without another ROM word between (R144): the address, the first and the number
  of those fetches; and since when it stalls on a patch word that is being rewritten (R146). -/
  redir : Option (Nat × Nat × Nat)
  stallAt : Option Nat
  deriving DecidableEq, Repr

/-- A sample point waiting for its skid (R147, R528): the causing word, the words issued since, whether the thread ended, and
the event tally that asked. -/
structure Sample where
  eng : Nat
  slot : Nat
  addr : Nat
  skid : Nat
  ended : Bool
  quad : Nat
  tally : Nat
  deriving DecidableEq, Repr

/-- Where a frame stands in its ingress pass. -/
inductive FPhase where
  /-- Waiting for a parse slot (R129). -/
  | waiting
  /-- A parse thread runs. -/
  | parsing
  /-- The parse ended; the key set is held until the order of R130 allows its hand-over. -/
  | parsed
  /-- In front of an ingress station, or waiting for its lookup (R170). -/
  | station
  /-- After position 9, before resolution (R175). -/
  | resolving
  /-- The copy list is formed, before enqueue. -/
  | listed
  /-- Enqueued: the copies own the beads that passed to them. -/
  | enqueued
  /-- Dropped before its end; its last byte is still awaited. -/
  | dropped
  deriving DecidableEq, Repr

/-- The fields that action resolution combines (R174). -/
structure Resolved where
  fwdOp : Nat
  dest : Nat
  locked : Bool
  tc : Nat
  dp : Nat
  copyHost : Bool
  mirror : Bool
  profile : Nat
  deriving DecidableEq, Repr

/-- One entry of a frame's copy list: egress port, and the record kind and reason of a copy to the host. -/
structure CopyReq where
  port : Nat
  /-- 0 forwarded, 1 trap, 2 COPY_HOST, 3 mirror. -/
  why : Nat
  reason : Nat
  /-- A replica on the rope (R376). -/
  replica : Bool
  /-- The egress port of the copy that asked for it (R348). -/
  eg : Option Nat := none
  deriving DecidableEq, Repr

/-- What a SecTAG of a received frame selects (R116, R119, R120): the receive SC and its SA (SC 0: none is configured), the packet number,
the length of the tag, whether the data is encrypted and from which of its bytes on, and the key and the nonce that decrypt it. -/
structure SecRx where
  sc : Nat
  an : Nat
  pn : Nat
  tagLen : Nat
  enc : Bool
  conf : Nat
  key : List Nat
  nonce : Nat
  deriving DecidableEq, Repr

/-- What protects a copy in transmission (R116, R118, R120), fixed as its transmission begins. -/
structure SecTx where
  an : Nat
  pn : Nat
  sci : Option Nat
  enc : Bool
  conf : Nat
  key : List Nat
  nonce : Nat
  deriving DecidableEq, Repr

/-- A learn event recorded with a frame: the key, and the entry's DEST for kind MOVE (R228, R237). -/
structure LearnEv where
  key : List Byte
  old : Option Nat
  deriving DecidableEq, Repr

/-- A frame from its first bit to its last copy (R14). -/
structure Frame where
  fid : Nat
  port : Nat
  arriveAt : Nat
  /-- Ingress timestamp in local ns (R115, R293). -/
  ts : Nat
  phase : FPhase
  /-- Received through the preemptable MAC; MACsec-validated; injected by the host; recirculated. -/
  preempt : Bool
  macsec : Bool
  inject : Bool
  recirc : Bool
  /-- Bytes received so far, the FCS not counted: as the parser sees them, and as they came on the wire, with the SecTAG (R120). -/
  bytes : List Byte
  raw : List Byte
  sec : Option SecRx
  wire : Nat
  ended : Bool
  gen : Nat
  flags : Nat
  layers : List Layer
  keys : List Byte
  /-- The station position in front of which it stands, and the lookup under way there. -/
  pos : Nat
  looking : Bool
  res : Resolved
  /-- Stream handle of the stream filter, sequence number given or read (R321, R374). -/
  stream : Option Nat
  seq : Option Nat
  list : List CopyReq
  beads : List Nat
  writer : Nat
  pool : Nat
  /-- The number of admitted copies at enqueue. -/
  admitted : Nat
  /-- The reason counted if dropped before its end: the tally index of R165, none while it lives; the reason code of a DROP word (R155). -/
  why : Option Nat
  dropCode : Option Nat
  counted : Bool
  /-- Full L4 checksum asked for (R122); descriptor tag for an egress timestamp (R294). -/
  l4full : Bool
  txTag : Option Nat
  /-- Charges at an estimate, to be corrected at the end: meter, bucket (0 committed, 1 excess), bytes (R325). -/
  meters : List (Nat × Nat × Nat)
  /-- The Viram header of a frame from the rope (R360); the class of a frame from P64 or P66 (R302). -/
  vhdr : List Byte
  inTc : Nat
  /-- The stream filter has run; the learn event of the source station (R228, R237); when the lookup under way was issued. -/
  filtered : Bool
  learn : Option LearnEv
  lookAt : Nat
  deriving DecidableEq, Repr

/-- Where a copy stands. -/
inductive CPhase where
  | queued
  | dequeued
  | station
  | resolved
  | rewriting
  | sending
  deriving DecidableEq, Repr

/-- One egress copy of a frame, in queue order (R269). -/
structure Copy where
  fid : Nat
  port : Nat
  tc : Nat
  why : Nat
  reason : Nat
  replica : Bool
  profile : Nat
  phase : CPhase
  /-- 0 on-chip head, 1 DRAM segment, 2 on-chip tail (R275). -/
  seg : Nat
  cut : Bool
  started : Bool
  tailMark : Bool
  gen : Nat
  keys : List Byte
  pos : Nat
  looking : Bool
  res : Resolved
  pool : Nat
  beads : Nat
  /-- The edit window: the bytes rewrite has made of the header so far, and its checksum delta (R347). -/
  window : List Byte
  delta : Nat
  /-- The layers of the window as edited, and the header bytes of its IPv4 layers as received (R338, R341). -/
  layers : List Layer
  ipOrig : List (List Byte)
  /-- A result at positions 10–13 had FWD_OP 3h (R335). -/
  egDrop : Bool
  gateWait : Bool
  fragments : Nat
  recirc : Bool
  dequeuedAt : Nat
  eg : Option Nat
  /-- Beads of its own, taken on its refill from the DQX (R275); kept from cut-through by R344; when its transmission began. -/
  own : List Nat
  /-- Beads it has read and released (R259), and the freed bead that its next read meets (R268). -/
  done : List Nat
  lost : Option Nat
  kept : Bool
  sentAt : Nat
  /-- When the lookup under way was issued (R201). -/
  lookAt : Nat
  /-- What protects it (R118); the bytes sent in its earlier fragments, and when the present fragment began (R110). -/
  sec : Option SecTx
  fragBase : Nat
  fragAt : Option Nat
  deriving DecidableEq, Repr

/-- A bead record (R255). -/
structure Bead where
  /-- The next bead of the same frame; none at its last. -/
  next : Option Nat
  owner : Nat
  refs : Nat
  pool : Nat
  deriving DecidableEq, Repr

/-- A bead freed and not yet on the free list (R265). -/
structure Quar where
  bead : Nat
  pool : Nat
  readyAt : Nat
  deriving DecidableEq, Repr

/-- A bead request of slots 12–15 that waits (R264): slot, pool, owner tag, the bytes' purpose. -/
structure BeadWait where
  slot : Nat
  pool : Nat
  owner : Nat
  fid : Nat
  /-- The port of the copy that the DQX mover refills (slots 12 and 13). -/
  port : Nat
  /-- The core cycle of its first presentation (R264). -/
  cycle : Nat
  deriving DecidableEq, Repr

/-- The shared buffer and the pool manager (R253–R268). -/
structure BufSt where
  /-- The lowest bead never allocated since the arrays were written, and the freed beads behind it (the free list). -/
  fresh : Nat
  freed : List Nat
  /-- Records of the held beads; an unlisted bead is free (HELD = 0). -/
  held : List (Nat × Bead)
  quar : List Quar
  waits : List BeadWait
  /-- Pools whose WARN2 interrupt is re-armed when the occupancy falls (R260). -/
  warn2 : List Nat
  /-- The sources of refused frees that have not been raised yet (R267). -/
  badFrees : List Nat
  deriving DecidableEq, Repr

/-- The port hold and the down or shutdown state of one port (R99–R103, R277). -/
structure PortSt where
  port : Nat
  /-- A link fault runs since this time (R99); lock regained at this time (R98). -/
  faultAt : Option Nat
  lockAt : Option Nat
  holdEnd : Option Nat
  /-- Received pause: end time of each class held (R107), and the pause being generated: next refresh (R109). -/
  pauseEnd : List (Nat × Nat)
  genPause : Nat
  refreshAt : Nat
  /-- Verify exchange: attempts left and its deadline (R111). -/
  verifyLeft : Nat
  verifyAt : Nat
  wakeEnd : Option Nat
  /-- Verifications that failed (R111), and the USXGMII control word reports the sub-port down (R93). -/
  verifyFails : Nat
  ctlDown : Bool
  /-- The image's record. -/
  mode : Nat
  quad : Nat
  macsec : Bool
  maxFrame : Nat
  nominal : Nat
  deriving DecidableEq, Repr

/-- A secure association of a port: SC 0 transmits, SC 1–8 receive (R117). -/
structure SaSt where
  port : Nat
  sc : Nat
  an : Nat
  key : List Nat
  salt : List Nat
  ssci : Nat
  pn : Nat
  deriving DecidableEq, Repr

/-- A secure channel's SCI and replay settings (R117, R119). -/
structure ScSt where
  port : Nat
  sc : Nat
  sci : Nat
  replay : Nat
  deriving DecidableEq, Repr

/-- Bring-up of a lane (R94–R96): when it began, when a retry or a new negotiation is due, its LANEMAP record. -/
structure LaneSt where
  lane : Nat
  rate : Nat
  port : Nat
  position : Nat
  /-- POLARITY: bit 0 inverts the receive pair, bit 1 the transmit pair (R34). -/
  polarity : Nat
  eqPreset : Nat
  began : Option Nat
  retryAt : Option Nat
  /-- The skew of its data against the other lanes of its port, in ns (R97). -/
  skew : Nat
  /-- The CTLE and DFE taps of its receiver, in codes from where training left them (R495). -/
  taps : List Int
  deriving DecidableEq, Repr

/-- One record of the journal of NEXT (R191): the object that carries the mark. -/
inductive JRec where
  /-- An object whose life word stands at a BAR2 address. -/
  | mem (addr : Nat)
  /-- An object whose life word stands at a mapped DRAM address. -/
  | dram (addr : Nat)
  /-- Root slot `s` of tree table `k`. -/
  | root (k s : Nat)
  /-- A prefix of an LPM table. -/
  | lpm (k : Nat) (key : List Byte) (len : Nat)
  deriving DecidableEq, Repr

/-- A generation that is outstanding (R195–R198), with its RWG values and the journal it was committed with. -/
structure GenSt where
  gen : Nat
  /-- RWG words in force for it: registers by BAR0 offset. -/
  rwg : List (Nat × Word)
  journal : List JRec
  /-- When it was superseded; none while current. -/
  superAt : Option Nat
  drained : Bool
  settled : Bool
  deriving DecidableEq, Repr

/-- A host access held during a commit, a discard or a table command (R192, R236). -/
inductive HeldWrite where
  /-- A 4-byte write of BAR2. -/
  | mem (addr data : Nat)
  /-- A 4-byte write of DRAM with its byte enables. -/
  | dram (addr data enables : Nat)
  /-- A write of RWG fields of a BAR0 register, or of a root slot. -/
  | reg (off data : Nat)
  /-- A table command: operation, table, bank, key, data. -/
  | command (op table : Nat) (shadow : Bool) (key : List Byte) (data : Nat)
  deriving DecidableEq, Repr

/-- Versioned commits (R187–R199). -/
structure GenBlock where
  /-- Outstanding generations, newest first. -/
  outs : List GenSt
  /-- The journal of NEXT. -/
  journal : List JRec
  /-- 0 idle, 1 a commit under way, 2 a discard under way. -/
  op : Nat
  held : List HeldWrite
  /-- When the last stroke fell. -/
  strokeAt : Nat
  deriving DecidableEq, Repr

/-- A domain time (R288, R289): its value at a reference instant in units of 2^−32 ns, and a slew under way. -/
structure DomSt where
  base : Int
  ref : Nat
  slewAdj : Int
  slewAt : Nat
  deriving DecidableEq, Repr

/-- An entry of a timestamp FIFO (R294, R301). -/
structure TsEntry where
  ns : Nat
  sec : Nat
  tag : Nat
  deriving DecidableEq, Repr

/-- Time (R284–R301). -/
structure TimeSt where
  /-- Local time in ns at an instant of `now`. -/
  localBase : Nat
  localAt : Nat
  /-- The real-time counter in 2^−15 s at an instant of `now`. -/
  rtcBase : Nat
  rtcAt : Nat
  rtcLoad : Option Int
  doms : List DomSt
  /-- Timestamp FIFOs by port. -/
  fifos : List (Nat × List TsEntry)
  ppsHigh : Bool
  ppsFall : Nat
  /-- The domain second for which the last pulse was given; a backward jump repeats none (R297). -/
  ppsDone : Option Int
  deriving DecidableEq, Repr

/-- A gate list beyond its registers (R311, R318): its operational base time in ns and the switch time of a pending change. -/
structure GateSt where
  gate : GateId
  base : Nat
  switchAt : Option Nat
  deriving DecidableEq, Repr

/-- The credit of one shaped queue (R309), in units of 1/27,000,000 bit, as it stood at a time, and what it has done since:
0 unchanged, 1 falling at the send slope, 2 rising to its limit, 3 rising to 0. -/
structure CbsSt where
  port : Nat
  tc : Nat
  credit : Int
  at_ : Nat
  mode : Nat
  deriving DecidableEq, Repr

/-- The scheduler instance of a port (R306, R308): the class its pointer visits and whether the visit has had its quantum, for the
express (or only) MAC and for the preemptable MAC; whether the preemptable MAC is held (R316). -/
structure SchSt where
  port : Nat
  ptrE : Nat
  inE : Bool
  ptrP : Nat
  inP : Bool
  hold : Bool
  deriving DecidableEq, Repr

/-- The buckets of a meter (R324), in units of 1/216,000,000 byte, as they stood at a time. -/
structure MeterSt where
  meter : Nat
  c : Int
  e : Int
  at_ : Nat
  deriving DecidableEq, Repr

/-- A prefix of an LPM table (R231, R233). -/
structure LpmEnt where
  table : Nat
  key : List Byte
  len : Nat
  life : Nat
  action : Nat
  deriving DecidableEq, Repr

/-- An entry of the learn filter (R238). -/
structure FiltEnt where
  key : List Byte
  old : Option Nat
  portA : Nat
  tsA : Nat
  portB : Option Nat
  tsB : Nat
  extra : Nat
  expires : Nat
  deriving DecidableEq, Repr

/-- A table command under way (R233, R236): its table, the RESULT it will report, its moves and slot, and the host writes held. -/
structure CmdSt where
  table : Nat
  /-- The key and SHADOW it was given (R233, R235). -/
  key : List Byte
  result : Nat
  moves : Nat
  slot : Option (Nat × Nat)
  held : List HeldWrite
  deriving DecidableEq, Repr

/-- The image loader beyond its registers (R42–R55), JTAG (R429, R550), and the retained image copy (R43, R68). -/
structure LoadSt where
  /-- The result of each slot's last check since a reset or its programming (R45). -/
  chkA : Option Bool
  chkB : Option Bool
  /-- The slot being read and verified: 0 none, 1 A, 2 B. -/
  reading : Nat
  /-- A load that ends a re-image in Service has started (R63). -/
  reimage : Bool
  /-- A verified image that waits for the arrays and the DRAM (R65, R408): 0 slot A, 1 slot B, 2 pushed. -/
  ready : Option (Nat × Image)
  /-- The push under way: its DEST and LEN (R44). -/
  push : Option (Nat × Nat)
  /-- The slot being programmed, and STATE before the programming (R58). -/
  programming : Nat
  saved : Nat
  /-- When the device seals by itself (R46). -/
  sealAt : Nat
  /-- The leapfrog: 0 none, 1 steps 2 and 3, 2 steps 4 and 5; when DRAIN_MAX expires (R51). -/
  leap : Nat
  leapEnd : Nat
  /-- A challenge-response unlock is in force; the challenge outstanding (R429). -/
  jtagOpen : Bool
  jtagNonce : Option (List Byte)
  /-- The copy of the sealed image in the DRAM retention area. -/
  copy : Option Image
  deriving DecidableEq, Repr

/-- The rope and Viram beyond the TWN registers (R357–R371, R383–R387). -/
structure RopeSt where
  /-- The session number of the always-on domain and the next heartbeat counter (R363). -/
  session : Nat
  counter : Nat
  /-- SESSION and COUNTER of the last valid heartbeat, and when the last one arrived (R363, R370). -/
  heard : Option (Nat × Nat)
  heardAt : Nat
  /-- Viram has started (R65 step 11). -/
  started : Bool
  /-- Partner's HELLO received, received with ACK; SEQ_RESUME sent; partner's received (R367). -/
  helloIn : Bool
  helloAck : Bool
  seqSent : Bool
  seqDone : Bool
  /-- A message announced that the partner leaves (R371). -/
  away : Bool
  /-- The partner's ISOLATED count and twin state from its last heartbeat (R362). -/
  peerIso : Nat
  peerTwin : Nat
  /-- When each held class was last held by the partner (R386). -/
  fcAt : List (Nat × Nat)
  /-- Egress time of our last time message, and ingress time of the partner's last one, in local ns (R387). -/
  timeTx : Option Nat
  timeRx : Option Nat
  /-- The partner's last time message (R387): t1, t2 and t4, until the next message gives t3. -/
  timePend : Option (Nat × Nat × Nat)
  /-- Logical lanes lost that wait for a re-forming or for the spare; physical lanes retired; a swap agreed: logical and worn lane (R358, R359). -/
  reform : List Nat
  retired : List Nat
  swap : Option (Nat × Nat)
  /-- The shared roles were taken by the host (R383); the replicated guarantees are reported broken (R385). -/
  taken : Bool
  broken : Bool
  /-- The partner serves the streams homed here: from a leapfrog's first step until they are handed back (R51, R54). -/
  ceded : Bool
  deriving DecidableEq, Repr

/-- External DRAM beyond the DRC registers (R390–R416). -/
structure DramSt where
  /-- Kept in the retention store: logical ranks carried by their spare, spares used and failed by pair (R415). -/
  moved : List Nat
  used : Nat
  failed : Nat
  /-- A migration that a park interrupted (R415, coincidence of a park with a migration). -/
  resume : Option Nat
  /-- Triggers of R413 that wait for the migration that runs. -/
  waits : List Nat
  /-- Mapped lines (address / 64) that carry POISON = 1 and have not been written since (R415, R438). -/
  poison : List Nat
  /-- The memories are in self-refresh (R404). -/
  selfRefresh : Bool
  /-- When training is retried (R408). -/
  retryAt : Nat
  /-- Refreshes postponed, by logical rank (R403). -/
  postponed : List (Nat × Nat)
  /-- A retraining is under way (R406). -/
  retrain : Bool
  /-- When the migration under way began (R414). -/
  migAt : Nat
  deriving DecidableEq, Repr

/-- A transfer that a general DMA channel runs (R432–R440): what GO found in its registers, the bytes moved and their data in
ascending source order, whether it stops after its burst. -/
structure DmaRun where
  chan : Nat
  src : Nat
  dst : Nat
  cnt : Nat
  srcSpace : Nat
  dstSpace : Nat
  crcWr : Bool
  desc : Bool
  moved : Nat
  data : List Byte
  stop : Bool
  deriving DecidableEq, Repr

/-- The coalescing of a ring (R449): completions not yet reported, and when the first of them came. -/
structure RingSt where
  ring : Nat
  unrep : Nat
  since : Nat
  deriving DecidableEq, Repr

/-- The park snapshot in the DRAM retention area (R69, R72): the words of the registers kept, the RWG values in force, BAR2 memory,
the LPM structures, gate lists, tallies, MACsec associations, the generation, and the digest. -/
structure Snap where
  regs : List (Nat × Word)
  rwg : List (Nat × Word)
  mem : List Host.Cell
  mirror : List Host.Cell
  lost : List Nat
  lpm : List LpmEnt
  gates : List GateSt
  strm : List (Nat × Nat)
  strmCarry : List Nat
  sas : List SaSt
  scs : List ScSt
  gen : Nat
  /-- Its digest as it was taken (R69 step 5; of a layout the spec does not give: assumption log 5). -/
  digest : Nat
  deriving DecidableEq, Repr

/-- Ageing and the core voltage beyond the AGE registers (R490–R496). -/
structure AgeSt where
  /-- VDD_CORE as it stands, and the value it moves to, in mV (R492, R493). -/
  vcore : Nat
  goal : Option Nat
  /-- When the last VOUT_COMMAND was sent, and when one was refused for the first time. -/
  stepAt : Nat
  nackAt : Option Nat
  /-- An excursion lasts; the re-plan after an entry to Paired or Solo is due; the margin cairn for whose interval a trigger has fired
  (R490). -/
  hot : Bool
  entryDue : Bool
  firedFor : Option Nat
  /-- DRAM retraining follows the end of the migration (R491). -/
  retrainLater : Bool
  deriving DecidableEq, Repr

/-- A tally snapshot being written (R529, R530): its address, SEQ, scope, local time of the capture, streams, and the entries of the ports
and of the event tallies as captured. -/
structure SnapRun where
  addr : Nat
  seq : Nat
  scope : Nat
  ns : Nat
  sec : Nat
  first : Nat
  count : Nat
  body : List Nat
  deriving DecidableEq, Repr

/-- The tallies beyond the TLY registers (R525, R529): the SEQ of the last snapshot, when the period last began, the snapshot being
written; the local time at which the present bandwidth window began and whether a change of BW_WIN_US has cut it short. -/
structure TlySt where
  seq : Nat
  periodAt : Nat
  run : Option SnapRun
  winAt : Nat
  cut : Bool
  /-- Frames dropped by a DROP word, by 256 × ingress port + reason code (R155; DESIGN CHOICE, assumption log 95). -/
  byReason : List (Nat × Nat)
  /-- When a station last had work, by 16 × quadrant + position (R23). -/
  workAt : List (Nat × Nat)
  deriving DecidableEq, Repr


/-- The ageing sweep of a table (R243, R244): the slot it visits next, and when its pass began. -/
structure SweepSt where
  table : Nat
  next : Nat
  passAt : Option Nat
  deriving DecidableEq, Repr

/-- Forwarding tables beyond the FWD registers: learn-ring records that wait for paced channel 13 (R241, R431), the ageing sweeps (R243),
and the bank that each CLEAR under way clears (R246). -/
structure FwdSt where
  learnQ : List (List Byte)
  sweeps : List SweepSt
  clearing : List (Nat × Nat)
  deriving DecidableEq, Repr

/-- The state of the block. -/
structure State where
  /-- The commands that wait, first in, first out. -/
  pending : List Instr
  /-- Time since power-on in units of 1/27 ns (DESIGN CHOICE, assumption log 2). -/
  now : Nat
  /-- The words of BAR0 and of BAR4 that differ from their reset value. -/
  regs : List (Nat × Word)
  bar4 : List (Nat × Word)
  /-- BAR2 outside the DRAM window, and the mapped DRAM, byte by byte. -/
  mem : List Host.Cell
  dram : List Host.Cell
  /-- What the last read returned. -/
  readData : Nat
  /-- The _HI latches of R9 over BAR0 and over the management port (R559), and the _LO writes held. -/
  latch : List (Nat × Word)
  latchI2c : List (Nat × Word)
  heldLo : List (Nat × Word)
  /-- Uses of an open value so far (DESIGN CHOICE, assumption log 5). -/
  freeCtr : Nat
  out : List Out
  /-- The image in force and the seal (R46–R49). -/
  img : Option Image
  isSealed : Bool
  otp : Otp
  mode : ModeSt
  flt : FaultSt
  crn : CairnSt
  time : TimeSt
  gens : GenBlock
  threads : List Thread
  samples : List Sample
  /-- Events counted toward the next sample point, by 32 × quadrant + tally (R528). -/
  evtCount : List (Nat × Nat)
  /-- Housekeeping tasks whose trigger is pending (R131). -/
  tasks : List Nat
  frames : List Frame
  copies : List Copy
  buf : BufSt
  ports : List PortSt
  lanes : List LaneSt
  sas : List SaSt
  scs : List ScSt
  /-- Patch RAM words that fail their check (R146): copy, word, and whether a fetch has met it. -/
  patchBad : List (Nat × Nat × Bool)
  gates : List GateSt
  shapers : List CbsSt
  scheds : List SchSt
  meters : List MeterSt
  /-- Stream tallies by 8 × handle + k, their carries (R526), when each recovery function last passed a frame (R380), and the
  generators that have numbered a frame since the last Ascent (R375). -/
  strm : List (Nat × Nat)
  strmCarry : List Nat
  frerAt : List (Nat × Nat)
  genUsed : List Nat
  /-- The mirrors of the TCAM rows (R203), the LOST rows (R217), compared rows beyond the units of 16 (R220), and the lines of the
  tree caches by quadrant and mapped address, most recently used first (R184). -/
  mirror : List Host.Cell
  lost : List Nat
  asmRem : List (Nat × Nat)
  trees : List (Nat × Nat)
  /-- Bits received and transmitted by port in the present bandwidth window (R525). -/
  bw : List (Nat × (Nat × Nat))
  /-- LPM structures (R232), the learn filter (R238), the table command under way (R233). -/
  lpm : List LpmEnt
  filt : List FiltEnt
  cmd : Option CmdSt
  /-- The image loader, and the rope. -/
  load : LoadSt
  rope : RopeSt
  dramc : DramSt
  dma : List DmaRun
  rings : List RingSt
  /-- The park snapshot. -/
  snap : Option Snap
  /-- Ageing. -/
  age : AgeSt
  /-- Tallies. -/
  tly : TlySt
  /-- Forwarding tables beyond their registers. -/
  fwd : FwdSt
  deriving DecidableEq, Repr

/-! ### Reset -/

/-- An OTP as delivered: nothing programmed, a Rilys 2400 (DESIGN CHOICE, assumption log 3). -/
def Otp.blank : Otp :=
  { is2416 := false, keyHash := [[], [], [], []], revoked := 0, floor := 0, raises := 0, cairnKey := none, desc := [], descBurned := false, baseMv := 0 }

/-- The mode controller right after VDD_AON power-on: held in reset by PORST_N (R540). -/
def ModeSt.reset : ModeSt :=
  { resume := 0, ascent := .none, step := 0, porst := true, pwrgood := false, senior := false, strap := false,
    arrays := false, dramOpen := false, pcieUp := false, romOk := false, park := 0, parkEnd := 0, parkWaits := false, wakeLatched := false,
    everRan := false, faultUntil := 0, abseilDue := false, admitStop := false, opBase := 0, opSince := some 0, xtal := false, aonAt := 0,
    clkMon := false, c4Hold := none, retValid := false, retImage := [], retSnap := 0, retGen := 0, wrapKey := false, retEq := [], detRates := [],
    wakeAt := 0, railRetryAt := 0 }

/-- The fault collector at rest. -/
def faultIdle : FaultSt :=
  { winStart := [], belay := [], reactions := [], shadowEnd := [], sevUnit := [], sevNs := [], holdMsg := [], pendRestart := [], isoUnits := [], probeAt := [], accum := [] }

/-- A blank cairn store (R502). -/
def CairnSt.blank : CairnSt :=
  { mram := [], queue := [], qBins := [], tBins := [], qPeak := [], resPeak := [], tLow := 0, tHigh := 0, tSensor := 0, nearFullDone := false,
    nonce := none, failCodes := 0, exportAddr := 0, exportEnd := 0, exportFrom := 0, exportNext := 0 }

/-- Time right after VDD_AON power-on: the real-time counter and the local time start at 0 (R285, R286). -/
def TimeSt.reset : TimeSt :=
  { localBase := 0, localAt := 0, rtcBase := 0, rtcAt := 0, rtcLoad := none,
    doms := [{ base := 0, ref := 0, slewAdj := 0, slewAt := 0 }, { base := 0, ref := 0, slewAdj := 0, slewAt := 0 }],
    fifos := [], ppsHigh := false, ppsFall := 0, ppsDone := none }

/-- Generation 0001h alone, with empty staging (R66). -/
def genFirst : GenBlock :=
  { outs := [{ gen := 1, rwg := [], journal := [], superAt := none, drained := false, settled := false }],
    journal := [], op := 0, held := [], strokeAt := 0 }

/-- The shared buffer with every bead free. -/
def BufSt.empty : BufSt := { fresh := 0, freed := [], held := [], quar := [], waits := [], warn2 := [], badFrees := [] }

def LoadSt.reset : LoadSt :=
  { chkA := none, chkB := none, reading := 0, reimage := false, ready := none, push := none, programming := 0, saved := 0, sealAt := 0,
    leap := 0, leapEnd := 0, jtagOpen := false, jtagNonce := none, copy := none }

def RopeSt.reset : RopeSt :=
  { session := 0, counter := 0, heard := none, heardAt := 0, started := false, helloIn := false, helloAck := false, seqSent := false,
    seqDone := false, away := false, peerIso := 0, peerTwin := 0, fcAt := [], timeTx := none, timeRx := none, timePend := none, reform := [], retired := [],
    swap := none, taken := false, broken := false, ceded := false }

def DramSt.reset : DramSt :=
  { moved := [], used := 0, failed := 0, resume := none, waits := [], poison := [], selfRefresh := false, retryAt := 0, postponed := [],
    retrain := false, migAt := 0 }

/-- Ageing with nothing under way: the core supply stands at its nominal 0.75 V (R535, DESIGN CHOICE, assumption log 28). -/
def AgeSt.reset : AgeSt :=
  { vcore := 750, goal := none, stepAt := 0, nackAt := none, hot := false, entryDue := false, firedFor := none, retrainLater := false }

def FwdSt.reset : FwdSt := { learnQ := [], sweeps := [], clearing := [] }

def TlySt.reset : TlySt := { seq := 0, periodAt := 0, run := none, winAt := 0, cut := false, byReason := [], workAt := [] }

/-- The machine right after VDD_AON power-on (R79, R540). -/
def State.reset : State :=
  { pending := [], now := 0, regs := [], bar4 := [], mem := [], dram := [], readData := 0, latch := [], latchI2c := [], heldLo := [],
    freeCtr := 0, out := [], img := none, isSealed := false, otp := Otp.blank, mode := ModeSt.reset, flt := faultIdle, crn := CairnSt.blank,
    time := TimeSt.reset, gens := genFirst, threads := [], samples := [], evtCount := [], tasks := [], frames := [], copies := [],
    buf := BufSt.empty, ports := [], lanes := [], sas := [], scs := [], patchBad := [], gates := [], shapers := [], scheds := [], meters := [],
    strm := [], strmCarry := [], frerAt := [], genUsed := [], mirror := [], lost := [], asmRem := [], trees := [], bw := [], lpm := [],
    filt := [], cmd := none, fwd := FwdSt.reset, load := LoadSt.reset, rope := RopeSt.reset, dramc := DramSt.reset, dma := [], rings := [],
    snap := none, age := AgeSt.reset, tly := TlySt.reset
  }

end Sys2Proof.Machine
end

