-- ==== Sys2Proof/Machine/Ops.lean ====
section
/-!
DEFINITION. Machine/Ops.lean: the named operations every meaning is written over: register words and fields, interrupts,
counters and tallies, time, memory, outputs.
-/

namespace Sys2Proof.Machine

/-! ### Time units: one unit of `now` is 1/27 ns, so a core cycle of 1.35 GHz is 20 units (R22). -/

/-- Nanoseconds in units of `now`. -/
def tNs (n : Nat) : Nat := 27 * n
/-- Microseconds in units of `now`. -/
def tUs (n : Nat) : Nat := 27000 * n
/-- Milliseconds in units of `now`. -/
def tMs (n : Nat) : Nat := 27000000 * n
/-- Seconds in units of `now`. -/
def tSec (n : Nat) : Nat := 27000000000 * n
/-- Core cycles in units of `now`. -/
def tCyc (n : Nat) : Nat := 20 * n

/-! ### The register map -/

/-- The row of a block that holds offset `o` of the block. -/
def findRow : List RegRow → Nat → Option RegRow
  | [], _ => none
  | r :: t, o =>
    if r.off ≤ o ∧ (if r.stride = 0 then o = r.off else (o - r.off) % r.stride = 0 ∧ (o - r.off) / r.stride < r.count)
    then some r else findRow t o

/-- The row that holds offset `o` of BAR0 or BAR4. -/
def findReg : List RegGrp → Nat → Option RegRow
  | [], _ => none
  | g :: t, o =>
    if g.base ≤ o ∧ o < g.base + g.stride * g.count then
      match findRow g.rows ((o - g.base) % g.stride) with
      | some r => some r
      | none => findReg t o
    else findReg t o

/-- The fields of the register at offset `o`; none where no rule defines one (R554). -/
def fldsAt (bar : Bar) (o : Nat) : List RegFld :=
  if o % 4 = 0 then
    match findReg (match bar with | .bar0 => bar0Groups | .bar4 => bar4Groups) o with
    | some r => r.flds
    | none => []
  else []

/-- The spans of BAR0's blocks (R553): first and last offset. -/
def bar0Spans : List (Nat × Nat) := [
  (0x000000, 0x00FFFF), (0x010000, 0x01FFFF), (0x020000, 0x02FFFF), (0x100000, 0x144FFF), (0x200000, 0x243FFF),
  (0x300000, 0x333FFF), (0x340000, 0x344FFF), (0x400000, 0x408FFF), (0x480000, 0x484FFF), (0x500000, 0x50BFFF),
  (0x600000, 0x6013FF), (0x640000, 0x6453FF), (0x680000, 0x68141F), (0x700000, 0x78CFFF), (0x800000, 0x8107FF),
  (0x880000, 0x880FFF), (0x900000, 0x904FFF), (0xA00000, 0xA023FF), (0xB00000, 0xB039BF), (0xB80000, 0xB801FF),
  (0xC00000, 0xC01FFF), (0xC80000, 0xCD3FFF)]

/-- Whether an offset of BAR0 lies in some block's span (R554). -/
def inSpan (o : Nat) : Bool := bar0Spans.any (fun p => p.1 ≤ o && o ≤ p.2)

/-! ### Fault sources (R452, R453) -/

/-- The groups: first and last source and default class. -/
def groupTable : List (Nat × Nat × Nat) := [
  (0, 4, 4), (5, 10, 4), (11, 14, 4), (15, 17, 4), (18, 24, 2), (25, 32, 0), (33, 49, 3), (50, 66, 3), (67, 83, 3),
  (84, 100, 3), (101, 117, 1), (118, 127, 2), (128, 133, 1), (134, 139, 1), (140, 145, 1), (146, 151, 1),
  (152, 167, 1), (168, 179, 1), (180, 182, 1), (183, 246, 1), (247, 263, 2), (264, 269, 1), (270, 274, 1),
  (275, 276, 1), (277, 280, 3), (281, 283, 2), (284, 295, 2), (296, 307, 2), (308, 312, 1), (313, 320, 1),
  (321, 322, 2), (323, 334, 0), (335, 338, 1), (339, 345, 1), (346, 352, 1), (353, 359, 1), (360, 366, 1),
  (367, 369, 0), (370, 373, 0), (374, 377, 1), (378, 380, 0), (381, 384, 0), (385, 386, 0), (387, 392, 0),
  (393, 395, 0), (396, 399, 3), (400, 407, 1), (408, 411, 1)]

/-- The group of a source. -/
def groupOf (s : Nat) : Nat := groupTable.findIdx (fun g => g.1 ≤ s && s ≤ g.2.1)

/-- The default class of a group. -/
def defaultClass (g : Nat) : Nat := (groupTable.getD g (0, 0, 0)).2.2

/-- The soft sources of R453. -/
def softSource (s : Nat) : Bool :=
  (25 ≤ s && s ≤ 32) || (101 ≤ s && s ≤ 122) || (s == 128 || s == 134 || s == 140 || s == 146) ||
  (s == 153 || s == 157 || s == 161 || s == 165) || s == 263 || s == 267 || s == 322 || (323 ≤ s && s ≤ 334) ||
  (s == 345 || s == 352 || s == 359 || s == 366) || s == 371 || s == 379 || s == 381 || s == 385 || s == 409

/-- Default N and W in µs of a source (R452). -/
def defaultNW (s : Nat) : Nat × Nat :=
  if 323 ≤ s ∧ s ≤ 334 then (255, 1000000) else if softSource s then (32, 100000) else (1, 1)

/-! ### Register words -/

/-- The value of a row's fields at reset. -/
def rowReset : List RegFld → Nat
  | [] => 0
  | f :: t => f.reset * 2 ^ f.lo + rowReset t

/-- What a register of BAR0 holds at reset: its table's value, with the values the tables give by index
(R200, R300, R448, R148, R452, R453). -/
def resetWord (o : Nat) : Word :=
  if o = rCLS_DRAIN 1 then 0x80000001
  else if o = rTSY_DOM_CFG 1 then 1
  else if 0x300000 ≤ o ∧ o < 0x311000 ∧ o % 0x1000 = 0 then
    (let e := (o - 0x300000) / 0x1000
     BitVec.ofNat 32 (if e = 16 then 4 + 2 * 8 else e / 4 + (if e % 4 < 2 then 0 else 1) * 8))
  else if 0xA01000 ≤ o ∧ o < 0xA01800 ∧ o % 0x40 = 0x14 then
    (let c := (o - 0xA01000) / 0x40
     let role := if c = 13 then 1 else if c = 14 then 2 else if c = 15 then 3 else if 16 ≤ c ∧ c < 24 then 4 else if 24 ≤ c then 5 else 0
     BitVec.ofNat 32 (4 + role * 512))
  else if 0xB01000 ≤ o ∧ o < 0xB01600 ∧ o % 0x20 = 0 then
    BitVec.ofNat 32 (defaultClass ((o - 0xB01000) / 0x20) + 1000 * 256)
  else if 0xB02000 ≤ o ∧ o < 0xB039C0 ∧ o % 0x10 = 0 then
    (let nw := defaultNW ((o - 0xB02000) / 0x10)
     BitVec.ofNat 32 (nw.1 + nw.2 * 256))
  else if 0xB02000 ≤ o ∧ o < 0xB039C0 ∧ o % 0x10 = 8 then
    BitVec.ofNat 32 (b2n (softSource ((o - 0xB02000) / 0x10)) * 65536)
  else BitVec.ofNat 32 (rowReset (fldsAt .bar0 o))

/-- What a word of BAR4 holds at reset; the MSI-X entries are masked, as PCI Express defines them (R451, PRESUMED, assumption log 29). -/
def resetWord4 (o : Nat) : Word :=
  if 0x2000 ≤ o ∧ o < 0x3000 ∧ o % 16 = 12 then 1 else BitVec.ofNat 32 (rowReset (fldsAt .bar4 o))

/-- A word in which the fields that `p` selects are taken from `new` and the rest from `old`. -/
def mergeFields (p : RegFld → Bool) (old new : Nat) : List RegFld → Nat
  | [] => 0
  | f :: t => (if p f then new / 2 ^ f.lo % 2 ^ f.width else old / 2 ^ f.lo % 2 ^ f.width) * 2 ^ f.lo + mergeFields p old new t

/-- The value of a field in a word. -/
def Fld.get (f : Fld) (w : Word) : Nat := w.toNat / 2 ^ f.lo % 2 ^ f.width

/-- A word with a field replaced; the value is taken modulo the field's width. -/
def Fld.put (f : Fld) (w : Word) (v : Nat) : Word :=
  BitVec.ofNat 32 (w.toNat / 2 ^ (f.lo + f.width) * 2 ^ (f.lo + f.width) + v % 2 ^ f.width * 2 ^ f.lo + w.toNat % 2 ^ f.lo)

/-- Read a register of BAR0 as it stands. -/
def State.rd (s : State) (o : Nat) : Word := sget resetWord s.regs o

/-- Replace a register of BAR0. -/
def State.wr (s : State) (o : Nat) (w : Word) : State := { s with regs := sset resetWord s.regs o w }

/-- Read a word of BAR4 as it stands. -/
def State.rd4 (s : State) (o : Nat) : Word := sget resetWord4 s.bar4 o

/-- Replace a word of BAR4. -/
def State.wr4 (s : State) (o : Nat) (w : Word) : State := { s with bar4 := sset resetWord4 s.bar4 o w }

/-- The value of a register field. -/
def State.getF (s : State) (f : Fld) : Nat := f.get (s.rd f.off)

/-- Set a register field. -/
def State.setF (s : State) (f : Fld) (v : Nat) : State := s.wr f.off (f.put (s.rd f.off) v)

/-- A one-bit field as a Bool. -/
def State.flag (s : State) (f : Fld) : Bool := s.getF f != 0

/-- Set a one-bit field. -/
def State.setB (s : State) (f : Fld) (b : Bool) : State := s.setF f (b2n b)

/-- Set bits of a mask field. -/
def State.orF (s : State) (f : Fld) (m : Nat) : State := s.setF f (s.getF f ||| m)

/-- Clear one bit of a mask field. -/
def State.clrBit (s : State) (f : Fld) (i : Nat) : State :=
  if (s.getF f).testBit i then s.setF f (s.getF f - 2 ^ i) else s

/-- Count `n` events in a saturating counter field. -/
def State.count (s : State) (f : Fld) (n : Nat) : State := s.setF f (min (2 ^ f.width - 1) (s.getF f + n))

/-- Raise a field to at least `v`, saturating at its width. -/
def State.maxF (s : State) (f : Fld) (v : Nat) : State := s.setF f (min (2 ^ f.width - 1) (max (s.getF f) v))

/-- Count down a field, stopping at 0. -/
def State.dec (s : State) (f : Fld) (n : Nat) : State := s.setF f (s.getF f - n)

/-- Run an operation where a condition holds: a command where its bit is written 1. -/
def State.on (s : State) (b : Bool) (f : State → State) : State := if b then f s else s

/-! ### Open values -/

/-- Take a value the spec leaves open: the value and the state with the use counted. -/
def State.free (s : State) : Nat × State := (Config.freeNat s.freeCtr, { s with freeCtr := s.freeCtr + 1 })

/-! ### Outputs and interrupts -/

/-- Record an output. -/
def State.emit (s : State) (o : Out) : State := { s with out := o :: s.out }

/-- Offset of the vector-control word of a vector in BAR4 (R451). -/
def rMSIX_CTL (v : Nat) : Nat := 0x200C + 16 * v

/-- Offset of the PBA word that holds a vector's pending bit. -/
def rMSIX_PBA (v : Nat) : Nat := 0x3000 + 4 * (v / 32)

/-- Send a vector's message, or set its PBA bit while it is masked; several bits set in one cycle send one message (R424).
A cycle is an instant of the model's time (DEDUCED, assumption log 103). -/
def State.sendVec (s : State) (v : Nat) : State :=
  if (s.rd4 (rMSIX_CTL v)).getLsbD 0 then
    s.wr4 (rMSIX_PBA v) (s.rd4 (rMSIX_PBA v) ||| (1#32 <<< (v % 32)))
  else if s.out.contains (.msix v s.now) then s
  else s.emit (.msix v s.now)

/-- Set a status bit; when it goes from 0 to 1 and its bit of the enable register is set, send the vector (R424). -/
def State.raise (s : State) (st : Fld) (en vec : Nat) : State :=
  if s.flag st then s
  else
    let t := s.setF st 1
    if (s.rd en).getLsbD st.lo then t.sendVec vec else t

def State.raiseTWN (s : State) (f : Fld) : State := s.raise f rTWN_INT_EN 1
def State.raiseCLS (s : State) (f : Fld) : State := s.raise f rCLS_INT_EN 2
def State.raiseFWD (s : State) (f : Fld) : State := s.raise f rFWD_INT_EN 3
def State.raiseBPM (s : State) (f : Fld) : State := s.raise f rBPM_INT_EN 4
def State.raiseSCH (s : State) (f : Fld) : State := s.raise f rSCH_INT_EN 5
def State.raiseTSY (s : State) (f : Fld) : State := s.raise f rTSY_INT_EN 6
def State.raiseDRC (s : State) (f : Fld) : State := s.raise f rDRC_INT_EN 7
def State.raiseHDM (s : State) (f : Fld) : State := s.raise f rHDM_INT_EN 8
def State.raiseGLB (s : State) (f : Fld) : State := s.raise f rGLB_INT_EN 10
def State.raiseAGE (s : State) (f : Fld) : State := s.raise f rAGE_INT_EN 11
def State.raiseCRN (s : State) (f : Fld) : State := s.raise f rCRN_INT_EN 12
def State.raiseTLY (s : State) (f : Fld) : State := s.raise f rTLY_INT_EN 13

/-- A change of a port's LINK: LINK_CHG, vector 9, which no register masks (R126, R425). -/
def State.raiseLink (s : State) (p : Nat) : State :=
  if s.flag (MAC_STATUS_LINK_CHG p) then s else (s.setF (MAC_STATUS_LINK_CHG p) 1).sendVec 9

/-! ### Tallies (R521–R524) -/

/-- Offset of tally `i` of port `p` (R523). -/
def tlyOff (p i : Nat) : Nat := 0xC90000 + 0x1000 * p + 8 * i

/-- The 48-bit value of the tally whose _LO half is at `o`. -/
def State.tally (s : State) (o : Nat) : Nat := (s.rd o).toNat + (s.rd (o + 4)).toNat % 65536 * 2 ^ 32

/-- Replace the value of a tally and set its CARRY when told to. -/
def State.setTally (s : State) (o v : Nat) (carry : Bool) : State :=
  let c := if carry then 1 else (s.rd (o + 4)).toNat / 2 ^ 31
  (s.wr o (BitVec.ofNat 32 v)).wr (o + 4) (BitVec.ofNat 32 (v / 2 ^ 32 % 65536 + c * 2 ^ 31))

/-- Add to a tally; a wrap sets its CARRY (R521). -/
def State.addTally (s : State) (o n : Nat) : State :=
  let v := s.tally o + n
  s.setTally o (v % 2 ^ 48) (2 ^ 48 ≤ v)

/-- Ports without a MAC report 0 in their MAC and MACsec counters (R522). -/
def noMacCounter (p i : Nat) : Bool :=
  (p == 64 || p == 66 || p == 67) && ((5 ≤ i && i ≤ 12) || (21 ≤ i && i ≤ 28) || (69 ≤ i && i ≤ 70) || i == 71 || (87 ≤ i && i ≤ 89))

/-- Add to a port's tally; a wrap raises TLY_INT_STATUS.CARRY and marks the port (R521, R532). -/
def State.portTally (s : State) (p i n : Nat) : State :=
  if noMacCounter p i then s
  else
    let t := s.addTally (tlyOff p i) n
    if 2 ^ 48 ≤ s.tally (tlyOff p i) + n then
      (t.orF (TLY_CARRY_PORTS_PORTS (p / 32)) (2 ^ (p % 32))).raiseTLY TLY_INT_STATUS_CARRY
    else t

/-- The size bin of a length, 0–9 (R522). -/
def sizeBin (n : Nat) : Nat :=
  if n ≤ 64 then 0 else if n ≤ 127 then 1 else if n ≤ 255 then 2 else if n ≤ 511 then 3 else if n ≤ 1023 then 4
  else if n ≤ 1518 then 5 else if n ≤ 2047 then 6 else if n ≤ 4095 then 7 else if n ≤ 9216 then 8 else 9

/-! Indices of the port tallies (R522). -/

abbrev tRX_FRAMES : Nat := 0
abbrev tRX_BYTES : Nat := 1
abbrev tRX_UCAST : Nat := 2
abbrev tRX_MCAST : Nat := 3
abbrev tRX_BCAST : Nat := 4
abbrev tRX_PAUSE : Nat := 5
abbrev tRX_PFC : Nat := 6
abbrev tPFC_IGNORED : Nat := 7
abbrev tRX_RUNT : Nat := 8
abbrev tRX_OVERSIZE : Nat := 9
abbrev tRX_FCS_ERR : Nat := 10
abbrev tRX_TAIL_MARKED : Nat := 11
abbrev tRX_TRUNCATED : Nat := 12
abbrev tRX_MALFORMED : Nat := 13
abbrev tRX_REACH_DROP : Nat := 14
abbrev tRX_METER_RED : Nat := 15
abbrev tRX_RULE_DROP : Nat := 16
abbrev tRX_UNRESOLVED : Nat := 17
abbrev tRX_POOL_DROP : Nat := 18
abbrev tRX_STREAM_FILTER : Nat := 19
abbrev tRX_CONGESTION : Nat := 20
abbrev tMACSEC_NO_SA : Nat := 21
abbrev tMACSEC_REPLAY : Nat := 22
abbrev tMACSEC_ICV_FAIL : Nat := 23
abbrev tPREEMPT_ASSY_ERR : Nat := 24
abbrev tRX_WAKE_OS : Nat := 25
abbrev tRX_DESKEW_FAIL : Nat := 26
abbrev tRX_MACCTL_DISCARD : Nat := 27
abbrev tRX_PREEMPT_FRAMES : Nat := 28
abbrev tRX_PORT_DOWN : Nat := 29
abbrev tRX_SIZE0 : Nat := 30
abbrev tTX_FRAMES : Nat := 64
abbrev tTX_BYTES : Nat := 65
abbrev tTX_UCAST : Nat := 66
abbrev tTX_MCAST : Nat := 67
abbrev tTX_BCAST : Nat := 68
abbrev tTX_PAUSE : Nat := 69
abbrev tTX_PFC : Nat := 70
abbrev tTX_ABORTED : Nat := 71
abbrev tTX_OVERSIZE : Nat := 72
abbrev tTX_TAIL_MARKED : Nat := 73
abbrev tTX_DOWN_DROP : Nat := 74
abbrev tTX_RESIDENCE_DROP : Nat := 75
abbrev tTX_POOL_DROP : Nat := 76
abbrev tTX_PARTIAL : Nat := 77
abbrev tTX_HOLD_FLUSH : Nat := 78
abbrev tTX_SDU_DROP : Nat := 79
abbrev tTX_GATE_NOFIT : Nat := 80
abbrev tTX_METER_RED : Nat := 81
abbrev tTX_RULE_DROP : Nat := 82
abbrev tTX_REWRITE_SKIP : Nat := 83
abbrev tTX_TTL_EXPIRED : Nat := 84
abbrev tTX_CONGESTION : Nat := 85
abbrev tTX_CUT_THROUGH : Nat := 86
abbrev tTX_PREEMPTED : Nat := 87
abbrev tTX_FRAGMENTS : Nat := 88
abbrev tTX_WAKE_BURSTS : Nat := 89
abbrev tTX_SIZE0 : Nat := 90
abbrev tRES_BIN0 : Nat := 192
abbrev tRES_MAX : Nat := 198

/-- The index of counter `k` of class `t` (R522): k = 0 frames, 1 bytes, 2 drops, 3 RES_SUM_NS, 4 PFC_RX, 5 PFC_TX, 6 GATE_WAIT. -/
def tTc (t k : Nat) : Nat := 128 + 8 * t + k

/-! ### Time (R80, R285–R290) -/

/-- Local time in ns (R285). -/
def State.localNs (s : State) : Nat := s.time.localBase + (s.now - s.time.localAt) / 27

/-- The real-time counter in units of 2^−15 s (R286). -/
def State.rtc (s : State) : Nat := s.time.rtcBase + (s.now - s.time.rtcAt) * 32768 / 27000000000

/-- The signed rate of domain `n`, limited to ±500 ppm (R288). -/
def State.domRate (s : State) (n : Nat) : Int :=
  max (-2147484) (min 2147484 (signedOf 32 (s.getF (TSY_DOM_RATE_RATE n))))

/-- How much of a slew has been applied at local time `l`: 1 ns per 10 µs toward ADJ (R289). -/
def slewDone (adj : Int) (at_ l : Nat) : Int :=
  let p : Int := ((l - at_) / 10000 : Nat)
  if 0 ≤ adj then min adj p else max adj (-p)

/-- The time of domain `n` in units of 2^−32 ns. -/
def State.domFx (s : State) (n : Nat) : Int :=
  match s.time.doms[n]? with
  | none => 0
  | some d =>
    d.base + ((s.localNs - d.ref : Nat) : Int) * ((2 ^ 32 : Int) + s.domRate n) + slewDone d.slewAdj d.slewAt s.localNs * 2 ^ 32

/-- The time of domain `n` in ns (R288). -/
def State.domNs (s : State) (n : Nat) : Int := s.domFx n / 2 ^ 32

/-- The working time in ns (R290). -/
def State.workNs (s : State) : Int := s.domNs (s.getF TSY_CTL_WORK)

/-- Operating seconds (R80): saturating at FF_FFFF_FFFFh, standing still in Bivouac. -/
def State.opSec (s : State) : Nat :=
  let u := s.mode.opBase + (match s.mode.opSince with | some t => s.now - t | none => 0)
  min (2 ^ 40 - 1) (u / 27000000000)

/-- Nanoseconds and seconds of a time in ns (R284). -/
def nsPart (t : Int) : Nat := (t % 1000000000).toNat
/-- Seconds of a time in ns, 48 bits. -/
def secPart (t : Int) : Nat := ((t / 1000000000) % 2 ^ 48).toNat

/-- One core cycle passes with no command waiting (assumption logs 1 and 2). -/
def State.tick (s : State) : State := { s with now := s.now + 20 }

/-! ### Memory -/

/-- Read `n` bytes of BAR2 memory. -/
def State.rdMem (s : State) (a n : Nat) : List Byte := readBytes s.mem a n
/-- Write bytes of BAR2 memory. -/
def State.wrMem (s : State) (a : Nat) (l : List Byte) : State := { s with mem := writeBytes s.mem a l }
/-- Read `n` bytes of mapped DRAM. -/
def State.rdDram (s : State) (a n : Nat) : List Byte := readBytes s.dram a n
/-- Write bytes of mapped DRAM; a line that is written is no longer poisoned (R415). -/
def State.wrDram (s : State) (a : Nat) (l : List Byte) : State :=
  { s with dram := writeBytes s.dram a l,
           dramc := { s.dramc with poison := s.dramc.poison.filter (fun x => x < a / 64 || (a + l.length - 1) / 64 < x) } }
/-- A little-endian number in BAR2 memory. -/
def State.memLe (s : State) (a n : Nat) : Nat := leNat (s.rdMem a n)

/-! ### CRC-32C (R32, R177, R224, R434, R503) -/

/-- One bit of the reflected Castagnoli polynomial. -/
def crcBit (c : Nat) : Nat := if c % 2 = 1 then (c / 2) ^^^ 0x82F63B78 else c / 2

/-- One byte of CRC-32C. -/
def crcByte (c : Nat) (b : Byte) : Nat :=
  crcBit (crcBit (crcBit (crcBit (crcBit (crcBit (crcBit (crcBit (c ^^^ b.toNat))))))))

/-- CRC-32C of a byte string. -/
def crc32c (l : List Byte) : Nat := (l.foldl crcByte 0xFFFFFFFF) ^^^ 0xFFFFFFFF

/-! ### Pairs (R9) -/

/-- Whether `o` is the _LO half of a pair that holds one quantity. -/
def isPairLo (o : Nat) : Bool :=
  pairRows.any (fun (b, st, ct, rs, rc) =>
    b ≤ o && (
      let d := o - b
      let i := if st = 0 then 0 else d / st
      let r := d - i * st
      decide (i < ct) && (if rs = 0 then r == 0 else r % rs == 0 && decide (r / rs < rc))))

/-- Apply a held _LO write of the pair at `lo`: the pair's value is about to be used (R9). -/
def State.useLo (s : State) (lo : Nat) : State :=
  match s.heldLo.lookup lo with
  | some w => { s.wr lo w with heldLo := s.heldLo.filter (fun e => e.1 != lo) }
  | none => s

/-- The 64-bit value of a pair at `lo`. -/
def State.pair (s : State) (lo : Nat) : Nat := (s.rd lo).toNat + (s.rd (lo + 4)).toNat * 2 ^ 32

/-! ### Modes -/

abbrev mBivouac : Nat := 0
abbrev mAscent : Nat := 1
abbrev mPaired : Nat := 2
abbrev mSolo : Nat := 3
abbrev mAbseil : Nat := 4
abbrev mHold : Nat := 5
abbrev mTest : Nat := 6
abbrev mService : Nat := 7

/-- The mode code reported (R60). (DEDUCED, assumption log 38) -/
def State.modeCode (s : State) : Nat := s.getF GLB_MODE_MODE
/-- A transition is under way (R62). -/
def State.inTransition (s : State) : Bool := s.flag GLB_MODE_TRANSITION

/-! ### Ports -/

/-- The state of a port. -/
def State.port (s : State) (p : Nat) : Option PortSt := s.ports.find? (fun x => x.port == p)

/-- The quadrant a port is bound to (R13). -/
def State.quadOf (s : State) (p : Nat) : Nat := ((s.port p).map (·.quad)).getD 0

/-- Any unit isolated (R472): the FLT_ISO registers and the units they do not name. -/
def State.anyIso (s : State) : Bool :=
  s.rd rFLT_ISO != 0 || s.rd rFLT_ISO_PORTS_LO != 0 || s.rd rFLT_ISO_PORTS_HI != 0 || s.rd rFLT_ISO_BANKS != 0 ||
  s.rd rFLT_ISO_ENG != 0 || !s.flt.isoUnits.isEmpty

/-- The loader's own state: what IMG_STATUS.STATE reads, or returns to when the programming of a slot ends (R58). -/
def State.loaderState (s : State) : Nat :=
  if s.getF IMG_STATUS_STATE = 6 ∧ s.load.programming ≠ 0 then s.load.saved else s.getF IMG_STATUS_STATE

/-- FAULT_N driven low (R472), the last assertion's 10 µs included. -/
def State.faultN (s : State) : Bool :=
  if s.modeCode = mBivouac then false
  else
    !s.mode.everRan || s.modeCode == mHold || s.modeCode == mTest || s.loaderState == 5 ||
    s.flag DRC_STATUS_TRAIN_FAIL || s.flag DRC_STATUS_DESC_BAD || s.anyIso ||
    s.flt.reactions.any (fun r => r.cls == 3 && r.done.isNone) || decide (s.now < s.mode.faultUntil) ||
    (s.mode.ascent == .short && !s.mode.pwrgood && decide (s.mode.wakeAt + tMs 20 < s.mode.railRetryAt))

/-- An assertion of FAULT_N that begins between `old` and `s` lasts at least 10 µs (R472). -/
def State.faultEdge (s old : State) : State :=
  if s.faultN && !old.faultN then { s with mode := { s.mode with faultUntil := s.now + tUs 10 } } else s

end Sys2Proof.Machine
end

