-- ==== Sys2Proof/Machine/Record.lean ====
section
/-!
DEFINITION. Machine/Record.lean: raising cairns (R502–R514) and counting the events of fault sources (R455, R466).
-/

namespace Sys2Proof.Machine

/-- The format version the device writes: min(FMT_REQ, 2), and 1 when FMT_REQ is 0 or 1 (R505). -/
def State.cairnVer (s : State) : Nat := if s.getF CRN_CFG_FMT_REQ < 2 then 1 else 2

/-- A payload padded to its 32 bytes (R503). -/
def pad32 (l : List Byte) : List Byte := (l ++ List.replicate 32 0).take 32

/-- Words 0 to 6 of a cairn: its first 56 bytes (R503). -/
def Cairn.body (c : Cairn) (ver : Nat) : List Byte :=
  [BitVec.ofNat 8 c.kind, BitVec.ofNat 8 ver, BitVec.ofNat 8 c.flags, 0] ++ leBytes 4 c.key ++
  leBytes 5 c.firstSec ++ leBytes 3 c.pcycle ++ leBytes 5 c.lastSec ++ [0] ++ leBytes 2 c.rep ++ pad32 c.payload

/-- Word 7: the mark and, in version 2, the CRC-32C over bytes 0–15 and 24–55 (R503). -/
def Cairn.mark (c : Cairn) (ver : Nat) : List Byte :=
  let b := c.body ver
  leBytes 2 0x6A5B ++ leBytes 2 0 ++ leBytes 4 (if ver = 2 then crc32c (b.take 16 ++ b.drop 24) else 0)

/-- The bytes of slot `i` of the store. -/
def State.slotBytes (s : State) (i : Nat) : List Byte := readBytes s.crn.mram (64 * i) 64

/-- A slot is valid when its MARK stands and, for version 2, its CHECK matches (R504). -/
def slotValid (b : List Byte) : Bool :=
  leNat ((b.drop 56).take 2) == 0x6A5B &&
  ((b.getD 1 0).toNat != 2 || leNat ((b.drop 60).take 4) == crc32c (b.take 16 ++ (b.drop 24).take 32))

/-- Whether a new event cairn merges with the last: same KIND, KEY and PCYCLE, and not a record kind (R511). (DEDUCED, assumption log 61) -/
def mergesWith (c : Cairn) (kind key pcycle : Nat) : Bool :=
  decide (0x40 ≤ c.kind) && c.kind == kind && c.key == key && c.pcycle == pcycle

/-- Apply `f` to the last element of a list. -/
def updLast {α : Type} (f : α → α) : List α → List α
  | [] => []
  | [a] => [f a]
  | a :: t => a :: updLast f t

/-- Merge into the cairn of slot `i`: REPEAT increments and LAST_SEC follows; only word 2 is rewritten (R504, R511). (DEDUCED, assumption log 61) -/
def State.mergeSlot (s : State) (i sec : Nat) : State :=
  let b := s.slotBytes i
  let r := min 65535 (leNat ((b.drop 22).take 2) + 1)
  { s with crn := { s.crn with mram := writeBytes s.crn.mram (64 * i + 16) (leBytes 5 sec ++ [0] ++ leBytes 2 r) } }

/-- Raise a cairn (R510, R511): not in Bivouac (R514), merged with the last one where R511 says so, else queued; dropped
and counted while the queue of 256 entries is full. (DEDUCED, assumption log 61) -/
def State.cairn (s : State) (kind key : Nat) (payload : List Byte) (flags : Nat := 0) : State :=
  if s.modeCode = mBivouac then s
  else
    let c : Cairn := { kind := kind, flags := flags, key := key, firstSec := s.opSec, pcycle := s.getF AON_PCYCLE_COUNT,
                       lastSec := s.opSec, rep := 1, payload := payload }
    match s.crn.queue.getLast? with
    | some l =>
      if mergesWith c l.kind l.key l.pcycle then
        { s with crn := { s.crn with queue := updLast (fun l => { l with rep := min 65535 (l.rep + 1), lastSec := c.firstSec }) s.crn.queue } }
      else if s.crn.queue.length < 256 then { s with crn := { s.crn with queue := s.crn.queue ++ [c] } }
      else (s.count CRN_DROPPED_COUNT 1).raiseCRN CRN_INT_STATUS_DROPPED
    | none =>
      let u := s.getF CRN_STATUS_USED
      let b := s.slotBytes (u - 1)
      if 0 < u ∧ slotValid b = true ∧ mergesWith c (b.getD 0 0).toNat (leNat ((b.drop 4).take 4)) (leNat ((b.drop 13).take 3)) = true
      then s.mergeSlot (u - 1) c.firstSec
      else { s with crn := { s.crn with queue := [c] } }

/-- Report a guarantee broken or restored (R328): kind 1 shaper, 2 pool, 3 all replicated streams, 4 stream. -/
def State.guar (s : State) (kind idx rank admitAt rate count : Nat) (restored : Bool) : State :=
  ((s.raiseSCH SCH_INT_STATUS_GUAR_BROKEN).count SCH_BROKEN_CNT_COUNT 1).cairn 0x44 (kind * 2 ^ 24 + b2n restored * 2 ^ 23 + idx)
    ([BitVec.ofNat 8 rank, 0] ++ leBytes 2 admitAt ++ leBytes 4 rate ++ leBytes 4 count)

/-! ### The reaction shadow (R466) -/

/-- The quadrant that contains a unit; a MAC/PCS station lies in the quadrant of its port (R13). -/
def State.unitQuad (s : State) : FUnit → Option Nat
  | .tile q => some q
  | .engine e => if e < 16 then some (e / 4) else none
  | .station q _ => some q
  | .sched q _ => some q
  | .quadrant q => some q
  | .port p => if s.ports.any (fun x => x.port == p) then some (s.quadOf p) else none
  | _ => none

/-- UNIT_KIND and UNIT of a unit (R473).  The table gives the numbers of a quadrant's stations and of the core's no order; they are
16 q + i, 64 to 66, and 67 + p for the scheduler of port p (DESIGN CHOICE, assumption log 76). -/
def unitCode : FUnit → Nat × Nat
  | .tile q => (0, q) | .engine e => (1, e) | .station q i => (2, 16 * q + i) | .quadrant q => (3, q)
  | .bankGroup g => (4, g) | .lane c => (5, c) | .ropeLane n => (6, n) | .port p => (7, p) | .dramCh c => (8, c)
  | .hostIf => (9, 0) | .die d => (10, d) | .core => (11, 0) | .poolMgr => (2, 64) | .trafficMgr => (2, 65)
  | .dqxMover => (2, 66) | .sched _ p => (2, 67 + p) | .dma _ => (9, 0) | .noUnit => (11, 0)

/-- The sources of quadrant `q`, its FG24 source, the MAC sources of its ports, and the sources of bead-record checks and refused reads
(R453, R466). -/
def quadSource (q s : Nat) : Bool :=
  (33 + 17 * q ≤ s && s ≤ 49 + 17 * q) || (101 + 4 * q ≤ s && s ≤ 104 + 4 * q) || s == 118 + q || s == 123 + q ||
  (128 + 6 * q ≤ s && s ≤ 133 + 6 * q) || (152 + 4 * q ≤ s && s ≤ 155 + 4 * q) ||
  (168 + 3 * q ≤ s && s ≤ 170 + 3 * q) || (183 + 16 * q ≤ s && s ≤ 198 + 16 * q) || s == 277 + q ||
  (313 + 2 * q ≤ s && s ≤ 314 + 2 * q) || s == 396 + q || (400 + 2 * q ≤ s && s ≤ 401 + 2 * q) ||
  s == 264 || (267 ≤ s && s ≤ 268)

/-- The sources whose detectors lie in the core (R453): commit, packet buffer, pool manager, traffic manager, mover. -/
def coreSource (s : Nat) : Bool := (180 ≤ s && s ≤ 182) || (247 ≤ s && s ≤ 276)

/-- Whether two sources are of one kind of tile of one quadrant (R453): its table tiles, its TCAM blocks, or its tree-cache tiles and
exact-flow buckets. -/
def tileSource (q src s : Nat) : Bool :=
  let k := fun (lo hi : Nat) => lo ≤ src && src ≤ hi && lo ≤ s && s ≤ hi
  k (128 + 6 * q) (133 + 6 * q) || k (152 + 4 * q) (155 + 4 * q) || k (168 + 3 * q) (170 + 3 * q)

/-- Whether a reaction shadows source `s` (R466).  A C1 of a DMA channel casts no shadow that the table names. -/
def shadows (r : Reaction) (s : Nat) : Bool :=
  if s < 18 then false
  else
    match r.unit with
    | .quadrant q => quadSource q s
    | .tile q => if r.cls = 2 then quadSource q s else tileSource q r.source s
    | .engine e => s == 101 + e || (e == 16 && 374 ≤ s && s ≤ 377)
    | .station q i => if r.cls = 2 then quadSource q s else s == 33 + 17 * q + i || s == 183 + 16 * q + i || (i < 15 && s == 34 + 17 * q + i)
    | .sched q _ => if r.cls = 2 then quadSource q s else s == 400 + 2 * q || s == 401 + 2 * q
    | .bankGroup g => s == 247 + g || s == 263
    | .poolMgr => if r.cls = 2 then coreSource s else 264 ≤ s && s ≤ 269
    | .trafficMgr => if r.cls = 2 then coreSource s else 270 ≤ s && s ≤ 274
    | .dqxMover => s == 275 || s == 276
    | .lane _ | .port _ => r.lanes.any (fun l => s == 284 + l) || r.quads.any (fun q => s == 313 + 2 * q || s == 314 + 2 * q)
    | .ropeLane n => s == 308 + n || r.quads.any (fun q => s == 313 + 2 * q || s == 314 + 2 * q)
    | .dramCh c => 339 + 7 * c ≤ s && s ≤ 345 + 7 * c
    | .hostIf | .dma _ => r.cls == 2 && 323 ≤ s && s ≤ 338
    | .die 0 | .core => coreSource s
    | .die 1 => (284 ≤ s && s ≤ 295) || (323 ≤ s && s ≤ 352)
    | .die _ => (296 ≤ s && s ≤ 312) || (353 ≤ s && s ≤ 366)
    | .noUnit => false

/-- The reaction whose shadow covers a source, if any (R466). -/
def State.shadowOf (s : State) (src : Nat) : Option Reaction :=
  s.flt.reactions.find? (fun r => shadows r src)

/-- Add to the per-source counts of the record interval (R507): events, consequential, severe. -/
def State.accum (s : State) (src e c v : Nat) : State :=
  let old := (s.flt.accum.lookup src).getD (0, 0, 0)
  { s with flt := { s.flt with accum := sput s.flt.accum src (old.1 + e, old.2.1 + c, old.2.2 + v) } }

/-- One event at a source, without what a severe event raises (R455): counted as consequential while the source is shadowed,
else against N and W.  The Bool says that a severe event of the group is to be raised. -/
def State.countEvent (s : State) (src : Nat) : State × Bool :=
  match s.shadowOf src with
  | some r =>
    let k := unitCode r.unit
    (((((s.count (FLT_SRC_CONSEQ_COUNT src) 1).count FLT_CONSEQ_CNT_COUNT 1).accum src 0 1 0).cairn 0x41 src
      [BitVec.ofNat 8 (groupOf src), BitVec.ofNat 8 r.group, BitVec.ofNat 8 r.cls, BitVec.ofNat 8 k.1, BitVec.ofNat 8 k.2]), false)
  | none =>
    let t := (s.count (FLT_SRC_CNT_EVENTS src) 1).accum src 1 0 0
    let w0 := (s.flt.winStart.lookup src).getD 0
    let fresh := s.getF (FLT_SRC_STATE_WIN_COUNT src) = 0 ∨ w0 + tUs (s.getF (FLT_SRC_CFG_W_US src)) ≤ s.now
    let t := if fresh then { t with flt := { t.flt with winStart := sput t.flt.winStart src s.now } } else t
    let k := (if fresh then 0 else s.getF (FLT_SRC_STATE_WIN_COUNT src)) + 1
    if s.getF (FLT_SRC_CFG_N src) ≤ k then (t.setF (FLT_SRC_STATE_WIN_COUNT src) 0, true)
    else (t.setF (FLT_SRC_STATE_WIN_COUNT src) k, false)

/-- The FG31 sources, in the order in which R453 lists their events (DESIGN CHOICE, assumption log 10). -/
abbrev srcAccess : Nat := 323
abbrev srcRwl : Nat := 324
abbrev srcRefusedWrite : Nat := 325
abbrev srcMailbox : Nat := 326
abbrev srcPcie : Nat := 327
abbrev srcHostOther : Nat := 328

/-- The vectors of a fault group: 128 + g and the summary vector 0, where FLT_INT_EN enables them (R457, R482). (DEDUCED, assumption log 62) -/
def State.groupVec (s : State) (g : Nat) : State :=
  if (s.getF (if g < 32 then FLT_INT_EN_LO_EN else FLT_INT_EN_HI_EN)).testBit (g % 32)
  then (s.sendVec (128 + g)).sendVec 0 else s

/-- Set a group's bit in a _LO / _HI pair of group masks. -/
def State.setGroup (s : State) (lo hi : Fld) (g : Nat) : State :=
  s.orF (if g < 32 then lo else hi) (2 ^ (g % 32))

/-- Clear a group's bit in a _LO / _HI pair of group masks. -/
def State.clrGroup (s : State) (lo hi : Fld) (g : Nat) : State :=
  s.clrBit (if g < 32 then lo else hi) (g % 32)

/-- The bookkeeping of every severe event of group `g` (R457, R460): counted, its bit in FLT_SEVERE set, LAST_SOURCE recorded
where the group is idle. (DEDUCED, assumption log 62) -/
def State.severeBook (s : State) (g src : Nat) : State :=
  (s.count (FLT_GRP_SEVERE_COUNT g) 1).accum src 0 0 1

end Sys2Proof.Machine
end

