-- ==== Sys2Proof/Machine/Lengths.lean ====
section
/-!
DEFINITION. Machine/Lengths.lean: the values that a generation has (R162, R189), and what the parse station finds out about a frame's
layers from its bytes: which are recognised (R156, R157), and the checks of the length fields (R163-R166).
-/

namespace Sys2Proof.Machine

/-- The current generation. -/
def State.curGen (s : State) : Nat := s.getF CLS_GEN_CURRENT

/-- The generation record of an outstanding generation. -/
def State.gen (s : State) (g : Nat) : Option GenSt := s.gens.outs.find? (fun x => x.gen == g)

/-- The value of an RWG register in generation `g` (R162, R189): its staged value where `g` is not outstanding. -/
def State.rwg (s : State) (g off : Nat) : Word :=
  match s.gen g with
  | some x => sget resetWord x.rwg off
  | none => s.rd off

/-- A field of an RWG register in generation `g`. -/
def State.rwgF (s : State) (g : Nat) (f : Fld) : Nat := f.get (s.rwg g f.off)

/-- The parse reach in bytes and the layer limit (R150, R167). -/
def State.reach (s : State) : Nat := s.getF PRS_CFG_REACH

def State.layerMax (s : State) : Nat := min 16 (s.getF PRS_CFG_LAYERS)

/-- Two bytes of a byte string, big-endian. -/
def be16 (b : List Byte) (o : Nat) : Nat := beNat ((b.drop o).take 2)

/-- The fixed bytes of a header kind at an offset (R156): none for kinds whose size the spec leaves to the image, and where
the byte that gives the size has not come. (PRESUMED, assumption log 49) -/
def fixedBytes (kind off : Nat) (b : List Byte) : Option Nat :=
  match kind with
  | 1 => some 14 | 2 => some 4 | 3 => some 4
  | 4 => b[off]?.map (fun x => x.toNat % 16 * 4)
  | 5 => some 40
  | 6 => b[off + 1]?.map (fun x => 8 * (x.toNat + 1))
  | 7 => some 8
  | 8 => b[off + 12]?.map (fun x => x.toNat / 16 * 4)
  | 9 => some 4 | 10 => some 8
  | 11 => b[off]?.map (fun x => 4 + 4 * b2n (x.toNat.testBit 5))
  | 12 => some 8 | 13 => some 12
  | 14 => (match b[off]?, b[off + 1]? with
      | some x, some y => some (4 * (x.toNat % 2 * 256 + y.toNat)) | _, _ => none)
  | 15 => some 34 | 16 => some 16 | 17 => some 8 | 18 => some 6
  | _ => none

/-- Set frame flags. -/
def Frame.setFlags (f : Frame) (m : Nat) : Frame := { f with flags := f.flags ||| m }

/-- Set or clear one frame flag. -/
def Frame.setFlag (f : Frame) (i : Nat) (v : Bool) : Frame :=
  { f with flags := if v then f.flags ||| 2 ^ i else if f.flags.testBit i then f.flags - 2 ^ i else f.flags }

/-- A header byte that the check of a layer can read: it has come and lies inside the reach (R155). -/
def seenByte (reach : Nat) (b : List Byte) (o : Nat) : Option Nat := if o < reach then (b[o]?).map (·.toNat) else none

/-- `n` header bytes, big-endian, where all of them can be read. -/
def seenNat (reach : Nat) (b : List Byte) (o n : Nat) : Option Nat :=
  if o + n ≤ reach ∧ o + n ≤ b.length then some (beNat ((b.drop o).take n)) else none

/-- The source and the destination port of the UDP or TCP layer that encloses the layers after it. -/
def l4Ports (reach : Nat) (b : List Byte) (before : List Layer) : Option Nat × Option Nat :=
  match before.reverse.find? (fun l => l.kind == 7 || l.kind == 8) with
  | some l => (seenNat reach b l.off 2, seenNat reach b (l.off + 2) 2)
  | none => (none, none)

/-- A port register of the PRS block that is enabled in generation `g` names one of two ports (R162, R167). -/
def State.namesPort (s : State) (g : Nat) (port en : Fld) (p : Option Nat × Option Nat) : Bool :=
  s.rwgF g en == 1 && (p.1 == some (s.rwgF g port) || p.2 == some (s.rwgF g port))

/-- The last layer of a record fails its "Recognised when" check (R156, R157), as far as bytes that can be read show it; ports are
compared with the registers of the frame's generation (R162).  A GRE header with K = 1 and protocol 6558h is an NVGRE header. -/
def State.unrecognised (s : State) (f : Frame) : Bool :=
  match f.layers.getLast? with
  | none => false
  | some l =>
    let r := s.reach
    let byte := fun o => seenByte r f.bytes (l.off + o)
    let p := l4Ports r f.bytes f.layers.dropLast
    let bit := fun (o : Option Nat) (i : Nat) (v : Bool) => match o with | some x => x.testBit i == v | none => false
    match l.kind with
    | 10 => bit (byte 0) 3 false || !s.namesPort f.gen PRS_VXLAN_PORT_PORT PRS_VXLAN_PORT_EN (none, p.2)
    | 11 => bit (byte 0) 7 true || bit (byte 0) 6 true || (match byte 1 with | some x => x % 8 != 0 | none => false) ||
      (bit (byte 0) 5 true && seenNat r f.bytes (l.off + 2) 2 == some 0x6558)
    | 12 => bit (byte 0) 5 false || (match seenNat r f.bytes (l.off + 2) 2 with | some x => x != 0x6558 | none => false)
    | 16 => !(List.range 8).any (fun n => s.namesPort f.gen (PRS_SOMEIP_PORT_PORT n) (PRS_SOMEIP_PORT_EN n) p) ||
      (match seenNat r f.bytes (l.off + 4) 4 with | some x => decide (x < 8) | none => false)
    | 17 => !s.namesPort f.gen PRS_DOIP_PORT_PORT PRS_DOIP_PORT_EN p ||
      (match byte 0, byte 1 with | some x, some y => y != (x ^^^ 0xFF) | _, _ => false)
    | _ => false

/-- The station withdraws a last layer that is not recognised (R157). -/
def State.withdrawn (s : State) (f : Frame) : Frame := if s.unrecognised f then { f with layers := f.layers.dropLast } else f

/-- The payload end of an IPv4, IPv6 or UDP layer as its length field gives it. (PRESUMED, assumption log 49) -/
def claimedEnd (b : List Byte) (l : Layer) : Option Nat :=
  match l.kind with
  | 4 => some (l.off + be16 b (l.off + 2))
  | 5 => some (l.off + 40 + be16 b (l.off + 4))
  | 7 => some (l.off + be16 b (l.off + 4))
  | _ => none

/-- The enclosing end of the layers that follow `before` (R163): the nearest enclosing IPv4, IPv6 or UDP layer's, else the frame's. -/
def enclosingEnd (b : List Byte) (before : List Layer) : Nat :=
  match (before.filterMap (claimedEnd b)).getLast? with
  | some e => e
  | none => b.length

/-- Whether an IP layer directly follows a chain of Ethernet, VLAN and R-TAG layers, and where that chain's Ethernet layer starts. -/
def etherStart : List Layer → Option Nat
  | [] => none
  | l :: t => if l.kind = 1 then some l.off else if l.kind = 2 ∨ l.kind = 18 then etherStart t else none

/-- The excess of an IP layer is padding (R163). -/
def isPadding (before : List Layer) (e : Nat) : Bool :=
  match etherStart before.reverse with
  | some o => e == o + 60
  | none => false

/-- The verdict on one layer: its cause of failure, or 0; and whether padding was accepted.  `frag` says that the enclosing
datagram is a fragment. (PRESUMED, assumption log 49) -/
def judge (b : List Byte) (reach : Nat) (frag : Bool) (before : List Layer) (l : Layer) : Nat × Bool :=
  let e := enclosingEnd b before
  let trunc := match fixedBytes l.kind l.off b with
    | some n => decide (b.length < l.off + n)
    | none => decide (l.kind < 0x40)
  if decide (l.off < reach) && trunc then (5, false)
  else
    let fit := fun (m : Nat) => if e < m then (2, false) else if m = e then (0, false)
      else if isPadding before e then (0, true) else (3, false)
    match l.kind with
    | 4 =>
      let ihl := (b.getD l.off 0).toNat % 16
      let tl := be16 b (l.off + 2)
      if ihl < 5 ∨ tl < ihl * 4 then (1, false) else fit (l.off + tl)
    | 5 => fit (l.off + 40 + be16 b (l.off + 4))
    | 7 =>
      if frag then (0, false)
      else
        let n := be16 b (l.off + 4)
        if n < 8 then (4, false) else if e < l.off + n then (2, false) else if l.off + n = e then (0, false) else (3, false)
    | 8 =>
      if frag then (0, false)
      else
        let d := (b.getD (l.off + 12) 0).toNat / 16
        if d < 5 ∨ e < l.off + d * 4 then (4, false) else (0, false)
    | _ => (0, false)

/-- The first failing layer in offset order: cause, index, offset; and whether any padding was accepted (R164). -/
def judgeAll (b : List Byte) (reach : Nat) (frag : Bool) : List Layer → List Layer → Nat → Bool → Option (Nat × Nat × Nat) × Bool
  | _, [], _, pad => (none, pad)
  | before, l :: t, i, pad =>
    match judge b reach frag before l with
    | (0, p) => judgeAll b reach frag (before ++ [l]) t (i + 1) (pad || p)
    | (c, _) => (some (c, i, l.off), pad)

/-- The length checks of a frame that has ended (R163, R164): its first failing layer, and whether padding was accepted.  A frame that
came back from P67 is exempt (R349). -/
def State.lengths (s : State) (f : Frame) : Option (Nat × Nat × Nat) × Bool :=
  if f.recirc then (none, false) else judgeAll f.bytes s.reach (f.flags.testBit 19) [] f.layers 0 false

/-- PRS_Q_LAST_MAL records a malformed frame (R167): cause, layer, offset. -/
def State.recordMal (s : State) (f : Frame) (r : Nat × Nat × Nat) : State :=
  let q := s.quadOf f.port
  let t := (s.setF (PRS_Q_LAST_MAL_PORT q) f.port).setF (PRS_Q_LAST_MAL_CAUSE q) r.1
  ((t.setF (PRS_Q_LAST_MAL_LAYER q) r.2.1).setF (PRS_Q_LAST_MAL_OFFSET q) r.2.2).setF (PRS_Q_LAST_MAL_VALID q) 1

/-- A frame with REACH_EXH set that is not malformed is counted (R166). -/
def State.reachCount (s : State) (f : Frame) : State :=
  if f.flags.testBit 0 then s.count (PRS_Q_REACH_EXH_COUNT (s.quadOf f.port)) 1 else s

/-- The lengths of a frame that has ended are judged (R163–R166): the reason that ends it (malformed, else one it carried from its end),
the frame with PADDED, and the records. -/
def State.judged (s : State) (f : Frame) : Option Nat × Frame × State :=
  match s.lengths f with
  | (some r, _) => (some tRX_MALFORMED, f, s.recordMal f r)
  | (none, pad) => (f.why, (if pad then f.setFlags 4 else f), s.reachCount f)

/-- A frame whose parse has not ended. -/
def Frame.parses (f : Frame) : Bool := f.phase == .waiting || f.phase == .parsing

end Sys2Proof.Machine
end

