-- ==== Sys2Proof/Machine/Meters.lean ====
section
/-!
DEFINITION. Machine/Meters.lean: what runs with time: the buckets of a meter (R323–R325) and the credit of a shaper (R309).
-/

namespace Sys2Proof.Machine

/-! ### Meters -/

/-- The record of a meter (R323). -/
def meterAddr (m : Nat) : Nat := 0x0F100000 + 0x10 * m

/-- One byte in the units of a bucket. -/
abbrev byteU : Int := 216000000

/-- The buckets of a meter now (R324): filled since they were last touched. -/
def State.buckets (s : State) (m : Nat) : Int × Int :=
  let a := meterAddr m
  let cir : Int := s.memLe a 4
  let eir : Int := s.memLe (a + 4) 4
  let cbs : Int := (s.memLe (a + 8) 3 : Int) * byteU
  let ebs : Int := (s.memLe (a + 11) 3 : Int) * byteU
  match s.meters.find? (fun x => x.meter == m) with
  | none => (cbs, ebs)
  | some x =>
    let dt : Int := ((s.now - x.at_ : Nat) : Int)
    let c := x.c + dt * cir
    let beyond := if (s.memLe (a + 14) 1).testBit 1 then max 0 (c - cbs) else 0
    (min cbs c, min ebs (x.e + dt * eir + beyond))

/-- Replace the buckets of a meter. -/
def State.putBuckets (s : State) (m : Nat) (c e : Int) : State :=
  { s with meters := s.meters.filter (fun x => x.meter != m) ++ [{ meter := m, c := c, e := e, at_ := s.now }] }

/-- The charges of a frame are corrected by its actual length (R325). -/
def State.meterCorrect (s : State) (len : Nat) : List (Nat × Nat × Nat) → State
  | [] => s
  | (m, b, est) :: t =>
    let k := s.buckets m
    let d : Int := ((len : Int) - (est : Int)) * byteU
    (if b = 0 then s.putBuckets m (k.1 - d) k.2 else s.putBuckets m k.1 (k.2 - d)).meterCorrect len t

/-! ### Shapers -/

/-- The rate of a port in Mbit/s: its NOMINAL; P67 passes copies at 100 Gbit/s (R309, R313, R349). -/
def State.rate (s : State) (p : Nat) : Nat := if p = 67 then 100000 else ((s.port p).map (·.nominal)).getD 0

/-- The credit of a queue now, in units of 1/27,000,000 bit. -/
def State.cbsNow (s : State) (x : CbsSt) : Int :=
  let dt : Int := ((s.now - x.at_ : Nat) : Int)
  let idle : Int := s.getF (SCH_PORT_QALLOC_RATE x.port x.tc)
  let top : Int := (s.getF (SCH_PORT_QBURST_BURST x.port x.tc) : Int) * 8 * 27000000
  match x.mode with
  | 1 => x.credit + dt * (idle - (s.rate x.port : Int) * 1000)
  | 2 => if x.credit ≤ top then min top (x.credit + dt * idle) else x.credit
  | 3 => min 0 (x.credit + dt * idle)
  | _ => x.credit

/-- The credit of the shapers of a port as it stands now, before a rate or a burst changes (R309). -/
def State.cbsTouch (s : State) (p : Nat) : State :=
  { s with shapers := s.shapers.map (fun x => if x.port == p then { x with credit := s.cbsNow x, at_ := s.now } else x) }

end Sys2Proof.Machine
end

