-- ==== Sys2Proof/Machine/Pool.lean ====
section
/-!
DEFINITION. Machine/Pool.lean: the pool manager's accounting (R253–R268), and the disposal of frames and copies that every
drop, flush and restart goes through (R19, R101, R165, R270, R273, R477).
-/

namespace Sys2Proof.Machine

/-! ### Pools -/

/-- The pool that a traffic class feeds (R257). -/
def State.poolOf (s : State) (tc : Nat) : Nat :=
  (((List.range 16).find? (fun n => (s.getF (BPM_POOL_CFG_TCS n)).testBit tc))).getD 0

/-- A threshold acts at the quota when it lies above it (R279). -/
def State.thr (s : State) (n v : Nat) : Nat := min v (s.getF (BPM_POOL_BEADS_QUOTA n))

/-- A crossing of WARN2 raises its interrupt, also while the bit of an earlier crossing of another pool still stands (R260). -/
def State.raiseWarn2 (s : State) : State :=
  if s.flag BPM_INT_STATUS_WARN2 && (s.rd rBPM_INT_EN).getLsbD BPM_INT_STATUS_WARN2.lo then s.sendVec 4 else s.raiseBPM BPM_INT_STATUS_WARN2

/-- Evaluate the thresholds of a pool after its occupancy changed (R260, R262). -/
def State.poolEval (s : State) (n : Nat) : State :=
  if s.getF (BPM_POOL_CFG_TCS n) = 0 then s
  else
    let occ := s.getF (BPM_POOL_OCC_BEADS n)
    let gap := s.getF (BPM_POOL_XON_XON_GAP n)
    let w1 := s.thr n (s.getF (BPM_POOL_WARN1_BEADS n))
    let w2 := s.thr n (s.getF (BPM_POOL_WARN2_BEADS n))
    let s1 :=
      if s.flag (BPM_POOL_CFG_RESERVED n) then s
      else if w1 ≤ occ then s.setF (BPM_POOL_OCC_BP n) 1
      else if occ + gap < w1 then s.setF (BPM_POOL_OCC_BP n) 0
      else s
    let s2 := s1.setB (BPM_POOL_OCC_WARN2_ACT n) (w2 ≤ occ)
    if w2 ≤ occ then
      if s2.buf.warn2.contains n then s2
      else ({ s2 with buf := { s2.buf with warn2 := n :: s2.buf.warn2 } }.orF BPM_WARN2_POOLS_POOLS (2 ^ n)).raiseWarn2
    else if occ + gap < w2 then { s2 with buf := { s2.buf with warn2 := s2.buf.warn2.filter (· != n) } }
    else s2

/-- Charge `k` beads to a pool (R259). -/
def State.charge (s : State) (n k : Nat) : State :=
  let t := s.setF (BPM_POOL_OCC_BEADS n) (s.getF (BPM_POOL_OCC_BEADS n) + k)
  (t.maxF (BPM_POOL_PEAK_BEADS n) (t.getF (BPM_POOL_OCC_BEADS n))).poolEval n

/-- Release `k` charges of a pool. -/
def State.uncharge (s : State) (n k : Nat) : State := (s.dec (BPM_POOL_OCC_BEADS n) k).poolEval n

/-- The bank of line `j` of bead `b`, and its word in that bank (R253). -/
def beadBank (b j : Nat) : Nat := 4 * (b % 16) + j
def beadWord (b : Nat) : Nat := b / 16

/-- The group of four banks that holds a bead (R253). -/
def beadGroup (b : Nat) : Nat := beadBank b 0 / 4

/-- Whether a bead lies in a bank group in service (R253, R266). -/
def State.bankOk (s : State) (b : Nat) : Bool := !(s.getF FLT_ISO_BANKS_GROUPS).testBit (beadGroup b)

/-- The 64 bytes at a word of a bank (R253): a line of the bead there, as the frame that holds the bead has written it; a bead's bytes are the
256 bytes of its frame at the bead's place.  What a free bead's lines read is an open value, which nothing reads (R266). -/
def State.bankLine (s : State) (bank word : Nat) : Option (List Byte) :=
  let b := 16 * word + bank / 4
  let line := fun (f : Frame) (l : List Nat) => (f.bytes.drop (256 * l.idxOf b + 64 * (bank % 4))).take 64
  match s.frames.find? (fun f => f.beads.contains b) with
  | some f => some (line f f.beads)
  | none =>
    match s.copies.find? (fun c => c.own.contains b) with
    | some c => (s.frames.find? (fun f => f.fid == c.fid)).map (fun f => line f c.own)
    | none => none

/-- The head of the free list: beads never allocated come first, in order, then the freed ones (R265). -/
def State.freeHead (s : State) : Option Nat :=
  match ((List.range 16).map (· + s.buf.fresh)).find? (fun b => b < 262144 && s.bankOk b) with
  | some b => some b
  | none => s.buf.freed.find? s.bankOk

/-- NEXT of a bead (R255): the next bead of its frame, or of the free list. -/
def State.beadNext (s : State) (b : Nat) : Option Nat :=
  match s.buf.held.lookup b with
  | some r => r.next
  | none => if s.buf.fresh ≤ b then (if b + 1 < 262144 then some (b + 1) else s.buf.freed.head?) else (s.buf.freed.drop (s.buf.freed.idxOf b + 1)).head?

/-- NEXT of the last bead of a frame names the bead that joins it (R255). -/
def linkBead (held : List (Nat × Bead)) (l : List Nat) (b : Nat) : List (Nat × Bead) :=
  match l.getLast? with
  | some x => (match held.lookup x with | some r => sput held x { r with next := some b } | none => held)
  | none => held

/-- Take a bead from the free list for an owner and charge it to a pool (R255, R259); no copy reads it yet. -/
def State.takeBead (s : State) (pool owner : Nat) : Option (Nat × State) :=
  match s.freeHead with
  | none => none
  | some b =>
    let fresh := if s.buf.fresh ≤ b then b + 1 else s.buf.fresh
    let t := { s with buf := { s.buf with
      fresh := fresh
      freed := s.buf.freed.filter (· != b)
      held := sput s.buf.held b { next := none, owner := owner, refs := 0, pool := pool } } }
    some (b, (t.dec BPM_FREE_COUNT 1).charge pool 1)

/-- A bead becomes free: HELD = 0, and it enters the quarantine of 64 core cycles with its last charge counted (R265). -/
def State.beadToQuar (s : State) (b pool : Nat) : State :=
  { s with buf := { s.buf with held := sdel s.buf.held b,
                               quar := s.buf.quar ++ [{ bead := b, pool := pool, readyAt := s.now + tCyc 64 }] } }

/-- A copy ends its use of a bead: its charge is released at once while other copies still read it, else the bead becomes free. -/
def State.dropRef (s : State) (b : Nat) : State :=
  match s.buf.held.lookup b with
  | none => s
  | some r =>
    if r.refs ≤ 1 then s.beadToQuar b r.pool
    else ({ s with buf := { s.buf with held := sput s.buf.held b { r with refs := r.refs - 1 } } }).uncharge r.pool 1

/-- Record a refused bead operation. -/
def State.refuseBead (s : State) (addr req cause owner : Nat) : State :=
  let t := (s.setF BPM_REFUSE_PTR_ADDR addr).setF BPM_REFUSE_INFO_REQ req
  ((t.setF BPM_REFUSE_INFO_CAUSE cause).setF BPM_REFUSE_INFO_OWNER owner).setF BPM_REFUSE_INFO_VALID 1

/-- A source that a refused free raises at the end of the operation (R267). -/
def State.badFree (s : State) (src : Nat) : State := { s with buf := { s.buf with badFrees := s.buf.badFrees ++ [src] } }

/-- A free of a bead by a requester, by the first row that matches the bead record (R267). -/
def State.freeAs (s : State) (requester b : Nat) : State :=
  match s.buf.held.lookup b with
  | none => (((s.count BPM_DFREE_CNT_COUNT 1).refuseBead (256 * b) requester 2 0).raiseBPM BPM_INT_STATUS_DFREE).badFree 265
  | some r =>
    if r.owner = 0xFFE ∧ requester ≤ 0x21F then s.dropRef b
    else if r.owner ≠ 0xFFE ∧ r.owner = requester then s.beadToQuar b r.pool
    else (((s.count BPM_FFREE_CNT_COUNT 1).refuseBead (256 * b) requester 3 r.owner).raiseBPM BPM_INT_STATUS_FFREE).badFree 266

/-- Frees of a list of beads by one requester. -/
def State.freeAll : State → Nat → List Nat → State
  | s, _, [] => s
  | s, q, b :: t => (s.freeAs q b).freeAll q t

/-- Free beads that their writer or owner still holds whole (R268). -/
def State.freeBeads : State → List Nat → State
  | s, [] => s
  | s, b :: t =>
    (match s.buf.held.lookup b with
     | none => s
     | some r => s.beadToQuar b r.pool).freeBeads t

/-! ### Frames and copies -/

/-- The frame with an identifier. -/
def State.frame (s : State) (fid : Nat) : Option Frame := s.frames.find? (fun f => f.fid == fid)

/-- Replace a frame's record. -/
def State.putFrame (s : State) (f : Frame) : State :=
  { s with frames := updFirst (fun g => g.fid == f.fid) (fun _ => f) s.frames }

/-- Remove a frame's record. -/
def State.delFrame (s : State) (fid : Nat) : State := { s with frames := s.frames.filter (fun f => f.fid != fid) }

/-- The copy of a frame for a port. -/
def State.copy (s : State) (fid port : Nat) : Option Copy := s.copies.find? (fun c => c.fid == fid && c.port == port)

/-- Replace a copy's record. -/
def State.putCopy (s : State) (c : Copy) : State :=
  { s with copies := updFirst (fun d => d.fid == c.fid && d.port == c.port) (fun _ => c) s.copies }

/-- Remove a copy's record. -/
def State.delCopy (s : State) (fid port : Nat) : State :=
  { s with copies := s.copies.filter (fun c => !(c.fid == fid && c.port == port)) }

/-- The copies held by a queue, in order. -/
def State.queue (s : State) (port tc : Nat) : List Copy :=
  s.copies.filter (fun c => c.port == port && c.tc == tc && c.phase == .queued)

/-- Update the state of a port. -/
def State.updPort (s : State) (p : Nat) (f : PortSt → PortSt) : State :=
  { s with ports := updFirst (fun x => x.port == p) f s.ports }

/-- The egress ports' queue depth counters move with a copy (R283). -/
def State.depthAdd (s : State) (c : Copy) : State :=
  if c.seg = 1 then s.setF (SWC_PORT_QDQX_SLOTS c.port c.tc) (s.getF (SWC_PORT_QDQX_SLOTS c.port c.tc) + c.beads)
  else s.setF (SWC_PORT_QDEPTH_BEADS c.port c.tc) (s.getF (SWC_PORT_QDEPTH_BEADS c.port c.tc) + c.beads)

/-- A copy leaves its queue. -/
def State.depthSub (s : State) (c : Copy) : State :=
  if c.phase != .queued then s
  else if c.seg = 1 then (s.dec (SWC_PORT_QDQX_SLOTS c.port c.tc) c.beads).dec SWC_DQX_USED_SLOTS c.beads
  else s.dec (SWC_PORT_QDEPTH_BEADS c.port c.tc) c.beads

/-- Threads end: a sample point that waits for one of them has its thread ended within the skid (R147). -/
def State.dropThreads (s : State) (p : Thread → Bool) : State :=
  { s with threads := s.threads.filter (fun th => !p th),
           samples := s.samples.map (fun x =>
             if s.threads.any (fun th => p th && th.eng == x.eng && th.slot == x.slot) then { x with ended := true } else x) }

/-- The threads that work for a target end. -/
def State.endThreads (s : State) (t : Target) : State :=
  s.dropThreads (fun th => th.target == t)

/-- A frame whose last byte has come and that has no copy left leaves the device. -/
def State.settleFrame (s : State) (fid : Nat) : State :=
  match s.frame fid with
  | none => s
  | some f => if f.ended && (f.phase == .enqueued || f.phase == .dropped) && !s.copies.any (fun c => c.fid == fid) then s.delFrame fid else s

/-- The beads that a copy holds: its own after a refill or while one runs, none in a DRAM segment, else its frame's, but for those that it
has read and released (R259). -/
def State.copyBeads (s : State) (c : Copy) : List Nat :=
  (if c.seg == 1 || !c.own.isEmpty then c.own
   else match s.frame c.fid with | some f => f.beads.take c.beads | none => []).filter (fun b => !c.done.contains b)

/-- Under which tag a copy frees its beads (R256): its queue's, or the DQX mover's while a refill runs. -/
def Copy.freeTag (c : Copy) : Nat := if c.seg = 1 then 0x360 else 8 * c.port + c.tc

/-- Release what a copy holds and take it off its queue. -/
def State.releaseCopy (s : State) (c : Copy) : State :=
  (((s.depthSub c).delCopy c.fid c.port).freeAll c.freeTag (s.copyBeads c)).endThreads (.copy c.fid c.port)

/-- Drop a copy and count it on its egress port: its counter and the drops of its class (R522). -/
def State.dropCopy (s : State) (c : Copy) (counter : Nat) : State :=
  (((s.releaseCopy c).portTally c.port counter 1).portTally c.port (tTc c.tc 2) 1).settleFrame c.fid

/-- Drop every copy of a list, with one counter. -/
def State.dropCopies : State → List Copy → Nat → State
  | s, [], _ => s
  | s, c :: t, counter => (s.dropCopy c counter).dropCopies t counter

/-- Remove copies without counting them on their egress ports (R270). -/
def State.withdrawCopies : State → List Copy → State
  | s, [] => s
  | s, c :: t => (s.releaseCopy c).withdrawCopies t

/-- Tail-mark the copies of a frame that are in transmission (R19). -/
def State.tailMarkFrame (s : State) (fid : Nat) : State :=
  { s with copies := s.copies.map (fun c => if c.fid == fid && c.started then { c with tailMark := true } else c) }

/-- A frame that is not admitted and for which no rule names a reason counter (DEDUCED, assumption log 14). -/
abbrev tNONE : Nat := 255

/-- Bits enter the present bandwidth window of a port (R525). -/
def State.bwAdd (s : State) (p rx tx : Nat) : State :=
  let o := (s.bw.lookup p).getD (0, 0)
  { s with bw := sput s.bw p (o.1 + rx, o.2 + tx) }

/-- A received frame of `len` bytes is counted whatever its disposition (R522); a runt enters no size bin. -/
def State.rxTally (s : State) (p len : Nat) : State :=
  let t := ((s.portTally p tRX_FRAMES 1).portTally p tRX_BYTES len).bwAdd p (8 * len) 0
  if len < 64 then t else t.portTally p (tRX_SIZE0 + sizeBin len) 1

/-- Count the reason of a dropped frame on its ingress port, once (R165, R478). (DEDUCED, assumption log 14) (DEDUCED, assumption log 48) -/
def State.countWhy (s : State) (f : Frame) (why : Nat) : State :=
  if f.counted || why == tNONE then s else
  let t := s.portTally f.port why 1
  if why = tRX_MALFORMED then t.count (PRS_Q_MALFORMED_COUNT (s.quadOf f.port)) 1
  else if why = tRX_RULE_DROP then
    (match f.dropCode with
     | some r =>
       let k := 256 * f.port + r
       { t with tly := { t.tly with byReason := sput t.tly.byReason k ((t.tly.byReason.lookup k).getD 0 + 1) } }
     | none => t)
  else t

/-- Drop a frame for a reason: copies not started are withdrawn uncounted, copies in transmission are tail-marked (R270), its
writer's beads are freed.  Before its last byte the reason is kept and counted at the end, where a reason of higher precedence
may take its place (R165); a frame that has ended and whose parse this ends is judged now. (DEDUCED, assumption log 48) -/
def State.dropFrame (s : State) (fid why : Nat) : State :=
  match s.frame fid with
  | none => s
  | some f0 =>
    let j := if f0.ended && f0.parses then s.judged (s.withdrawn f0) else (f0.why, f0, s)
    let f := { f0 with why := j.1 }
    let s := j.2.2
    let t := ((s.withdrawCopies (s.copies.filter (fun c => c.fid == fid && !c.started))).tailMarkFrame fid).endThreads (.frame fid)
    let own := f.beads.filter (fun b => match t.buf.held.lookup b with | some r => r.owner == f.writer | none => false)
    let t := t.freeAll f.writer own
    let f := { f with beads := f.beads.filter (fun b => !own.contains b) }
    let keep := t.copies.any (fun c => c.fid == fid)
    if f.ended then
      let t := t.countWhy f (f.why.getD why)
      if keep then t.putFrame { f with phase := .dropped, why := some (f.why.getD why), counted := true } else t.delFrame fid
    else t.putFrame { f with phase := .dropped, why := some (f.why.getD why), looking := false }

/-- The bytes of a frame that have come on the wire. -/
def Frame.rxLen (f : Frame) : Nat := max f.raw.length f.bytes.length

/-- The reception of a frame ends here for a reason of its port (R100, R358): it is counted as received and dropped, its meters are
corrected by the bytes that came (R325), and its lengths are not judged. A frame that its port did not admit counts in RX_FRAMES, RX_BYTES and RX_PORT_DOWN alone (R98). -/
def State.endRx (s : State) (f : Frame) (why : Nat) : State :=
  let t := if f.why = some tRX_PORT_DOWN then
      ((s.portTally f.port tRX_FRAMES 1).portTally f.port tRX_BYTES f.rxLen).bwAdd f.port (8 * f.rxLen) 0
    else (s.rxTally f.port f.rxLen).reachCount f
  (((t.meterCorrect f.rxLen f.meters).putFrame { f with ended := true, meters := [], phase := if f.parses then .dropped else f.phase }).dropFrame f.fid why).settleFrame f.fid

/-- Drop every frame of a list as a congestion drop on its ingress port. -/
def State.dropFrames : State → List Frame → State
  | s, [] => s
  | s, f :: t => (s.dropFrame f.fid tRX_CONGESTION).dropFrames t

/-- Cut the copies in transmission on ports that satisfy `p`: counted as TX_ABORTED, never sent again (R101). -/
def State.cutCopies : State → List Copy → State
  | s, [] => s
  | s, c :: t =>
    ((((s.releaseCopy c).portTally c.port tTX_ABORTED 1).portTally c.port (tTc c.tc 2) 1).settleFrame c.fid).cutCopies t

/-- Flush the waiting copies of a port with a counter (R277). -/
def State.flushPort (s : State) (p counter : Nat) : State :=
  s.dropCopies (s.copies.filter (fun c => c.port == p && !c.started)) counter

/-- Flush every queue, counting congestion drops (R69, R81). -/
def State.flushAll (s : State) : State := s.dropCopies (s.copies.filter (fun c => !c.started)) tTX_CONGESTION

/-- Frames still in their ingress pass. -/
def Frame.inIngress (f : Frame) : Bool := !(f.phase == .enqueued || f.phase == .dropped)

end Sys2Proof.Machine
end

