-- ==== Sys2Proof/Machine/DramOps.lean ====
section
/-!
DEFINITION. Machine/DramOps.lean: the memory descriptor (R391–R395), the refresh rules (R402–R404), the ranks and their spares
(R392, R413–R416).
-/

namespace Sys2Proof.Machine

/-! ### The descriptor -/

/-- The registers that report the memory descriptor (R391): DRC_GEOM, DRC_MAP_CFG and the DRC_MAP_MASK pairs. -/
def descRegs : List Nat :=
  [rDRC_GEOM, rDRC_MAP_CFG] ++ (List.range 7).flatMap (fun n => [rDRC_MAP_MASK_LO n, rDRC_MAP_MASK_HI n])

/-- The mask of R394. -/
def State.mapMask (s : State) (n : Nat) : Nat := s.getF (DRC_MAP_MASK_LO_MASK n) + s.getF (DRC_MAP_MASK_HI_MASK n) * 2 ^ 32

/-- The masks in use (R395). -/
def State.masksUsed (s : State) : List Nat := if s.getF DRC_GEOM_RANKS = 2 then [0, 1, 2, 3, 4, 5, 6] else [0, 1, 3, 4, 5, 6]

/-- Logical ranks in use (R392). -/
def State.logRanks (s : State) : Nat := 4 * s.getF DRC_GEOM_RANKS

/-- The bits of a mask among positions 0–39. -/
def maskBits (m : Nat) : List Nat := (List.range 40).filter (fun i => m.testBit i)

/-- A descriptor is accepted (R391, R392, R395). -/
def State.descOk (s : State) : Bool :=
  let g := s.getF DRC_GEOM_RANKS
  let rows := s.getF DRC_GEOM_ROW_BITS
  let colLo := s.getF DRC_MAP_CFG_COL_LO
  let rowLo := s.getF DRC_MAP_CFG_ROW_LO
  let sel := fun (i : Nat) => decide (6 ≤ i) && decide (i < rowLo) && !(decide (colLo ≤ i) && decide (i < colLo + 6))
  let picks := s.masksUsed.map (fun n => (maskBits (s.mapMask n)).filter sel)
  (g == 1 || (g == 2 && !s.flag DRC_GEOM_SPARE_EN)) &&
  ((rows == 15 && s.getF DRC_GEOM_RANK_128M == 0x10) || (rows == 16 && s.getF DRC_GEOM_RANK_128M == 0x20)) &&
  rowLo == (if g = 2 then 19 else 18) && decide (6 ≤ colLo) && decide (colLo + 6 ≤ rowLo) &&
  picks.all (fun l => l.length == 1) && decide (picks.Nodup) &&
  s.masksUsed.all (fun n => (maskBits (s.mapMask n)).all (fun i => decide (6 ≤ i) && decide (i < rowLo + rows))) &&
  (g == 2 || s.mapMask 2 == 0)

/-- MAPPED in MiB (R393). -/
def State.mappedMib (s : State) : Nat := s.logRanks * ((s.getF DRC_GEOM_RANK_128M - 1) * 128)

/-- The exclusive-or of the bits of a number of 40 bits (R394). -/
def parity (n : Nat) : Nat := (maskBits n).length % 2

/-- The logical rank of a mapped address (R392, R394). -/
def State.rankOf (s : State) (a : Nat) : Nat :=
  let b := fun (n : Nat) => parity (a &&& s.mapMask n)
  2 * (b 0 + 2 * b 1) + (if s.getF DRC_GEOM_RANKS = 2 then b 2 else 0)

/-- Load registers from a list of words. -/
def State.loadWords : State → List (Nat × Word) → State
  | s, [] => s
  | s, (o, w) :: t => (s.wr o w).loadWords t

/-! ### Ranks -/

/-- The state field of a logical rank: 0 in service, 1 migrating, 2 on the spare, 3 absent (R418). -/
def rkF (r : Nat) : Fld := if r % 2 = 0 then DRC_CH_STATE_RK0 (r / 2) else DRC_CH_STATE_RK1 (r / 2)

/-- The readout factor, the 85 °C bit and the interval of a logical rank. -/
def rateF (r : Nat) : Fld := if r % 2 = 0 then DRC_CH_STATE_RATE0 (r / 2) else DRC_CH_STATE_RATE1 (r / 2)
def trefiF (r : Nat) : Fld := if r % 2 = 0 then DRC_CH_REFRESH_TREFI0_NS (r / 2) else DRC_CH_REFRESH_TREFI1_NS (r / 2)
def State.hotRank (s : State) (r : Nat) : Bool := (s.getF (DRC_CH_STATE_HOT (r / 2))).testBit (r % 2)

/-- A logical rank of the machine: below the number in use. -/
def State.fitted (s : State) (r : Nat) : Bool := if s.getF DRC_GEOM_RANKS = 2 then r < 8 else r < 8 && r % 2 == 0

/-- The spare of a pair is free (R413). -/
def State.spareFree (s : State) (pair : Nat) : Bool :=
  s.flag DRC_GEOM_SPARE_EN && !s.dramc.used.testBit pair && !s.dramc.failed.testBit pair

/-- The descriptor and what the retention store keeps of the ranks, reported after a reset (R391, R415, R417, R418). -/
def State.loadDram (s : State) : State :=
  let t := s.loadWords s.otp.desc
  let t := t.setF DRC_MAPPED_MIB t.mappedMib
  let t := (t.setF DRC_STATUS_SPARE_USED s.dramc.used).setF DRC_STATUS_SPARE_FAILED s.dramc.failed
  let put := fun (u : State) (r : Nat) =>
    u.setF (rkF r) (if !u.fitted r then 3 else if s.dramc.moved.contains r then 2 else 0)
  let t := (List.range 8).foldl put t
  [0, 2].foldl (fun u c => u.setB (DRC_CH_STATE_SPARE_HERE c) (u.flag DRC_GEOM_SPARE_EN)) t

/-! ### Refresh -/

/-- Strict refresh rules on a channel (R402): by the mode, a migration of its pair, or a reaction of the channel under way. -/
def State.strictOn (s : State) (c : Nat) : Bool :=
  !(s.modeCode == mPaired || s.modeCode == mSolo || s.modeCode == mAbseil || s.modeCode == mService) ||
  (s.flag DRC_STATUS_MIGRATING && s.getF DRC_STATUS_MIG_RANK / 4 == c / 2) ||
  s.flt.reactions.any (fun r => r.unit == .dramCh c && r.done.isNone)

/-- The interval of a readout factor in ns (R402); beyond the rated range the spec states none (DESIGN CHOICE, assumption log 17). -/
def factorNs (code : Nat) : Nat := if code ≤ 4 then 3906 * 2 ^ (4 - code) / 4 else Config.trefiBeyond

/-- The refresh interval of a logical rank (R402). -/
def State.trefi (s : State) (r : Nat) : Nat :=
  let n := factorNs (s.getF (rateF r))
  if s.strictOn (r / 2) && s.hotRank r then n / 2 else n

/-- Issue `n` refreshes to a logical rank: command 0. (DEDUCED, assumption log 58) -/
def State.refreshes : State → Nat → Nat → State
  | s, _, 0 => s
  | s, r, n + 1 => (s.emit (.dram (r / 2) (r % 2) 0)).refreshes r n

/-- Refreshes postponed for a logical rank, and the channel's report of them: the most of its ranks. -/
def State.postponedOf (s : State) (r : Nat) : Nat := (s.dramc.postponed.lookup r).getD 0
def State.setPostponed (s : State) (r n : Nat) : State :=
  let t := { s with dramc := { s.dramc with postponed := sset (fun _ => 0) s.dramc.postponed r n } }
  let c := r / 2
  let m := max (t.postponedOf (2 * c)) (t.postponedOf (2 * c + 1))
  (t.setF (DRC_CH_POSTPONE_NOW c) m).maxF (DRC_CH_POSTPONE_PEAK c) m

/-- Issue every postponed refresh of a rank (R403, R404). -/
def State.catchUp (s : State) (r : Nat) : State := (s.refreshes r (s.postponedOf r)).setPostponed r 0

/-- The rules of a channel as they now stand: turning strict, it issues every postponed refresh at once (R404). -/
def State.refreshCh (s : State) (c : Nat) : State :=
  let st := s.strictOn c
  let t := if st && !s.flag (DRC_CH_STATE_STRICT c) then (s.catchUp (2 * c)).catchUp (2 * c + 1) else s
  let t := t.setB (DRC_CH_STATE_STRICT c) st
  (t.setF (trefiF (2 * c)) (t.trefi (2 * c))).setF (trefiF (2 * c + 1)) (t.trefi (2 * c + 1))

/-- The rules of all channels, and STRICT of DRC_STATUS. -/
def State.refreshRules (s : State) : State :=
  let t := [0, 1, 2, 3].foldl State.refreshCh s
  t.setB DRC_STATUS_STRICT ([0, 1, 2, 3].any (fun c => t.flag (DRC_CH_STATE_STRICT c)))

/-! ### Migration -/

/-- The cairn of kind 48h (R508). -/
def State.dramCairn (s : State) (ev rank : Nat) : State := s.cairn 0x48 ev [BitVec.ofNat 8 rank]

/-- Step 1 of R414. -/
def State.migStart (s : State) (r : Nat) : State :=
  let t := ((s.setF DRC_STATUS_MIGRATING 1).setF DRC_STATUS_MIG_RANK r).setF DRC_STATUS_MIG_PERMILLE 0
  let t := { t with dramc := { t.dramc with migAt := t.now } }
  (((t.setF (rkF r) 1).raiseDRC DRC_INT_STATUS_MIG_START).refreshRules).dramCairn 1 r

/-- A trigger of R413 for a logical rank in service: it starts the migration, or waits for that of the other pair. -/
def State.retireRank (s : State) (r : Nat) : State :=
  if !s.fitted r || s.getF (rkF r) ≠ 0 || !s.spareFree (r / 4) then s
  else if !s.flag DRC_STATUS_MIGRATING then s.migStart r
  else if s.getF DRC_STATUS_MIG_RANK / 4 = r / 4 ∨ s.dramc.waits.any (fun w => w / 4 == r / 4) = true then s
  else { s with dramc := { s.dramc with waits := s.dramc.waits ++ [r] } }

/-- The next rank that waits for its retirement begins (R408, R414). (DEDUCED, assumption log 57) -/
def State.migNext (s : State) : State :=
  match s.dramc.waits with
  | [] => s
  | r :: l => ({ s with dramc := { s.dramc with waits := l } }).retireRank r

/-- A migration ends: the pair returns to its rules, and a trigger that waited runs. -/
def State.migEnd (s : State) : State := (s.setF DRC_STATUS_MIGRATING 0).refreshRules.migNext

/-- The logical rank moves to the spare of its pair (R414 step 3, R408, R415). -/
def State.toSpare (s : State) (r : Nat) : State :=
  let used := s.dramc.used ||| 2 ^ (r / 4)
  let t := { s with dramc := { s.dramc with moved := s.dramc.moved ++ [r], used := used } }
  (t.setF DRC_STATUS_SPARE_USED used).setF (rkF r) 2

/-- The spare of a pair fails: a migration to it is abandoned and the old rank stays in service (R415). (DEDUCED, assumption log 57) -/
def State.spareFails (s : State) (pair : Nat) : State :=
  let failed := s.dramc.failed ||| 2 ^ pair
  let r := s.getF DRC_STATUS_MIG_RANK
  let t := ({ s with dramc := { s.dramc with failed := failed } }).setF DRC_STATUS_SPARE_FAILED failed
  if s.flag DRC_STATUS_MIGRATING ∧ r / 4 = pair then ((t.setF (rkF r) 0).dramCairn 3 r).migEnd else t.dramCairn 3 (4 * pair)

end Sys2Proof.Machine
end

