-- ==== Sys2Proof/Machine/ModeOps.lean ====
section
/-!
DEFINITION. Machine/ModeOps.lean: declaring a port down or up (R98–R103, R277, R278), changing the mode (R60–R64), Hold (R81)
and what the cold and the warm reset clear (R79).
-/

namespace Sys2Proof.Machine

/-! ### The rope and the twin state -/

/-- Twin states (R369). -/
abbrev twSingle : Nat := 0
abbrev twWaiting : Nat := 1
abbrev twNegotiating : Nat := 2
abbrev twPaired : Nat := 3
abbrev twCrevasse : Nat := 4
abbrev twAway : Nat := 5
abbrev twRefused : Nat := 6
abbrev twHandover : Nat := 7

/-- A front port's MAC sends a control frame, a verify packet or wake ordered sets; in Hold every front transmitter is squelched (R81). -/
def State.macSend (s : State) (p kind arg : Nat) : State := if s.modeCode = mHold then s else s.emit (.mac p kind arg)

/-- The twin state (R369). -/
def State.twin (s : State) : Nat := s.getF TWN_STATUS_STATE

/-- The rope may carry a message of this type: in Hold safety messages only (R28, R81), in twin state refused no time or flow-control
message (R38). -/
def State.ropeCarries (s : State) (type : Nat) : Bool :=
  !(s.modeCode == mHold && type != 4) && !(s.twin == twRefused && 5 ≤ type)

/-- Send a message on the rope while a rope lane is active (R358, R360). -/
def State.ropeSend (s : State) (b : List Byte) : State :=
  if s.getF TWN_STATUS_LANES = 0 ∨ s.ropeCarries (b.headD 0).toNat = false then s else s.emit (.rope b)

/-- A state message (R364): kind, VER, fixed fields from byte 16, content. -/
def stateMsg (kind ver : Nat) (fixed content : List Byte) : List Byte :=
  [0x03, BitVec.ofNat 8 ver, BitVec.ofNat 8 kind, 0] ++ leBytes 2 content.length ++ List.replicate 10 0 ++
  (fixed ++ List.replicate 48 0).take 48 ++ content

/-- A state message under the version in force. -/
def State.tellState (s : State) (kind : Nat) (fixed content : List Byte) : State :=
  s.ropeSend (stateMsg kind (s.getF TWN_STATUS_VIRAM) fixed content)

/-- The STREAMS records with REPLICATE = 1. -/
def State.replicas (s : State) : List StreamRec := match s.img with | some i => i.streams.filter (·.replicate) | none => []

/-- A cairn of kind 45h (R508): event and cause code. -/
def State.twinCairn (s : State) (ev cause : Nat) : State :=
  s.cairn 0x45 ev ([BitVec.ofNat 8 cause, 0] ++ leBytes 2 (s.getF TWN_PEER_EPOCH))

/-- The guarantees of all replicated streams break or return together (R385). -/
def State.guarReplicas (s : State) (restored : Bool) : State :=
  if s.replicas.isEmpty then s
  else s.guar 3 0 ((s.replicas.map (·.rank)).foldl max 0) 0 0 s.replicas.length restored

/-- The shared roles held in a twin state (R383). -/
def State.rolesIn (s : State) (v : Nat) : Bool :=
  if v = twSingle ∨ v = twAway then true
  else if v = twCrevasse ∨ v = twRefused then s.flag TWN_STATUS_SENIOR || s.rope.taken
  else s.flag TWN_STATUS_SENIOR

/-- Take a twin state (R369): a departure from Paired records its cause and breaks the replicated guarantees, an entry to Paired
restores them and raises REJOIN (R383–R385, R388). -/
def State.setTwin (s : State) (v cause : Nat) : State :=
  let old := s.twin
  let t := s.setF TWN_STATUS_STATE v
  let t := if v = twPaired then
    ({ t with rope := { t.rope with taken := false, away := false } }).setF AON_MODE_INFO_PARTNER_PARKED 0 else t
  let t := if v = twPaired ∨ v = twCrevasse ∨ v = twRefused ∨ v = twAway ∨ v = twSingle then { t with rope := { t.rope with ceded := false } } else t
  let t := t.setB TWN_STATUS_ROLES (t.rolesIn v)
  if old = v then t
  else if old = twPaired then
    let t := t.setF TWN_STATUS_LAST_CAUSE cause
    let t := if v = twCrevasse then t else t.twinCairn 3 cause
    { (t.guarReplicas false) with rope := { t.rope with broken := true } }
  else if v = twPaired then
    let t := t.raiseTWN TWN_INT_STATUS_REJOIN
    if t.rope.broken then { (t.guarReplicas true) with rope := { t.rope with broken := false } } else t
  else t

/-- What pairing has reached is forgotten (R367). -/
def RopeSt.fresh (r : RopeSt) : RopeSt := { r with helloIn := false, helloAck := false, seqSent := false, seqDone := false }

/-- P65 is declared down: the last heartbeat and the time exchange are forgotten (R363, R365). -/
def State.ropeForget (s : State) : State :=
  ({ s with rope := { s.rope.fresh with heard := none, timeTx := none, timeRx := none, timePend := none, fcAt := [] } }).setF TWN_FC_XOFF_RX 0

/-- P65 is declared up: with PAIR = 1 the twin negotiates, and sends its HELLO (R367).  A pair that an interruption shorter than
150 µs has not parted stays paired (R370, coincidence of a quadrant restart). -/
def State.ropeBegins (s : State) : State :=
  let t := { s with rope := { s.rope.fresh with heard := none, heardAt := s.now, timeTx := none, timeRx := none, timePend := none } }
  let t := t.setF TWN_PEER_TIME_VALID 0
  if (match s.img with | some i => i.pair | none => false) && s.modeCode != mHold && s.modeCode != mTest && s.twin != twPaired && s.twin != twHandover
  then (t.setF TWN_STATUS_VIRAM 0).setTwin twNegotiating 0 else t

/-! ### Ports -/

/-- A hold expires: the queues are flushed, DQX segments included (R277). -/
def State.expireHold (s : State) (p : Nat) : State :=
  ((s.setF (SWC_PORT_HOLD_STATE p) 3).flushPort p tTX_HOLD_FLUSH).updPort p (fun x => { x with holdEnd := none })

/-- Start the port hold at a declaration down; a hold running or expired goes on unchanged (R277). -/
def State.startHold (s : State) (p : Nat) : State :=
  if s.getF (SWC_PORT_HOLD_STATE p) ≠ 0 then s
  else
    let ms := min 1000 (s.getF (SWC_PORT_HOLD_HOLD_MS p))
    if ms = 0 then s.expireHold p
    else (s.setF (SWC_PORT_HOLD_STATE p) 1).updPort p (fun x => { x with holdEnd := some (s.now + tMs ms) })

/-- A link goes down on a port: LINK clears and LINK_CHG reports the change. -/
def State.linkDown (s : State) (p : Nat) : State :=
  if s.flag (MAC_STATUS_LINK p) then (s.setF (MAC_STATUS_LINK p) 0).raiseLink p else s

/-- The frames still arriving on a port lose their tail (R100). -/
def State.truncateRx : State → List Frame → State
  | s, [] => s
  | s, f :: t =>
    (s.endRx f tRX_TRUNCATED).truncateRx t

/-- Declare a port down: frames being received are truncated, frames in transmission are cut, pause state is cleared and the
hold starts (R99–R102, R277). -/
def State.portDown (s : State) (p : Nat) : State :=
  let t := s.linkDown p
  let t := t.truncateRx (t.frames.filter (fun f => f.port == p && !f.ended))
  let t := t.cutCopies (t.copies.filter (fun c => c.port == p && c.started))
  let t := (t.setF (MAC_STATUS_PAUSED p) 0).setF (MAC_STATUS_VERIFY p) 0
  let t := t.updPort p (fun x => { x with pauseEnd := [], genPause := 0, refreshAt := 0, faultAt := none, lockAt := none })
  let t := if p = 65 then t.ropeForget else t
  t.startHold p

/-- Declare every port of a list down. -/
def State.portsDown : State → List Nat → State
  | s, [] => s
  | s, p :: t => (s.portDown p).portsDown t

/-- A port isolated (R462): FLT_ISO_PORTS for a front port, the unit itself otherwise. -/
def State.portIso (s : State) (p : Nat) : Bool :=
  (if p < 32 then (s.getF FLT_ISO_PORTS_LO_PORTS).testBit p
   else if p < 64 then (s.getF FLT_ISO_PORTS_HI_PORTS).testBit (p - 32) else false) ||
  (s.getF FLT_ISO_QUAD).testBit (s.quadOf p) || s.flag FLT_ISO_CORE || s.flt.isoUnits.contains (.port p)

/-- Declare a port up: the hold ends, and the verify exchange of preemption starts where enabled (R98, R111, R277).  With VERIFY_DIS = 1
no exchange runs, and VERIFY reads as after one that succeeded (DESIGN CHOICE, assumption log 77). -/
def State.portUp (s : State) (p : Nat) : State :=
  if s.flag (MAC_STATUS_LINK p) then s
  else
    let t := (s.setF (MAC_STATUS_LINK p) 1).raiseLink p
    let t := if t.getF (SWC_PORT_HOLD_STATE p) = 3 then t.flushPort p tTX_HOLD_FLUSH else t
    let t := (t.setF (SWC_PORT_HOLD_STATE p) 0).updPort p (fun x => { x with holdEnd := none, lockAt := none, faultAt := none })
    let t := if p = 65 then t.ropeBegins else t
    if t.flag (MAC_CTL_PREEMPT_EN p) then
      if t.flag (MAC_CTL_VERIFY_DIS p) then t.setF (MAC_STATUS_VERIFY p) 2
      else ((t.setF (MAC_STATUS_VERIFY p) 1).macSend p 2 0).updPort p
        (fun x => { x with verifyLeft := 2, verifyAt := s.now + tMs (s.getF (MAC_PREEMPT_VERIFY_MS p)) })
    else t.setF (MAC_STATUS_VERIFY p) 0

/-- Declare every port of a list up. -/
def State.portsUp : State → List Nat → State
  | s, [] => s
  | s, p :: t => (s.portUp p).portsUp t

/-- The ports bound to a quadrant (R13). -/
def State.portsOf (s : State) (q : Nat) : List Nat :=
  (s.ports.filter (fun x => x.quad == q && x.mode != 0)).map (·.port)

/-! ### Mode changes -/

/-- The image lets Service forward (R85). (DEDUCED, assumption log 27) -/
def State.svcFwd (s : State) : Bool := match s.img with | some i => i.serviceFwd | none => false

/-- The device forwards in the mode it holds (R28, R85): Paired, Solo and Abseil, and Service where the image permits; not with the core
isolated (R462). -/
def State.forwards (s : State) : Bool :=
  (s.modeCode == mPaired || s.modeCode == mSolo || s.modeCode == mAbseil || (s.modeCode == mService && s.svcFwd)) && !s.flag FLT_ISO_CORE

/-- The operating-seconds count runs in every mode except Bivouac (R80). -/
def ModeSt.opEnter (m : ModeSt) (now : Nat) (bivouac : Bool) : ModeSt :=
  match m.opSince with
  | some t => if bivouac then { m with opBase := m.opBase + (now - t), opSince := none } else m
  | none => if bivouac then m else { m with opSince := some now }

/-- Re-plans run in Paired, Solo, Abseil and Service (R490). -/
def replanMode (m : Nat) : Bool := m == mPaired || m == mSolo || m == mAbseil || m == mService

/-- A re-plan starts: step 1 reads the monitors; triggers that are pending start it too (R490, R491). -/
def State.replanStart (s : State) : State :=
  ((s.setF AGE_STATUS_PENDING 0).setF AGE_STATUS_RUNNING 1).setF AGE_STATUS_STEP 1

/-- A re-plan ends at its current step, and one is pending (R490, coincidence of a park with a re-plan). (DEDUCED, assumption log 63) -/
def State.replanStop (s : State) : State :=
  if s.flag AGE_STATUS_RUNNING then ((s.setF AGE_STATUS_RUNNING 0).setF AGE_STATUS_STEP 0).setF AGE_STATUS_PENDING 1 else s

/-- A pending re-plan starts where the mode allows it (R490, R499). -/
def State.replanPending (s : State) : State :=
  if s.flag AGE_STATUS_PENDING && !s.flag AGE_STATUS_RUNNING && s.flag AGE_CTL_REPLAN_EN && replanMode s.modeCode && s.mode.park == 0
  then s.replanStart else s

/-- What a mode entry means to re-planning (R490). -/
def State.replanEntry (s : State) (old m : Nat) : State :=
  let t := if replanMode m then s.replanPending else s.replanStop
  if old = mAscent ∧ (m = mPaired ∨ m = mSolo) then { t with age := { t.age with entryDue := true } } else t

/-- Change the mode: the code before and the cause are kept in AON_MODE_INFO, a transition under way ends, MODE_CHG reports a
change (R60, R87, R556). -/
def State.enterMode (s : State) (m cause : Nat) : State :=
  let old := s.modeCode
  let t := ((s.setF AON_MODE_INFO_PREV old).setF AON_MODE_INFO_CAUSE cause).setF GLB_MODE_TRANSITION 0
  let t := ((t.setF GLB_MODE_MODE m).refreshRules).replanEntry old m
  let t := { t with mode := { (t.mode.opEnter s.now (m == mBivouac)) with
    everRan := t.mode.everRan || m == mPaired || m == mSolo || m == mAbseil } }
  let t := t.faultEdge s
  if old = m then t else t.raiseGLB GLB_INT_STATUS_MODE_CHG

/-- Enter Paired or Solo, or Abseil when a unit was isolated meanwhile (R63, coincidence of a C2 reaction with Ascent). -/
def State.enterRun (s : State) (m cause : Nat) : State :=
  let t := if s.mode.abseilDue || s.anyIso then (s.enterMode m cause).enterMode mAbseil 5 else s.enterMode m cause
  { t with mode := { t.mode with abseilDue := false, admitStop := false, ascent := .none } }

/-- Set the loader state; entering loaded, sealed or image wait raises IMG_EVENT (R58, R556).  While a slot is programmed, STATE shows 6
unless a load is under way, and the state is kept for its end (DEDUCED, assumption log 86). -/
def State.imgState (s : State) (v : Nat) : State :=
  let busy := s.load.programming ≠ 0 ∧ ¬ (1 ≤ v ∧ v ≤ 3)
  let t := if busy then { s with load := { s.load with saved := v } } else s
  let t := (t.setF IMG_STATUS_STATE (if busy then 6 else v)).faultEdge s
  if v ≠ s.getF IMG_STATUS_STATE ∧ (v = 3 ∨ v = 4 ∨ v = 5) then t.raiseGLB GLB_INT_STATUS_IMG_EVENT else t

/-- The safety message (R473): group, class, END, HOLD, source, unit, and the local time of the event in ns. -/
def State.safetyMsg (s : State) (group cls : Nat) (fin hold : Bool) (source : Nat) (unit : FUnit) (ns : Nat) : List Byte :=
  let k := unitCode unit
  [0x04, BitVec.ofNat 8 (s.getF TWN_STATUS_VIRAM), BitVec.ofNat 8 group, BitVec.ofNat 8 (cls + 8 * b2n fin + 16 * b2n hold)] ++
  leBytes 2 source ++ [BitVec.ofNat 8 k.1, BitVec.ofNat 8 k.2, BitVec.ofNat 8 s.modeCode] ++ List.replicate 7 0 ++
  leBytes 4 (nsPart ns) ++ leBytes 4 (secPart ns) ++ List.replicate 40 0

/-- Every isolation ends (R64). -/
def State.clearIso (s : State) : State :=
  let t := ((s.wr rFLT_ISO 0).wr rFLT_ISO_PORTS_LO 0).wr rFLT_ISO_PORTS_HI 0
  let t := (t.wr rFLT_ISO_BANKS 0).wr rFLT_ISO_ENG 0
  { t with flt := { t.flt with isoUnits := [] } }

/-- Enter Hold (R62, R81, R83): any transition is interrupted, transmitters are squelched, admission stops, every queue is
flushed as a congestion drop and frames being received or sent are lost; a safety message goes out with HOLD set, and is kept for its
repetition (R473). -/
def State.enterHold (s : State) (cause group source : Nat) : State :=
  let t := s.cutCopies (s.copies.filter (·.started))
  let t := t.flushAll
  let t := (t.dropFrames (t.frames.filter Frame.inIngress)).clearIso
  let t := { t with mode := { t.mode with park := 0, parkWaits := false, ascent := .none, admitStop := true, abseilDue := false } }
  let t := (t.setF AON_MODE_INFO_HOLD_PENDING 0).enterMode mHold cause
  let m := t.safetyMsg group 4 false true source .noUnit t.localNs
  ({ t with flt := { t.flt with holdMsg := m } }).ropeSend m

/-! ### What a reset clears (R79) -/

/-- The registers a cold reset keeps: AON_MODE_INFO, AON_PCYCLE, FLT_C4_CAUSE and CRN_LOST. (DEDUCED, assumption log 37) -/
def keptCold (o : Nat) : Bool := o == rAON_MODE_INFO || o == rAON_PCYCLE || o == rFLT_C4_CAUSE || o == rCRN_LOST

/-- Read-only registers that record an event and that no cleared unit reports: a warm reset keeps them, as it keeps everything that R79
does not list (DEDUCED, assumption log 37): abort, sample, malformed-frame, write-refusal, lost-row, refused-pointer, snapshot, PPS,
blocked-stream, partner and DRAM-error records, the last reaction, the margins as measured, the cairn store. -/
def roRecord (o : Nat) : Bool :=
  (0x300000 ≤ o && o < 0x311000 && (o % 0x1000 == 0xC || o % 0x1000 == 0x20)) ||
  (List.range 4).any (fun q => o == rPRS_Q_LAST_MAL q || o == rASM_Q_LOST_INFO q || o == rDRC_CH_LAST_UE q) ||
  o == rCLS_WREF_ADDR_LO || o == rCLS_WREF_ADDR_HI || o == rCLS_WREF_CAUSE || o == rBPM_REFUSE_PTR || o == rBPM_REFUSE_INFO ||
  (0x680010 ≤ o && o < 0x680040) || (0x680080 ≤ o && o < 0x68008C) || o == rSCH_SF_LAST_BLOCK ||
  o == rTWN_PEER || o == rTWN_REFUSE || o == rTWN_LOSS_LAST || o == rTWN_PARTNER_FAULT || o == rHDM_ERR_INFO ||
  o == rFLT_STATUS || (0xB01000 ≤ o && o < 0xB01600 && o % 0x20 == 4) || (0xB02000 ≤ o && o < 0xB039C0 && o % 0x10 == 8) ||
  (0xB80000 ≤ o && o < 0xB80200) || (0xC00000 ≤ o && o < 0xC01000)

/-- Whether a warm reset keeps a field of a register (R79): every AON register, FLT_C4_CAUSE, CRN_LOST, the PCIe link, RWS fields, and of
the others what it does not clear: status bits, counters and records outside the tallies, the DMA channels and the rings (DEDUCED,
DEDUCED, assumption log 37). -/
def warmKeeps (o : Nat) (f : RegFld) : Bool :=
  (0x20000 ≤ o && o < 0x30000) || o == rFLT_C4_CAUSE || o == rCRN_LOST || o == rHDM_LINK || f.acc == .rws ||
  (!(0xA01000 ≤ o && o < 0xA02400) && !(0xC80028 ≤ o && o < 0xCD4000) &&
    (f.acc == .w1c || f.acc == .rc || (f.acc == .ro && roRecord o)))

/-- The word of a register after a warm reset. -/
def warmWord (o : Nat) (w : Word) : Word := BitVec.ofNat 32 (mergeFields (warmKeeps o) (resetWord o).toNat w.toNat (fldsAt .bar0 o))

/-- The registers after a warm reset. -/
def warmRegs (m : List (Nat × Word)) : List (Nat × Word) :=
  m.filterMap (fun e => if warmWord e.1 e.2 = resetWord e.1 then none else some (e.1, warmWord e.1 e.2))

/-- Registers set from what a reset keeps elsewhere: OTP, strap, variant and the cairn store (R2, R3, R39, R59, R513, R520). -/
def State.loadFixed (s : State) : State :=
  let s := if s.otp.is2416 then (s.setF GLB_ID_LO_DEVICE 0x2416).setF GLB_ID_HI_FRONT_LANES 0x10 else s
  let s := s.setF IMG_CAP_FLOOR s.otp.floor
  let s := s.setF IMG_OTP_KEYS_VALID (((List.range 4).filter (fun i => !(s.otp.keyHash.getD i []).isEmpty)).foldl (fun a i => a + 2 ^ i) 0)
  let s := (s.setF IMG_OTP_KEYS_REVOKED s.otp.revoked).setF IMG_OTP_KEYS_RAISES s.otp.raises
  let s := s.setF AGE_CORE_BASE_MV s.otp.baseMv
  let s := (s.setB CRN_STATUS_KEY_SET s.otp.cairnKey.isSome).loadDram
  s.setB TWN_STATUS_SENIOR s.mode.senior

/-! ### Parking -/

/-- Start the park sequence (R69 steps 1–3): a Paired twin announces it on the rope, admission stops on every port, and the
frames already queued are sent for up to 10 ms. -/
def State.parkStart (s : State) : State :=
  let t := if s.modeCode = mPaired ∨ s.twin = twPaired then s.tellState 2 [] [] else s
  let t := (t.setF GLB_MODE_TRANSITION 1).replanStop
  { t with mode := { t.mode with park := 1, parkEnd := s.now + tMs 10, parkWaits := false, admitStop := true } }

/-- Whether a quadrant is powered: after the seal, one to which the image binds a port (R24).  A port whose record has MODE 00h, not in
use, binds nothing here, though R13 has every port bound to a quadrant (DESIGN CHOICE, assumption log 78). -/
def State.quadPowered (s : State) (q : Nat) : Bool := !s.isSealed || s.ports.any (fun x => x.quad == q && x.mode != 0)

/-- Whether an engine is powered (R24, R148): not in Bivouac nor under PORST_N; a parse or rewrite engine with its quadrant. -/
def State.engPowered (s : State) (e : Nat) : Bool :=
  s.modeCode != mBivouac && !s.mode.porst && (decide (16 ≤ e) || s.quadPowered (e / 4))

end Sys2Proof.Machine
end

