-- ==== Sys2Proof/Machine/RopeOps.lean ====
section
/-!
DEFINITION. Machine/RopeOps.lean: grants of shaper reservations (R327, R328, R385), and the lanes of the rope (R357–R359).
-/

namespace Sys2Proof.Machine

/-! ### Grants -/

/-- The reserved queues of a port in the order in which R327 grants them: highest RANK first, then lowest ADMIT. -/
def State.reservations (s : State) (p : Nat) : List Nat :=
  ((List.range 8).filter (fun t => s.flag (SCH_PORT_QCBS_CBS_EN p t))).mergeSort (fun a b =>
    let ra := s.getF (SCH_PORT_QGUAR_RANK p a); let rb := s.getF (SCH_PORT_QGUAR_RANK p b)
    rb < ra || (ra == rb && decide (s.getF (SCH_PORT_QGUAR_ADMIT p a) ≤ s.getF (SCH_PORT_QGUAR_ADMIT p b))))

/-- Report each replicated stream of class `t` broken or restored with its P65 reservation (R385). (DESIGN CHOICE, assumption log 16) -/
def State.guarStreams (s : State) (t : Nat) (restored : Bool) : List StreamRec → State
  | [] => s
  | r :: l =>
    (if Config.streamTc r.handle % 8 = t then s.guar 4 r.handle r.rank (r.admitAt.getD 0) 0 0 restored else s).guarStreams t restored l

/-- Grant the reservations of a list from the rate that remains, in kbit/s; each one that breaks or is restored is reported. -/
def State.grantList : State → Nat → Nat → List Nat → State
  | s, _, _, [] => s
  | s, p, left, t :: l =>
    let want := s.getF (SCH_PORT_QCBS_IDLE_SLOPE p t)
    let g := min want left
    let was := s.flag (SCH_PORT_QGUAR_BROKEN p t)
    let u := (s.setF (SCH_PORT_QALLOC_RATE p t) g).setB (SCH_PORT_QGUAR_BROKEN p t) (g < want)
    let u := if was = decide (g < want) then u
      else
        let v := u.guar 1 p (s.getF (SCH_PORT_QGUAR_RANK p t)) (s.getF (SCH_PORT_QGUAR_ADMIT p t)) g 0 was
        if p = 65 ∧ s.twin = twPaired then v.guarStreams t was s.replicas else v
    u.grantList p (left - g) l

/-- The available rate of a port changes to `mbps` (R327, R328). -/
def State.regrant (s : State) (p mbps : Nat) : State :=
  if s.getF (SCH_PORT_RATE_AVAIL_MBPS p) = mbps then s
  else ((s.cbsTouch p).setF (SCH_PORT_RATE_AVAIL_MBPS p) mbps).grantList p (1000 * mbps) (s.reservations p)

/-! ### The lanes of the rope -/

/-- The physical lane of a logical lane (R388). -/
def logField (k : Nat) : Fld := ⟨rTWN_LANE_MAP, 4 * k, 3⟩

/-- A link fault begins on a port; the debounce that runs goes on (R99). -/
def State.linkFault (s : State) (p : Nat) : State :=
  s.updPort p (fun x => { x with faultAt := some (x.faultAt.getD s.now), lockAt := none })

/-- A port may be declared up: enabled, not shut down, not isolated (R103, R462). -/
def State.mayRise (s : State) (p : Nat) : Bool :=
  s.flag (MAC_CTL_EN p) && !s.flag (MAC_STATUS_SHUTDOWN p) && !s.portIso p && s.isSealed

/-- A port has lock (R98): a debounce down ends; a port that is down comes up at once in Ascent, else after UP_MS. -/
def State.lockGained (s : State) (p : Nat) : State :=
  let t := s.updPort p (fun x => { x with faultAt := none })
  if t.flag (MAC_STATUS_LINK p) || !t.mayRise p then t
  else if t.modeCode = mAscent then t.portUp p
  else t.updPort p (fun x => { x with lockAt := some s.now })

/-- The active logical lanes change: the available rate of P65 follows, LANE_LOST reports it (R327, R358, R361), and the rope loses
its last lane or gains its first (R357). -/
def State.ropeActive (s : State) (mask : Nat) : State :=
  if s.getF TWN_LANE_MAP_ACTIVE = mask then s
  else
    let n := ((List.range 4).filter (fun k => mask.testBit k)).length
    let t := (s.setF TWN_LANE_MAP_ACTIVE mask).setF TWN_STATUS_LANES n
    let t := (t.regrant 65 (100000 * n - 2000)).raiseTWN TWN_INT_STATUS_LANE_LOST
    if mask = 0 then t.linkFault 65 else if s.getF TWN_LANE_MAP_ACTIVE = 0 then t.lockGained 65 else t

/-- A rope lane locks (R357, R358): the lane of a logical lane joins it, the spare is ready. (DEDUCED, assumption log 47) -/
def State.ropeLock (s : State) (t : Nat) : State :=
  if s.rope.retired.contains t || s.flt.isoUnits.contains (.ropeLane t) then s
  else if s.getF TWN_LANE_MAP_SPARE = t then s.setF TWN_STATUS_SPARE_READY 1
  else
    match (List.range 4).find? (fun k => s.getF (logField k) == t) with
    | some k => ({ s with rope := { s.rope with reform := s.rope.reform.filter (· != k) } }).ropeActive (s.getF TWN_LANE_MAP_ACTIVE ||| 2 ^ k)
    | none => s

/-- The frames that P65 receives lose the codewords in flight (R358): dropped and counted as RX_FCS_ERR. -/
def State.ropeCut : State → List Frame → State
  | s, [] => s
  | s, f :: t =>
    (s.endRx f tRX_FCS_ERR).ropeCut t

/-- A logical lane loses lock (R358): codewords in flight are lost, a swap under way is abandoned, and the twins re-form the rope; the
re-forming takes the lane out, at once where no other lane remains. -/
def State.ropeUnlog (s : State) (k : Nat) : State :=
  let m := s.getF TWN_LANE_MAP_ACTIVE
  if m.testBit k && !s.rope.reform.contains k then
    let t := s.ropeCut (s.frames.filter (fun f => f.port == 65 && !f.ended))
    let t := { t with rope := { t.rope with reform := t.rope.reform ++ [k], swap := none } }
    if (List.range 4).all (fun j => !m.testBit j || t.rope.reform.contains j) then t.ropeActive 0 else t
  else s

/-- The logical lanes lost that still count as active: the next re-forming takes them out (R358). -/
def State.reforming (s : State) : List Nat := s.rope.reform.filter (fun k => (s.getF TWN_LANE_MAP_ACTIVE).testBit k)

/-- The spare carries logical lane `k` (R358, R359). -/
def State.ropeSpare (s : State) (k : Nat) : State :=
  let sp := s.getF TWN_LANE_MAP_SPARE
  let t := ((s.setF (logField k) sp).setF TWN_LANE_MAP_SPARE 7).setF TWN_STATUS_SPARE_USED 1
  let t := t.setF TWN_STATUS_SPARE_READY 0
  ({ t with rope := { t.rope with reform := t.rope.reform.filter (· != k) } }).ropeActive (t.getF TWN_LANE_MAP_ACTIVE ||| 2 ^ k)

/-- Rope lane `t` loses its lock: the spare is no longer ready, or its logical lane is lost. (DEDUCED, assumption log 47) -/
def State.ropeUnlock (s : State) (t : Nat) : State :=
  if s.getF TWN_LANE_MAP_SPARE = t then s.setF TWN_STATUS_SPARE_READY 0
  else
    match (List.range 4).find? (fun k => s.getF (logField k) == t) with
    | some k => s.ropeUnlog k
    | none => s

end Sys2Proof.Machine
end

