-- ==== Sys2Proof/Machine/HostOps.lean ====
section
/-!
DEFINITION. Machine/HostOps.lean: shared operations of the host interface: the rate of P64 (R420), the end of a DMA transfer
(R432–R440), the rings (R445, R449), and the host-interface reset (R79, R446).
-/

namespace Sys2Proof.Machine

/-- The rate that the PCIe link gives P64 in Mbit/s (R420): 250 Gbit/s × rate / 32 GT/s × width / 8. -/
def pcieMbps (gen width : Nat) : Nat :=
  250000 * (if gen = 5 then 4 else if gen = 4 then 2 else if gen = 3 then 1 else 0) * width / 32

/-- The PCIe link takes a rate and a width (R420): HDM_LINK follows, a change raises LINK_CHG and re-grants P64. -/
def State.pcieLink (s : State) (gen width : Nat) : State :=
  let t := (s.setF HDM_LINK_GEN gen).setF HDM_LINK_WIDTH width
  let t := t.regrant 64 (pcieMbps gen width)
  if s.getF HDM_LINK_GEN = gen ∧ s.getF HDM_LINK_WIDTH = width then t else t.raiseHDM HDM_INT_STATUS_LINK_CHG

/-! ### DMA -/

/-- A channel's vector when DONE is set and its INT_EN = 1 (R425, R448). -/
def State.dmaDone (s : State) (c : Nat) : State :=
  let t := s.setF (HDM_DMA_STATUS_DONE c) 1
  if s.flag (HDM_DMA_CTL_INT_EN c) && !s.flag (HDM_DMA_STATUS_DONE c) then t.sendVec (32 + c) else t

/-- The transfer of a channel, if one runs. -/
def State.dmaRun (s : State) (c : Nat) : Option DmaRun := s.dma.find? (fun r => r.chan == c)

/-- A channel enabled once its shutdown has ended (R440). -/
def State.dmaShut (s : State) (c : Nat) : State :=
  if s.flag (HDM_DMA_STATUS_SHUTDOWN c) then
    let t := s.setF (HDM_DMA_STATUS_SHUTDOWN c) 0
    if s.flag (HDM_DMA_STATUS_EN_PENDING c) then (t.setF (HDM_DMA_STATUS_EN_PENDING c) 0).setF (HDM_DMA_CTL_EN c) 1 else t
  else s

/-- A transfer leaves its channel: BUSY clears and DONE_BYTES gives what has moved. -/
def State.dmaEnd (s : State) (r : DmaRun) : State :=
  let t := (s.setF (HDM_DMA_STATUS_BUSY r.chan) 0).setF (HDM_DMA_DONE_BYTES_BYTES r.chan) r.moved
  let t := { t with dma := t.dma.filter (fun x => x.chan != r.chan) }
  (t.dmaDone r.chan).dmaShut r.chan

/-- A transfer ends by STOP or by a shutdown (R440). -/
def State.dmaStopped (s : State) (r : DmaRun) : State := (s.setF (HDM_DMA_STATUS_STOPPED r.chan) 1).dmaEnd r

/-- A channel is reset: its registers return to reset and what it ran is gone. -/
def State.dmaReset (s : State) (c : Nat) : State :=
  { s with regs := s.regs.filter (fun e => !(0xA01000 + 0x40 * c ≤ e.1 && e.1 < 0xA01040 + 0x40 * c)),
           dma := s.dma.filter (fun x => x.chan != c) }

/-- Reset each channel that runs a transfer (R462, C1 of the host interface). -/
def State.dmaResetAll (s : State) : State := (s.dma.map (·.chan)).foldl State.dmaReset s

/-! ### Rings -/

/-- The ring that a class of P64 fills (R444), as its number of R449. -/
def State.rxRing (s : State) (tc : Nat) : Nat := 8 + s.getF HDM_RX_TCMAP_MAP / 2 ^ (3 * tc) % 8

/-- A ring holds a descriptor that the device has not consumed (R450). -/
def State.ringHas (s : State) (n : Nat) : Bool :=
  (s.rd4 (rHDM_RING_TAIL n)).toNat % 65536 != s.getF (HDM_RING_HEAD_INDEX n)

/-- The coalescing record of a ring. -/
def State.ringSt (s : State) (n : Nat) : RingSt :=
  (s.rings.find? (fun x => x.ring == n)).getD { ring := n, unrep := 0, since := 0 }

def State.putRing (s : State) (x : RingSt) : State :=
  { s with rings := (s.rings.filter (fun y => y.ring != x.ring)) ++ (if x.unrep = 0 then [] else [x]) }

/-- The size of a ring, 2^6 to 2^16 descriptors (R449). -/
def State.ringSize (s : State) (n : Nat) : Nat := 2 ^ (max 6 (min 16 (s.getF (HDM_RING_CFG_SIZE_LOG2 n))))

/-- A completion of a ring (R449): its vector is sent after COAL_FRAMES completions, after each one at 0. -/
def State.ringComplete (s : State) (n : Nat) : State :=
  let x := s.ringSt n
  let k := x.unrep + 1
  if s.getF (HDM_RING_CFG_COAL_FRAMES n) ≤ k then (s.putRing { x with unrep := 0 }).sendVec (64 + n)
  else s.putRing { x with unrep := k, since := if x.unrep = 0 then s.now else x.since }

/-- HEAD advances by one descriptor; an rx ring inverts its phase at each wrap (R443, R445). -/
def State.ringAdvance (s : State) (n : Nat) : State :=
  let h := (s.getF (HDM_RING_HEAD_INDEX n) + 1) % s.ringSize n
  let t := s.setF (HDM_RING_HEAD_INDEX n) h
  if h = 0 ∧ 8 ≤ n then t.setF (HDM_RING_HEAD_PHASE n) (1 - s.getF (HDM_RING_HEAD_PHASE n)) else t

/-- A ring starts with HEAD = 0, and an rx ring with PHASE = 1 (R445); held halves of its addresses are applied (R9). -/
def State.ringStart (s : State) (n : Nat) : State :=
  let s := (s.useLo (rHDM_RING_BASE_LO n)).useLo (rHDM_RING_WB_LO n)
  let t := ((s.setF (HDM_RING_CFG_EN n) 1).setF (HDM_RING_HEAD_INDEX n) 0).setF (HDM_RING_HEAD_PHASE n) 1
  t.putRing { ring := n, unrep := 0, since := 0 }

/-- Copies that a ring's channel has taken from the queues of P64 and not completed. -/
def State.ringBusy (s : State) (n : Nat) : Bool :=
  s.copies.any (fun c => c.port == 64 && c.phase != .queued && s.rxRing c.tc == n)

/-- EN = 0 of a ring (R445): it stops after the frame or copy under way. -/
def State.ringStop (s : State) (n : Nat) : State :=
  if !s.flag (HDM_RING_CFG_EN n) then s
  else
    let t := s.setF (HDM_RING_CFG_EN n) 0
    if s.ringBusy n then t.setF (HDM_RING_STATUS_SHUTDOWN n) 1 else t

/-- EN = 1 of a ring (R445): held while its shutdown runs. -/
def State.ringEnable (s : State) (n : Nat) : State :=
  if s.flag (HDM_RING_CFG_EN n) then s
  else if s.flag (HDM_RING_STATUS_SHUTDOWN n) then s.setF (HDM_RING_STATUS_EN_PENDING n) 1
  else s.ringStart n

/-- The shutdown of a ring ends once nothing of it is under way. (DEDUCED, assumption log 59) -/
def State.ringShut (s : State) (n : Nat) : State :=
  if s.flag (HDM_RING_STATUS_SHUTDOWN n) && !s.ringBusy n then
    let t := s.setF (HDM_RING_STATUS_SHUTDOWN n) 0
    if s.flag (HDM_RING_STATUS_EN_PENDING n) then (t.setF (HDM_RING_STATUS_EN_PENDING n) 0).ringStart n else t
  else s

/-! ### The host-interface reset -/

/-- The registers that a host-interface reset clears (R79): HDM, the report of the link excepted. -/
def hdmReg (o : Nat) : Bool := 0xA00000 ≤ o && o < 0xA02400 && o != rHDM_LINK

/-- A host-interface reset (R79, R446): tx frames partly read are dropped on P64, rx copies partly written are not delivered, and
exports and snapshots toward the host are abandoned. (DEDUCED, assumption log 59) -/
def State.hostReset (s : State) : State :=
  let t := s.dropFrames (s.frames.filter (fun f => f.inject && !f.ended))
  let t := t.cutCopies (t.copies.filter (fun c => c.port == 64 && c.started))
  let t := { t with regs := t.regs.filter (fun e => !hdmReg e.1), bar4 := [], dma := [], rings := [],
                    latch := t.latch.filter (fun e => !hdmReg e.1), heldLo := t.heldLo.filter (fun e => !hdmReg e.1) }
  (t.setF CRN_STATUS_EXPORTING 0).setF TLY_SNAP_STATUS_BUSY 0

end Sys2Proof.Machine
end

