-- ==== Sys2Proof/Machine/FaultOps.lean ====
section
/-!
DEFINITION. Machine/FaultOps.lean: the fault collector's shared operations: an event at a source (R455–R460), the reactions
and their order (R461–R467), what each reaction does to its unit (R462, R477, R278), C4 events (R474).
-/

namespace Sys2Proof.Machine

/-- The unit of a source where its number names it (R453, R462); noUnit where only the detector knows. -/
def unitOf (s : Nat) : FUnit :=
  if s ≤ 24 then .die 0
  else if s ≤ 32 then .die 0
  else if s ≤ 100 then (let i := (s - 33) % 17; let q := (s - 33) / 17; if i = 16 then .quadrant q else .station q i)
  else if s ≤ 117 then .engine (s - 101)
  else if s ≤ 127 then (let c := (s - 118) % 5; if c = 4 then .engine 16 else .quadrant c)
  else if s ≤ 151 then .tile ((s - 128) / 6)
  else if s ≤ 167 then .tile ((s - 152) / 4)
  else if s ≤ 179 then .tile ((s - 168) / 3)
  else if s ≤ 182 then .trafficMgr
  else if s ≤ 246 then .station ((s - 183) / 16) ((s - 183) % 16)
  else if s ≤ 262 then .bankGroup (s - 247)
  else if s = 263 then .noUnit
  else if s ≤ 269 then .poolMgr
  else if s ≤ 274 then .trafficMgr
  else if s ≤ 276 then .dqxMover
  else if s ≤ 280 then .quadrant (s - 277)
  else if s ≤ 283 then .die (s - 281)
  else if s ≤ 307 then .lane (s - 284)
  else if s ≤ 312 then .ropeLane (s - 308)
  else if s ≤ 322 then .noUnit
  else if s ≤ 338 then .hostIf
  else if s ≤ 366 then .dramCh ((s - 339) / 7)
  else if s ≤ 373 then .die 0
  else if s ≤ 377 then .engine 16
  else if s ≤ 395 then .die 0
  else if s ≤ 399 then .quadrant (s - 396)
  else if s ≤ 407 then .sched ((s - 400) / 2) 68
  else .trafficMgr

/-- The unit an event concerns: the source's own, else the one its detector names (a port, a bank group, a scheduler instance, a DMA
channel). -/
def eventUnit (src : Nat) (u : FUnit) : FUnit :=
  if 400 ≤ src ∧ src ≤ 407 then .sched ((src - 400) / 2) (match u with | .port p => p | .sched _ p => p | _ => 68)
  else if 335 ≤ src ∧ src ≤ 338 then (match u with | .dma c => .dma c | _ => .hostIf)
  else if unitOf src = .noUnit then u
  else unitOf src

/-- The next reaction in the order C1, C3, C2; C3 only for a unit inside a quadrant (R463, R464). -/
def State.nextClass (s : State) (cls : Nat) (u : FUnit) : Option Nat :=
  if cls = 1 then (if (s.unitQuad u).isSome then some 3 else some 2)
  else if cls = 3 then some 2
  else none

/-- The reaction a class names for a unit, substituted where the unit does not have it (R463). -/
def State.effClass (s : State) (cls : Nat) (u : FUnit) : Nat :=
  if cls = 1 then (match u with | .quadrant _ => 3 | .die _ => 2 | .core => 2 | _ => 1)
  else if cls = 3 then (if (s.unitQuad u).isSome then 3 else 2)
  else cls

/-- The place of a reaction in the order of R463. -/
def classRank (cls : Nat) : Nat := if cls = 1 then 0 else if cls = 3 then 1 else 2

/-- Soft sources and the sources of FG20, FG33–FG36 and FG43 do not escalate (R464). -/
def escalates (src : Nat) : Bool :=
  !softSource src && !(247 ≤ src && src ≤ 263) && !(339 ≤ src && src ≤ 366) && !(387 ≤ src && src ≤ 392)

/-- Whether unit `v` lies inside unit `u`. -/
def State.insideUnit (s : State) (v u : FUnit) : Bool :=
  v == u || (match u with
    | .quadrant q => s.unitQuad v == some q
    | .hostIf => (match v with | .dma _ => true | _ => false)
    | .die 0 | .core => (match v with | .poolMgr | .trafficMgr | .dqxMover | .bankGroup _ | .core => true | _ => false)
    | .die 1 => (match v with | .lane c => decide (c < 12) | .hostIf | .dma _ => true | .dramCh c => decide (c < 2) | _ => false)
    | .die _ => (match v with | .lane c => decide (12 ≤ c) | .ropeLane _ => true | .dramCh c => decide (2 ≤ c) | _ => false)
    | _ => false)

/-- A quadrant is being restarted (R462, R214, R218): from the start of its reaction to its completion. -/
def State.restarting (s : State) (q : Nat) : Bool := s.flt.reactions.any (fun r => r.cls == 3 && r.done.isNone && r.unit == .quadrant q)

/-- Whether a unit is isolated (R462, R482). -/
def State.isIso (s : State) (u : FUnit) : Bool :=
  (match s.unitQuad u with | some q => (s.getF FLT_ISO_QUAD).testBit q | none => false) ||
  (match u with
   | .poolMgr | .trafficMgr | .core | .die 0 => s.flag FLT_ISO_CORE
   | .engine e => (s.getF FLT_ISO_ENG_ENGINES).testBit e
   | .bankGroup g => (s.getF FLT_ISO_BANKS_GROUPS).testBit g || s.flag FLT_ISO_CORE
   | .dqxMover => s.flag FLT_ISO_DQX || s.flag FLT_ISO_CORE
   | .die 1 => (s.getF FLT_ISO_CHIPLET).testBit 0
   | .die 2 => (s.getF FLT_ISO_CHIPLET).testBit 1
   | .port p => s.portIso p
   | .lane c => s.flt.isoUnits.contains u || (s.getF FLT_ISO_CHIPLET).testBit (c / 12)
   | .ropeLane _ => s.flt.isoUnits.contains u || (s.getF FLT_ISO_CHIPLET).testBit 1
   | .dramCh c => s.flt.isoUnits.contains u || (s.getF FLT_ISO_CHIPLET).testBit (c / 2)
   | .hostIf | .dma _ => (s.getF FLT_ISO_CHIPLET).testBit 0
   | u => s.flt.isoUnits.contains u)

/-! ### What a reaction does to the frames of its unit -/

/-- A thread ends by abort or restart: its frame or copy ends as R140 says; a task has nothing to lose. -/
def State.loseTarget (s : State) (t : Target) : State :=
  match t with
  | .frame fid => s.dropFrame fid tRX_CONGESTION
  | .copy fid p =>
    match s.copy fid p with
    | some c => if c.started then (s.putCopy { c with tailMark := true }).endThreads t else s.dropCopy c tTX_CONGESTION
    | none => s.endThreads t
  | .task _ => s

/-- An event is recorded as consequential (R465, R467). -/
def State.conseq (s : State) (src : Nat) : State := (s.count (FLT_SRC_CONSEQ_COUNT src) 1).count FLT_CONSEQ_CNT_COUNT 1

/-- The threads of a list abort with the unit that they run in (R140, coincidence of a quadrant restart): each abort is recorded, counts as
consequential and ends its frame or copy.  The recorded address is where the thread stands; R148 has no cause code for such an abort, and
the code is an open value (DESIGN CHOICE, assumption log 97). -/
def State.loseTargets : State → List Thread → State
  | s, [] => s
  | s, th :: t =>
    let v := s.free
    let u := v.2.count (HSQ_ABORT_CNT_COUNT th.eng) 1
    let u := (u.setF (HSQ_ABORT_INFO_ADDR th.eng) th.pc).setF (HSQ_ABORT_INFO_CAUSE th.eng) (v.1 % 16)
    let u := (u.setF (HSQ_ABORT_INFO_THREAD th.eng) th.slot).setF (HSQ_ABORT_INFO_VALID th.eng) 1
    ((u.conseq (101 + th.eng)).loseTarget th.target).loseTargets t

/-- Drop copies of the egress pass not yet started, and tail-mark those in transmission (R477). -/
def State.loseCopies : State → List Copy → State
  | s, [] => s
  | s, c :: t => (s.loseTarget (.copy c.fid c.port)).loseCopies t

/-- The station of its quadrant in which a frame stands (R453): 0 parse, 1 + k position k; none in the core.  A frame that waits between
two stations is held by the one it waits to enter (R196). -/
def Frame.stationIdx (f : Frame) : Option Nat :=
  match f.phase with
  | .waiting | .parsing => some 0
  | .parsed => some 1
  | .station => some (1 + f.pos)
  | _ => none

/-- The station of its quadrant in which a copy stands: 1 + k position k, 15 rewrite; none while it waits in the core. -/
def Copy.stationIdx (c : Copy) : Option Nat :=
  match c.phase with
  | .dequeued => some 11
  | .station => some (if c.pos < 14 then 1 + c.pos else 15)
  | .resolved | .rewriting | .sending => some 15
  | .queued => none

/-- Drain a station of quadrant `q` (R477): index 0 is parse, 1 + k is position k, 15 is rewrite. -/
def State.restartStation (s : State) (q i : Nat) : State :=
  let t := s.dropFrames (s.frames.filter (fun f => s.quadOf f.port == q && f.stationIdx == some i))
  t.loseCopies (t.copies.filter (fun c => t.quadOf c.port == q && c.stationIdx == some i))

/-- Drain and restart the scheduler instance of a port (R12, R477): the copies it has selected and not handed on are dropped, and its
pointers, deficits and credits begin anew. -/
def State.restartSched (s : State) (p : Nat) : State :=
  let t := s.loseCopies (s.copies.filter (fun c => c.port == p && c.phase == .dequeued))
  { t with scheds := t.scheds.filter (fun x => x.port != p), shapers := t.shapers.filter (fun x => x.port != p) }

/-- The beads whose owner is an ingress writer of quadrant `q` (R256, R268). -/
def State.writerBeads (s : State) (q : Nat) : List Nat :=
  (s.buf.held.filter (fun e => 0x300 + 3 * q ≤ e.2.owner && e.2.owner ≤ 0x302 + 3 * q)).map (·.1)

/-- A frame that has ended its ingress pass and is still being received loses its tail (R268): copies not started are
dropped; the next read of a copy in transmission meets the first of the beads freed with the tail, and tail-marks it then (R266). -/
def State.loseTails : State → List Frame → State
  | s, [] => s
  | s, f :: t =>
    let late := f.beads.find? (fun b => match s.buf.held.lookup b with | some r => r.owner == f.writer | none => false)
    let u := s.endRx f tRX_CONGESTION
    let v := match late with
      | some b => { u with copies := u.copies.map (fun (c : Copy) =>
          if c.fid == f.fid && c.started && s.copies.any (fun d => d.fid == c.fid && d.port == c.port && !d.tailMark)
          then { c with tailMark := false, lost := some b } else c) }
      | none => u
    v.loseTails t

/-- A quadrant's patch RAM and match registers are written again from the sealed image copy (R146): their contents are those at the seal. -/
def State.reloadPatches (s : State) (q : Nat) : State := { s with patchBad := s.patchBad.filter (fun x => x.1 != q) }

/-- The frame side of a quadrant restart or isolation (R14, R140, R268, R278, R477): every thread of its four engines aborts, its ports are
declared down, frames in its ingress pass are dropped, its writers' beads are freed, its egress pass is lost. -/
def State.quadFrames (s : State) (q : Nat) : State :=
  let t := s.loseTargets (s.threads.filter (fun th => th.eng / 4 == q && th.eng != 16))
  let t := t.dropFrames (t.frames.filter (fun f => t.quadOf f.port == q && f.inIngress))
  let t := t.loseTails (t.frames.filter (fun f => t.quadOf f.port == q && !f.ended && f.phase == .enqueued))
  let t := t.loseCopies (t.copies.filter (fun c => t.quadOf c.port == q && !(c.phase == .queued)))
  let t := t.freeBeads (t.writerBeads q)
  let t := t.dropThreads (fun th => th.eng / 4 == q && th.eng != 16)
  (t.portsDown (t.portsOf q)).reloadPatches q

/-- The lanes of a port as LANEMAP binds them. -/
def State.lanesOf (s : State) (p : Nat) : List LaneSt := s.lanes.filter (fun l => l.port ≤ p && p < l.port + 4 &&
  (l.port == p || ((s.port p).map (·.mode)).getD 0 == 9))

/-- What training starts from (R96, R125): the record's preset, or in a short Ascent the preset and taps saved in the retention store; a
lane of which none was saved starts from its record. -/
def State.eqPreset (s : State) (l : Nat) : State :=
  match s.lanes.find? (fun x => x.lane == l) with
  | some x =>
    if x.rate < 2 ∨ s.flag (LAN_CTL_LT_EN l) = false then s
    else
      let e := if s.mode.ascent = .short then (s.mode.retEq.lookup l).getD (x.eqPreset, []) else (x.eqPreset, [])
      ({ s with lanes := updFirst (fun y => y.lane == l) (fun y => { y with taps := e.2 }) s.lanes }).setF (LAN_STATUS_EQ_PRESET l) e.1
  | none => s

/-- A lane starts its bring-up (R94). -/
def State.laneStart (s : State) (l : Nat) : State :=
  let t := (s.wr (rLAN_STATUS l) 0).eqPreset l
  { t with lanes := updFirst (fun x => x.lane == l) (fun x => { x with began := some s.now, retryAt := none }) t.lanes }

/-- Start the bring-up of every lane of a list. -/
def State.lanesStart : State → List LaneSt → State
  | s, [] => s
  | s, l :: t => (s.laneStart l.lane).lanesStart t

/-- Isolate a list of front ports: their bits of FLT_ISO_PORTS are set and they are declared down with an expired hold. -/
def State.isoPorts : State → List Nat → State
  | s, [] => s
  | s, p :: t =>
    let u := if p < 32 then s.orF FLT_ISO_PORTS_LO_PORTS (2 ^ p)
             else if p < 64 then s.orF FLT_ISO_PORTS_HI_PORTS (2 ^ (p - 32))
             else { s with flt := { s.flt with isoUnits := .port p :: s.flt.isoUnits } }
    let u := u.portDown p
    let u := if u.getF (SWC_PORT_HOLD_STATE p) = 1 then u.expireHold p else u
    u.isoPorts t

/-- Lower the pools' quotas to the usable beads (R279): shared pools from 15 downward, then reserved pools by lowest RANK and
highest ADMIT; each lowered reserved pool is a broken guarantee. -/
def State.shrink : State → Nat → List Nat → State
  | s, _, [] => s
  | s, surplus, n :: t =>
    if surplus = 0 then s
    else
      let q := s.getF (BPM_POOL_BEADS_QUOTA n)
      let cut := min q surplus
      let u := (s.setF (BPM_POOL_BEADS_QUOTA n) (q - cut)).poolEval n
      let u := if s.flag (BPM_POOL_CFG_RESERVED n) ∧ 0 < cut then
          (u.raiseBPM BPM_INT_STATUS_SHRINK).guar 2 n (s.getF (BPM_POOL_CFG_RANK n)) (s.getF (BPM_POOL_CFG_ADMIT n)) 0 0 false
        else u
      u.shrink (surplus - cut) t

/-- The pools in the order in which capacity loss lowers them (R279). -/
def State.shrinkOrder (s : State) : List Nat :=
  let shared := ((List.range 16).filter (fun n => !s.flag (BPM_POOL_CFG_RESERVED n))).reverse
  let resv := (List.range 16).filter (fun n => s.flag (BPM_POOL_CFG_RESERVED n))
  shared ++ resv.mergeSort (fun a b =>
    let ra := s.getF (BPM_POOL_CFG_RANK a); let rb := s.getF (BPM_POOL_CFG_RANK b)
    ra < rb || (ra == rb && decide (s.getF (BPM_POOL_CFG_ADMIT b) ≤ s.getF (BPM_POOL_CFG_ADMIT a))))

/-- A bank group leaves service with its 16,384 beads (R279). -/
def State.loseBank (s : State) (g : Nat) : State :=
  let t := (s.orF FLT_ISO_BANKS_GROUPS (2 ^ g)).dec BPM_USABLE_COUNT 16384
  let gone := (t.buf.freed.filter (fun b => b % 16 == g)).length + ((262144 - t.buf.fresh) + 15 - g) / 16
  let t := t.dec BPM_FREE_COUNT gone
  let reads := fun (c : Copy) => (t.copyBeads c).any (fun b => beadGroup b == g)
  let t := t.loseCopies (t.copies.filter reads)
  let sum := ((List.range 16).map (fun n => t.getF (BPM_POOL_BEADS_QUOTA n))).sum
  t.shrink (sum - t.getF BPM_USABLE_COUNT) t.shrinkOrder

/-- Flush the DRAM segments of every queue (R462, isolation of the mover). -/
def State.flushDqx (s : State) : State := s.dropCopies (s.copies.filter (fun c => c.seg == 1)) tTX_CONGESTION

/-- The device leaves normal running because a unit is isolated (R63): Abseil from Paired or Solo, later where the mode
does not change now. -/
def State.toAbseil (s : State) : State :=
  if s.modeCode = mPaired ∨ s.modeCode = mSolo then s.enterMode mAbseil 5
  else if s.modeCode = mAscent ∨ s.modeCode = mService then { s with mode := { s.mode with abseilDue := true } }
  else s

/-- C2: isolate a unit (R462). -/
def State.isolate (s : State) (u : FUnit) : State :=
  match u with
  | .tile q | .station q _ | .sched q _ | .quadrant q => ((s.orF FLT_ISO_QUAD (2 ^ q)).quadFrames q).toAbseil
  | .engine e =>
    -- housekeeping: nothing is isolated, and every task resumes from its last completed word
    if e = 16 then s
    else (((s.orF FLT_ISO_ENG_ENGINES (2 ^ e)).loseTargets (s.threads.filter (fun th => th.eng == e))).dropThreads (fun th => th.eng == e)).toAbseil
  | .bankGroup g => (s.loseBank g).toAbseil
  | .poolMgr | .trafficMgr | .core | .die 0 =>
    let t := (s.setF FLT_ISO_CORE 1).flushAll
    let t := t.cutCopies (t.copies.filter (·.started))
    let t := t.dropFrames (t.frames.filter Frame.inIngress)
    ({ t with mode := { t.mode with admitStop := true } }).toAbseil
  | .dqxMover => ((s.setF FLT_ISO_DQX 1).flushDqx).toAbseil
  | .lane c =>
    let ps := (s.lanes.filter (fun l => l.lane == c)).map (·.port)
    ({ (s.isoPorts ps) with flt := { (s.isoPorts ps).flt with isoUnits := .lane c :: (s.isoPorts ps).flt.isoUnits } }).toAbseil
  | .port p => (s.isoPorts [p]).toAbseil
  | .die d =>
    let lanes := s.lanes.filter (fun l => if d = 1 then l.lane < 12 else 12 ≤ l.lane)
    let t := (s.orF FLT_ISO_CHIPLET (2 ^ (d - 1))).isoPorts (lanes.map (·.port) |>.filter (· < 64))
    let t := { t with flt := { t.flt with isoUnits := (if d = 1 then [FUnit.dramCh 0, FUnit.dramCh 1] else [FUnit.dramCh 2, FUnit.dramCh 3]) ++ t.flt.isoUnits } }
    -- chiplet A carries PCIe too, chiplet B the rope
    let t := if d = 1 then ({ t.hostReset with mode := { t.hostReset.mode with pcieUp := false } }).pcieLink 0 0
             else [0, 1, 2, 3, 4].foldl (fun u n => u.ropeUnlock n) t
    t.toAbseil
  | .ropeLane n => (({ s with flt := { s.flt with isoUnits := .ropeLane n :: s.flt.isoUnits } }).ropeUnlock n).toAbseil
  | .dramCh c => ({ s with flt := { s.flt with isoUnits := .dramCh c :: s.flt.isoUnits } }).toAbseil
  | .hostIf | .dma _ => s.hostReset
  | .noUnit => s

/-- Restart the DQX mover (R462): a frame in transfer, one whose refill waits for its beads, is dropped and counted in SWC_DQX_ERR. -/
def State.restartMover (s : State) : State :=
  let l := s.buf.waits.filter (fun w => w.slot == 12 || w.slot == 13)
  let cs := s.copies.filter (fun c => l.any (fun w => w.fid == c.fid && w.port == c.port))
  let t := s.dropCopies cs tTX_CONGESTION
  let t := { t with buf := { t.buf with waits := t.buf.waits.filter (fun w => !(w.slot == 12 || w.slot == 13)) } }
  t.count SWC_DQX_ERR_COUNT cs.length

/-- C1 of a tile of quadrant `q` (R462): a corrected or remapped word holds what it held; a tree-cache line is invalidated, one whose
place the event does not say (DESIGN CHOICE, assumption log 79). -/
def State.repairTile (s : State) (q src : Nat) : State :=
  let l := s.trees.filter (fun x => x.1 == q)
  if src = 169 + 3 * q ∧ l ≠ [] then
    (let f := s.free
     { f.2 with trees := f.2.trees.filter (fun x => x != l.getD (f.1 % l.length) (q, 0)) })
  else s

/-- C1: repair a unit locally (R462, R477).  The thread of an engine that the event concerned was aborted when it was detected (R140,
R458), so nothing of it is left to abort. -/
def State.repair (s : State) (src : Nat) (u : FUnit) : State :=
  match u with
  | .tile q => s.repairTile q src
  | .station q i => s.restartStation q i
  | .sched _ p => s.restartSched p
  | .dqxMover => s.restartMover
  | .poolMgr | .trafficMgr => s.dropFrames (s.frames.filter (fun f => f.phase == .resolving || f.phase == .listed))
  | .lane c =>
    let ls := s.lanes.filter (fun l => l.lane == c)
    (s.portsDown (ls.map (·.port))).lanesStart ls
  | .port p => (s.portDown p).lanesStart (s.lanesOf p)
  | .ropeLane n => s.ropeUnlock n
  | .hostIf => s.dmaResetAll
  | .dma c => s.dmaReset c
  | _ => s

/-- The START safety message and the cairn of a reaction (R461, R473, R506); `ns` is the local time of its event. -/
def State.reportStart (s : State) (g src : Nat) (u : FUnit) (cls : Nat) (esc : Bool) (ns : Nat) : State :=
  let k := unitCode u
  let t := s.cairn 0x40 src [BitVec.ofNat 8 g, BitVec.ofNat 8 (cls + 8 * b2n esc), BitVec.ofNat 8 k.1, BitVec.ofNat 8 k.2]
  if cls = 2 ∨ cls = 3 then t.ropeSend (t.safetyMsg g cls false false src u ns) else t

/-- Return a group to idle. -/
def State.groupIdle (s : State) (g : Nat) : State :=
  let t := (s.setF (FLT_GRP_STATUS_STATE g) 0).clrGroup FLT_PENDING_LO_GROUPS FLT_PENDING_HI_GROUPS g
  { t with flt := { t.flt with belay := sdel t.flt.belay g } }

/-- Close as consequential every belay whose source a starting reaction shadows (R467). -/
def State.closeBelays : State → List (Nat × Nat) → Reaction → State
  | s, [], _ => s
  | s, (g, _) :: t, r =>
    let src := s.getF (FLT_GRP_STATUS_LAST_SOURCE g)
    if shadows r src then ((s.groupIdle g).conseq src).closeBelays t r else s.closeBelays t r

/-- Abandon reactions that run inside a larger unit whose reaction starts (R465). -/
def State.abandon : State → List Reaction → FUnit → State
  | s, [], _ => s
  | s, r :: t, u =>
    if r.done.isNone && s.insideUnit r.unit u && r.unit != u then
      ((({ s with flt := { s.flt with reactions := s.flt.reactions.filter (· != r) } }).groupIdle r.group)).abandon t u
    else s.abandon t u

/-- The lanes whose sources a reaction on a unit shadows, and the quadrants whose MAC sources it does (R466). -/
def State.shadowLanes (s : State) (u : FUnit) : List Nat :=
  match u with
  | .lane c => [c]
  | .port p => (s.lanesOf p).map (·.lane)
  | _ => []
def State.shadowQuads (s : State) (u : FUnit) : List Nat :=
  match u with
  | .lane c => (s.lanes.filter (fun l => l.lane == c)).map (fun l => s.quadOf l.port)
  | .port p => [s.quadOf p]
  | .ropeLane _ => [s.quadOf 65]
  | _ => []

/-- The reaction of class `cls` on unit `u` for a severe event of group `g` at source `src` (R461–R467). -/
def State.react (s : State) (g src : Nat) (u : FUnit) (cls : Nat) (esc : Bool) : State :=
  let t := s.groupIdle g
  if t.isIso u then t
  else
    let running := t.flt.reactions.filter (fun r => r.done.isNone)
    if cls = 3 && running.any (fun r => r.cls == 3 && s.unitQuad r.unit == s.unitQuad u) then
      ({ t with flt := { t.flt with pendRestart := t.flt.pendRestart ++ [((s.unitQuad u).getD 0, src)] } }).setF (FLT_GRP_STATUS_PENDING_RESTART g) 1
    else if running.any (fun r => s.insideUnit u r.unit && r.group != g) then t.conseq src
    else
      let ru := if cls = 3 then FUnit.quadrant ((s.unitQuad u).getD 0) else u
      let ns := (t.flt.sevNs.lookup g).getD s.localNs
      let r : Reaction := { group := g, source := src, cls := cls, unit := ru, escalated := esc, start := s.now, evNs := ns,
                            lanes := s.shadowLanes ru, quads := s.shadowQuads ru, done := none }
      let t := t.abandon t.flt.reactions ru
      let t := t.closeBelays t.flt.belay r
      let t := { t with flt := { t.flt with reactions := t.flt.reactions.filter (fun x : Reaction => x.group != g) ++ [r] } }
      let t := (t.setF (FLT_GRP_STATUS_STATE g) 2).setF (FLT_GRP_STATUS_ACTION g) cls
      let t := ((t.setF FLT_STATUS_LAST_GROUP g).setF FLT_STATUS_LAST_CLASS cls).setF FLT_STATUS_SHADOW 1
      let t := t.count (FLT_GRP_REACTIONS_COUNT g) 1
      let t := if esc then (t.count (FLT_GRP_REACTIONS_ESCALATED g) 1).count FLT_ESCAL_CNT_COUNT 1 else t
      let t := match ru with | .dramCh _ => t.refreshRules | _ => t
      let t := if cls = 1 then t.repair src ru else if cls = 3 then t.quadFrames ((s.unitQuad u).getD 0) else t.isolate ru
      (t.faultEdge s).reportStart g src ru cls esc ns

/-- A severe event of a group whose unit already stands in the belay of another group since this cycle (coincidence of two groups that
raise severe events for one unit): the reaction that comes later in the order of R463 runs, the other event is consequential.  Answers
the group whose belay gives way, or none where no belay stands against it. -/
def State.rivalBelay (s : State) (g : Nat) (u : FUnit) : Option Nat :=
  (s.flt.belay.find? (fun e => e.1 != g && s.flt.sevUnit.lookup e.1 == some u && u != .noUnit &&
    e.2 == s.now + tUs (s.getF (FLT_GRP_CFG_BELAY_US e.1)))).map (·.1)

/-- The groups of a list return to idle, and no restart of theirs is held. -/
def State.groupsIdle : State → List Nat → State
  | s, [] => s
  | s, g :: t => ((s.groupIdle g).setF (FLT_GRP_STATUS_PENDING_RESTART g) 0).groupsIdle t

/-- Every belay ends and every reaction is abandoned (coincidence of a C4 event with a reaction or belay). (DEDUCED, assumption log 30) -/
def State.abandonAll (s : State) : State :=
  let t := s.groupsIdle ((List.range 48).filter (fun g => s.getF (FLT_GRP_STATUS_STATE g) != 0 || s.flag (FLT_GRP_STATUS_PENDING_RESTART g)))
  { (t.setF FLT_STATUS_SHADOW 0) with flt := { t.flt with belay := [], reactions := [], pendRestart := [] } }

/-- A C4 event (R457, R461, R474, R62, R82): the cause and the latch are set, and the device enters Hold at once from any mode
except Bivouac; running reactions are abandoned.  The cause of the Hold that lasts is kept (DEDUCED, assumption log 30). -/
def State.c4Event (s : State) (g src : Nat) : State :=
  if s.modeCode = mBivouac then s
  else
    let t := if s.flag FLT_C4_CAUSE_VALID && s.flag AON_MODE_INFO_C4_LATCH then s
      else (s.setF FLT_C4_CAUSE_SOURCE src).setF FLT_C4_CAUSE_VALID 1
    let t := (t.setF AON_MODE_INFO_C4_LATCH 1).abandonAll
    let t := { t with mode := { t.mode with c4Hold := some (t.mode.c4Hold.getD (t.getF AON_PCYCLE_COUNT)) } }
    let t := ((t.setF (FLT_GRP_STATUS_ACTION g) 4).count (FLT_GRP_REACTIONS_COUNT g) 1).setF FLT_STATUS_LAST_GROUP g
    (t.setF FLT_STATUS_LAST_CLASS 4).enterHold 5 g src

/-- Start the belay of a group (R457). -/
def State.startBelay (s : State) (g : Nat) : State :=
  let t := (s.setF (FLT_GRP_STATUS_STATE g) 1).setGroup FLT_PENDING_LO_GROUPS FLT_PENDING_HI_GROUPS g
  ({ t with flt := { t.flt with belay := sput t.flt.belay g (s.now + tUs (t.getF (FLT_GRP_CFG_BELAY_US g))) } }).groupVec g

/-- A severe event of the source's group (R457, R460, R464). (DEDUCED, assumption log 62) -/
def State.severe (s : State) (src : Nat) (u : FUnit) : State :=
  let g := groupOf src
  let cls := s.getF (FLT_GRP_CFG_CLASS g)
  let t := s.severeBook g src
  if 4 ≤ cls then
    ((t.setF (FLT_GRP_STATUS_LAST_SOURCE g) src).setGroup FLT_SEVERE_LO_GROUPS FLT_SEVERE_HI_GROUPS g |>.groupVec g).c4Event g src
  else if t.getF (FLT_GRP_STATUS_STATE g) ≠ 0 then t
  else
    let t := { t with flt := { t.flt with sevUnit := (g, u) :: t.flt.sevUnit.filter (fun e => e.1 != g), sevNs := sput t.flt.sevNs g s.localNs } }
    let t := ((t.setF (FLT_GRP_STATUS_LAST_SOURCE g) src).setF (FLT_GRP_STATUS_ACKED g) 0).setGroup FLT_SEVERE_LO_GROUPS FLT_SEVERE_HI_GROUPS g
    if cls = 0 then t.groupVec g
    else
      let last := match s.flt.shadowEnd.lookup src with | some e => if s.now < e.1 + tMs 100 then e.2 else 0 | none => 0
      match (if last ≠ 0 && escalates src then s.nextClass last u else none) with
      | some c => (t.groupVec g).react g src u c true
      | none =>
        match t.rivalBelay g u with
        | some h =>
          if classRank (s.effClass (s.getF (FLT_GRP_CFG_CLASS h)) u) < classRank (s.effClass cls u)
          then (((t.groupIdle h).conseq (t.getF (FLT_GRP_STATUS_LAST_SOURCE h))).startBelay g)
          else (t.groupVec g).conseq src
        | none => t.startBelay g

/-- A source whose unit is power-gated reports no event (R24): its quadrant, or, for the sources of tiles, TCAM blocks and tree-cache
tiles, every one of that kind that the quadrant has. -/
def State.gatedSource (s : State) (src : Nat) (u : FUnit) : Bool :=
  s.isSealed &&
  match s.unitQuad (eventUnit src u), s.img with
  | some q, some i =>
    !s.quadPowered q ||
    (128 ≤ src && src ≤ 151 && i.tiles.all (fun r => r.tileMasks.getD q 0 == 0)) ||
    (152 ≤ src && src ≤ 167 && i.tiles.all (fun r => r.blockMasks.getD q 0 == 0)) ||
    (168 ≤ src && src ≤ 179 && src % 3 == 1 && i.tiles.all (fun r => r.kind != .treeCache || r.tileMasks.getD q 0 == 0))
  | _, _ => false

/-- One event at a source (R24, R455). -/
def State.event (s : State) (src : Nat) (u : FUnit) : State :=
  if s.gatedSource src u then s
  else match s.countEvent src with
  | (t, false) => t
  | (t, true) => t.severe src (eventUnit src u)

/-- Raise the sources of a list. -/
def State.raiseSrcs : State → List Nat → State
  | s, [] => s
  | s, x :: t => (s.event x .poolMgr).raiseSrcs t

/-- The frees that the pool manager refused in this operation raise their sources at its end (R267; DESIGN CHOICE, assumption log 104). -/
def State.raiseFrees (s : State) : State := ({ s with buf := { s.buf with badFrees := [] } }).raiseSrcs s.buf.badFrees

/-- A minor event of the host-interface fault group (R5, R6 and the rules that name it). -/
def State.minor (s : State) (src : Nat) : State := s.event src .hostIf

end Sys2Proof.Machine
end

