-- ==== Sys2Proof/Machine/Cairns.lean ====
section
/-!
DEFINITION. Machine/Cairns.lean: the meanings of the cairn store's family (R502–R520).
-/

namespace Sys2Proof.Machine

/-- Write a cairn into slot `i`: words 0–6 first, word 7 last (R504); `mark` false leaves the slot without its mark (R512). -/
def State.putSlot (s : State) (i : Nat) (c : Cairn) (mark : Bool) : State :=
  let v := s.cairnVer
  { s with crn := { s.crn with mram := writeBytes s.crn.mram (64 * i) (c.body v ++ (if mark then c.mark v else [])) } }

/-- The write index moves on: NEAR_FULL once at 256 × NEAR_FULL, FULL at 65,536 (R513). -/
def State.advanceIndex (s : State) : State :=
  let u := s.getF CRN_STATUS_USED + 1
  let t := s.setF CRN_STATUS_USED u
  let t := if !t.crn.nearFullDone && u == 256 * t.getF CRN_CFG_NEAR_FULL
    then (let v := t.raiseCRN CRN_INT_STATUS_NEAR_FULL; { v with crn := { v.crn with nearFullDone := true } }) else t
  if u = 65536 then (t.setF CRN_STATUS_FULL 1).raiseCRN CRN_INT_STATUS_FULL else t

/-- The recording queue becomes `l`. -/
def State.recQueue (s : State) (l : List Cairn) : State := { s with crn := { s.crn with queue := l } }

/-- CAIRN_WRITE (R502, R510, R512, R513): the oldest queued cairn goes to the next free slot; a slot with non-zero words is
passed over; on a failed read-back source 378 is raised and the slot is abandoned without its mark; a full store counts CRN_LOST. (DEDUCED, assumption log 61) -/
def execCairnWrite (fails : Bool) (s : State) : Host.Outcome State Fault Refusal :=
  .next (match s.crn.queue with
    | [] => s
    | c :: rest =>
      if s.modeCode = mBivouac ∨ s.flag CRN_STATUS_CLEARING = true then s
      else if s.flag CRN_STATUS_FULL then
        { (s.count CRN_LOST_COUNT 1) with crn := { s.crn with queue := rest } }
      else
        let u := s.getF CRN_STATUS_USED
        if (s.slotBytes u).any (· != 0) then s.advanceIndex
        else if fails then ((s.putSlot u c false).advanceIndex).event 378 (.die 0)
        else
          ((s.putSlot u c true).recQueue rest).advanceIndex)

/-- FIRST_SEC of the last cairn of a kind in the written slots below `i`; 0 where there is none (R490, R509). -/
def lastKindSlot (s : State) (kind : Nat) : Nat → Nat
  | 0 => 0
  | i + 1 =>
    let b := s.slotBytes i
    if (b.getD 0 0).toNat = kind ∧ slotValid b = true then leNat ((b.drop 8).take 5) else lastKindSlot s kind i

/-- FIRST_SEC of the last cairn of a kind, queued or written (R490, R509). -/
def State.lastKind (s : State) (kind : Nat) : Nat :=
  match s.crn.queue.reverse.find? (fun c => c.kind == kind) with
  | some c => c.firstSec
  | none => lastKindSlot s kind (s.getF CRN_STATUS_USED)

/-- A 24-bit saturating count as three bytes (R507). -/
def cnt24 (n : Nat) : List Byte := leBytes 3 (min 0xFFFFFF n)

/-- The eight bins of a histogram, and whether any saturated. -/
def bins (m : List (Nat × Nat)) (k : Nat) : List Byte × Bool :=
  let l := (List.range 8).map (fun i => (m.lookup (8 * k + i)).getD 0)
  (l.flatMap cnt24, l.any (fun n => decide (0xFFFFFF ≤ n)))

/-- Raise the kind-01h cairn of each port of a list (R507, R509). -/
def State.portCairns : State → List Nat → State
  | s, [] => s
  | s, p :: t =>
    let b := bins s.crn.qBins p
    let res := (s.crn.resPeak.lookup p).getD 0
    (s.cairn 1 p (b.1 ++ leBytes 4 (min 0xFFFFFFFF res) ++ leBytes 4 ((s.crn.qPeak.lookup p).getD 0)) (b2n b.2)).portCairns t

/-- Raise the kind-03h cairn of each source with a non-zero count (R507, R509). -/
def State.sourceCairns : State → List (Nat × (Nat × Nat × Nat)) → State
  | s, [] => s
  | s, (src, c) :: t =>
    (if c = (0, 0, 0) then s else s.cairn 3 src (leBytes 4 c.1 ++ leBytes 4 c.2.1 ++ leBytes 4 c.2.2)).sourceCairns t

/-- Clear the accumulators of the record interval (R509). -/
def State.clearAccum (s : State) : State :=
  { s with crn := { s.crn with qBins := [], tBins := [], qPeak := [], resPeak := [], tLow := 127, tHigh := -128, tSensor := 0 },
           flt := { s.flt with accum := [] } }

/-- CAIRN_INTERVAL_END (R509): due INTERVAL_H operating hours (0 is taken as 1) after the last kind-02h cairn. -/
def execCairnIntervalEnd (s : State) : Host.Outcome State Fault Refusal :=
  .next (if s.modeCode = mBivouac ∨ s.opSec < s.lastKind 2 + 3600 * max 1 (s.getF CRN_CFG_INTERVAL_H) then s
    else
      let t := s.portCairns ((s.ports.filter (fun x => x.mode != 0)).map (·.port))
      let b := bins t.crn.tBins 0
      let t := t.cairn 2 0 (b.1 ++ [BitVec.ofInt 8 s.crn.tLow, BitVec.ofInt 8 s.crn.tHigh, BitVec.ofNat 8 s.crn.tSensor]) (b2n b.2)
      (t.sourceCairns s.flt.accum).clearAccum)

/-- The bin of a queue depth in beads (R507). -/
def depthBin (n : Nat) : Nat :=
  if n = 0 then 0 else if n < 16 then 1 else if n < 64 then 2 else if n < 256 then 3 else if n < 1024 then 4
  else if n < 4096 then 5 else if n < 16384 then 6 else 7

/-- The bin of a temperature (R507). -/
def tempBin (t : Int) : Nat :=
  if t < 0 then 0 else if t < 25 then 1 else if t < 50 then 2 else if t < 75 then 3 else if t < 90 then 4
  else if t < 105 then 5 else if t < 115 then 6 else 7

/-- A port's total queue depth in beads, on chip and in the DQX. -/
def State.depth (s : State) (p : Nat) : Nat :=
  ((List.range 8).map (fun t => s.getF (SWC_PORT_QDEPTH_BEADS p t) + s.getF (SWC_PORT_QDQX_SLOTS p t))).sum

/-- Add 1 at a key of a count map. -/
def bump (m : List (Nat × Nat)) (k : Nat) : List (Nat × Nat) := sput m k ((m.lookup k).getD 0 + 1)

/-- CAIRN_SAMPLE_TICK (R507): queue depths of every used port and the hottest junction sensor enter their bins. -/
def execCairnSampleTick (sensor : Nat) (temp : Int) (s : State) : Host.Outcome State Fault Refusal :=
  .next (if s.modeCode = mBivouac then s
    else
      let q := (s.ports.filter (fun x => x.mode != 0)).foldl (fun m x => bump m (8 * x.port + depthBin (s.depth x.port))) s.crn.qBins
      { s with crn := { s.crn with qBins := q, tBins := bump s.crn.tBins (tempBin temp),
                                   tLow := min s.crn.tLow temp, tHigh := max s.crn.tHigh temp,
                                   tSensor := if s.crn.tHigh < temp then sensor else s.crn.tSensor } })

/-- A slot as it is read (R515): as stored when valid, else zero and counted. -/
def State.presentSlot (s : State) (i : Nat) : List Byte × Bool :=
  let b := s.slotBytes i
  if slotValid b then (b, false) else (List.replicate 64 0, true)

/-- CAIRN_EXPORT (R516): ignored while an export or a clear runs. -/
def State.doCairnExport (s : State) : State :=
  (if s.flag CRN_STATUS_EXPORTING || s.flag CRN_STATUS_CLEARING then s
    else
      let t := (s.useLo rCRN_EXPORT_ADDR_LO)
      let t := (t.setF CRN_STATUS_EXPORTING 1).setF CRN_EXPORT_DONE_SLOTS 0
      { t with crn := { t.crn with exportAddr := t.pair rCRN_EXPORT_ADDR_LO / 64 * 64, exportNext := s.getF CRN_EXPORT_FROM_INDEX,
                                   exportEnd := s.getF CRN_STATUS_USED, exportFrom := s.getF CRN_EXPORT_FROM_INDEX } })

/-- CAIRN_EXPORT (R516). -/
def execCairnExport (s : State) : Host.Outcome State Fault Refusal := .next (s.doCairnExport)

/-- Export the next `n` slots of the export under way to host memory (R516). -/
def State.exportSlots : Nat → State → State
  | 0, s => s
  | n + 1, s =>
    if s.crn.exportNext < s.crn.exportEnd then
      let i := s.crn.exportNext
      let r := s.presentSlot i
      let t := s.emit (.hostWrite (s.crn.exportAddr + 64 * (i - s.crn.exportFrom)) r.1)
      let t := if r.2 then t.count CRN_SKIPPED_COUNT 1 else t
      State.exportSlots n ({ t with crn := { t.crn with exportNext := i + 1 } }.setF CRN_EXPORT_DONE_SLOTS (s.getF CRN_EXPORT_DONE_SLOTS + 1))
    else s

/-- An export ends (R516, R520). -/
def State.exportEnds (s : State) : State := (s.setF CRN_STATUS_EXPORTING 0).raiseCRN CRN_INT_STATUS_EXPORT_DONE

/-- CAIRN_EXPORT_STOP (R439, R516): no burst is split, so the export ends here. (DEDUCED, assumption log 61) -/
def State.doCairnExportStop (s : State) : State :=
  (if s.flag CRN_STATUS_EXPORTING then s.exportEnds else s)

/-- CAIRN_EXPORT_STOP (R439, R516). -/
def execCairnExportStop (s : State) : Host.Outcome State Fault Refusal := .next (s.doCairnExportStop)

/-- CAIRN_EXPORT_DONE (R516): the slots left up to the write index at GO are copied, and EXPORT_DONE is raised. -/
def execCairnExportDone (s : State) : Host.Outcome State Fault Refusal :=
  .next (if s.flag CRN_STATUS_EXPORTING && s.flag (HDM_DMA_CTL_EN 14) then (State.exportSlots (s.crn.exportEnd - s.crn.exportNext) s).exportEnds else s)

/-- CAIRN_KEY_BURN (R517): in Test only; a later burn is ignored and recorded. -/
def State.doCairnKeyBurn (s : State) : State :=
  (if s.modeCode ≠ mTest then s
    else match s.otp.cairnKey with
      | some _ => s.cairn 0x46 4 ([0, 0] ++ leBytes 2 (s.getF IMG_RUN_EPOCH))
      | none =>
        let k := (List.range 8).flatMap (fun n => leBytes 4 (s.getF (CRN_OTP_KEY_KEY n)))
        ({ s with otp := { s.otp with cairnKey := some k } }).setF CRN_STATUS_KEY_SET 1)

/-- CAIRN_KEY_BURN (R517). -/
def execCairnKeyBurn (s : State) : Host.Outcome State Fault Refusal := .next (s.doCairnKeyBurn)

/-- CAIRN_CLEAR_DONE (R519): every slot is zero, the full flag clears but not CRN_LOST, and slot 0 gets the Cleared cairn. -/
def execCairnClearDone (s : State) : Host.Outcome State Fault Refusal :=
  .next (if s.flag CRN_STATUS_CLEARING then
    let c : Cairn := { kind := 0x4B, flags := 0, key := 0, firstSec := s.opSec, pcycle := s.getF AON_PCYCLE_COUNT, lastSec := s.opSec,
                       rep := 1, payload := leBytes 4 65536 ++ leBytes 4 (s.getF CRN_LOST_COUNT) }
    let t := { s with crn := { s.crn with mram := [], nearFullDone := false } }
    let t := ((t.setF CRN_STATUS_FULL 0).setF CRN_STATUS_CLEARING 0).putSlot 0 c true
    (t.setF CRN_STATUS_USED 1).raiseCRN CRN_INT_STATUS_CLEARED
    else s)

/-- CAIRN_WINDOW_READ (R515): the word at a window offset; a read of the lower half of an 8-byte word latches its upper half; an
invalid slot reads as zero and is counted at its first word; with AUTO_ADV a read at FFCh moves the cursor on by 64. -/
def State.doCairnWindowRead (s : State) (off : Nat) : State :=
  (
    let o := off % 4096 / 4 * 4
    let base := s.getF CRN_CURSOR_INDEX / 64 * 64
    let r := s.presentSlot (base + o / 64)
    let w := fun k => leNat ((r.1.drop (o % 64 / 8 * 8 + k)).take 4)
    let hi := 0xC01000 + o
    let v := if o % 8 = 4 then ((s.latch.lookup hi).map (·.toNat)).getD (w 4) else w 0
    let t := { s with readData := v, latch := if o % 8 = 0 then sput s.latch (hi + 4) (BitVec.ofNat 32 (w 4)) else s.latch }
    let t := if r.2 && o % 64 == 0 then t.count CRN_SKIPPED_COUNT 1 else t
    if o = 0xFFC ∧ s.flag CRN_CTL_AUTO_ADV = true then t.setF CRN_CURSOR_INDEX (min 65472 (base + 64)) else t)

/-- CAIRN_WINDOW_READ (R515). -/
def execCairnWindowRead (off : Nat) (s : State) : Host.Outcome State Fault Refusal := .next (s.doCairnWindowRead off)

end Sys2Proof.Machine
end

