-- ==== Sys2Proof/Machine/Events.lean ====
section
/-!
DEFINITION. Machine/Events.lean: the programmable event tallies and their sample points (R147, R527, R528), the values that
RWG registers have in a generation (R189, R193), and the drain counts (R195).
-/

namespace Sys2Proof.Machine

/-- Events that take the PORT filter, and events that take the POS filter (R527). -/
def evtPort (code : Nat) : Bool := code == 1 || code == 0x0E || code == 0x0F
def evtPos (code : Nat) : Bool := code == 2 || code == 3 || code == 4 || code == 7 || code == 0x11

/-- Whether tally `n` of quadrant `q` counts an event. -/
def State.evtOn (s : State) (q n code port pos : Nat) : Bool :=
  s.flag (TLY_Q_EVT_CFG_EN q n) && s.getF (TLY_Q_EVT_CFG_EVENT q n) == code &&
  (!evtPort code || s.getF (TLY_Q_EVT_CFG_PORT q n) == 0x7F || s.getF (TLY_Q_EVT_CFG_PORT q n) == port) &&
  (!evtPos code || s.getF (TLY_Q_EVT_CFG_POS q n) == 0xF || s.getF (TLY_Q_EVT_CFG_POS q n) == pos)

/-- Count `k` events in every tally of a list that is set to them. -/
def State.evtAdd (s : State) (q code port pos k : Nat) : List Nat → State
  | [] => s
  | n :: t =>
    (if s.evtOn q n code port pos then s.addTally (rTLY_Q_EVT_LO q n) k else s).evtAdd q code port pos k t

/-- An event of quadrant `q` that no microword causes. -/
def State.evt (s : State) (q code port pos : Nat) : State := s.evtAdd q code port pos 1 (List.range 32)

/-- A sample point of tally `n` on the word fetched at `addr` (R147, R528): lost while HSQ_SAMPLE holds or awaits a sample. -/
def State.samplePoint (s : State) (q n e sl addr : Nat) (ended : Bool) : State :=
  if s.flag (HSQ_SAMPLE_VALID e) || s.samples.any (fun x => x.eng == e) then s.count (HSQ_SAMPLE_LOST_COUNT e) 1
  else
    let t := s.setF (TLY_Q_SAMPLE_SRC_TALLY q) n
    let t := (t.setF (TLY_Q_SAMPLE_SRC_ENGINE q) e).setF (TLY_Q_SAMPLE_SRC_VALID q) 1
    let t := (t.count (TLY_Q_EVT_SAMPLES_COUNT q n) 1).raiseTLY TLY_INT_STATUS_SAMPLE
    { t with samples := t.samples ++ [{ eng := e, slot := sl, addr := addr, skid := 0, ended := ended, quad := q, tally := n }] }

/-- Count `k` events caused by a microword in every tally of a list, and take the sample point due (R528). -/
def State.evtMAdd (s : State) (q code k e sl addr : Nat) (ended : Bool) : List Nat → State
  | [] => s
  | n :: t =>
    (if s.evtOn q n code 0 0 then
      let u := s.addTally (rTLY_Q_EVT_LO q n) k
      let p := s.getF (TLY_Q_EVT_PERIOD_EVENTS q n)
      if p = 0 then u
      else
        let c := (s.evtCount.lookup (32 * q + n)).getD 0 + k
        if p ≤ c then
          let u := { u with evtCount := sput u.evtCount (32 * q + n) (c % p) }
          if s.flag (TLY_Q_EVT_CFG_SAMPLE_EN q n) then u.samplePoint q n e sl addr ended else u
        else { u with evtCount := sput u.evtCount (32 * q + n) c }
     else s).evtMAdd q code k e sl addr ended t

/-- `k` events that the word at `addr` of thread `sl` of engine `e` causes; engine 16 lies in no quadrant. -/
def State.evtM (s : State) (code k e sl addr : Nat) (ended : Bool := false) : State :=
  if e < 16 then s.evtMAdd (e / 4) code k e sl addr ended (List.range 32) else s

/-! ### Generations -/

/-- Frames whose ingress pass carries generation `g`, and copies whose egress pass carries it (R195): a copy until its rewrite has ended,
since its thread's LKP looks up under the tag of the pass too. (DEDUCED, assumption log 35) -/
def State.drainCount (s : State) (g : Nat) : Nat :=
  (s.frames.filter (fun f => f.gen == g && (f.phase == .parsing || f.phase == .parsed || f.phase == .station))).length +
  (s.copies.filter (fun c => c.gen == g && (c.phase == .dequeued || c.phase == .station || c.phase == .resolved || c.phase == .rewriting))).length

end Sys2Proof.Machine
end

