-- ==== Sys2Proof/Machine/Flags.lean ====
section
/-!
DEFINITION. Machine/Flags.lean: the flags Z, N and C of a Hiostac thread (R132, R135).
-/

namespace Sys2Proof.Machine

/-- A thread with Z and N taken from a 16-bit result. -/
def Thread.zn (th : Thread) (r : Nat) : Thread := { th with z := r % 65536 == 0, n := r.testBit 15 }

/-- A thread with Z and N from a result and the given carry. -/
def Thread.znc (th : Thread) (r : Nat) (c : Bool) : Thread := { th.zn r with c := c }

/-- The condition codes of R136. -/
def Thread.cond (th : Thread) (c : Nat) : Bool :=
  match c with
  | 0 => true | 1 => th.z | 2 => !th.z | 3 => th.n | 4 => !th.n | 5 => th.c | 6 => th.eof | _ => th.tmo

/-- The sum of two 16-bit values and its carry out. -/
def add16 (a b : Nat) : Nat × Bool := ((a + b) % 65536, decide (65536 ≤ a + b))

/-- The difference of two 16-bit values. -/
def sub16 (a b : Nat) : Nat := (a + 65536 - b % 65536) % 65536

/-- SHF (R134, R135): shift amount in SUB[3:0], right where SUB[5] = 1; logical. -/
def shift16 (a sub : Nat) : Nat := if sub.testBit 5 then a / 2 ^ (sub % 16) else a * 2 ^ (sub % 16) % 65536

end Sys2Proof.Machine
end

