-- ==== Sys2Proof/Machine/ParseOps.lean ====
section
/-!
DEFINITION. Machine/ParseOps.lean: what the parse station does around its threads (R150–R166): layers, node dispatch, the
end of a parse, the checks of the length fields.
-/

namespace Sys2Proof.Machine

/-- The nodes of the PARSE section. -/
def State.nodes (s : State) : List Node := match s.img with | some i => i.parse.nodes | none => []

/-- The node with an index. -/
def State.node (s : State) (n : Nat) : Option Node := s.nodes[n]?

/-- A byte of a frame that has arrived. -/
def Frame.byte (f : Frame) (o : Nat) : Option Byte := f.bytes[o]?

/-- Whether the record of a layer would pass a limit: LAYERS, 16, or four VLAN tags or MPLS labels (R154, R157). -/
def State.layerLimit (s : State) (f : Frame) (kind : Nat) : Bool :=
  decide (s.layerMax ≤ f.layers.length) ||
  ((kind == 2 || kind == 3) && decide (4 ≤ (f.layers.filter (fun l => l.kind == kind)).length))

/-- One's-complement sum of a byte string taken as 16-bit big-endian words. -/
def onesSum : List Byte → Nat → Nat
  | a :: b :: t, acc => let v := acc + a.toNat * 256 + b.toNat; onesSum t (v % 65536 + v / 65536)
  | [a], acc => let v := acc + a.toNat * 256; v % 65536 + v / 65536
  | [], acc => acc

/-- An IPv4 header within the reach that fails its header checksum (R158, flag 45). -/
def badIpSum (reach : Nat) (b : List Byte) (l : Layer) : Bool :=
  l.kind == 4 &&
  (let n := (b.getD l.off 0).toNat % 16 * 4
   decide (20 ≤ n ∧ l.off + n ≤ reach ∧ l.off + n ≤ b.length) && onesSum ((b.drop l.off).take n) 0 != 65535)

/-- The flags that the station sets itself: 3–6 and 45–47 (R158). -/
def State.stationFlags (s : State) (f : Frame) : Nat :=
  let da := f.bytes.take 6
  let bc := decide (da.length = 6) && da.all (· == 0xFF)
  let mc := !bc && (da.getD 0 0).toNat.testBit 0
  b2n f.macsec * 8 + b2n f.preempt * 16 + b2n bc * 32 + b2n mc * 64 +
  b2n (f.layers.any (badIpSum s.reach f.bytes)) * 2 ^ 45 + b2n f.inject * 2 ^ 46 + b2n f.recirc * 2 ^ 47

/-- Replace byte `i` of a list. -/
def setByte (l : List Byte) (i v : Nat) : List Byte := l.set i (BitVec.ofNat 8 v)

/-- Overwrite bytes of a list from position `i`. -/
def setBytes (l : List Byte) (i : Nat) (v : List Byte) : List Byte := l.take i ++ v ++ l.drop (i + v.length)

/-- The offset after the last recorded layer's fixed bytes, limited to 255; an open value where the spec gives no size (R159). -/
def State.endOffset (s : State) (f : Frame) : Nat × State :=
  match f.layers.getLast? with
  | none => ((s.free).1 % 256, (s.free).2)
  | some l =>
    match fixedBytes l.kind l.off f.bytes with
    | some n => (min 255 (l.off + n), s)
    | none => ((s.free).1 % 256, (s.free).2)

/-- Key bytes 0–15 as the station writes them at the end of a parse (R159). -/
def keyHead (f : Frame) (endOff : Nat) : List Byte :=
  let l4 := (f.layers.reverse.find? (fun l => l.kind == 7 || l.kind == 8)).map (·.off)
  [BitVec.ofNat 8 f.port, BitVec.ofNat 8 (f.gen % 8 + 8 * f.layers.length)] ++ leBytes 8 f.flags ++
  [BitVec.ofNat 8 (l4.getD 0), BitVec.ofNat 8 endOff, 0, 0, 0, 0]

/-- A parse ends with a key set (R155, R157, R159, R161): the station withdraws a last layer that is not recognised, sets its
own flags and key bytes 0–15, and the thread ends. -/
def State.endParse (s : State) (f : Frame) : State :=
  let f := s.withdrawn f
  let f := f.setFlags (s.stationFlags f)
  let v := if f.ended then s.judged f else (none, f, s)
  let f := v.2.1
  match v.1 with
  | some why => ((v.2.2.putFrame { f with why := some why, phase := .parsed }).dropFrame f.fid why)
  | none =>
    let r := v.2.2.endOffset f
    (r.2.putFrame { f with phase := .parsed, keys := keyHead f r.1 ++ f.keys.drop 16 }).endThreads (.frame f.fid)

/-- The parse ends at the reach: flag 0 is set; at the layer limit: flags 0 and 1 are set (R154). -/
def State.endAtReach (s : State) (f : Frame) : State := s.endParse (f.setFlags 1)
def State.endAtLimit (s : State) (f : Frame) : State := s.endParse (f.setFlags 3)

/-- SETL (R154): record a layer at HP. (PRESUMED, assumption log 49) -/
def State.recordAt (s : State) (th : Thread) (f : Frame) (kind : Nat) : State :=
  if s.reach ≤ th.hp then s.endAtReach f
  else if s.layerLimit f kind then s.endAtLimit f
  else s.putFrame { f with layers := f.layers ++ [{ kind := kind, off := th.hp }] }

/-- Replace a thread. -/
def State.putThread (s : State) (th : Thread) : State :=
  { s with threads := updFirst (fun x => x.eng == th.eng && x.slot == th.slot) (fun _ => th) s.threads }

/-- The thread in a slot of an engine. -/
def State.thread (s : State) (e sl : Nat) : Option Thread := s.threads.find? (fun x => x.eng == e && x.slot == sl)

/-- Node dispatch (R153, R154). -/
def State.dispatch (s : State) (th : Thread) (f : Frame) : State :=
  let g3 := th.g.getD 3 0
  match s.node th.node with
  | none => s.endParse f
  | some nd =>
    match nd.edges.find? (fun e => g3 &&& e.mask == e.value) with
    | none => s.endParse f
    | some e =>
      let hp := th.hp + e.adv
      if s.reach ≤ hp ∨ 255 < hp then s.endAtReach f
      else
        match s.node e.next with
        | none => s.endParse f
        | some nx =>
          let th' := { th with hp := hp, node := e.next, pc := nx.entry }
          if nx.record then
            if s.layerLimit f nx.kind then s.endAtLimit f
            else (s.putFrame { f with layers := f.layers ++ [{ kind := nx.kind, off := hp }] }).putThread th'
          else s.putThread th'

/-- The station a quadrant's frames enter first, and its parse engines (R127). -/
def parseEngines (q : Nat) : List Nat := [4 * q, 4 * q + 1]

/-- The free slots of an engine (R128). -/
def State.freeSlots (s : State) (e : Nat) : List Nat :=
  (List.range 64).filter (fun k => !s.threads.any (fun th => th.eng == e && th.slot == k))

/-- An engine that may take a thread: powered and not isolated (R24, R462). -/
def State.engineOk (s : State) (e : Nat) : Bool := s.engPowered e && !s.isIso (.engine e)

/-- The engine of a pair that takes the next thread: the one with more free slots, the lower index at a tie (R129). (DEDUCED, assumption log 22) -/
def State.pickEngine (s : State) (a b : Nat) : Option Nat :=
  let fa := if s.engineOk a then (s.freeSlots a).length else 0
  let fb := if s.engineOk b then (s.freeSlots b).length else 0
  if fa = 0 ∧ fb = 0 then none else if fb ≤ fa then some a else some b

/-- The context of a thread at its start (R132). -/
def newThread (e sl : Nat) (t : Target) (entry now : Nat) (patched : Bool) : Thread :=
  { eng := e, slot := sl, target := t, g := List.replicate 16 0, z := false, n := false, c := false, eof := false, rx := false,
    tmo := false, hp := 0, kc := 0, stack := [], results := List.replicate 4 .empty, pc := entry, wait := none, node := 0,
    looked := false, patched := patched, startAt := now, redir := none,
    stallAt := none }

/-- Start a thread in a slot: PEAK keeps the highest number of busy slots (R148). -/
def State.startThread (s : State) (e sl : Nat) (t : Target) (entry : Nat) : State :=
  let u := { s with threads := s.threads ++ [newThread e sl t entry s.now s.isSealed] }
  u.maxF (HSQ_ENG_STATUS_PEAK e) (u.threads.filter (fun th => th.eng == e)).length

end Sys2Proof.Machine
end

