-- ==== Sys2Proof/Machine/Macsec.lean ====
section
/-!
DEFINITION. Machine/Macsec.lean: the SecY of a port (R116–R121): its secure associations, the SecTAG, protection of what is sent,
decryption and validation of what is received, and the FCS.  The layout of a SecTAG, the nonces and the recovery of an XPN packet number
are IEEE 802.1AE's (PRESUMED, assumption log 91), the FCS is IEEE 802.3's CRC-32 (PRESUMED, assumption log 92).
-/

namespace Sys2Proof.Machine

/-! ### Associations -/

/-- A secure association as it stands; one that host software has not written holds zero (R117). -/
def State.sa (s : State) (p sc an : Nat) : SaSt :=
  (s.sas.find? (fun x => x.port == p && x.sc == sc && x.an == an)).getD
    { port := p, sc := sc, an := an, key := List.replicate 8 0, salt := List.replicate 3 0, ssci := 0, pn := 0 }
def State.putSa (s : State) (x : SaSt) : State :=
  { s with sas := s.sas.filter (fun y => !(y.port == x.port && y.sc == x.sc && y.an == x.an)) ++ [x] }

/-- A secure channel as it stands: replay protection is on at reset, with a window of 0. -/
def State.sc (s : State) (p k : Nat) : ScSt :=
  (s.scs.find? (fun x => x.port == p && x.sc == k)).getD { port := p, sc := k, sci := 0, replay := 0x80000000 }
def State.putSc (s : State) (x : ScSt) : State :=
  { s with scs := s.scs.filter (fun y => !(y.port == x.port && y.sc == x.sc)) ++ [x] }

/-- A port has a SecY (R116). -/
def State.hasSecY (s : State) (p : Nat) : Bool := ((s.port p).map (·.macsec)).getD false

/-- The EtherTypes of a SecTAG and of key agreement. -/
abbrev etSec : Nat := 0x88E5
abbrev etMka : Nat := 0x888E

/-- CONF_OFFSET in bytes (R126). -/
def State.confOffset (s : State) (p : Nat) : Nat :=
  match s.getF (MAC_SEC_CTL_CONF_OFFSET p) with | 1 => 30 | 2 => 50 | _ => 0

/-- The nonce of a packet number: SCI and PN, or under XPN SSCI and PN against the salt. (PRESUMED, assumption log 91) -/
def nonceOf (xpn : Bool) (sci : Nat) (x : SaSt) (pn : Nat) : Nat :=
  if xpn then (x.ssci * 2 ^ 64 + pn) ^^^ (x.salt.getD 0 0 + 2 ^ 32 * x.salt.getD 1 0 + 2 ^ 64 * x.salt.getD 2 0)
  else sci * 2 ^ 32 + pn

/-- Encrypt or decrypt bytes: the key stream is added. -/
def gcmXor (key : List Nat) (nonce : Nat) : Nat → List Byte → List Byte
  | _, [] => []
  | i, b :: t => (b ^^^ Config.gcmByte key nonce i) :: gcmXor key nonce (i + 1) t

/-- The 16 bytes of an ICV. -/
def icvOf (key : List Nat) (nonce : Nat) (aad text : List Byte) : List Byte :=
  (List.range 16).map (Config.gcmTag key nonce aad text)

/-- A frame's data after its addresses, with the bytes before the confidentiality offset and those after it. -/
def icvParts (enc : Bool) (conf : Nat) (d : List Byte) : List Byte × List Byte :=
  if enc then (d.take conf, d.drop conf) else (d, [])

/-! ### Transmit -/

/-- What the SecY does to a copy whose transmission begins (R116, R118): none where the frame is dropped for want of an SA; else what
protects it, if anything does, and the SA moved on. -/
def State.secStart (s : State) (p etype : Nat) : Option (Option SecTx × State) :=
  if !s.hasSecY p || !s.flag (MAC_SEC_CTL_PROTECT p) || etype == etMka then some (none, s)
  else
    let an := s.getF (MAC_SEC_CTL_TX_AN p)
    let xpn := s.flag (MAC_SEC_CTL_XPN p)
    let top := if xpn then 2 ^ 64 else 2 ^ 32
    let x := s.sa p 0 an
    if !((s.getF (MAC_SEC_TX_EN_EN p)).testBit an) || (s.getF (MAC_SEC_TX_EN_EXHAUSTED p)).testBit an then none
    else
      let sci := (s.sc p 0).sci
      let w : SecTx := { an := an, pn := x.pn, sci := if s.flag (MAC_SEC_CTL_INCLUDE_SCI p) then some sci else none,
                         enc := s.flag (MAC_SEC_CTL_ENCRYPT p), conf := s.confOffset p, key := x.key, nonce := nonceOf xpn sci x x.pn }
      let n := x.pn + 1
      let t := s.putSa { x with pn := n }
      let t := if top / 4 * 3 ≤ n then t.orF (MAC_SEC_TX_EN_PN_NEAR p) (2 ^ an) else t
      some (some w, if top ≤ n then t.orF (MAC_SEC_TX_EN_EXHAUSTED p) (2 ^ an) else t)

/-- The SecTAG of a frame with `n` bytes of data (R120). (PRESUMED, assumption log 91) -/
def SecTx.tag (x : SecTx) (n : Nat) : List Byte :=
  beBytes 2 etSec ++ [BitVec.ofNat 8 (x.an % 4 + 12 * b2n x.enc + 32 * b2n x.sci.isSome), BitVec.ofNat 8 (if n < 48 then n else 0)] ++
  beBytes 4 (x.pn % 2 ^ 32) ++ (match x.sci with | some k => beBytes 8 k | none => [])

/-- The bytes of a frame on the wire, before its FCS (R120, R121): with its SecTAG, its data encrypted from the confidentiality offset on, and
its ICV over the rewritten plaintext. -/
def secure (x : SecTx) (b : List Byte) : List Byte :=
  let d := b.drop 12
  let h := b.take 12 ++ x.tag d.length
  let p := icvParts x.enc x.conf d
  let c := gcmXor x.key x.nonce 0 p.2
  h ++ p.1 ++ c ++ icvOf x.key x.nonce (h ++ p.1) c

/-- The bytes of a copy on the wire, before its FCS. -/
def Copy.onWire (c : Copy) (b : List Byte) : List Byte := match c.sec with | some x => secure x b | none => b

/-- What MACsec adds to a frame of a port (R120): nothing to the frames that R116 exempts. -/
def State.secGrowth (s : State) (p etype : Nat) : Nat :=
  if s.hasSecY p && s.flag (MAC_SEC_CTL_PROTECT p) && etype != etMka then (if s.flag (MAC_SEC_CTL_INCLUDE_SCI p) then 32 else 24) else 0

/-! ### Receive -/

/-- The receive SC of a frame: the one with its SCI, or without an SCI in its tag the first with an SA enabled; 0 for none. (PRESUMED, assumption log 91) -/
def State.rxSc (s : State) (p : Nat) (sci : Option Nat) : Nat :=
  ((List.range 8).find? (fun k =>
    match sci with
    | some v => (s.sc p (k + 1)).sci == v
    | none => (List.range 4).any (fun a => (s.getF (MAC_SEC_RX_EN_EN p)).testBit (4 * k + a)))).map (· + 1) |>.getD 0

/-- The packet number of a frame (R119): under XPN its high half is recovered from the lowest acceptable one. (PRESUMED, assumption log 91) -/
def recoverPn (xpn : Bool) (low pn : Nat) : Nat :=
  if xpn then (low / 2 ^ 32 + b2n (low.testBit 31 && !pn.testBit 31)) * 2 ^ 32 + pn else pn

/-- The SecTAG of a frame being received, once it has come whole. -/
def State.secTagOf (s : State) (p : Nat) (raw : List Byte) : Option SecRx :=
  let tci := (raw.getD 14 0).toNat
  let n := if tci.testBit 5 then 16 else 8
  if !s.hasSecY p || s.getF (MAC_SEC_CTL_VALIDATE p) == 0 || decide (raw.length < 12 + n) || be16 raw 12 != etSec then none
  else
    let sci := if n = 16 then some (beNat ((raw.drop 20).take 8)) else none
    let sc := s.rxSc p sci
    let x := s.sa p sc (tci % 4)
    let xpn := s.flag (MAC_SEC_CTL_XPN p)
    let pn := recoverPn xpn x.pn (beNat ((raw.drop 16).take 4))
    some { sc := sc, an := tci % 4, pn := pn, tagLen := n, enc := tci.testBit 3, conf := s.confOffset p, key := x.key,
           nonce := nonceOf xpn (sci.getD (s.sc p sc).sci) x pn }

/-- The data of a frame under a SecTAG as far as it has come, its last 16 bytes held back as its ICV. -/
def SecRx.data (x : SecRx) (raw : List Byte) : List Byte := let d := raw.drop (12 + x.tagLen); d.take (d.length - 16)

/-- The plaintext of a frame as the parser sees it (R120, R163). -/
def SecRx.plain (x : SecRx) (raw : List Byte) : List Byte :=
  let p := icvParts x.enc x.conf (x.data raw)
  raw.take 12 ++ p.1 ++ gcmXor x.key x.nonce 0 p.2

/-- Bytes of a frame arrive (R104, R120): reception stops at MAX_FRAME; a port with a SecY hands on what its SecTAG allows. -/
def State.addBytes (s : State) (f : Frame) (data : List Byte) (maxFrame : Nat) : Frame :=
  if f.port ≥ 64 ∧ f.port ≠ 65 then { f with bytes := f.bytes ++ data }
  else
    let raw := (f.raw ++ data).take maxFrame
    let sec := match f.sec with | some x => some x | none => s.secTagOf f.port raw
    let bytes := match sec with
      | some x => x.plain raw
      | none =>
        if s.hasSecY f.port && s.getF (MAC_SEC_CTL_VALIDATE f.port) != 0 && (decide (raw.length < 14) || be16 raw 12 == etSec)
        then raw.take 12 else raw
    { f with raw := raw, sec := sec, bytes := bytes, macsec := sec.isSome }

/-- MACsec validation of a frame at its end (R116, R119): the reason of a failure, and the receive SA moved on where it passes.  VALIDATE = 11b,
which is reserved, validates as 01b does (DESIGN CHOICE, assumption log 93). -/
def State.macsecVerdict (s : State) (f : Frame) : Option Nat × State :=
  let p := f.port
  let et := be16 f.raw 12
  if !s.hasSecY p || s.getF (MAC_SEC_CTL_VALIDATE p) == 0 || et == etMka then (none, s)
  else
    match f.sec with
    | none =>
      if et = etSec then (some tMACSEC_NO_SA, s)
      else if s.getF (MAC_SEC_CTL_VALIDATE p) = 2 ∧
        !(List.range 4).any (fun n => s.flag (MAC_SEC_EXEMPT_EN p n) && s.getF (MAC_SEC_EXEMPT_ETYPE p n) == et)
      then (some tNONE, s) else (none, s)
    | some y =>
      let x := s.sa p y.sc y.an
      if !((s.getF (MAC_SEC_RX_EN_EN p)).testBit (4 * (y.sc - 1) + y.an)) || y.sc == 0 then (some tMACSEC_NO_SA, s)
      else
        let rp := (s.sc p y.sc).replay
        let q := icvParts y.enc y.conf (y.data f.raw)
        if rp.testBit 31 && decide (y.pn < x.pn) then (some tMACSEC_REPLAY, s)
        else if icvOf y.key y.nonce (f.raw.take (12 + y.tagLen) ++ q.1) q.2 != f.raw.drop (f.raw.length - 16) then (some tMACSEC_ICV_FAIL, s)
        else (none, s.putSa { x with pn := max x.pn (y.pn + 1 - rp % 2 ^ 30) })

/-! ### The FCS -/

/-- One bit, and one byte, of the CRC-32 of IEEE 802.3. (PRESUMED, assumption log 92) -/
def fcsBit (c : Nat) : Nat := if c % 2 = 1 then (c / 2) ^^^ 0xEDB88320 else c / 2
def fcsByte (c : Nat) (b : Byte) : Nat :=
  fcsBit (fcsBit (fcsBit (fcsBit (fcsBit (fcsBit (fcsBit (fcsBit (c ^^^ b.toNat))))))))

/-- The FCS that ends a frame on the wire (R121), inverted where the frame is tail-marked (R19). -/
def fcsOf (bad : Bool) (l : List Byte) : List Byte :=
  let c := (l.foldl fcsByte 0xFFFFFFFF) ^^^ 0xFFFFFFFF
  leBytes 4 (if bad then 0xFFFFFFFF - c else c)

end Sys2Proof.Machine
end

