-- ==== Sys2Proof/Machine/RewriteOps.lean ====
section
/-!
DEFINITION. Machine/RewriteOps.lean: the operations of a rewrite profile on the edit window (R336–R350).
-/

namespace Sys2Proof.Machine

/-- Bits of W0 (R337). -/
abbrev wDECAP : Nat := 0
abbrev wVLAN_POP : Nat := 1
abbrev wVLAN_REPL : Nat := 2
abbrev wVLAN_PUSH : Nat := 3
abbrev wRTAG_DEL : Nat := 4
abbrev wRTAG_INS : Nat := 5
abbrev wDA_SET : Nat := 6
abbrev wSA_SET : Nat := 7
abbrev wTTL_DEC : Nat := 8
abbrev wPCP_REMAP : Nat := 9
abbrev wDSCP_REMAP : Nat := 10
abbrev wDEI_YELLOW : Nat := 11
abbrev wENCAP : Nat := 12

/-- Word `k` of a copy's profile in its egress generation; profile 0 leaves the copy unedited (R336). -/
def State.profW (s : State) (c : Copy) (k : Nat) : Nat :=
  if c.profile = 0 then 0 else (s.rwg c.gen (0x800000 + 0x10 * c.profile + 4 * k)).toNat

/-- An edit window on its way through the orders of R338: bytes, layers, operations skipped, expired TTL. -/
structure EditWin where
  bytes : List Byte
  layers : List Layer
  skips : Nat
  expired : Bool

/-- Remove `n` bytes at offset `o`; layers inside the removed bytes go with them. -/
def EditWin.cut (w : EditWin) (o n : Nat) : EditWin :=
  { w with bytes := w.bytes.take o ++ w.bytes.drop (o + n),
           layers := (w.layers.filter (fun l => !(o ≤ l.off && l.off < o + n))).map
             (fun l => if o + n ≤ l.off then { l with off := l.off - n } else l) }

/-- Insert bytes at offset `o`. -/
def EditWin.ins (w : EditWin) (o : Nat) (b : List Byte) : EditWin :=
  { w with bytes := w.bytes.take o ++ b ++ w.bytes.drop o,
           layers := w.layers.map (fun l => if o ≤ l.off && l.off != 0 then { l with off := l.off + b.length } else l) }

/-- Overwrite bytes at offset `o`. -/
def EditWin.put (w : EditWin) (o : Nat) (b : List Byte) : EditWin := { w with bytes := setBytes w.bytes o b }

/-- An operation whose header is absent (R339). -/
def EditWin.skip (w : EditWin) : EditWin := { w with skips := w.skips + 1 }

/-- The outer Ethernet, VLAN and R-TAG layers: those before the first layer of another kind. -/
def EditWin.outer (w : EditWin) : List Layer := w.layers.takeWhile (fun l => l.kind == 1 || l.kind == 2 || l.kind == 18)

/-- The outermost VLAN tag, the outer R-TAG, the outermost IP layer. -/
def EditWin.vlan (w : EditWin) : Option Layer := w.outer.find? (fun l => l.kind == 2)
def EditWin.rtag (w : EditWin) : Option Layer := w.outer.find? (fun l => l.kind == 18)
def EditWin.ip (w : EditWin) : Option Layer := w.layers.find? (fun l => l.kind == 4 || l.kind == 5)

/-- The tunnel that DECAP removes (R338): the offset of the first inner Ethernet layer, or the outer and the inner IP layer. -/
def decapOf : List Layer → Option (Nat ⊕ (Layer × Layer))
  | a :: b :: t =>
    if (a.kind == 10 || a.kind == 11 || a.kind == 12) && b.kind == 1 then some (.inl b.off)
    else if (a.kind == 4 || a.kind == 5) && (b.kind == 4 || b.kind == 5) then some (.inr (a, b))
    else if (a.kind == 4 || a.kind == 5) && b.kind == 6 then
      match decapOf (b :: t) with
      | some (.inr (_, i)) => some (.inr (a, i))
      | r => r
    else if a.kind == 6 && (b.kind == 4 || b.kind == 5) then some (.inr (a, b))
    else decapOf (b :: t)
  | _ => none

/-- Order 1: DECAP. -/
def EditWin.decap (w : EditWin) : EditWin :=
  match decapOf w.layers with
  | none => w.skip
  | some (.inl o) => { w.cut 0 o with layers := (w.layers.filter (fun l => o ≤ l.off)).map (fun l => { l with off := l.off - o }) }
  | some (.inr (a, b)) => (w.cut a.off (b.off - a.off)).put (a.off - 2) (if b.kind = 4 then [0x08, 0x00] else [0x86, 0xDD])

/-- Order 2: VLAN_POP, VLAN_REPL, VLAN_PUSH. -/
def EditWin.vlanPop (w : EditWin) : EditWin := match w.vlan with | none => w.skip | some l => w.cut l.off 4
def EditWin.vlanRepl (w : EditWin) (tci : Nat) : EditWin :=
  match w.vlan with | none => w.skip | some l => w.put (l.off + 2) (beBytes 2 tci)
def EditWin.vlanPush (w : EditWin) (tpid tci : Nat) : EditWin :=
  let u := w.ins 12 (beBytes 2 tpid ++ beBytes 2 tci)
  { u with layers := u.layers.takeWhile (fun l => l.off < 12) ++ [{ kind := 2, off := 12 }] ++ u.layers.dropWhile (fun l => l.off < 12) }

/-- Order 3: RTAG_DEL, RTAG_INS (R346). -/
def EditWin.rtagDel (w : EditWin) : EditWin := match w.rtag with | none => w.skip | some l => w.cut l.off 6
def EditWin.rtagIns (w : EditWin) (seq : Option Nat) : EditWin :=
  match seq with
  | none => w.skip
  | some q =>
    match w.rtag with
    | some l => w.put (l.off + 4) (beBytes 2 q)
    | none =>
      let o := match (w.outer.filter (fun l => l.kind == 2)).getLast? with | some l => l.off + 4 | none => 12
      let u := w.ins o ([0xF1, 0xC1, 0, 0] ++ beBytes 2 q)
      { u with layers := u.layers.takeWhile (fun l => l.off < o) ++ [{ kind := 18, off := o }] ++ u.layers.dropWhile (fun l => l.off < o) }

/-- Order 5: TTL_DEC (R340). -/
def EditWin.ttlDec (w : EditWin) : EditWin :=
  match w.ip with
  | none => w.skip
  | some l =>
    let o := if l.kind = 4 then l.off + 8 else l.off + 7
    let v := (w.bytes.getD o 0).toNat
    if v ≤ 1 then { w with expired := true } else w.put o [BitVec.ofNat 8 (v - 1)]

/-- Order 6: PCP_REMAP, DSCP_REMAP, DEI_YELLOW. -/
def EditWin.pcpRemap (w : EditWin) (pcp : Nat) : EditWin :=
  match w.vlan with
  | none => w.skip
  | some l => w.put (l.off + 2) [BitVec.ofNat 8 ((w.bytes.getD (l.off + 2) 0).toNat % 32 + 32 * pcp)]
def EditWin.dscpRemap (w : EditWin) (dscp : Nat) : EditWin :=
  match w.ip with
  | none => w.skip
  | some l =>
    let b0 := (w.bytes.getD l.off 0).toNat
    let b1 := (w.bytes.getD (l.off + 1) 0).toNat
    if l.kind = 4 then w.put (l.off + 1) [BitVec.ofNat 8 (dscp * 4 + b1 % 4)]
    else w.put l.off [BitVec.ofNat 8 (b0 / 16 * 16 + dscp / 4), BitVec.ofNat 8 (dscp % 4 * 64 + b1 % 64)]
def EditWin.deiYellow (w : EditWin) (dp : Nat) : EditWin :=
  if dp ≠ 1 then w
  else
    match w.vlan with
    | none => w.skip
    | some l => w.put (l.off + 2) [w.bytes.getD (l.off + 2) 0 ||| 0x10]

/-- Apply an operation when its bit of W0 is set. -/
def EditWin.when (w : EditWin) (b : Bool) (f : EditWin → EditWin) : EditWin := if b then f w else w

/-- Orders 1 to 6 of R338. -/
def State.standardEdits (s : State) (c : Copy) (seq : Option Nat) (w : EditWin) : EditWin :=
  let w0 := s.profW c 0
  let w1 := s.profW c 1
  let da := 0x0F610000 + 8 * (s.profW c 2 % 4096)
  let pcp := s.rwgF c.gen (EGR_PORT_PCP_MAP c.port) / 2 ^ (3 * c.tc) % 8
  let dscp := if c.tc < 5 then s.rwgF c.gen (EGR_PORT_DSCP_LO_MAP c.port) / 2 ^ (6 * c.tc) % 64
    else s.rwgF c.gen (EGR_PORT_DSCP_HI_MAP c.port) / 2 ^ (6 * (c.tc - 5)) % 64
  let sa := leBytes 4 (s.rwgF c.gen (EGR_PORT_SA_LO_MAC c.port)) ++ leBytes 2 (s.rwgF c.gen (EGR_PORT_SA_HI_MAC c.port))
  let on := fun i => w0.testBit i
  let w := w.when (on wDECAP) EditWin.decap
  let w := w.when (on wVLAN_POP) EditWin.vlanPop
  let w := w.when (on wVLAN_REPL) (·.vlanRepl (w1 % 65536))
  let w := w.when (on wVLAN_PUSH) (·.vlanPush (w1 / 65536) (w1 % 65536))
  let w := w.when (on wRTAG_DEL) EditWin.rtagDel
  let w := w.when (on wRTAG_INS) (·.rtagIns seq)
  let w := w.when (on wDA_SET) (·.put 0 (s.rdMem da 6))
  let w := w.when (on wSA_SET) (·.put 6 sa)
  let w := w.when (on wTTL_DEC) EditWin.ttlDec
  let w := w.when (on wPCP_REMAP) (·.pcpRemap pcp)
  let w := w.when (on wDSCP_REMAP) (·.dscpRemap dscp)
  w.when (on wDEI_YELLOW) (·.deiYellow c.res.dp)

/-- The bytes of the IPv4 headers of a window, in layer order. -/
def ipHeaders (b : List Byte) (ls : List Layer) : List (List Byte) :=
  (ls.filter (fun l => l.kind == 4)).map (fun l => (b.drop l.off).take ((b.getD l.off 0).toNat % 16 * 4))

/-- The one's-complement sum of a header with its checksum field left out. -/
def sumNoCsum (h : List Byte) : Nat := onesSum (setBytes h 10 [0, 0]) 0

/-- The 16-bit one's complement. -/
def inv16 (n : Nat) : Nat := 65535 - n % 65536

/-- Add in one's complement. -/
def ones16 (a b : Nat) : Nat := let v := a + b; v % 65536 + v / 65536

/-- The checksum field of an edited IPv4 header (R341): regenerated, or updated by delta where the header arrived bad. -/
def ipCsum (orig h : List Byte) : Nat :=
  if onesSum orig 0 = 65535 then inv16 (sumNoCsum h)
  else inv16 (ones16 (ones16 (inv16 (be16 h 10)) (inv16 (sumNoCsum orig))) (sumNoCsum h))

/-- Whether two headers differ outside their checksum field. -/
def headerChanged (a b : List Byte) : Bool := setBytes a 10 [0, 0] != setBytes b 10 [0, 0]

/-- Order 9 for IPv4: every header that an operation changed gets its checksum (R341). -/
def fixIpSums : List Byte → List Layer → List (List Byte) → List Byte
  | b, [], _ => b
  | b, l :: t, os =>
    if l.kind = 4 then
      match os with
      | [] => b
      | o :: os' =>
        let h := (b.drop l.off).take ((b.getD l.off 0).toNat % 16 * 4)
        fixIpSums (if headerChanged o h then setBytes b (l.off + 10) (beBytes 2 (ipCsum o h)) else b) t os'
    else fixIpSums b t os

/-! ### L4 checksums of P64 (R122, R441, R443) -/

/-- The innermost TCP or UDP layer of a frame outside a fragment, with the IP layer that encloses it. -/
def Frame.l4 (f : Frame) : Option (Layer × Layer) :=
  if f.flags.testBit 19 then none
  else
    match f.layers.reverse.find? (fun l => l.kind == 7 || l.kind == 8) with
    | none => none
    | some l =>
      match (f.layers.filter (fun x => (x.kind == 4 || x.kind == 5) && decide (x.off < l.off))).getLast? with
      | some ip => some (ip, l)
      | none => none

/-- The one's-complement sum of an L4 segment with its pseudo-header. -/
def l4Sum (b : List Byte) (ip l : Layer) : Nat :=
  let seg := (b.take ((claimedEnd b ip).getD b.length)).drop l.off
  let addr := if ip.kind = 4 then (b.drop (ip.off + 12)).take 8 else (b.drop (ip.off + 8)).take 32
  onesSum (addr ++ beBytes 4 seg.length ++ [0, 0, 0, if l.kind = 7 then 17 else 6] ++ seg) 0

/-- Where a TCP or UDP layer holds its checksum. -/
def l4CsumAt (l : Layer) : Nat := l.off + (if l.kind = 7 then 6 else 16)

/-- The innermost L4 checksum is correct; 0000h of UDP under IPv4 is correct (R443). -/
def l4Ok (b : List Byte) (ip l : Layer) : Bool :=
  l4Sum b ip l == 65535 || (l.kind == 7 && ip.kind == 4 && be16 b (l4CsumAt l) == 0)

/-- The bytes of a frame as they are sent: with L4_FULL, its innermost L4 checksum is computed (R122). -/
def Frame.txBytes (f : Frame) : List Byte :=
  match (if f.l4full && f.ended then f.l4 else none) with
  | none => f.bytes
  | some (ip, l) =>
    let z := setBytes f.bytes (l4CsumAt l) [0, 0]
    let v := inv16 (l4Sum z ip l)
    setBytes z (l4CsumAt l) (beBytes 2 (if l.kind = 7 ∧ v = 0 then 65535 else v))

/-- The outermost recorded IP layer of a frame that survives DECAP where a profile has it (R344). -/
def survivingIp (f : Frame) (decap : Bool) : Option Layer :=
  let from_ := if decap then (match decapOf f.layers with | some (.inl o) => o | some (.inr (_, b)) => b.off | none => 0) else 0
  f.layers.find? (fun l => (l.kind == 4 || l.kind == 5) && from_ ≤ l.off)

/-- The length N of a copy without FCS before ENCAP (R344): exact once the frame has ended, else derived from its outermost
surviving IP layer, with what the operations before it have added and removed. -/
def copyLen (f : Frame) (c : Copy) (decap : Bool) : Nat :=
  let w := (c.keys.getD 11 0).toNat
  if f.ended then c.window.length + (f.bytes.length - w)
  else
    match survivingIp f decap with
    | some l => max ((claimedEnd f.bytes l).getD 0) 60 + c.window.length - w
    | none => c.window.length

/-- One's-complement checksum over an IPv6 UDP datagram: pseudo-header, header and payload (R343). (DEDUCED, assumption log 50) -/
def udp6Csum (src dst : List Byte) (udp : List Byte) : Nat :=
  let v := inv16 (onesSum (src ++ dst ++ beBytes 4 udp.length ++ [0, 0, 0, 17] ++ udp) 0)
  if v = 0 then 65535 else v

/-- Order 8: ENCAP (R343). -/
def State.encap (s : State) (f : Frame) (c : Copy) (i : Nat) : List Byte :=
  let a := 0x0F600000 + 0x80 * i
  let t := s.rdMem a 128
  let len := (t.getD 0 0).toNat
  let ipo := (t.getD 1 0).toNat
  let l4o := (t.getD 2 0).toNat
  let fl := (t.getD 3 0).toNat
  let n := copyLen f c ((s.profW c 0).testBit wDECAP)
  let h := (t.drop 4).take len
  let v6 := fl.testBit 0
  let h := if v6 then setBytes h (ipo + 4) (beBytes 2 (len - ipo + n - 40)) else setBytes h (ipo + 2) (beBytes 2 (len - ipo + n))
  let ihl := if v6 then 40 else (h.getD ipo 0).toNat % 16 * 4
  let h := if v6 then h else setBytes h (ipo + 10) (beBytes 2 (inv16 (sumNoCsum ((h.drop ipo).take ihl))))
  let h :=
    if l4o = 0 then h
    else
      let h := setBytes h (l4o + 4) (beBytes 2 (len - l4o + n))
      let h := if fl.testBit 1 then setBytes h l4o (beBytes 2 (49152 + crc32c ((c.keys.drop 16).take 32) % 16384)) else h
      let h := setBytes h (l4o + 6) [0, 0]
      if v6 && fl.testBit 2 then
        setBytes h (l4o + 6) (beBytes 2 (udp6Csum ((h.drop (ipo + 8)).take 16) ((h.drop (ipo + 24)).take 16)
          (h.drop l4o ++ c.window ++ f.txBytes.drop (c.keys.getD 11 0).toNat)))
      else h
  h ++ c.window

/-- The rewrite of a copy begins once the bytes of its edit window are present (R338 orders 1–6, R345): its skips are counted, a
TTL that expires drops it (R339, R340). -/
def State.rewriteGo (s : State) (f : Frame) (c : Copy) : State :=
  let w := (c.keys.getD 11 0).toNat
  let win := f.txBytes.take w
  let ls := f.layers.filter (fun l => l.off < w)
  let e := s.standardEdits c f.seq { bytes := win, layers := ls, skips := 0, expired := false }
  let orig := ipHeaders win ls
  let t := s.portTally c.port tTX_REWRITE_SKIP e.skips
  if e.expired then t.dropCopy c tTX_TTL_EXPIRED
  else t.putCopy { c with window := e.bytes, layers := e.layers, delta := 0, phase := .rewriting,
                          ipOrig := orig.drop (orig.length - (e.layers.filter (fun l => l.kind == 4)).length) }

/-- Orders 8 to 10 (R338, R341, R343, R350): the window is emitted and the copy can be sent.  At this frame boundary the SecY takes the SA of
TX_AN; without one the copy is dropped (R118). -/
def State.rewriteEnd (s : State) (f : Frame) (c : Copy) : State :=
  let c := { c with window := fixIpSums c.window c.layers c.ipOrig }
  let c := if (s.profW c 0).testBit wENCAP then { c with window := s.encap f c (s.profW c 0 / 65536 % 64) } else c
  let s := s.maxF (EGR_Q_PEAK_NS_NS (s.quadOf c.port)) ((s.now - c.dequeuedAt) / 27)
  match s.secStart c.port (be16 (c.window ++ f.bytes.drop (c.keys.getD 11 0).toNat) 12) with
  | none => s.dropCopy c tMACSEC_NO_SA
  | some (x, t) =>
    (t.putCopy { c with phase := .sending, started := true, sentAt := s.now, sec := x, fragBase := 0, fragAt := some s.now }).endThreads
      (.copy c.fid c.port)

/-- The standard operations of a copy's profile, and its end at once where the profile names no image routine (R337, R338). -/
def State.rewriteStep (s : State) (f : Frame) (c : Copy) : State :=
  let t := s.rewriteGo f c
  match t.copy c.fid c.port with
  | some d => if s.profW c 3 % 65536 = 0 then t.rewriteEnd f d else t
  | none => t

/-- The bytes of a copy as it leaves, without FCS, and whether it was cut to TRUNC (R345, R350). -/
def State.copyBytes (s : State) (f : Frame) (c : Copy) : List Byte × Bool :=
  let b := c.window ++ f.txBytes.drop (c.keys.getD 11 0).toNat
  let n := s.rwgF c.gen EGR_MIRROR_CFG_TRUNC
  if c.port = 67 ∧ n ≠ 0 ∧ n < b.length then (b.take n, true) else (b, false)

/-! ### Edit microwords (R347) -/

/-- A window offset is covered by a TCP or UDP checksum (R342): inside the layer, or an address of the IP header before it. -/
def l4Covered (ls : List Layer) (o : Nat) : Option Nat :=
  match ls.find? (fun l => (l.kind == 7 || l.kind == 8) && l.off ≤ o) with
  | some l => some l.off
  | none =>
    if ls.any (fun l => l.kind == 7 || l.kind == 8) then
      (ls.find? (fun l => (l.kind == 4 && l.off + 12 ≤ o && o < l.off + 20) || (l.kind == 5 && l.off + 8 ≤ o && o < l.off + 40))).map (·.off)
    else none

/-- The one's-complement delta of replacing bytes from offset `o` on. (DEDUCED, assumption log 50) -/
def replDelta (ls : List Layer) : Nat → List Byte → List Byte → Nat → Nat
  | o, a :: as, b :: bs, d =>
    match l4Covered ls o with
    | some base =>
      let k := if (o - base) % 2 = 0 then 256 else 1
      replDelta ls (o + 1) as bs (ones16 (ones16 d (inv16 (a.toNat * k))) (b.toNat * k))
    | none => replDelta ls (o + 1) as bs d
  | _, _, _, d => d

/-- CSUM with LEN − 1 = 0: the accumulator is applied to the field at `o`; a UDP checksum of 0000h is left unchanged (R342). (DEDUCED, assumption log 50) -/
def applyDelta (b : List Byte) (ls : List Layer) (o d : Nat) : List Byte :=
  let v := be16 b o
  if v = 0 ∧ ls.any (fun l => l.kind == 7 && l.off + 6 == o) = true then b
  else setBytes b o (beBytes 2 (inv16 (ones16 (inv16 v) d)))

end Sys2Proof.Machine
end

