-- ==== Sys2Proof/Machine/Gates.lean ====
section
/-!
DEFINITION. Machine/Gates.lean: time gates (R310–R316, R322), shaper credit (R309), the length and time a copy takes (R313,
R314), and which queues are eligible (R304–R306).
-/

namespace Sys2Proof.Machine

/-- The gate control block of a gate (R331). -/
def gateBlock : GateId → Nat
  | .port p => 0x700040 + 0x2000 * p
  | .stream g => 0x789000 + 0x40 * g

/-- The admin and the operational list of a gate in BAR2 (R333), and its longest list. -/
def adminList : GateId → Nat
  | .port p => 0x0F400000 + 0x4000 * p
  | .stream g => 0x0F200000 + 0x200 * g
def operList : GateId → Nat
  | .port p => 0x0F402000 + 0x4000 * p
  | .stream g => 0x0F200100 + 0x200 * g
def maxList : GateId → Nat
  | .port _ => 1024
  | .stream _ => 32

/-- What a gate list holds beyond its registers. -/
def State.gateSt (s : State) (g : GateId) : GateSt := (s.gates.find? (fun x => x.gate == g)).getD { gate := g, base := 0, switchAt := none }
def State.putGate (s : State) (x : GateSt) : State :=
  { s with gates := s.gates.filter (fun y => y.gate != x.gate) ++ [x] }

/-- Word 0 and the interval of entry `i` of a list at `a` (R310, R322). -/
def State.gateEntry (s : State) (a i : Nat) : Nat × Nat := (s.memLe (a + 8 * i) 4, s.memLe (a + 8 * i + 4) 4 % 2 ^ 30)

/-- The entries of a list. -/
def State.gateEntries (s : State) (a n : Nat) : List (Nat × Nat) := (List.range n).map (s.gateEntry a)

/-- The index of the entry in force at offset `d` into the cycle (R311): the first whose cumulative end exceeds `d`, else the last. -/
def entryAt : List (Nat × Nat) → Nat → Nat → Nat → Nat
  | [], _, _, i => i - 1
  | e :: t, d, c, i => if d < c + e.2 then i else entryAt t d (c + e.2) (i + 1)

/-- The entry in force at working time `t` (R311). -/
def inForce (l : List (Nat × Nat)) (base cycle : Nat) (t : Int) : Nat :=
  if t < (base : Int) then 0 else entryAt l ((t - base).toNat % cycle) 0 0

/-- The operational list of a gate with its cycle. -/
def State.operGate (s : State) (g : GateId) : List (Nat × Nat) × Nat :=
  (s.gateEntries (operList g) (s.getF (GATE_OPER_LEN_LEN (gateBlock g))), s.getF (GATE_OPER_CYCLE_NS_NS (gateBlock g)))

/-- The entry in force of a gate, and its word 0, at working time `t`. -/
def State.gateIndex (s : State) (g : GateId) (t : Int) : Nat :=
  let o := s.operGate g
  if o.1.isEmpty then 0 else inForce o.1 (s.gateSt g).base o.2 t
def State.gateWord (s : State) (g : GateId) (t : Int) : Nat :=
  let o := s.operGate g
  if o.1.isEmpty then Config.emptyGate (gateBlock g) else (o.1.getD (inForce o.1 (s.gateSt g).base o.2 t) (0, 0)).1

/-- The states a gate applies at working time `t`: open while GATE_EN = 0 (R312, R322, R331). -/
def State.gateStates (s : State) (g : GateId) (t : Int) : Nat :=
  if s.flag (GATE_GCTL_GATE_EN (gateBlock g)) then s.gateWord g t % 256 else (match g with | .port _ => 0xFF | .stream _ => 1)

/-- The gate of a class of a port is open (R310). -/
def State.gateOpen (s : State) (p tc : Nat) (t : Int) : Bool := (s.gateStates (.port p) t).testBit tc

/-! ### When a gate closes (R313) -/

/-- The durations of the entries within one cycle: cut at its end, the last one stretched to it (R311). -/
def cycleSpans : List (Nat × Nat) → Nat → List (Nat × Nat)
  | [], _ => []
  | [e], left => [(e.1, left)]
  | e :: t, left => (e.1, min e.2 left) :: cycleSpans t (left - min e.2 left)

/-- How long a class stays open through the front of a list of spans; none if it never closes in it. -/
def openRun (tc : Nat) : List (Nat × Nat) → Nat → Option Nat
  | [], _ => none
  | (st, d) :: t, acc => if st.testBit tc || d == 0 then openRun tc t (acc + d) else some acc

/-- Drop the first `n` ns of a list of spans. -/
def dropTime : List (Nat × Nat) → Nat → List (Nat × Nat)
  | [], _ => []
  | (st, d) :: t, n => if n < d then (st, d - n) :: t else dropTime t (n - d)

/-- The time from `t` until the class's gate closes in a list; none where it never does. -/
def closesIn (l : List (Nat × Nat)) (base cycle tc : Nat) (t : Int) : Option Nat :=
  let sp := cycleSpans l cycle
  if t < (base : Int) then
    if ((l.getD 0 (0, 0)).1).testBit tc then (openRun tc (sp ++ sp) 0).map (· + ((base : Int) - t).toNat) else some 0
  else openRun tc (dropTime sp ((t - base).toNat % cycle) ++ sp ++ sp) 0

/-- The time from working time `t` until the gate of a class of a port closes, through a pending change (R313, R318). -/
def State.gateCloses (s : State) (p tc : Nat) (t : Int) : Option Nat :=
  if !s.flag (GATE_GCTL_GATE_EN (gateBlock (.port p))) then none
  else
    let g := GateId.port p
    let b := gateBlock g
    let o := s.operGate g
    let here := closesIn o.1 (s.gateSt g).base o.2 tc t
    match (s.gateSt g).switchAt with
    | none => here
    | some sw =>
      let ahead := ((sw : Int) - t).toNat
      match here with
      | some e => if e ≤ ahead then some e else
          (closesIn (s.gateEntries (adminList g) (s.getF (GATE_GCTL_ADMIN_LEN b))) sw (s.getF (GATE_ADMIN_CYCLE_NS_NS b)) tc sw).map (· + ahead)
      | none => (closesIn (s.gateEntries (adminList g) (s.getF (GATE_GCTL_ADMIN_LEN b))) sw (s.getF (GATE_ADMIN_CYCLE_NS_NS b)) tc sw).map (· + ahead)

/-- The longest open run of a class in a list of spans. -/
def longestRun (tc : Nat) : List (Nat × Nat) → Nat → Nat → Nat
  | [], cur, best => max cur best
  | (st, d) :: t, cur, best => if st.testBit tc then longestRun tc t (cur + d) best else longestRun tc t 0 (max cur best)

/-- The longest uninterrupted open time of a class in the operational list; none where its gate never closes (R315). -/
def State.longestOpen (s : State) (p tc : Nat) : Option Nat :=
  let o := s.operGate (.port p)
  let sp := (cycleSpans o.1 o.2).filter (fun e => e.2 != 0)
  if !s.flag (GATE_GCTL_GATE_EN (gateBlock (.port p))) || sp.all (fun e => e.1.testBit tc) then none
  else some (longestRun tc (sp ++ sp) 0 0)

/-! ### Rates and lengths -/

/-- The length of a copy as its profile makes it, known at dequeue (R345): its standard operations and its template; and its EtherType. -/
def State.rewriteLen (s : State) (f : Frame) (c : Copy) : Nat × Nat :=
  let w := (c.keys.getD 11 0).toNat
  let c' := { c with gen := s.curGen }
  let e := s.standardEdits c' f.seq { bytes := f.bytes.take w, layers := f.layers.filter (fun l => l.off < w), skips := 0, expired := false }
  let a := 0x0F600000 + 0x80 * (s.profW c' 0 / 65536 % 64)
  if (s.profW c' 0).testBit wENCAP then (e.bytes.length + (f.bytes.length - w) + (s.rdMem a 1 |>.getD 0 0).toNat, be16 (s.rdMem (a + 4) 14) 12)
  else (e.bytes.length + (f.bytes.length - w), be16 e.bytes 12)

/-- L of a copy: from destination address through FCS after rewrite and MACsec; MAX_SDU while its frame has not ended (R313, R314). -/
def State.copyLenL (s : State) (f : Frame) (c : Copy) : Nat :=
  if f.ended then (let r := s.rewriteLen f c; r.1 + 4 + s.secGrowth c.port r.2) else s.getF (SCH_PORT_QCFG_MAX_SDU c.port c.tc)

/-- Whether `n` bytes on the wire fit into `ns` nanoseconds at a rate in Mbit/s: (L + 20) × 8 / R (R313). -/
def fitsIn (len rate ns : Nat) : Bool := decide ((len + 20) * 8000 ≤ ns * rate)

/-! ### Shapers (R309) -/

/-- What a queue's credit does from now on, and the credit it starts from. -/
def State.cbsMode (s : State) (p tc : Nat) (credit : Int) : Nat × Int :=
  if !s.gateOpen p tc s.workNs then (0, credit)
  else if s.copies.any (fun c => c.port == p && c.tc == tc && c.phase != .queued) then (1, credit)
  else if s.copies.any (fun c => c.port == p && c.tc == tc) then (2, credit)
  else if 0 < credit then (0, 0)
  else (3, credit)

/-- Bring the shaper of one queue up to date. -/
def State.cbsStep (s : State) (p tc : Nat) : State :=
  if s.flag (SCH_PORT_QCBS_CBS_EN p tc) then
    let x := (s.shapers.find? (fun x => x.port == p && x.tc == tc)).getD { port := p, tc := tc, credit := 0, at_ := s.now, mode := 0 }
    let m := s.cbsMode p tc (s.cbsNow x)
    let y : CbsSt := { port := p, tc := tc, credit := m.2, at_ := s.now, mode := m.1 }
    ({ s with shapers := s.shapers.filter (fun z : CbsSt => !(z.port == p && z.tc == tc)) ++ [y] }).setF
      (SCH_PORT_QCREDIT_CREDIT p tc) (unsignedOf 32 (m.2 / 27000000))
  else s

/-- Bring every shaper of a port up to date. -/
def State.cbsAll (s : State) (p : Nat) : State := (List.range 8).foldl (fun t tc => t.cbsStep p tc) s

/-- The shaper lets a queue send (R305, R309). -/
def State.cbsOk (s : State) (p tc : Nat) : Bool :=
  !s.flag (SCH_PORT_QCBS_CBS_EN p tc) ||
  (match s.shapers.find? (fun x => x.port == p && x.tc == tc) with | some x => decide (0 ≤ s.cbsNow x) | none => true)

/-! ### Eligibility (R305, R306) -/

/-- Preemption is active on a port (R306, R126: front ports only). -/
def State.preemptOn (s : State) (p : Nat) : Bool :=
  decide (p < 64) && s.flag (MAC_CTL_PREEMPT_EN p) && (s.getF (MAC_STATUS_VERIFY p) == 2 || s.flag (MAC_CTL_VERIFY_DIS p))

/-- A class of a port uses the preemptable MAC. -/
def State.onPmac (s : State) (p tc : Nat) : Bool := s.preemptOn p && (s.getF (MAC_PREEMPT_PMAC_MASK p)).testBit tc

/-- The scheduler record of a port. -/
def State.schSt (s : State) (p : Nat) : SchSt :=
  (s.scheds.find? (fun x => x.port == p)).getD { port := p, ptrE := 7, inE := false, ptrP := 7, inP := false, hold := false }
def State.putSch (s : State) (x : SchSt) : State := { s with scheds := s.scheds.filter (fun y => y.port != x.port) ++ [x] }

/-- The head copy of a queue. -/
def State.head (s : State) (p tc : Nat) : Option Copy := s.copies.find? (fun c => c.port == p && c.tc == tc && c.phase == .queued)

/-- The head copy fits before its gate closes (R313). -/
def State.headFits (s : State) (p tc : Nat) : Bool :=
  match s.head p tc with
  | none => false
  | some c =>
    match s.frame c.fid with
    | none => false
    | some f =>
      match s.gateCloses p tc s.workNs with
      | none => true
      | some ns => fitsIn (s.copyLenL f c) (s.rate p) ns

/-- A stored copy can start once its frame has ended; a cut-through copy before that (R18, R272). -/
def State.headReady (s : State) (p tc : Nat) : Bool :=
  match s.head p tc with
  | none => false
  | some c => c.seg != 1 && (match s.frame c.fid with | some f => f.ended || c.cut | none => false)

/-- The class is held on the rope by the partner's flow control (R386). -/
def State.ropeHeld (s : State) (p tc : Nat) : Bool :=
  p == 65 && (s.getF TWN_FC_XOFF_RX).testBit tc && !(s.getF (MAC_CTL_PFC_IGNORE 65)).testBit tc

/-- A class of P64 can go (R444): its ring holds a prepared descriptor, or is not enabled and the copy is dropped at dequeue. -/
def State.ringReady (s : State) (p tc : Nat) : Bool :=
  p != 64 || !s.flag (HDM_RING_CFG_EN (s.rxRing tc)) || s.ringHas (s.rxRing tc)

/-- A queue is eligible (R305, R444); in twin state refused the rope carries no forwarded frame (R38). -/
def State.eligible (s : State) (p tc : Nat) : Bool :=
  !(p == 65 && s.twin == twRefused) &&
  s.ringReady p tc && s.headReady p tc && s.getF (SWC_PORT_HOLD_STATE p) == 0 && !(s.getF (MAC_STATUS_PAUSED p)).testBit tc && !s.ropeHeld p tc &&
  s.gateOpen p tc s.workNs && s.headFits p tc && s.cbsOk p tc && !(s.onPmac p tc && (s.schSt p).hold)

end Sys2Proof.Machine
end

