-- ==== Sys2Proof/Machine/Streams.lean ====
section
/-!
DEFINITION. Machine/Streams.lean: streams: the serving twin (R372), sequencing, replication and elimination (R374–R380, R389),
the stream filters, stream gates and meters (R320–R325).
-/

namespace Sys2Proof.Machine

/-- The STREAMS record of a handle (R34). -/
def State.streamRec (s : State) (h : Nat) : Option StreamRec :=
  match s.img with | some i => i.streams.find? (fun r => r.handle == h) | none => none

/-- The handle names a stream with REPLICATE = 1. -/
def State.replicated (s : State) (h : Nat) : Bool := match s.streamRec h with | some r => r.replicate | none => false

/-- Whether this twin is the home twin of a stream: HOME 0 is the senior (R34). -/
def State.isHome (s : State) (r : StreamRec) : Bool := (r.home == 0) == s.flag TWN_STATUS_SENIOR

/-- Whether this twin serves a stream (R372); a leaping twin does not serve its own until they are handed back (R51, R54). -/
def State.serves (s : State) (r : StreamRec) : Bool :=
  s.twin == twSingle || (s.isHome r && !s.rope.ceded) || s.twin == twHandover || s.twin == twAway

/-! ### Sequencing and recovery records (R389) -/

/-- The record of a handle. -/
def frerAddr (h : Nat) : Nat := 0x0F800000 + 0x20 * h

/-- A field of a record. -/
def State.frer (s : State) (h o n : Nat) : Nat := s.memLe (frerAddr h + o) n
def State.putFrer (s : State) (h o n v : Nat) : State := s.wrMem (frerAddr h + o) (leBytes n v)

/-- Count in a saturating counter of a record. -/
def State.countFrer (s : State) (h o n : Nat) : State := s.putFrer h o n (min (2 ^ (8 * n) - 1) (s.frer h o n + 1))

/-- Set or clear a flag of a record. -/
def State.frerFlag (s : State) (h i : Nat) : Bool := (s.frer h 12 1).testBit i
def State.setFrerFlag (s : State) (h i : Nat) (v : Bool) : State :=
  let f := s.frer h 12 1
  s.putFrer h 12 1 (if v then f ||| 2 ^ i else if f.testBit i then f - 2 ^ i else f)

/-- A rope frame with REPLICA = 1, and the stream its HANDLE names (R360, R374). -/
def Frame.replica (f : Frame) : Bool := f.port == 65 && (f.vhdr.getD 2 0).toNat.testBit 6
def Frame.ropeHandle (f : Frame) : Nat := leNat ((f.vhdr.drop 4).take 2)

/-- A member frame of a replicated stream receives its sequence number (R374): the number and the state, or none where it is to
be dropped unsequenced. -/
def State.sequence (s : State) (f : Frame) (r : StreamRec) : Option Nat × State :=
  if f.port = 65 then (some (leNat ((f.vhdr.drop 6).take 2)), s)
  else if f.flags.testBit 43 then
    let o := match f.layers.find? (fun l => l.kind == 18) with | some l => l.off | none => 12
    (some (be16 f.bytes (o + 4)), s.setFrerFlag r.handle 2 true)
  else if s.serves r then
    let n := s.frer r.handle 0 2
    (some n, ({ (s.putFrer r.handle 0 2 ((n + 1) % 65536)) with genUsed := r.handle :: s.genUsed.filter (· != r.handle) }).setFrerFlag r.handle 2 false)
  else (none, s.count TWN_UNSEQ_DROP_COUNT 1)

/-- A frame passes its recovery function. -/
def State.frerPass (s : State) (h : Nat) : State := { (s.countFrer h 16 4) with frerAt := sput s.frerAt h s.now }

/-- The recovery function on a sequence number (R379, R380): whether the frame passes. -/
def State.recover (s : State) (r : StreamRec) (seq : Nat) : Bool × State :=
  let h := r.handle
  let rcv := s.frer h 2 2
  let d := signedOf 16 (seq + 65536 - rcv)
  let n : Int := r.history
  let hist := s.frer h 4 8
  if s.frerFlag h 0 then
    (true, ((((s.putFrer h 2 2 seq).putFrer h 4 8 1).setFrerFlag h 0 false)).frerPass h)
  else if r.matchAlg then
    if d = 0 then (false, s.countFrer h 20 4) else (true, (s.putFrer h 2 2 seq).frerPass h)
  else if n ≤ d ∨ d ≤ -n then (false, s.countFrer h 28 2)
  else if 0 < d then
    let t := (s.putFrer h 4 8 (hist * 2 ^ d.toNat % 2 ^ 64 + 1)).putFrer h 2 2 seq
    let t := if 1 < d then
        let t := t.putFrer h 24 4 (min (2 ^ 32 - 1) (t.frer h 24 4 + (d.toNat - 1)))
        if r.critical then ((t.setF TWN_LOSS_LAST_HANDLE h).setF TWN_LOSS_LAST_VALID 1).raiseTWN TWN_INT_STATUS_STREAM_LOSS else t
      else t
    (true, t.frerPass h)
  else if hist.testBit (-d).toNat then (false, s.countFrer h 20 4)
  else (true, (((s.putFrer h 4 8 (hist ||| 2 ^ (-d).toNat)).putFrer h 24 4 (s.frer h 24 4 - 1))).frerPass h)

/-! ### Lengths and meters (R324, R325) -/

/-- The largest frame of a port. -/
def State.maxFrame (s : State) (p : Nat) : Nat := ((s.port p).map (·.maxFrame)).getD 0

/-- The length that meters charge and filters check: as received once the frame has ended, else the estimate (R325). -/
def State.chargedLen (s : State) (f : Frame) : Nat :=
  if f.ended then f.wire
  else
    match f.layers.find? (fun l => l.kind == 4 || l.kind == 5) with
    | some l => (claimedEnd f.bytes l).getD 0 + 4
    | none => s.maxFrame f.port

/-- A frame of `len` bytes with drop precedence `dp` meets a meter (R324): the colour (0 green, 1 yellow, 2 red), the bucket
charged, the state. -/
def State.meterApply (s : State) (m len dp : Nat) : Nat × Option Nat × State :=
  let b := s.buckets m
  let aware := (s.memLe (meterAddr m + 14) 1).testBit 0
  let l : Int := (len : Int) * byteU
  if aware ∧ dp = 2 then (2, none, s)
  else if (aware = false ∨ dp = 0) ∧ l ≤ b.1 then (0, some 0, s.putBuckets m (b.1 - l) b.2)
  else if l ≤ b.2 then (1, some 1, s.putBuckets m b.1 (b.2 - l))
  else (2, none, s)

/-- A frame meets a meter and remembers the charge while it has not ended. -/
def State.meterFrame (s : State) (f : Frame) (m dp : Nat) : Nat × Frame × State :=
  let len := s.chargedLen f
  let r := s.meterApply m len dp
  let f := match r.2.1 with | some b => if f.ended then f else { f with meters := (m, b, len) :: f.meters } | none => f
  (r.1, f, r.2.2)

/-! ### Stream tallies and filters (R320, R321, R526) -/

/-- Count in tally `k` of a stream: 0 MATCHED, 1 BLOCKED, 2 SDU_DROP, 3 GATE_DROP, 4 RED_DROP, 5 YELLOW. -/
def State.strmTally (s : State) (h k : Nat) : State :=
  let v := (s.strm.lookup (8 * h + k)).getD 0 + 1
  if v = 2 ^ 48 then { s with strm := sdel s.strm (8 * h + k), strmCarry := (8 * h + k) :: s.strmCarry.filter (· != 8 * h + k) }
  else { s with strm := sput s.strm (8 * h + k) v }

/-- The filter record of a handle. -/
def filterAddr (h : Nat) : Nat := 0x0F000000 + 8 * h

/-- The device blocks a filter (R321). -/
def State.blockFilter (s : State) (h : Nat) : State :=
  let f := (s.memLe (filterAddr h + 5) 1) ||| 16
  (((s.wrMem (filterAddr h + 5) [BitVec.ofNat 8 f]).setF SCH_SF_LAST_BLOCK_HANDLE h).setF SCH_SF_LAST_BLOCK_VALID 1).raiseSCH SCH_INT_STATUS_SF_BLOCKED

/-- The working time at an earlier local time: the present one less the time since then at the domain's rate (R288). -/
def State.workAt (s : State) (l : Nat) : Int :=
  (s.domFx (s.getF TSY_CTL_WORK) - ((s.localNs : Int) - (l : Int)) * ((2 ^ 32 : Int) + s.domRate (s.getF TSY_CTL_WORK))) / 2 ^ 32

/-- The stream filter on a member frame (R321): whether it is dropped, the frame with its class and drop precedence, the state. -/
def State.streamFilter (s : State) (f : Frame) (h : Nat) : Bool × Frame × State :=
  let a := filterAddr h
  let sdu := s.memLe a 2
  let meter := s.memLe (a + 2) 2
  let gate := s.memLe (a + 4) 1
  let fl := s.memLe (a + 5) 1
  let s := s.strmTally h 0
  let f := { f with filtered := true }
  if fl.testBit 4 then (true, f, s.strmTally h 1)
  else if sdu ≠ 0 ∧ sdu < (if f.ended then f.wire else f.rxLen) then
    (true, f, (if fl.testBit 2 then (s.strmTally h 2).blockFilter h else s.strmTally h 2))
  else
    let g := s.gateStates (.stream gate) (s.workAt f.ts)
    if fl.testBit 1 && !g.testBit 0 then
      (true, f, (if fl.testBit 3 then (s.strmTally h 3).blockFilter h else s.strmTally h 3))
    else
      let f := if fl.testBit 1 && g.testBit 1 then { f with res := { f.res with tc := g / 4 % 8 } } else f
      if meter = 0 then (false, f, s)
      else
        let r := s.meterFrame f meter f.res.dp
        let f := { r.2.1 with res := { r.2.1.res with dp := max r.2.1.res.dp r.1 } }
        let t := if r.1 = 2 then r.2.2.strmTally h 4 else if r.1 = 1 then r.2.2.strmTally h 5 else r.2.2
        (false, f, t)

end Sys2Proof.Machine
end

