-- ==== Sys2Proof/Machine/QueueOps.lean ====
section
/-!
DEFINITION. Machine/QueueOps.lean: the ingress class (R302), the copy list (R175, R249, R373–R377, R561), admission to the
queues (R269, R348), and the checks at dequeue (R105, R277, R314, R315).
-/

namespace Sys2Proof.Machine

/-- The outer DSCP of an IP layer. -/
def dscpOf (b : List Byte) (l : Layer) : Nat :=
  if l.kind = 4 then (b.getD (l.off + 1) 0).toNat / 4
  else (b.getD l.off 0).toNat % 16 * 4 + (b.getD (l.off + 1) 0).toNat / 64

/-- The traffic class at key-set hand-over (R302, R303). -/
def State.ingressClass (s : State) (f : Frame) : Nat :=
  if f.port = 65 then (f.vhdr.getD 2 0).toNat % 8
  else if 64 ≤ f.port then f.inTc
  else
    match f.layers.find? (fun l => l.kind == 4 || l.kind == 5) with
    | some l =>
      if s.rwgF f.gen (SCH_PORT_PMAP_DSCP_EN f.port) = 1 then
        (let d := dscpOf f.bytes l
         s.rwgF f.gen (SCH_PORT_DSCP_MAP f.port (d / 10)) / 2 ^ (3 * (d % 10)) % 8)
      else tagClass s f
    | none => tagClass s f
where
  /-- The class by the outer tag, or the default class. -/
  tagClass (s : State) (f : Frame) : Nat :=
    if f.flags.testBit 8 then
      let o := match f.layers.find? (fun l => l.kind == 2) with | some l => l.off | none => 12
      s.rwgF f.gen (SCH_PORT_PMAP_PCP_MAP f.port) / 2 ^ (3 * ((f.bytes.getD (o + 2) 0).toNat / 32)) % 8
    else s.rwgF f.gen (SCH_PORT_PMAP_DEFAULT_TC f.port)

/-- A frame's class is taken when its key set, or a copy to the host in place of it, leaves the parse station (R174, R258, R302). -/
def State.classify (s : State) (f : Frame) : Frame :=
  let tc := s.ingressClass f
  { f with res := { f.res with tc := tc }, pool := s.poolOf tc }

/-! ### Beads of a frame being received (R258, R263) -/

/-- A bead of a pool for a request that is presented now: the room left by the requests that wait for the pool, which come first (R258, R264). -/
def State.grantBead (s : State) (pool owner : Nat) : Option (Nat × State) :=
  if s.getF (BPM_POOL_BEADS_QUOTA pool) ≤ s.getF (BPM_POOL_OCC_BEADS pool) + (s.buf.waits.filter (fun w => w.pool == pool)).length then none
  else s.takeBead pool owner

/-- The empty indication of a pool to one request (R263). -/
def State.emptyInd (s : State) (pool q : Nat) : State :=
  ((s.count (BPM_POOL_EXHAUST_COUNT pool) 1).evt q 0x10 0 15).raiseBPM BPM_INT_STATUS_EXHAUST

/-- The order of the waiting requests: by the cycle of their presentation, within a cycle in slot order from slot (cycle mod 16) on (R263, R264). -/
def BeadWait.key (w : BeadWait) : Nat := 16 * w.cycle + (w.slot + 16 - w.cycle % 16) % 16

/-- Insert a waiting request in that order. -/
def putWait (w : BeadWait) : List BeadWait → List BeadWait
  | [] => [w]
  | x :: t => if w.key < x.key then w :: x :: t else x :: putWait w t

/-- A request of slots 12–15 waits (R264). -/
def State.waitBead (s : State) (slot pool owner fid port : Nat) : State :=
  let w : BeadWait := { slot := slot, pool := pool, owner := owner, fid := fid, port := port, cycle := s.now / tCyc 1 }
  ({ s with buf := { s.buf with waits := putWait w s.buf.waits } }).setF (BPM_POOL_WAIT_COUNT pool) (s.getF (BPM_POOL_WAIT_COUNT pool) + 1)

/-- A frame takes a bead: it goes to the end of its chain (R255). -/
def State.joinBead (s : State) (f : Frame) (b : Nat) : State :=
  ({ s with buf := { s.buf with held := linkBead s.buf.held f.beads b } }).putFrame { f with beads := f.beads ++ [b] }

/-- A host DMA channel writes the frame (R256): its bead requests wait in slot 14. -/
def Frame.byHost (f : Frame) : Bool := 0x320 ≤ f.writer && f.writer ≤ 0x33F

/-- One bead request of a frame's writer: admission at the first bead, the empty indication at a later one, on which an ingress writer's
frame is dropped and a host DMA channel waits (R258, R263, R264).  Requests of one cycle are taken in the order of their commands (DESIGN
CHOICE, assumption log 104). -/
def State.claimBead (s : State) (f : Frame) : State :=
  let occ := s.getF (BPM_POOL_OCC_BEADS f.pool)
  if f.beads.isEmpty && decide (s.thr f.pool (s.getF (BPM_POOL_FULL_BEADS f.pool)) ≤ occ) then
    (s.count (BPM_POOL_DROP_COUNT f.pool) 1).dropFrame f.fid tRX_POOL_DROP
  else
    match s.grantBead f.pool f.writer with
    | some (b, t) => t.joinBead f b
    | none =>
      let t := s.emptyInd f.pool (s.quadOf f.port)
      if f.byHost then t.waitBead 14 f.pool f.writer f.fid f.port else t.dropFrame f.fid tRX_POOL_DROP

/-- The frame's bytes take beads: its class is known and it has not lost its copies. -/
def Frame.takesBeads (f : Frame) (s : State) : Bool :=
  match f.phase with
  | .waiting | .parsing | .parsed | .dropped => false
  | .enqueued => s.copies.any (fun c => c.fid == f.fid)
  | _ => true

/-- Request a bead for each 256 bytes that have arrived (R258); the host's channels have one request waiting at a time (R264). -/
def State.claimBeads : Nat → State → Nat → State
  | 0, s, _ => s
  | n + 1, s, fid =>
    match s.frame fid with
    | some f =>
      if f.takesBeads s && decide (f.beads.length < (f.bytes.length + 255) / 256) && !(f.byHost && s.buf.waits.any (fun w => w.slot == 14))
      then State.claimBeads n (s.claimBead f) fid else s
    | none => s

/-- The frames of the host's channels present their requests in turn once slot 14 is free (R264). -/
def State.hostBeads : State → List Frame → State
  | s, [] => s
  | s, f :: t => (if f.byHost then State.claimBeads 64 s f.fid else s).hostBeads t

/-! ### The copy list -/

/-- The multicast group record (R561): its members as a 72-bit field, and SELF. -/
def State.groupRec (s : State) (g : Nat) : Nat × Bool :=
  (s.memLe (0x0FA00000 + 0x10 * g) 9, (s.memLe (0x0FA00000 + 0x10 * g + 9) 1).testBit 0)

/-- The ports that a forwarding decision names (R175, R561). -/
def State.destPorts (s : State) (f : Frame) : List Nat :=
  if f.res.fwdOp = 1 then (if f.res.dest < 68 then [f.res.dest] else [])
  else if f.res.fwdOp = 2 then
    let g := s.groupRec f.res.dest
    (List.range 68).filter (fun p => g.1.testBit p && (p != f.port || g.2))
  else []

/-- Insert a copy request in ascending port order; a port already named keeps its one copy (R175). -/
def addReq (c : CopyReq) : List CopyReq → List CopyReq
  | [] => [c]
  | d :: t => if c.port = d.port then d :: t else if c.port < d.port then c :: d :: t else d :: addReq c t

/-- The host and mirror copies that resolution asks for; a frame that came back from P67 adds none (R175, R349). -/
def extraCopies (f : Frame) (l : List CopyReq) : List CopyReq :=
  if f.recirc then l
  else
    let l := if f.res.copyHost then addReq { port := 64, why := 2, reason := 0, replica := false } l else l
    if f.res.mirror then addReq { port := 67, why := 3, reason := 0, replica := false } l else l

/-- A port bit of TWN_HOME_ONLY, and of FWD_ROPE_EGR. -/
def State.homeOnly (s : State) (p : Nat) : Bool :=
  if p < 32 then (s.getF TWN_HOME_ONLY_LO_MASK).testBit p else if p < 64 then (s.getF TWN_HOME_ONLY_HI_MASK).testBit (p - 32) else false
def State.ropeEgr (s : State) (p : Nat) : Bool :=
  if p < 32 then (s.getF FWD_ROPE_EGR_LO_MASK).testBit p else if p < 64 then (s.getF FWD_ROPE_EGR_HI_MASK).testBit (p - 32) else false

/-- The copies removed for a frame received on P65 (R249): to front ports not set in FWD_ROPE_EGR, and back to P65. -/
def State.ropeFilter (s : State) (f : Frame) (rep : Bool) (l : List CopyReq) : List CopyReq × State :=
  if f.port != 65 || rep then (l, s)
  else
    let keep := l.filter (fun c => c.port != 65 && (64 ≤ c.port || s.ropeEgr c.port))
    (keep, s.count (FWD_Q_ROPE_FILTER_COUNT (s.quadOf f.port)) (l.length - keep.length))

/-- The reason a frame is dropped by a rule or for want of one; counted at its end where it has not ended (R165). (DEDUCED, assumption log 48) -/
def State.noteWhy (s : State) (f : Frame) (why : Nat) : State × Frame :=
  if f.why.isSome then (s, f)
  else if f.ended then (s.countWhy f why, { f with why := some why, counted := true })
  else (s, { f with why := some why })

/-- A frame leaves with its copy list formed; with no copy its beads are released (R270). -/
def State.listFrame (s : State) (f : Frame) (l : List CopyReq) : State :=
  if l.isEmpty then ((s.freeAll f.writer f.beads).putFrame { f with list := [], beads := [], phase := .enqueued }).settleFrame f.fid
  else s.putFrame { f with list := l, phase := .listed }

/-- The frame dropped for `why`; host and mirror copies are made where asked for (R175). -/
def State.ruleDrop (s : State) (f : Frame) (why : Nat) (extra : Bool) : State :=
  let l := if extra then extraCopies f [] else []
  let r := s.noteWhy f why
  r.1.listFrame r.2 l

/-- A member frame that its twin drops: not served in crevasse or refused (R373), or one that no row of R374 numbers. -/
def State.twinDrops (s : State) (f : Frame) : Bool :=
  match f.stream.bind s.streamRec with
  | none => false
  | some r =>
    if !r.replicate then (s.twin == twCrevasse || s.twin == twRefused) && !s.serves r
    else f.port != 66 && !(f.port == 65 && !f.replica) && (s.sequence f r).1.isNone

/-- Forward a frame to the ports of its decision (R175, R249, R373–R378, R561).  R249 does not restrict a member of a stream with
REPLICATE = 1; one that came over the rope without REPLICA has no row of R374: it is not sequenced, and R376 and R377 apply to it. -/
def State.forward (s : State) (f : Frame) : State :=
  let base := (s.destPorts f).foldl (fun l p => addReq { port := p, why := 0, reason := 0, replica := false } l) []
  let all := extraCopies f base
  if f.res.fwdOp = 2 ∧ all.isEmpty = true then s.ruleDrop f tRX_UNRESOLVED false
  else if all.isEmpty then s.ruleDrop f tRX_CONGESTION false
  else
    match f.stream.bind s.streamRec with
    | none => (s.ropeFilter f false all).2.listFrame f (s.ropeFilter f false all).1
    | some r =>
      if !r.replicate then
        if (s.twin == twCrevasse || s.twin == twRefused) && !s.serves r then
          (s.count TWN_NOTHOME_DROP_COUNT 1).listFrame { f with learn := none } []
        else (s.ropeFilter f false all).2.listFrame f (s.ropeFilter f false all).1
      else if f.port = 65 ∧ f.replica = false then s.listFrame f (all.filter (fun c => c.port != 65 && (!(s.homeOnly c.port) || s.serves r)))
      else if f.port = 66 then s.listFrame f (all.filter (fun c => !(s.homeOnly c.port) || s.serves r))
      else
        match s.sequence f r with
        | (none, t) => t.listFrame { f with learn := none } []
        | (some q, t) =>
          let f := { f with seq := some q }
          match t.recover r q with
          | (false, u) => u.listFrame f []
          | (true, u) =>
            let l := all.filter (fun c => !(u.homeOnly c.port) || u.serves r)
            let l := if f.port = 65 then l.filter (fun c => c.port != 65)
              else if u.twin = twPaired then addReq { port := 65, why := 0, reason := 0, replica := true } (l.filter (fun c => c.port != 65))
              else l
            u.listFrame f l

/-- Action resolution after the stream filter (R166, R174, R175). -/
def State.resolve (s : State) (f : Frame) : State :=
  let trap := fun (reason : Nat) =>
    let l := addReq { port := 64, why := 1, reason := reason, replica := false }
      (if f.res.mirror && !f.recirc then [{ port := 67, why := 3, reason := 0, replica := false }] else [])
    s.listFrame f l
  if 2 ≤ f.res.dp then s.ruleDrop f tRX_METER_RED false
  else if f.res.fwdOp = 3 then s.ruleDrop f tRX_RULE_DROP true
  else if f.res.fwdOp = 4 then trap (f.res.dest % 256)
  else if f.res.fwdOp = 0 then
    if f.flags.testBit 0 then
      if s.flag PRS_CFG_REACH_ACTION then trap 1 else s.ruleDrop f tRX_REACH_DROP true
    else (s.count (CLS_Q_UNRESOLVED_COUNT (s.quadOf f.port)) 1).ruleDrop f tRX_UNRESOLVED true
  else s.forward f

/-! ### Admission -/

/-- A copy of a frame, as it is linked to its queue. -/
def newCopy (f : Frame) (r : CopyReq) (pool : Nat) : Copy :=
  { fid := f.fid, port := r.port, tc := f.res.tc, why := r.why, reason := r.reason, replica := r.replica, profile := f.res.profile,
    phase := .queued, seg := 0, cut := false, started := false, tailMark := false, gen := f.gen, keys := f.keys, pos := 10,
    looking := false, lookAt := 0, res := f.res, pool := pool, beads := f.beads.length, window := [], delta := 0, layers := [], ipOrig := [],
    egDrop := false, gateWait := false, fragments := 0, recirc := r.port == 67, dequeuedAt := 0, eg := r.eg, own := [], done := [], lost := none, kept := false, sentAt := 0,
    sec := none, fragBase := 0, fragAt := none }

/-- The time in the device exceeds the maximum residence of the class on a port (R269, R277). (DEDUCED, assumption log 55) -/
def State.tooOld (s : State) (f : Frame) (p tc : Nat) : Bool := decide (1000 * s.getF (SCH_PORT_QRES_MAX_RES_US p tc) < s.localNs - f.ts)

/-- The counter under which a copy is refused at enqueue (R269); none where it is admitted. -/
def State.admitCheck (s : State) (f : Frame) (p admitted : Nat) : Option Nat :=
  let rp := s.poolOf f.res.tc
  if s.getF (SWC_PORT_HOLD_STATE p) = 2 then some tTX_DOWN_DROP
  else if s.tooOld f p f.res.tc then some tTX_RESIDENCE_DROP
  else if (admitted ≠ 0 ∨ rp ≠ f.pool) ∧ s.thr rp (s.getF (BPM_POOL_FULL_BEADS rp)) < s.getF (BPM_POOL_OCC_BEADS rp) + f.beads.length
    then some tTX_POOL_DROP
  else none

/-- The tail of a queue lies on chip behind a DRAM segment (R275). -/
def State.tailSeg (s : State) (p tc : Nat) : Nat :=
  if s.copies.any (fun c => c.port == p && c.tc == tc && c.seg == 1) then 2 else 0

/-- Set the record of every bead of a frame after an admission: pool, owner, reference count (R259, R269). -/
def ownBeads (held : List (Nat × Bead)) (pool owner refs : Nat) : List Nat → List (Nat × Bead)
  | [] => held
  | b :: t =>
    ownBeads (match held.lookup b with
      | some r => sput held b { r with pool := pool, owner := owner, refs := refs }
      | none => held) pool owner refs t

/-- Link one admitted copy (R259, R269): the first moves the ingress charge, each later one adds a charge. -/
def State.linkCopy (s : State) (f : Frame) (r : CopyReq) (admitted : Nat) : State :=
  let rp := s.poolOf f.res.tc
  let n := f.beads.length
  let t := if admitted = 0 then (if rp = f.pool then s else (s.uncharge f.pool n).charge rp n) else s.charge rp n
  let owner := if admitted = 0 then 8 * r.port + f.res.tc else 0xFFE
  let t := { t with buf := { t.buf with held := ownBeads t.buf.held rp owner (admitted + 1) f.beads } }
  let c := { newCopy f r rp with seg := s.tailSeg r.port f.res.tc }
  (({ t with copies := t.copies ++ [c] }).depthAdd c).cbsStep r.port f.res.tc

/-- Admit or drop the copies of a list in ascending port order: the state, how many are admitted, the ports dropped. -/
def State.admitAll (s : State) (f : Frame) : List CopyReq → Nat → List Nat → State × Nat × List Nat
  | [], n, d => (s, n, d)
  | r :: t, n, d =>
    match s.admitCheck f r.port n with
    | some ctr => ((s.portTally r.port ctr 1).portTally r.port (tTc f.res.tc 2) 1).admitAll f t n (r.port :: d)
    | none => (s.linkCopy f r n).admitAll f t (n + 1) d

/-- Count one tally on every port of a list. -/
def State.tallyPorts (s : State) (i : Nat) : List Nat → State
  | [] => s
  | p :: t => (s.portTally p i 1).tallyPorts i t

/-- Enqueue a frame whose copy list is formed (R269, R270). -/
def State.enqueueFrame (s : State) (f : Frame) : State :=
  let r := s.admitAll f f.list 0 []
  if r.2.1 = 0 then
    let n := r.1.noteWhy f tRX_CONGESTION
    (((n.1.freeAll f.writer f.beads).putFrame { n.2 with beads := [], list := [], phase := .enqueued })).settleFrame f.fid
  else
    ((r.1.tallyPorts tTX_PARTIAL r.2.2).putFrame { f with phase := .enqueued, admitted := r.2.1, list := [] })

/-- Add a copy of a frame after its enqueue, as a further reference on every bead that copy `c` still holds (R348); one that is dropped
counts in TX_PARTIAL, since its frame has an admitted copy (R270). -/
def State.addCopy (s : State) (f : Frame) (c : Copy) (r : CopyReq) (keys : List Byte) : State :=
  if (s.copy f.fid r.port).isSome then s
  else
    match s.admitCheck f r.port 1 with
    | some ctr => (((s.portTally r.port ctr 1).portTally r.port (tTc f.res.tc 2) 1).portTally r.port tTX_PARTIAL 1)
    | none =>
      let rp := s.poolOf f.res.tc
      let held := (s.copyBeads c).foldl (fun h b => match h.lookup b with
        | some x => sput h b { x with owner := 0xFFE, refs := x.refs + 1 } | none => h) s.buf.held
      let t := ({ s with buf := { s.buf with held := held } }).charge rp (s.copyBeads c).length
      let g := { f with res := { f.res with profile := 0 } }
      let n := { newCopy g r rp with seg := s.tailSeg r.port f.res.tc, keys := keys, beads := c.beads, own := c.own, done := c.done }
      (({ t with copies := t.copies ++ [n] }).depthAdd n)

/-! ### Dequeue -/

/-- The Viram header in front of a frame on the rope (R360). -/
def hdrLen (p : Nat) : Nat := if p = 65 then 8 else 0

/-- Why a head copy is dropped at its dequeue (R105, R277, R314, R315); none where it goes on. (DEDUCED, assumption log 55) -/
def State.dequeueCheck (s : State) (f : Frame) (c : Copy) : Option Nat :=
  let l := s.copyLenL f c
  if s.tooOld f c.port c.tc then some tTX_RESIDENCE_DROP
  else if f.ended ∧ s.getF (SCH_PORT_QCFG_MAX_SDU c.port c.tc) < l then some tTX_SDU_DROP
  else if f.ended ∧ s.maxFrame c.port < l + hdrLen c.port then some tTX_OVERSIZE
  else
    match s.longestOpen c.port c.tc with
    | some ns => if ns ≠ 0 ∧ fitsIn l (s.rate c.port) ns = false then some tTX_GATE_NOFIT else none
    | none => none

/-- Dequeue a copy under the current generation (R17, R114): it leaves its queue and its egress pass begins. -/
def State.startCopy (s : State) (f : Frame) (c : Copy) : State :=
  let t := s.depthSub c
  let q := s.quadOf c.port
  let cut := c.cut && !f.ended
  let t := t.putCopy { c with phase := .dequeued, gen := s.curGen, dequeuedAt := s.now, cut := cut }
  let t := if cut then (t.portTally c.port tTX_CUT_THROUGH 1).evt q 0x0E c.port 15 else t.evt q 0x0F c.port 15
  t.cbsStep c.port c.tc

end Sys2Proof.Machine
end

