-- ==== Sys2Proof/Machine/Operands.lean ====
section
/-!
DEFINITION. Machine/Operands.lean: the operand forms of the microwords (R132–R140): registers, fetches, header bytes, key-set
writes, waits, aborts, and what issuing a word does besides the word.
-/

namespace Sys2Proof.Machine

/-- A general register of a thread. -/
def Thread.reg (th : Thread) (i : Nat) : Nat := th.g.getD i 0
/-- A thread with a general register written. -/
def Thread.set (th : Thread) (i v : Nat) : Thread := { th with g := th.g.set i (v % 65536) }

/-- The kind of an engine (R127): 0 parse, 1 rewrite, 2 housekeeping. -/
def engKind (e : Nat) : Nat := if 16 ≤ e then 2 else if e % 4 < 2 then 0 else 1

/-- The ROM copy of an engine (R127). -/
def romCopy (e : Nat) : Nat := if 16 ≤ e then 4 else e / 4

/-- The match register that redirects a ROM address: the valid one of lowest index (R144). -/
def State.matchOf (s : State) (c a : Nat) : Option Nat :=
  (List.range 64).find? (fun n => s.flag (HSQ_MATCH_VALID c n) && s.getF (HSQ_MATCH_ROM_ADDR c n) == a)

/-- The address actually fetched for a thread's next word, and whether a match register redirected it (R133, R144, R145). -/
def State.fetchAddr (s : State) (th : Thread) : Nat × Bool :=
  if th.pc < 0x8000 ∧ th.patched = true then
    match s.matchOf (romCopy th.eng) th.pc with
    | some n => (0x8000 + s.getF (HSQ_MATCH_PATCH_IDX (romCopy th.eng) n), true)
    | none => (th.pc, false)
  else (th.pc, false)

/-- Write the sample of an engine (R147). -/
def State.writeSample (s : State) (x : Sample) : State :=
  let t := (s.setF (HSQ_SAMPLE_ADDR x.eng) x.addr).setF (HSQ_SAMPLE_SKID x.eng) x.skid
  let t := (t.setF (HSQ_SAMPLE_THREAD x.eng) x.slot).setB (HSQ_SAMPLE_ENDED x.eng) x.ended
  { (t.setF (HSQ_SAMPLE_VALID x.eng) 1) with samples := t.samples.filter (· != x) }

/-- A word of a thread counts toward the skid of a sample point it waits for; after 8 the engine has stopped it and recorded. -/
def State.skidStep (s : State) (e sl : Nat) : State :=
  match s.samples.find? (fun x => x.eng == e && x.slot == sl && !x.ended) with
  | none => s
  | some x =>
    if 8 ≤ x.skid then s.writeSample x
    else { s with samples := updFirst (fun y => y == x) (fun y => { y with skid := y.skid + 1 }) s.samples }

/-- The sample points of a thread that ends. -/
def State.endSamples (s : State) (e sl : Nat) : State :=
  { s with samples := s.samples.map (fun x => if x.eng == e && x.slot == sl then { x with ended := true } else x) }

/-- A thread aborts (R140): recorded, counted, an event of its engine's source, and its frame, copy or task ends as R140 says. -/
def State.abort (s : State) (th : Thread) (addr cause : Nat) : State :=
  let t := s.count (HSQ_ABORT_CNT_COUNT th.eng) 1
  let t := (t.setF (HSQ_ABORT_INFO_ADDR th.eng) addr).setF (HSQ_ABORT_INFO_CAUSE th.eng) cause
  let t := (t.setF (HSQ_ABORT_INFO_THREAD th.eng) th.slot).setF (HSQ_ABORT_INFO_VALID th.eng) 1
  let t := (t.endSamples th.eng th.slot).loseTarget th.target
  let t := { t with threads := t.threads.filter (fun x => !(x.eng == th.eng && x.slot == th.slot)) }
  let t := match th.target with | .task k => { t with tasks := t.tasks ++ [k] } | _ => t
  t.event (101 + th.eng) (.engine th.eng)

/-- The long or the short timeout of an engine in ns: 100 to 2,000 (R139, R148). -/
def State.waitNs (s : State) (e : Nat) (short : Bool) : Nat :=
  max 100 (min 2000 (s.getF (if short then HSQ_WAIT_TMO_SHORT_NS e else HSQ_WAIT_TMO_LONG_NS e)))

/-- A thread begins a wait (R137–R139). -/
def State.beginWait (s : State) (th : Thread) (wc arg : Nat) (short tf implied : Bool) (addr : Nat) : State :=
  s.putThread { th with wait := some { wc := wc, arg := arg, tf := tf, deadline := s.now + tNs (s.waitNs th.eng short),
                                       issuedAt := s.now, implied := implied, addr := addr } }

/-- The word that stands at an address of the patch RAM (R133): none in the ROM, whose contents the spec does not give. -/
def State.patchWord (s : State) (e a : Nat) : Option Nat :=
  if 0x8000 ≤ a ∧ a < 0x8800 then some (s.getF (HSQ_PATCH_WORD_WORD (romCopy e) (a - 0x8000))) else none

/-- The word fetched may be `own` (R134, R135): at a patch address it decodes to it. -/
def State.spells (s : State) (e sl a : Nat) (own : Instr) : Bool :=
  match s.patchWord e a with | some w => decide (decodeMicro e sl w = some own) | none => true

/-- The word fetched is no opcode (R135). -/
def State.noOpcode (s : State) (e sl a : Nat) : Bool :=
  match s.patchWord e a with | some w => (decodeMicro e sl w).isNone | none => false

/-- A thread after a fetch: its pc stands behind the word; fetches of one redirected ROM address are counted (R144). -/
def Thread.fetched (th : Thread) (a : Nat × Bool) (now : Nat) : Thread :=
  { th with
    pc := a.1 + 1, stallAt := none
    redir := if a.2 then
        (match th.redir with
         | some (p, t0, n) => if p = th.pc then some (p, t0, n + 1) else some (th.pc, now, 1)
         | none => some (th.pc, now, 1))
      else if a.1 < 0x8000 then none else th.redir }

/-- Issue one word of a thread (R128, R133, R135, R144, R146): fetch, the sample skid, the event tallies, the address and kind
checks; then the word itself acts on the thread, whose pc stands after the fetched word.  A thread that waits issues nothing, nor does
one whose patch word is being rewritten, and a thread that fetched a patch word issues no other word than the one that stands there. -/
def State.issue (s : State) (e sl : Nat) (own : Instr) (kinds : List Nat) (act : State → Thread → Nat → State) : State :=
  match s.thread e sl with
  | none => s
  | some th =>
    if th.wait.isSome then s
    else
      let a := s.fetchAddr th
      match s.patchBad.find? (fun x => x.1 == romCopy e && x.2.1 + 0x8000 == a.1) with
      | some x =>
        if x.2.2 then s.putThread { th with stallAt := some (th.stallAt.getD s.now) }
        else { (s.abort th a.1 4) with patchBad := s.patchBad.map (fun y => if y == x then (x.1, x.2.1, true) else y) }
      | none =>
        if !s.noOpcode e sl a.1 && !s.spells e sl a.1 own then s
        else
          let t := s.skidStep e sl
          let t := if a.2 then t.evtM 0x0A 1 e sl a.1 else t
          if 0x8800 ≤ a.1 then t.abort th a.1 3
          else if s.noOpcode e sl a.1 || !kinds.contains (engKind e) then t.abort th a.1 2
          else
            let t := if engKind e = 0 then t.evtM 0x08 1 e sl a.1 else if engKind e = 1 then t.evtM 0x09 1 e sl a.1 else t
            act t (th.fetched a s.now) a.1

/-! ### Header bytes (R137, R138) -/

/-- The header bytes that a thread's target offers: those of the frame, or the edit window followed by the rest of the frame. -/
def State.header (s : State) (t : Target) : List Byte × Bool :=
  match t with
  | .frame fid => match s.frame fid with | some f => (f.bytes, f.ended) | none => ([], true)
  | .copy fid p =>
    match s.frame fid, s.copy fid p with
    | some f, some c => (if c.phase = .rewriting then c.window ++ f.bytes.drop (c.keys.getD 11 0).toNat else f.bytes, f.ended)
    | _, _ => ([], true)
  | .task _ => ([], false)

/-- What naming bytes `o` to `o + n − 1` of a header gives: the first byte to wait for, or the bytes with EOF and RX. -/
def State.hdrRead (s : State) (t : Target) (o n : Nat) : Nat ⊕ (List (Option Byte) × Bool × Bool) :=
  let h := s.header t
  let idx := (List.range n).map (· + o)
  let inside := idx.filter (fun i => decide (i < s.reach))
  match inside.find? (fun i => decide (h.1.length ≤ i) && !h.2) with
  | some i => .inl i
  | none => .inr (idx.map (fun i => if i < s.reach then h.1[i]? else none),
      inside.any (fun i => decide (h.1.length ≤ i)), idx.any (fun i => decide (s.reach ≤ i)))

/-- Fill the bytes that are not there with open values. -/
def State.fillBytes (s : State) : List (Option Byte) → List Byte × State
  | [] => ([], s)
  | some b :: t => let r := s.fillBytes t; (b :: r.1, r.2)
  | none :: t =>
    let v := s.free
    let r := v.2.fillBytes t
    (BitVec.ofNat 8 v.1 :: r.1, r.2)

/-- A thread that stalls on its word stands where it stood before it fetched it (R138). -/
def State.unfetched (s : State) (th : Thread) : Thread := { ((s.thread th.eng th.slot).getD th) with stallAt := none }

/-- Run a word on header bytes `o` to `o + n − 1`, or stall the thread until they arrive (R138). -/
def State.withHdr (s : State) (th : Thread) (addr o n : Nat) (act : State → Thread → List Byte → State) : State :=
  match s.hdrRead th.target o n with
  | .inl i => s.beginWait (s.unfetched th) 0 i false false true addr
  | .inr (bs, eof, rx) =>
    let r := s.fillBytes bs
    act r.2 { th with eof := th.eof || eof, rx := th.rx || rx } r.1

/-! ### The key set (R134) -/

/-- The key set of a thread's target. -/
def State.keysOf (s : State) (t : Target) : List Byte :=
  match t with
  | .frame fid => match s.frame fid with | some f => f.keys | none => []
  | .copy fid p => match s.copy fid p with | some c => c.keys | none => []
  | .task _ => []

/-- Replace the key set of a thread's target. -/
def State.putKeys (s : State) (t : Target) (k : List Byte) : State :=
  match t with
  | .frame fid => match s.frame fid with | some f => s.putFrame { f with keys := k } | none => s
  | .copy fid p => match s.copy fid p with | some c => s.putCopy { c with keys := k } | none => s
  | .task _ => s

/-- Write bytes to the key set at the position of R134; passing byte 127 aborts with cause 6h (R136). -/
def State.keyWrite (s : State) (th : Thread) (addr kpos : Nat) (b : List Byte) : State :=
  let at_ := if kpos ≠ 0 then 2 * kpos else 2 * th.kc
  if 128 < at_ + b.length then s.abort th addr 6
  else (s.putKeys th.target (setBytes (s.keysOf th.target) at_ b)).putThread { th with kc := (at_ + b.length + 1) / 2 }

/-- Set a frame flag of a thread's frame, or of its copy's key set. -/
def State.flagWrite (s : State) (t : Target) (i : Nat) (v : Bool) : State :=
  match t with
  | .frame fid => match s.frame fid with | some f => s.putFrame (f.setFlag i v) | none => s
  | .copy _ _ =>
    let k := s.keysOf t
    let b := (k.getD (2 + i / 8) 0).toNat
    s.putKeys t (setByte k (2 + i / 8) (if v then b ||| 2 ^ (i % 8) else if b.testBit (i % 8) then b - 2 ^ (i % 8) else b))
  | .task _ => s

/-- Whether the condition of a wait is met, and whether the frame's end met it (R137). -/
def State.waitMet (s : State) (th : Thread) (w : WaitSt) : Option Bool :=
  if w.wc = 0 then
    let h := s.header th.target
    if w.arg < h.1.length then some false else if h.2 then some true else none
  else if w.wc = 1 then
    (match th.results.getD w.arg .empty with | .returned _ => some false | _ => none)
  else if w.issuedAt < s.gens.strokeAt then some false
  else none

end Sys2Proof.Machine
end

