-- ==== Sys2Proof/Machine/Lookup.lean ====
section
/-!
DEFINITION. Machine/Lookup.lean: the lookups of the table stations under a tag: life words (R187, R188), exact flow and stream
tables (R176–R178, R230), the FDB (R222–R229), LPM (R231), TCAM tables (R203–R217), decision trees (R179–R186), and how results
combine (R171–R174).
-/

namespace Sys2Proof.Machine

/-! ### Life words -/

/-- Fields of a life word (R187). -/
def lifeValid (w : Nat) : Bool := w.testBit 0
def lifeB (w : Nat) : Bool := w.testBit 1
def lifeBirth (w : Nat) : Nat := w / 4 % 8
def lifeD (w : Nat) : Bool := w.testBit 5
def lifeDeath (w : Nat) : Nat := w / 64 % 8

/-- An object is live for a tag (R188). -/
def liveFor (w tag : Nat) : Bool :=
  lifeValid w && (!lifeB w || decide ((tag + 8 - lifeBirth w) % 8 ≤ 3)) && (!lifeD w || decide (4 ≤ (tag + 8 - lifeDeath w) % 8))

/-! ### Tables in tiles -/

/-- The TILES record of a table (R34). -/
def State.tileRec (s : State) (k : Nat) : Option TileRec :=
  match s.img with | some i => i.tiles.find? (fun r => r.table == k) | none => none

/-- The tiles that a table's mask names in a quadrant, ascending. -/
def State.tableTiles (s : State) (k q : Nat) : List Nat :=
  match s.tileRec k with | some r => (List.range 96).filter (fun j => (r.tileMasks.getD q 0).testBit j) | none => []

/-- The BAR2 address of entry `x` of a table with entries of `e` bytes in a quadrant (R560). -/
def State.entryAddr (s : State) (k q e x : Nat) : Option Nat :=
  ((s.tableTiles k q)[e * x / 131072]?).map (fun j => 0xC00000 * q + 0x20000 * j + e * x % 131072)

/-- The kind and bucket count of a table. -/
def State.tblKind (s : State) (k : Nat) : Nat := s.getF (FWD_TBL_GEOM_KIND k)
def State.tblBuckets (s : State) (k : Nat) : Nat := s.getF (FWD_TBL_GEOM_BUCKETS k)

/-- The leading `n` bytes of a list, with zero where it ends. -/
def padTo (n : Nat) (l : List Byte) : List Byte := (l ++ List.replicate n 0).take n

/-- The bytes of key window `k` of a key set (R160). -/
def State.keyWin (s : State) (keys : List Byte) (k : Nat) : List Byte :=
  let w : KeyWin := { start := s.getF (PRS_KEYWIN_START k), width := s.getF (PRS_KEYWIN_WIDTH k) }
  (keys.drop (2 * w.start)).take w.bytes

/-- `n` key bits from position `p` on; bit 0 is the MSB of key byte 0 (R180). -/
def keyBits (key : List Byte) (p n : Nat) : Nat := beNat key / 2 ^ (8 * key.length - p - n) % 2 ^ n

/-- An exact flow record matches a key and is live; its action word (R176). -/
def flowMatch (b key : List Byte) (tag : Nat) : Option Nat :=
  if b.take 22 == key && liveFor (leNat ((b.drop 22).take 2)) tag then some (leNat ((b.drop 24).take 8)) else none

/-- The on-chip lookup of an exact flow or stream table (R177, R230). -/
def State.flowChip (s : State) (k q tag : Nat) (key : List Byte) : Option Nat :=
  let h := crc32c (leBytes 4 (s.getF (FWD_TBL_SEED0_SEED k)) ++ key)
  let u := h % s.tblBuckets k
  (List.range 4).findSome? (fun e => (s.entryAddr k q 32 (4 * u + e)).bind (fun a => flowMatch (s.rdMem a 32) key tag))

/-- The DRAM extension's bucket: 8 entries (R177). -/
def State.flowDram (s : State) (k tag : Nat) (key : List Byte) : Option Nat :=
  let n := s.getF (DRC_RGN_TBL_SIZE_MIB k) * 4096
  if n = 0 then none
  else
    let h := crc32c (leBytes 4 (s.getF (FWD_TBL_SEED0_SEED k)) ++ key)
    let base := s.getF (DRC_RGN_TBL_BASE_MIB k) * 1048576 + 256 * (h % n)
    (List.range 8).findSome? (fun e => flowMatch (s.rdDram (base + 32 * e) 32) key tag)

/-! ### The FDB -/

/-- An FDB key with the reserved bits of its FID taken as 0 (R222). -/
def fdbKey (l : List Byte) : List Byte :=
  match padTo 8 l with | a :: t => (a &&& 0x0F) :: t | [] => []

/-- Bank `b` of an FDB for a key: its candidate slots, in order of index (R224). -/
def State.fdbSlots (s : State) (k b : Nat) (key : List Byte) : List Nat :=
  let n := s.tblBuckets k
  let seed := s.getF (if b = 0 then FWD_TBL_SEED0_SEED k else FWD_TBL_SEED1_SEED k)
  (List.range 4).flatMap (fun w =>
    let u := crc32c (leBytes 4 seed ++ [BitVec.ofNat 8 w] ++ key) % n
    (List.range 4).map (fun e => (w * n + u) * 4 + e))

/-- The address of slot `i` of bank `b` in quadrant `q`. -/
def State.fdbAddr (s : State) (k b q i : Nat) : Option Nat := s.entryAddr k q 16 (b * 16 * s.tblBuckets k + i)

/-- The slots of bank `b` that hit for a key and a tag, in order of index, with their addresses in quadrant `q` (R225). -/
def State.fdbHits (s : State) (k b q tag : Nat) (key : List Byte) : List (Nat × Nat) :=
  (s.fdbSlots k b key).filterMap (fun i =>
    match s.fdbAddr k b q i with
    | some a => if fdbKey (s.rdMem a 8) == key && liveFor (s.memLe (a + 8) 2) tag then some (i, a) else none
    | none => none)

/-- The action word of a destination hit: GROUP and DEST (R227). -/
def State.fdbAction (s : State) (a : Nat) : Nat :=
  (if (s.memLe (a + 10) 1).testBit 2 then 2 else 1) + s.memLe (a + 12) 2 * 256

/-- Set AGE in the slots that hit (R229). -/
def State.setAges : State → List (Nat × Nat) → State
  | s, [] => s
  | s, (_, a) :: t => (s.wrMem (a + 10) [BitVec.ofNat 8 (s.memLe (a + 10) 1 ||| 1)]).setAges t

/-! ### LPM (R231) -/

/-- A prefix contains an 18-byte key. -/
def LpmEnt.contains (e : LpmEnt) (key : List Byte) : Bool :=
  e.key.take 2 == key.take 2 && keyBits ((padTo 18 e.key).drop 2) 0 e.len == keyBits ((padTo 18 key).drop 2) 0 e.len

/-- The longest live prefix that contains a key. -/
def lpmBest (key : List Byte) (k tag : Nat) : List LpmEnt → Option LpmEnt → Option LpmEnt
  | [], b => b
  | e :: t, b =>
    if e.table == k && liveFor e.life tag && e.contains key && (match b with | some x => decide (x.len < e.len) | none => true)
    then lpmBest key k tag t (some e) else lpmBest key k tag t b

/-! ### TCAM tables -/

/-- The record of row `r` of block `b` (R207). -/
def rowAddr (q b r : Nat) : Nat := 0x0E000000 + 0x200000 * q + 0x8000 * b + 0x40 * r

/-- The blocks of a table in a quadrant; for a chained table, the even ones (R204, R205). -/
def State.asmBlocks (s : State) (q k : Nat) : List Nat :=
  (List.range 24).filter (fun n => s.flag (ASM_Q_BLK_USED q n) && s.getF (ASM_Q_BLK_TABLE q n) == k && !s.flag (ASM_Q_BLK_ODD q n))

/-- Key AND MASK equals VALUE over a record's 22 bytes (R208). -/
def maskMatch (rec_ key : List Byte) : Bool :=
  ((key.zip (rec_.drop 22)).map (fun p => p.1 &&& p.2)) == rec_.take 22

/-- A row's compare words match a key, in the TCAM macro or in the mirror. -/
def rowMatch (m : List Host.Cell) (a : Nat) (chain : Bool) (key : List Byte) : Bool :=
  maskMatch (readBytes m a 44) (key.take 22) && (!chain || maskMatch (readBytes m (a + 0x8000) 44) ((key.drop 22).take 22))

/-- The pre-filter admits a row (R209). -/
def State.pfAdmits (s : State) (gen k a : Nat) (key : List Byte) : Bool :=
  s.rwgF gen (ASM_TBL_CFG_PF_EN k) == 0 ||
  (let pf := s.memLe (a + 44) 1 % 64
   pf == 0 || pf == keyBits key (s.rwgF gen (ASM_TBL_CFG_PF_BIT k)) 6)

/-- The rows of a table that are admitted and VALID, in order of physical index, as record addresses (R211). -/
def State.comparedRows (s : State) (q k gen : Nat) (key : List Byte) : List Nat :=
  ((s.asmBlocks q k).flatMap (fun b => (List.range 512).map (rowAddr q b))).filter
    (fun a => lifeValid (s.memLe (a + 48) 2) && s.pfAdmits gen k a key)

/-- The winner: the highest PRIORITY, the lowest index among equals (R212). -/
def State.bestRow (s : State) : List Nat → Option Nat → Option Nat
  | [], b => b
  | a :: t, b =>
    match b with
    | some x => if s.memLe (x + 46) 2 < s.memLe (a + 46) 2 then s.bestRow t (some a) else s.bestRow t (some x)
    | none => s.bestRow t (some a)

/-- Copy the compare words of a row from its mirror (R216). -/
def State.repairRow (s : State) (a : Nat) : State :=
  { s with mem := writeBytes s.mem a (readBytes s.mirror a 45) }

/-- Count compared rows in units of 16 (R220). -/
def State.countCompared (s : State) (q n : Nat) : State :=
  let v := (s.asmRem.lookup q).getD 0 + n
  { (s.count (ASM_Q_COMPARED_COUNT q) (v / 16)) with asmRem := sput s.asmRem q (v % 16) }

/-- What a lookup yields: a hit with its action words, a miss, or the loss of its frame or copy. -/
inductive LookOut where
  | hit (words : List Nat)
  | miss
  | lost
  deriving DecidableEq, Repr

/-- A search of a TCAM table (R208–R217); `confirmFail` says that a cell of the winner's words in the macro had flipped, so that the
confirmation fails: of a row that matches, or of one that matches for that cell alone, which then is an open choice among the rows live for
the tag (DESIGN CHOICE, assumption log 99). -/
def State.tcamLookup (s : State) (q k gen : Nat) (win : List Byte) (confirmFail : Bool) : LookOut × State :=
  let chain := s.flag (ASM_TBL_CFG_CHAIN k)
  let key := padTo (if chain then 44 else 22) win
  let rows := s.comparedRows q k gen key
  let t := (s.count (ASM_Q_SEARCH_COUNT q) 1).countCompared q (rows.length * (if chain then 2 else 1))
  let live := rows.filter (fun a => liveFor (s.memLe (a + 48) 2) (gen % 8))
  if live.any (fun a => s.lost.contains a) then (.lost, t.count (ASM_Q_LOST_DROP_COUNT q) 1)
  else
    let fail := fun (t : State) (a : Nat) =>
      let t := ((t.count (ASM_Q_CONFIRM_FAIL_COUNT q) 1).repairRow a)
      let t := if chain then t.repairRow (a + 0x8000) else t
      (LookOut.lost, (t.count (ASM_Q_REPAIR_COUNT q) 1).event (152 + 4 * q) (.tile q))
    match s.bestRow (live.filter (fun a => rowMatch s.mem a chain key)) none with
    | none => if confirmFail && !live.isEmpty then fail t.free.2 (live.getD (t.free.1 % live.length) 0) else (.miss, t)
    | some a => if confirmFail || !rowMatch s.mirror a chain key then fail t a else (.hit [s.memLe (a + 56) 8], t)

/-! ### Decision trees -/

/-- The set of a line in a tree cache of 4,096 sets (R184). (DESIGN CHOICE, assumption log 13) -/
def treeSet (a : Nat) : Nat := Config.treeSet a % 4096

/-- Touch a line of a quadrant's tree cache (R184, R201): a hit, or a miss that evicts the least recently used line of a full set. (DESIGN CHOICE, assumption log 13) -/
def State.treeTouch (s : State) (q a : Nat) : State :=
  if s.trees.contains (q, a) then
    { (s.count (CLS_Q_TREE_HIT_COUNT q) 1) with trees := (q, a) :: s.trees.erase (q, a) }
  else
    let same := fun (x : Nat × Nat) => x.1 == q && treeSet x.2 == treeSet a
    let full := s.trees.filter same
    let rest := if 8 ≤ full.length then (match full.getLast? with | some x => s.trees.erase x | none => s.trees) else s.trees
    { ((s.count (CLS_Q_TREE_MISS_COUNT q) 1).evt q 5 0 15) with trees := (q, a) :: rest }

/-- Touch the lines of a list of rule records. -/
def State.treeRules (s : State) (q : Nat) : List Nat → State
  | [] => s
  | a :: t => ((s.treeTouch q a).treeTouch q (a + 64)).treeRules q t

/-- The rule of a leaf that a key matches: its action word (R181, R182). -/
def State.ruleMatch (s : State) (key : List Byte) (a : Nat) : Option Nat :=
  let b := s.rdDram a 104
  if ((key.zip ((b.drop 44).take 44)).map (fun p => p.1 &&& p.2)) == b.take 44 then some (leNat (b.drop 96)) else none

/-- Walk from a line (R182, R183): a null child ends it as a miss; at most 12 nodes are visited; none aborts. -/
def State.walk : Nat → State → Nat → Nat → List Byte → Nat → Option (Option Nat) × State
  | 0, s, _, _, _, line => (if line = 0 then some none else none, s)
  | n + 1, s, q, base, key, line =>
    if line = 0 then (some none, s)
    else
      let a := base + 64 * line
      let t := s.treeTouch q a
      let b := s.rdDram a 64
      let x := (b.getD 1 0).toNat
      if b.getD 0 0 = 1 then
        if x = 0 ∨ 4 < x then (none, t)
        else State.walk n t q base key (leNat ((b.drop (8 + 3 * keyBits key (leNat ((b.drop 2).take 2)) x)).take 3))
      else if b.getD 0 0 = 2 then
        if x = 0 ∨ 8 < x then (none, t)
        else
          let rules := (List.range x).map (fun i => base + 128 * leNat ((b.drop (8 + 4 * i)).take 3))
          (some (rules.findSome? (s.ruleMatch key)), t.treeRules q rules)
      else (none, t)

/-- A tree lookup (R179–R183): a miss without a live root; an aborted walk loses the frame and raises its source. -/
def State.treeLookup (s : State) (q k tag issued : Nat) (win : List Byte) : LookOut × State :=
  let key := padTo 44 win
  match (List.range 8).find? (fun i => liveFor (s.getF (CLS_ROOT_LIFE_LIFE k i)) tag) with
  | none => (.miss, s)
  | some i =>
    let r := State.walk 12 s q (s.getF (DRC_RGN_TBL_BASE_MIB k) * 1048576) key (s.getF (CLS_ROOT_ADDR_LINE k i))
    let t := r.2.maxF (CLS_Q_WALK_PEAK_NS_NS q) ((s.now - issued) / 27)
    match r.1 with
    | none => (.lost, (t.count (CLS_Q_WALK_ABORT_COUNT q) 1).event (168 + 3 * q) (.tile q))
    | some none => (.miss, t)
    | some (some w) => (.hit [w], t)

/-! ### Lookups by table -/

/-- A lookup in a table by its kind, with the key in a window (R169, R172). -/
def State.tableLookup (s : State) (q k gen issued : Nat) (win : List Byte) (confirmFail : Bool) : LookOut × State :=
  let tag := gen % 8
  let out := fun (o : Option Nat) => match o with | some w => LookOut.hit [w] | none => LookOut.miss
  match s.tblKind k with
  | 1 => (out ((s.fdbHits k (s.rwgF gen (FWD_TBL_BANK_ACTIVE k)) q tag (fdbKey win)).head?.map (fun h => s.fdbAction h.2)), s)
  | 2 => (out (s.flowChip k q tag (padTo 22 win)), s)
  | 3 =>
    (match s.flowChip k q tag (padTo 22 win) with
     | some w => (.hit [w], s)
     | none =>
       match s.flowDram k tag (padTo 22 win) with
       | some w => (.hit [w], s.count (CLS_Q_FLOW_DRAM_HIT_COUNT q) 1)
       | none => (.miss, s))
  | 4 => (out ((lpmBest (padTo 18 win) k tag s.lpm none).map (·.action)), s)
  | 5 => s.treeLookup q k tag issued win
  | 6 => s.tcamLookup q k gen win confirmFail
  | _ => (.miss, s)

/-! ### Combining results (R171, R173, R174, R335) -/

/-- The value of a metadata slot (R171). -/
def metaSlot (keys : List Byte) (k : Nat) : Nat := be16 keys (120 + 2 * k)

/-- A result is counted in CLS_Q_BAD_OP: a reserved FWD_OP or DP, a group beyond the table, or on egress a redirecting FWD_OP. -/
def badAction (a : Action) (egress : Bool) : Bool :=
  decide (4 < a.fwdOp) || (a.fwdOp == 2 && decide (16384 ≤ a.dest)) || (a.setDp && a.dp == 3) ||
  (egress && (a.fwdOp == 1 || a.fwdOp == 2 || a.fwdOp == 4))

/-- The FWD_OP of a result as it acts. -/
def actionOp (a : Action) : Nat := if 4 < a.fwdOp ∨ (a.fwdOp = 2 ∧ 16384 ≤ a.dest) then 0 else a.fwdOp

/-- Combine one result of an ingress station, or of an egress station whose FWD_OP never redirects (R174, R335). -/
def Resolved.combine (r : Resolved) (a : Action) (egress : Bool) : Resolved :=
  let op := if egress then 0 else actionOp a
  let r := if op ≠ 0 ∧ r.locked = false then { r with fwdOp := op, dest := a.dest, locked := a.lock } else r
  let r := if a.setTc then { r with tc := a.tc } else r
  let r := if a.setDp && a.dp != 3 then { r with dp := max r.dp a.dp } else r
  { r with copyHost := r.copyHost || a.copyHost, mirror := r.mirror || a.mirror,
           profile := if a.rwProfile = 0 then r.profile else a.rwProfile }

/-- A META_WR result writes its INDEX to its slot. -/
def metaWrite (keys : List Byte) (a : Action) : List Byte :=
  if a.metaWr then setBytes keys (120 + 2 * a.metaPos) (beBytes 2 a.index) else keys

/-- What a pass carries through its stations: combined fields, key set, whether an egress result dropped the copy. -/
structure Pass where
  res : Resolved
  keys : List Byte
  drop : Bool
  deriving DecidableEq, Repr

/-- Combine a list of results in order. -/
def State.combineAll (s : State) (q : Nat) (egress : Bool) : List Nat → Pass → Pass × State
  | [], p => (p, s)
  | w :: t, p =>
    let a := Action.ofNat w
    let u := if badAction a egress then s.count (CLS_Q_BAD_OP_COUNT q) 1 else s
    u.combineAll q egress t { res := p.res.combine a egress, keys := metaWrite p.keys a, drop := p.drop || (egress && a.fwdOp == 3) }

/-- The miss action word of a position in a generation (R172). -/
def State.missWord (s : State) (q n gen : Nat) : Nat :=
  s.rwgF gen (CLS_Q_MISS_LO_ACTION q n) + s.rwgF gen (CLS_Q_MISS_HI_ACTION q n) * 2 ^ 32

/-! ### The source station (R228) -/

/-- Learning is enabled for a port. -/
def State.learnOn (s : State) (p : Nat) : Bool :=
  s.flag FWD_LEARN_CFG_EN &&
  (if p < 32 then (s.getF FWD_LEARN_PORTS0_EN).testBit p else if p < 64 then (s.getF FWD_LEARN_PORTS1_EN).testBit (p - 32)
   else (s.getF FWD_LEARN_PORTS2_EN).testBit (p - 64))

/-- The station with SOURCE = 1: the words to combine, whether it hit, the frame with its learn event, the state. -/
def State.sourceStation (s : State) (q k n : Nat) (f : Frame) (win : List Byte) : List Nat × Bool × Frame × State :=
  let key := fdbKey win
  let bank := s.rwgF f.gen (FWD_TBL_BANK_ACTIVE k)
  let hits := s.fdbHits k bank q (f.gen % 8) key
  let miss := s.missWord q n f.gen
  let group := (key.getD 2 0).toNat.testBit 0
  match hits with
  | [] =>
    if group then ([miss], false, f, s.count (FWD_Q_NOSRC_COUNT q) 1)
    else ([miss], false, (if s.learnOn f.port then { f with learn := some { key := key, old := none } } else f), s.count (FWD_Q_SRC_MISS_COUNT q) 1)
  | (_, a) :: _ =>
    let fl := s.memLe (a + 10) 1
    let dest := s.memLe (a + 12) 2
    if group then ([0], true, f, s.count (FWD_Q_NOSRC_COUNT q) 1)
    else if fl.testBit 3 then ([3 + 16 + 0x20 * 256], true, f, s)
    else if (fl.testBit 1 || fl.testBit 2) && dest != f.port then
      ([if s.flag FWD_LEARN_CFG_STATIC_DROP then 3 + 16 + 0x21 * 256 else 0], true, f, s.count (FWD_Q_STATIC_VIOL_COUNT q) 1)
    else if dest = f.port then ([0], true, f, (s.setAges hits).count (FWD_Q_SRC_HIT_COUNT q) 1)
    else ([0], true, (if s.learnOn f.port then { f with learn := some { key := key, old := some dest } } else f), s.count (FWD_Q_SRC_MOVE_COUNT q) 1)

/-! ### One station (R169–R173, R230) -/

/-- The action words of a live action record; none where it is not live or beyond the table (R173). -/
def State.actionRecord (s : State) (k q tag i : Nat) : Option (List Nat) :=
  match s.entryAddr k q 32 i with
  | some a =>
    if i < 4 * s.tblBuckets k && liveFor (s.memLe (a + 22) 2) tag then some [s.memLe a 8, s.memLe (a + 8) 8, s.memLe (a + 24) 8] else none
  | none => none

/-- A stream station's hit decides membership when its INDEX names a STREAMS record, else it is counted (R230).  A replica's membership is
that of its Viram header (R376), and a hit at positions 10–13 comes after membership has been used: there only the count acts (DEDUCED,
DEDUCED, assumption log 101). -/
def State.streamHit (s : State) (q : Nat) (egress : Bool) (f : Frame) (w : Nat) : Frame × State :=
  let h := (Action.ofNat w).index
  if (s.streamRec h).isNone then (f, s.count (FWD_Q_STREAM_BAD_COUNT q) 1)
  else if f.replica || egress then (f, s)
  else ({ f with stream := some h }, s)

/-- The outcome of a station: hit, words, frame, state; none where the frame or copy is lost. -/
def State.station (s : State) (q n gen : Nat) (f : Frame) (p : Pass) (confirmFail : Bool) : Option (Bool × List Nat × Frame) × State :=
  let kind := s.getF (CLS_Q_POS_KIND q n)
  let k := s.getF (CLS_Q_POS_TABLE q n)
  let sel := s.getF (CLS_Q_POS_KEYSEL q n)
  let win := s.keyWin p.keys sel
  let miss := s.missWord q n gen
  if kind = 0 then (some (false, [], f), s)
  else if kind = 4 then
    let m := metaSlot p.keys (sel % 4)
    if m = 0 then (some (false, [miss], f), s)
    else
      let r := s.meterFrame f m p.res.dp
      (some (true, [2 ^ 28 + r.1 * 2 ^ 29], r.2.1), r.2.2)
  else if kind = 5 then
    match s.actionRecord k q (gen % 8) (metaSlot p.keys (sel % 4)) with
    | some ws => (some (true, ws, f), s)
    | none => (some (false, [miss], f), s)
  else if s.tblKind k = 1 ∧ s.flag (FWD_Q_SRC_PRESENT q) = true ∧ s.getF (FWD_Q_SRC_POS q) = n then
    let r := s.sourceStation q k n { f with gen := gen } win
    (some (r.2.1, r.1, { r.2.2.1 with gen := f.gen }), r.2.2.2)
  else
    match s.tableLookup q k gen f.lookAt win confirmFail with
    | (.hit ws, t) =>
      if s.tblKind k = 2 then
        let r := t.streamHit q (decide (10 ≤ n)) f (ws.headD 0)
        (some (true, ws, r.1), r.2)
      else (some (true, ws, f), t)
    | (.miss, t) => (some (false, [miss], f), t)
    | (.lost, t) => (none, t)

end Sys2Proof.Machine
end

