-- ==== Sys2Proof/Machine/Versions.lean ====
section
/-!
DEFINITION. Machine/Versions.lean: writes to versioned objects (R187–R192, R199, R206, R223, R232, R246), the fan-out of global
tables (R207, R224), and every BAR2 and DRAM window write (R398, R422, R423).
-/

namespace Sys2Proof.Machine

/-! ### Life-word writes (R190) -/

/-- NEXT mod 8. -/
def State.nextTag (s : State) : Nat := s.getF CLS_GEN_NEXT % 8

/-- A staged birth of tag `n`. -/
def stagedBirth (w n : Nat) : Bool := lifeValid w && lifeB w && lifeBirth w == n && !lifeD w

/-- An object whose other words may be written: not valid, or a staged birth. -/
def openObj (w n : Nat) : Bool := !lifeValid w || stagedBirth w n

/-- What R190 says of a life-word write: written without a mark, written with a mark naming NEXT, or refused with a cause. -/
inductive LifeVerdict where
  | plain
  | mark
  | refuse (cause : Nat)
  deriving DecidableEq, Repr

/-- The verdict on writing life word `v` over `w` while NEXT has tag `n` (R190). -/
def lifeVerdict (w v n : Nat) : LifeVerdict :=
  if !lifeValid w then
    if v = 0 then .plain
    else if lifeValid v && lifeB v && !lifeD v then (if lifeBirth v = n then .mark else .refuse 3)
    else .refuse 1
  else if stagedBirth w n then (if v = 0 then .mark else .refuse 1)
  else if !lifeD w then
    if v % 64 = w % 64 + 32 ∧ v / 512 = w / 512 then (if lifeDeath v = n then .mark else .refuse 3) else .refuse 1
  else if lifeDeath w = n then
    if v + 32 = w then .mark else .refuse 1
  else .refuse 1

/-- The journal of NEXT holds its 262,144 records. -/
def State.journalFull (s : State) : Bool := decide (262144 ≤ s.gens.journal.length)

/-- Append a record to the journal of NEXT (R191). -/
def State.jrnl (s : State) (r : JRec) : State :=
  ({ s with gens := { s.gens with journal := s.gens.journal ++ [r] } }).setF CLS_JOURNAL_STAGED (s.gens.journal.length + 1)

/-- A refused write is counted, recorded and raised (R190). -/
def State.refuseWrite (s : State) (addr cause : Nat) : State :=
  let t := (s.count CLS_WREF_CNT_COUNT 1).setF CLS_WREF_CAUSE_CAUSE cause
  let t := (t.setF CLS_WREF_ADDR_LO_ADDR addr).setF CLS_WREF_ADDR_HI_ADDR (addr / 2 ^ 32)
  (t.raiseCLS CLS_INT_STATUS_WRITE_REFUSED).minor srcRefusedWrite

/-! ### Copies of an object -/

/-- Where an object stands: in BAR2 memory or in DRAM, the distance between the copies of neighbouring quadrants, the quadrant
addressed, and the quadrants whose copies a write reaches. -/
structure Copies where
  dram : Bool
  unit : Nat
  q : Nat
  reps : List Nat
  deriving DecidableEq, Repr

/-- An address of the addressed copy, moved to the copy of quadrant `r`. -/
def Copies.at (c : Copies) (r a : Nat) : Nat := a + c.unit * r - c.unit * c.q

/-- The copy whose words the checks of R190 read. -/
def Copies.home (c : Copies) : Nat := if c.reps.contains c.q then c.q else c.reps.headD c.q

/-- Read and write one space. -/
def State.rdSp (s : State) (d : Bool) (a n : Nat) : List Byte := if d then s.rdDram a n else s.rdMem a n
def State.wrSp (s : State) (d : Bool) (a : Nat) (l : List Byte) : State := if d then s.wrDram a l else s.wrMem a l

/-- Write bytes to every copy of an object. -/
def State.wrAll (s : State) (c : Copies) (a : Nat) (l : List Byte) : State :=
  c.reps.foldl (fun t r => t.wrSp c.dram (c.at r a) l) s

/-- Quadrants that a write of a global object reaches: neither isolated nor power-gated (R24, R207, R224), and not one that is being
restarted, which takes its copies from another when its restart ends (R214); with no other quadrant the write reaches it all the same. -/
def State.liveQuads (s : State) : List Nat :=
  let l := (List.range 4).filter (fun q => s.quadPowered q && !(s.getF FLT_ISO_QUAD).testBit q)
  let m := l.filter (fun q => !s.restarting q)
  if m.isEmpty then l else m

/-- The bytes of a new word with those of the life word left as they are in the old one. -/
def keepLife (old new : List Byte) (i : Option Nat) : List Byte :=
  match i with
  | none => new
  | some k => setBytes new k ((old.drop k).take 2)

/-- A journal record for an object's life word. -/
def Copies.record (c : Copies) (a : Nat) : JRec := if c.dram then .dram a else .mem a

/-- The address under which a refused write is recorded: BAR2 offsets, and DRAM through its window. -/
def State.refAddr (s : State) (c : Copies) (a : Nat) : Nat := if c.dram then 0x04000000 + a - s.getF DRC_WIN_BASE_MIB * 1048576 else a

/-- A 4-byte write to an object whose life word stands at `life` (R190).  Without the life word it is checked whatever bytes it holds; with
it, its other bytes come first, then the life word, and a part left at its present value is neither written nor checked.  The Bool says that
other bytes were written. -/
def State.objWrite (s : State) (c : Copies) (a life : Nat) (new : List Byte) : State × Bool :=
  if c.reps.isEmpty then (s, false)
  else
    let old := s.rdSp c.dram (c.at c.home a) 4
    let w := leNat (s.rdSp c.dram (c.at c.home life) 2)
    let idx := if life = a then some 0 else if life = a + 2 then some 2 else none
    let other := keepLife old new idx
    let here := s.refAddr c a
    let r := if idx.isSome && other == old then (s, false)
      else if openObj w s.nextTag then (s.wrAll c a other, true)
      else (s.refuseWrite here 2, false)
    match idx with
    | none => r
    | some k =>
      let v := leNat ((new.drop k).take 2)
      if v = w then r
      else
        (match lifeVerdict w v s.nextTag with
         | .plain => r.1.wrAll c life (leBytes 2 v)
         | .mark => if r.1.journalFull then r.1.refuseWrite here 4 else (r.1.wrAll c life (leBytes 2 v)).jrnl (c.record life)
         | .refuse cause => r.1.refuseWrite here cause, r.2)

/-! ### Table tiles -/

/-- The table whose mask names tile `j` of quadrant `q`. -/
def State.tileOwner (s : State) (q j : Nat) : Option TileRec :=
  match s.img with
  | some i => i.tiles.find? (fun r => (r.tileMasks.getD q 0).testBit j)
  | none => none

/-- The byte of a table at a tile address (R560). -/
def State.tableByte (s : State) (k q a : Nat) : Nat :=
  let j := a % 0xC00000 / 0x20000
  131072 * ((s.tableTiles k q).filter (fun i => decide (i < j))).length + a % 131072

/-- A bank of an FDB is in use: ACTIVE names it in an outstanding generation or in the staged value (R246). -/
def State.bankUsed (s : State) (k b : Nat) : Bool :=
  s.getF (FWD_TBL_BANK_ACTIVE k) == b || s.gens.outs.any (fun g => s.rwgF g.gen (FWD_TBL_BANK_ACTIVE k) == b)

/-- A shadow bank exists (R246). -/
def State.shadowFree (s : State) (k : Nat) : Bool := !(s.bankUsed k 0 && s.bankUsed k 1)

/-- The copies of a table's entries. -/
def State.tableCopies (s : State) (r : TileRec) (q : Nat) : Copies :=
  { dram := false, unit := 0xC00000, q := q, reps := if r.glob then s.liveQuads else [q] }

/-- The flags byte of an FDB entry as a write leaves it in one copy: the AGE bit of a host write is ignored, and a write that sets
VALID sets AGE (R223). -/
def fdbFlags (old new w v : Nat) : Nat := new / 2 * 2 + (if !lifeValid w && lifeValid v then 1 else old % 2)

/-- Write the tile word at bytes 8–11 of an FDB entry in every copy. -/
def State.fdbWord (s : State) (c : Copies) (a w v fl b11 : Nat) : State :=
  c.reps.foldl (fun t r =>
    let x := c.at r a
    t.wrMem x (leBytes 2 v ++ leBytes 1 (fdbFlags (t.memLe (x + 2) 1) fl w v) ++ leBytes 1 b11)) s

/-- The first write of that word: its flags, but for AGE, and its last byte (R190). -/
def State.fdbOther4 (s : State) (c : Copies) (a w fl b11 : Nat) : State :=
  let h := c.at c.home a
  if s.memLe (h + 2) 1 / 2 = fl / 2 ∧ s.memLe (h + 3) 1 = b11 then s
  else if openObj w s.nextTag then
    c.reps.foldl (fun t r =>
      let x := c.at r a + 2
      t.wrMem x (leBytes 1 (fdbFlags (t.memLe x 1) fl w w) ++ leBytes 1 b11)) s
  else s.refuseWrite a 2

/-- The second write of that word: its life word (R190, R223). -/
def State.fdbLife (s : State) (c : Copies) (a w v : Nat) : State :=
  let put := fun (t : State) => c.reps.foldl (fun t r =>
    let x := c.at r a
    t.wrMem x (leBytes 2 v ++ leBytes 1 (fdbFlags (t.memLe (x + 2) 1) (t.memLe (x + 2) 1) w v))) t
  if v = w then s
  else
    match lifeVerdict w v s.nextTag with
    | .plain => put s
    | .mark => if s.journalFull then s.refuseWrite a 4 else (put s).jrnl (c.record a)
    | .refuse cause => s.refuseWrite a cause

/-- A 4-byte write to an FDB entry (R190, R222, R223, R246). -/
def State.fdbWrite (s : State) (k : Nat) (c : Copies) (a data : Nat) : State :=
  if c.reps.isEmpty then s
  else
    let e0 := a / 16 * 16
    let shadow := !s.bankUsed k (s.tableByte k c.q a / (256 * s.tblBuckets k))
    if a % 16 ≠ 8 then
      if shadow then s.wrAll c a (leBytes 4 data) else (s.objWrite c a (e0 + 8) (leBytes 4 data)).1
    else
      let h := c.at c.home a
      let w := s.memLe h 2
      let v := data % 65536
      let fl := data / 65536 % 256
      let b11 := data / 2 ^ 24 % 256
      if shadow then s.fdbWord c a w v fl b11 else (s.fdbOther4 c a w fl b11).fdbLife c a w v

/-- A write to an entry of table `k` is held while a table command runs on it (R236), and every write to a versioned object from
GO or DISCARD to its end (R192, R199). -/
def State.holdMem (s : State) (k : Option Nat) (h : HeldWrite) : Option State :=
  if s.gens.op ≠ 0 then some { s with gens := { s.gens with held := s.gens.held ++ [h] } }
  else
    match s.cmd, k with
    | some c, some k => if c.table = k then some { s with cmd := some { c with held := c.held ++ [h] } } else none
    | _, _ => none

/-- A 4-byte write to a table tile (R232, R560). (DEDUCED, assumption log 51) -/
def State.tileWrite (s : State) (a data : Nat) : State :=
  let q := a / 0xC00000
  let j := a % 0xC00000 / 0x20000
  match s.tileOwner q j with
  | none => s.wrMem a (leBytes 4 data)
  | some r =>
    match r.kind with
    | .lpm => s.minor srcHostOther
    | .treeCache | .tcam | .other _ => s.wrMem a (leBytes 4 data)
    | .fdb =>
      (match s.holdMem (some r.table) (.mem a data) with
       | some t => t
       | none => s.fdbWrite r.table (s.tableCopies r q) a data)
    | .stream | .exactFlow =>
      (match s.holdMem (some r.table) (.mem a data) with
       | some t => t
       | none => (s.objWrite (s.tableCopies r q) a (a / 32 * 32 + 22) (leBytes 4 data)).1)

/-! ### TCAM rows (R206, R207, R213, R217) -/

/-- A 4-byte write to a TCAM row record: the compare words go to the macro and to the mirror, and clear LOST. (DEDUCED, assumption log 51) -/
def State.tcamWrite (s : State) (a data : Nat) : State :=
  let q := (a - 0x0E000000) / 0x200000
  let b := (a - 0x0E000000) % 0x200000 / 0x8000
  let o := a % 64
  if 24 ≤ b ∨ s.flag (ASM_Q_BLK_USED q b) = false then s
  else
    let k := s.getF (ASM_Q_BLK_TABLE q b)
    let odd := s.flag (ASM_Q_BLK_ODD q b)
    if odd && decide (44 ≤ o) then s
    else
      match s.holdMem none (.mem a data) with
      | some t => t
      | none =>
        let even := (if odd then a - 0x8000 else a) / 64 * 64
        let c : Copies := { dram := false, unit := 0x200000, q := q, reps := if s.flag (ASM_TBL_CFG_GLOBAL k) then s.liveQuads else [q] }
        let r := s.objWrite c a (even + 48) (leBytes 4 data)
        if r.2 && decide (o < 45) then
          let t := c.reps.foldl (fun t x => { t with
            mirror := writeBytes t.mirror (c.at x a) ((leBytes 4 data).take (45 - o)) }) r.1
          { t with lost := t.lost.filter (fun x => !(c.reps.any (fun y => c.at y even == x))) }
        else r.1

/-! ### A quadrant's copies after its restart (R214, R218, R245, R477) -/

/-- The quadrant of a tile or row address of BAR2, where it belongs to a global table (R207, R224). -/
def State.globalQuad (s : State) (a : Nat) : Option Nat :=
  if a < 0x03000000 then
    match s.tileOwner (a / 0xC00000) (a % 0xC00000 / 0x20000) with
    | some r => if r.glob then some (a / 0xC00000) else none
    | none => none
  else if 0x0E000000 ≤ a ∧ a < 0x0E800000 then
    let q := (a - 0x0E000000) / 0x200000
    let b := (a - 0x0E000000) % 0x200000 / 0x8000
    if b < 24 ∧ s.flag (ASM_Q_BLK_USED q b) = true ∧ s.flag (ASM_TBL_CFG_GLOBAL (s.getF (ASM_Q_BLK_TABLE q b))) = true then some q else none
  else none

/-- The address in quadrant `q` of what stands at `a` in quadrant `x`. -/
def quadAddr (x q a : Nat) : Nat := if a < 0x03000000 then a + 0xC00000 * q - 0xC00000 * x else a + 0x200000 * q - 0x200000 * x

/-- Write cells one by one, each at its address in quadrant `q`. -/
def putCells (x q : Nat) (m : List Host.Cell) : List Host.Cell → List Host.Cell
  | [] => m
  | e :: t => putCells x q (writeBytes m (quadAddr x q e.1) [e.2]) t

/-- A memory in which the global tables of quadrant `q` hold what those of quadrant `x` hold in `src`. -/
def State.copyQuad (s : State) (x q : Nat) (m : List Host.Cell) : List Host.Cell :=
  putCells x q (m.filter (fun e => s.globalQuad e.1 != some q)) (m.filter (fun e => s.globalQuad e.1 == some x))

/-- The entries of a quadrant's FDB copies: the addresses of their life words that have VALID = 1. -/
def State.fdbEntries (s : State) (q : Nat) : List Nat :=
  (s.mem.filter (fun e => e.1 % 16 == 8 && e.2.toNat.testBit 0 && s.globalQuad e.1 == some q &&
    (match s.tileOwner q (e.1 % 0xC00000 / 0x20000) with | some r => r.kind == .fdb | none => false) && decide (e.1 < 0x03000000))).map (·.1)

/-- The rows of a quadrant with VALID = 1, as record addresses. -/
def State.validRows (s : State) (q : Nat) : List Nat :=
  (s.mem.filter (fun e => e.1 % 64 == 48 && e.2.toNat.testBit 0 && decide (0x0E000000 + 0x200000 * q ≤ e.1 ∧ e.1 < 0x0E000000 + 0x200000 * q + 0xC0000))).map
    (fun e => e.1 - 48)

/-- Rewrite the compare words of a list of rows from their mirrors, of a chained row both records. -/
def State.repairRows (s : State) : List Nat → State
  | [] => s
  | a :: t =>
    let k := s.getF (ASM_Q_BLK_TABLE ((a - 0x0E000000) / 0x200000) ((a - 0x0E000000) % 0x200000 / 0x8000))
    let u := s.repairRow a
    (if s.flag (ASM_TBL_CFG_CHAIN k) then u.repairRow (a + 0x8000) else u).repairRows t

/-- Set AGE in a list of entries, given by their life words. -/
def State.ageEntries (s : State) : List Nat → State
  | [] => s
  | a :: t => (s.wrMem (a + 2) [BitVec.ofNat 8 (s.memLe (a + 2) 1 ||| 1)]).ageEntries t

/-- A restarted quadrant takes its copies of global tables from another quadrant that is in service, tiles and TCAM records and mirrors
alike, with AGE = 1 in every FDB entry, and rewrites the compare words of its rows with VALID = 1 from their mirrors (R214, R218, R245). -/
def State.reloadQuad (s : State) (q : Nat) : State :=
  let t := match s.liveQuads.find? (fun x => x != q) with
    | none => s
    | some x =>
      let u := { s with mem := s.copyQuad x q s.mem, mirror := s.copyQuad x q s.mirror,
                        lost := s.lost.filter (fun e => s.globalQuad e != some q || s.lost.contains (quadAddr q x e)) }
      u.ageEntries (u.fdbEntries q)
  t.repairRows (t.validRows q)

/-! ### Records -/

/-- A write to a stream filter record (R320): a 1 written to BLOCKED is ignored. -/
def State.filterWrite (s : State) (a data : Nat) : State :=
  let b := leBytes 4 data
  if a % 8 = 4 then
    let old := s.memLe (a + 1) 1
    let new := data / 256 % 256
    let fl := if new.testBit 4 && !old.testBit 4 then new - 16 else new
    s.wrMem a (setByte b 1 fl)
  else s.wrMem a b

/-- A write to a meter record (R323): record 0 ignores writes; the buckets have filled at the old rates until now;
the word at bytes 12–15 resets both to full. -/
def State.meterWrite (s : State) (a data : Nat) : State :=
  let m := (a - 0x0F100000) / 16
  if m = 0 then s
  else
    let b := s.buckets m
    let t := (s.putBuckets m b.1 b.2).wrMem a (leBytes 4 data)
    if a % 16 = 12 then { t with meters := t.meters.filter (fun x => x.meter != m) } else t

/-- A write to a gate list (R319, R333): the operational copy takes none; the admin copy takes none while a change is pending. -/
def State.gateListWrite (s : State) (g : GateId) (oper : Bool) (a data : Nat) : State :=
  if oper || s.flag (GATE_GSTATUS_PENDING (gateBlock g)) then s.minor srcHostOther else s.wrMem a (leBytes 4 data)

/-- A write to a sequencing and recovery record (R389): only bit 0 of the word at bytes 12–15 of a replicated stream's record acts. -/
def State.recoveryWrite (s : State) (a data : Nat) : State :=
  let h := (a - 0x0F800000) / 32
  if a % 32 = 12 ∧ data.testBit 0 = true ∧ s.replicated h = true then s.setFrerFlag h 0 true else s

/-- One aligned 4-byte write to BAR2 outside the DRAM window (R422, R423). -/
def State.bar2Word (s : State) (a data : Nat) : State :=
  if a < 0x03000000 then s.tileWrite a data
  else if 0x0E000000 ≤ a ∧ a < 0x0E800000 then s.tcamWrite a data
  else if 0x0F000000 ≤ a ∧ a < 0x0F080000 then s.filterWrite a data
  else if 0x0F100000 ≤ a ∧ a < 0x0F200000 then s.meterWrite a data
  else if 0x0F200000 ≤ a ∧ a < 0x0F220000 then
    s.gateListWrite (.stream ((a - 0x0F200000) / 0x200)) (decide (0x100 ≤ a % 0x200)) a data
  else if 0x0F400000 ≤ a ∧ a < 0x0F510000 then
    s.gateListWrite (.port ((a - 0x0F400000) / 0x4000)) (decide (0x2000 ≤ a % 0x4000)) a data
  else if 0x0F080000 ≤ a ∧ a < 0x0F600000 then s
  else if 0x0F600000 ≤ a ∧ a < 0x0F618000 then s.wrMem a (leBytes 4 data)
  else if 0x0F800000 ≤ a ∧ a < 0x0FA00000 then s.recoveryWrite a data
  else if 0x0FA00000 ≤ a ∧ a < 0x0FA40000 then s.wrMem a (leBytes 4 data)
  else s.minor srcHostOther

/-- An access to BAR2 outside the DRAM window: 4 or 8 bytes, aligned; an 8-byte write is two 4-byte writes, the lower first. -/
def State.bar2Write (s : State) (a size data : Nat) : State :=
  if size = 4 ∧ a % 4 = 0 then s.bar2Word a (data % 2 ^ 32)
  else if size = 8 ∧ a % 8 = 0 then
    if (0x03000000 ≤ a ∧ a < 0x0E000000) ∨ (0x0E800000 ≤ a ∧ a < 0x0F000000) ∨ (0x0F618000 ≤ a ∧ a < 0x0F800000) ∨ 0x0FA40000 ≤ a
    then s.minor srcHostOther
    else (s.bar2Word a (data % 2 ^ 32)).bar2Word (a + 4) (data / 2 ^ 32 % 2 ^ 32)
  else s.minor srcAccess

/-! ### DRAM (R398, R400) -/

/-- The region kinds of mapped DRAM: an exact-flow extension or a tree region of a table, the DQX region, or host staging. -/
inductive Region where
  | flow (k : Nat)
  | tree (k : Nat)
  | dqx
  | staging
  deriving DecidableEq, Repr

/-- The region that holds a mapped address (R397). -/
def State.region (s : State) (a : Nat) : Region :=
  let m := a / 1048576
  let inside := fun (k : Nat) => s.getF (DRC_RGN_TBL_SIZE_MIB k) != 0 && decide (s.getF (DRC_RGN_TBL_BASE_MIB k) ≤ m) &&
    decide (m < s.getF (DRC_RGN_TBL_BASE_MIB k) + s.getF (DRC_RGN_TBL_SIZE_MIB k))
  match (List.range 64).find? inside with
  | some k => if s.tblKind k = 3 then .flow k else .tree k
  | none =>
    if s.getF DRC_RGN_DQX_SIZE_MIB ≠ 0 ∧ s.getF DRC_RGN_DQX_BASE_MIB ≤ m ∧ m < s.getF DRC_RGN_DQX_BASE_MIB + s.getF DRC_RGN_DQX_SIZE_MIB
    then .dqx else .staging

/-- A write invalidates its line in all four tree caches (R184). -/
def State.treeInval (s : State) (a : Nat) : State := { s with trees := s.trees.filter (fun x => x.2 / 64 != a / 64) }

/-- The bytes of the 4-byte word at `a` as enabled bytes of a write leave them. -/
def mergeWord (old data : List Byte) (en : Nat) : List Byte :=
  (List.range 4).map (fun i => if en.testBit i then data.getD i 0 else old.getD i 0)

/-- One 4-byte word of a DRAM write, with byte enables: an exact-flow entry is a versioned object (R189, R190), and a write to it that is
held keeps its enables (R192). -/
def State.dramWord (s : State) (a : Nat) (data : List Byte) (en : Nat) : State :=
  let new := mergeWord (s.rdDram a 4) data en
  match s.region a with
  | .flow k =>
    (match s.holdMem (some k) (.dram a (leNat data) en) with
     | some t => t
     | none => (s.objWrite { dram := true, unit := 0, q := 0, reps := [0] } a (a / 32 * 32 + 22) new).1)
  | .tree _ => (s.wrDram a new).treeInval a
  | .dqx => s
  | .staging => s.wrDram a new

/-- The 4-byte words of a DRAM write, in ascending address order. -/
def State.dramWords : Nat → State → Nat → List Byte → Nat → State
  | 0, s, _, _, _ => s
  | n + 1, s, a, data, en =>
    if data.isEmpty then s
    else
      let t := if en % 16 = 0 then s else s.dramWord a (data.take 4) (en % 16)
      State.dramWords n t (a + 4) (data.drop 4) (en / 16)

/-- The mapped end of DRAM in bytes. -/
def State.mapped (s : State) : Nat := s.getF DRC_MAPPED_MIB * 1048576

/-- A write of bytes at a mapped address (R398, R400): beyond MAPPED or into the DQX region it is ignored and counted. (DEDUCED, assumption log 57) -/
def State.dramWrite (s : State) (a : Nat) (data : List Byte) (en : Nat) : State :=
  let a0 := a / 4 * 4
  let k := a - a0
  let e := (en % 2 ^ data.length) * 2 ^ k
  let d := List.replicate k 0 ++ data
  let words := (d.length + 3) / 4
  if s.mapped < a + data.length ∨ (List.range words).any (fun i => s.region (a0 + 4 * i) == .dqx) = true then s.minor srcHostOther
  else State.dramWords words s a0 (d ++ List.replicate 3 0) e

/-! ### Held writes -/

/-- A write to a root slot of a tree table (R190, R202). -/
def State.rootWrite (s : State) (k i : Nat) (life : Bool) (data : Nat) : State :=
  let w := s.getF (CLS_ROOT_LIFE_LIFE k i)
  let refuse := fun (cause : Nat) => (s.free).2.refuseWrite (s.free).1 cause
  if life then
    let v := data % 65536
    match lifeVerdict w v s.nextTag with
    | .plain => s.setF (CLS_ROOT_LIFE_LIFE k i) v
    | .mark => if s.journalFull then refuse 4 else (s.setF (CLS_ROOT_LIFE_LIFE k i) v).jrnl (.root k i)
    | .refuse cause => refuse cause
  else if openObj w s.nextTag then s.setF (CLS_ROOT_ADDR_LINE k i) data
  else refuse 2

end Sys2Proof.Machine
end

