-- ==== Sys2Proof/Machine/Tables.lean ====
section
/-!
DEFINITION. Machine/Tables.lean: staged registers (R189, R246), table commands (R233–R236), the shadow bank (R246), the learn ring
(R239–R241), ageing (R243, R244), TCAM row writes and checks (R213–R217).
-/

namespace Sys2Proof.Machine

/-! ### Staged registers -/

/-- A register has RWG fields. -/
def hasRwg (off : Nat) : Bool := (fldsAt .bar0 off).any (fun f => f.acc == .rwg)

/-- The RWG fields of a register, taken from `data`. -/
def State.stageFields (s : State) (off data : Nat) : State :=
  s.wr off (BitVec.ofNat 32 (mergeFields (fun f => f.acc == .rwg) (s.rd off).toNat data (fldsAt .bar0 off)))

/-- A write of the RWG fields of a register, or of a root slot (R189, R202, R219, R251). -/
def State.stageReg (s : State) (off data : Nat) : State :=
  if 0x408000 ≤ off ∧ off < 0x409000 then
    s.rootWrite ((off - 0x408000) / 64) (off % 64 / 8) (decide (off % 8 = 4)) data
  else if 0x480000 ≤ off ∧ off < 0x480100 then
    let k := (off - 0x480000) / 4
    let top := if s.flag (ASM_TBL_CFG_CHAIN k) then 346 else 170
    if s.tblKind k ≠ 6 then s
    else if top < data / 16 % 512 then
      (s.stageFields off (data / 8192 * 8192 + s.getF (ASM_TBL_CFG_PF_BIT k) * 16 + data % 16)).minor srcHostOther
    else s.stageFields off data
  else if 0x501000 ≤ off ∧ off < 0x501800 then
    if s.tblKind ((off - 0x501000) / 32) = 1 then s.stageFields off data else s
  else s.stageFields off data

/-- A write of RWG fields or of a root slot: the _LO half of a staged pair is held until its _HI half is written (R9). -/
def State.stageWrite (s : State) (off data : Nat) : State :=
  if hasRwg off && isPairLo off then { s with heldLo := sput s.heldLo off (BitVec.ofNat 32 data) }
  else if hasRwg off && decide (4 ≤ off) && isPairLo (off - 4) then
    match s.heldLo.lookup (off - 4) with
    | some w => ({ s with heldLo := s.heldLo.filter (fun e => e.1 != off - 4) }.stageReg (off - 4) w.toNat).stageReg off data
    | none => s.stageReg off data
  else s.stageReg off data

/-! ### The learn ring (R239–R241) -/

/-- A learn-ring record of 32 bytes (R240) with the present phase. -/
def State.learnRec (s : State) (key : List Byte) (kind a b old extra tsA tsB : Nat) : List Byte :=
  padTo 8 key ++ [BitVec.ofNat 8 kind, BitVec.ofNat 8 (s.getF FWD_LRING_HEAD_PHASE), BitVec.ofNat 8 a, BitVec.ofNat 8 b] ++
  leBytes 2 old ++ [BitVec.ofNat 8 extra, 0] ++ leBytes 4 (tsA % 1000000000) ++ leBytes 4 (tsA / 1000000000) ++
  leBytes 4 (tsB % 1000000000) ++ leBytes 4 (tsB / 1000000000)

/-- The learn ring takes no record: it is full or disabled (R239, R250). -/
def State.learnFull (s : State) : Bool :=
  !s.flag FWD_LRING_CFG_EN || (s.getF FWD_LRING_HEAD_INDEX + 1) % 65536 == s.getF FWD_LRING_TAIL_INDEX

/-- Write a record at HEAD with the phase of the present pass, or drop and count it while the ring is full or disabled (R239, R241).
(DEDUCED, assumption log 52) -/
def State.writeLearn (s : State) (rec_ : List Byte) : State :=
  let h := s.getF FWD_LRING_HEAD_INDEX
  let tl := s.getF FWD_LRING_TAIL_INDEX
  if s.learnFull then
    (s.count FWD_LEARN_RING_FULL_COUNT 1).raiseFWD FWD_INT_STATUS_RING_FULL
  else
    let t := s.emit (.hostWrite (s.pair rFWD_LRING_BASE_LO + 32 * h) (setBytes rec_ 9 [BitVec.ofNat 8 (s.getF FWD_LRING_HEAD_PHASE)]))
    let n := (h + 1) % 65536
    let t := (t.setF FWD_LRING_HEAD_INDEX n).count FWD_LEARN_POSTED_COUNT 1
    let t := if n = 0 then t.setF FWD_LRING_HEAD_PHASE (1 - s.getF FWD_LRING_HEAD_PHASE) else t
    if (n + 65536 - tl) % 65536 = s.getF FWD_LRING_CFG_THRESH then t.raiseFWD FWD_INT_STATUS_RING_THRESH else t

/-- Write a list of records in their order. -/
def State.writeLearns : State → List (List Byte) → State
  | s, [] => s
  | s, r :: t => (s.writeLearn r).writeLearns t

/-- The records that wait go out while paced channel 13 is enabled (R241, R431). -/
def State.learnFlush (s : State) : State :=
  if s.flag (HDM_DMA_CTL_EN 13) && !s.flag (HDM_DMA_STATUS_SHUTDOWN 13) then
    ({ s with fwd := { s.fwd with learnQ := [] } }).writeLearns s.fwd.learnQ
  else s

/-- Post a record (R239, R241): through paced channel 13, which it waits for while the channel is disabled or shut down. -/
def State.postLearn (s : State) (rec_ : List Byte) : State :=
  if s.learnFull then s.writeLearn rec_
  else ({ s with fwd := { s.fwd with learnQ := s.fwd.learnQ ++ [rec_] } }).learnFlush

/-- LEARN_HOLD_EXPIRY (R238–R240): the filter entry is posted once and freed. (DEDUCED, assumption log 23) -/
def execLearnHoldExpiry (entry : Nat) (s : State) : Host.Outcome State Fault Refusal :=
  .next (match s.filt[entry]? with
    | none => s
    | some x =>
      if s.now < x.expires then s
      else
        let t := { s with filt := s.filt.eraseIdx entry }
        let t := t.setF FWD_FILTER_USED_COUNT t.filt.length
        let kind := if x.portB.isSome then 3 else if x.old.isSome then 2 else 1
        t.postLearn (t.learnRec x.key kind x.portA (x.portB.getD 0xFF) (x.old.getD 0xFFFF) x.extra x.tsA x.tsB))

/-! ### FDB slots -/

/-- The copies of an FDB's entries (R224). -/
def State.fdbCopies (s : State) : Copies :=
  let r := s.liveQuads
  { dram := false, unit := 0xC00000, q := r.headD 0, reps := r }

/-- The address of slot `i` of bank `b` in the copy that commands read. -/
def State.slotAddr (s : State) (k b i : Nat) : Nat := (s.fdbAddr k b (s.fdbCopies).q i).getD 0

/-- The life word, the key and the whole entry of a slot. -/
def State.slotLife (s : State) (k b i : Nat) : Nat := s.memLe (s.slotAddr k b i + 8) 2
def State.slotKey (s : State) (k b i : Nat) : List Byte := fdbKey (s.rdMem (s.slotAddr k b i) 8)

/-- The candidate slots of a key that hold an entry with the key, VALID = 1 and DMARK = 0 (R233). -/
def State.present (s : State) (k b : Nat) (key : List Byte) : Option Nat :=
  (s.fdbSlots k b key).find? (fun i => s.slotKey k b i == key && lifeValid (s.slotLife k b i) && !lifeD (s.slotLife k b i))

/-- A free slot among a key's candidates: the lowest by way, then by entry. -/
def State.freeSlot (s : State) (k b : Nat) (key : List Byte) (used : List Nat) : Option Nat :=
  (s.fdbSlots k b key).find? (fun i => s.slotLife k b i == 0 && !used.contains i)

/-- An entry may be displaced (R234). -/
def movable (shadow : Bool) (w : Nat) : Bool := lifeValid w && (shadow || (!lifeB w && !lifeD w))

/-- The slot that step `m` of the path search selects for a key (R234): the lowest movable one not in the path in the first of the
ways m, m + 1, … that holds one; the way from which the key was taken is skipped. -/
def State.pathSlot (s : State) (k b m : Nat) (shadow : Bool) (key : List Byte) (from_ : Option Nat) (path : List Nat) : Option Nat :=
  let n := s.tblBuckets k
  let slots := s.fdbSlots k b key
  ([0, 1, 2, 3].map (fun i => (m + i) % 4)).findSome? (fun w =>
    if from_ = some w then none
    else slots.find? (fun i => i / (4 * n) == w && movable shadow (s.slotLife k b i) && !path.contains i))

/-- The path of an insert (R234): the displaced slots in order and the free slot at its end, or none where no movable slot is left or
32 moves do not end it. (DEDUCED, assumption log 53) -/
def State.movePath (s : State) (k b : Nat) (shadow : Bool) : Nat → Nat → List Byte → Option Nat → List Nat → List Nat × Option Nat
  | 0, _, _, _, path => (path, none)
  | n + 1, m, key, from_, path =>
    match s.pathSlot k b m shadow key from_ path with
    | none => (path, none)
    | some i =>
      let path := path ++ [i]
      let key' := s.slotKey k b i
      match s.freeSlot k b key' path with
      | some d => (path, some d)
      | none => State.movePath s k b shadow n (m + 1) key' (some (i / (4 * s.tblBuckets k))) path

/-- Move an entry in every copy: to the destination, then life word 0000h at the source. -/
def State.moveSlot (s : State) (k b : Nat) (src dst : Nat) : State :=
  let c := s.fdbCopies
  let a := s.slotAddr k b src
  let d := s.slotAddr k b dst
  c.reps.foldl (fun t r => (t.wrMem (c.at r d) (t.rdMem (c.at r a) 16)).wrMem (c.at r (a + 8)) [0, 0]) s

/-- Execute a path from its end backwards. -/
def State.runPath (s : State) (k b : Nat) : List Nat → Nat → State
  | [], _ => s
  | i :: t, d =>
    match t with
    | [] => s.moveSlot k b i d
    | j :: _ => (s.runPath k b t d).moveSlot k b i j

/-- Write an inserted entry with AGE = 1, its life word last. -/
def State.putEntry (s : State) (k b i : Nat) (shadow : Bool) (key : List Byte) (data : Nat) : State :=
  let c := s.fdbCopies
  let a := s.slotAddr k b i
  let life := if shadow then 1 else 3 + 4 * s.nextTag
  let fl := data / 65536 % 256 / 2 * 2 + 1
  let t := s.wrAll c a (key ++ leBytes 2 life ++ [BitVec.ofNat 8 fl, 0] ++ leBytes 2 data ++ [0, 0])
  if shadow then t else t.jrnl (.mem (a + 8))

/-- What a command has done: RESULT, moves, slot and bank, the state. -/
structure CmdOut where
  result : Nat
  moves : Nat
  slot : Option (Nat × Nat)
  st : State

/-- Insert into an FDB bank (R233, R234). (DEDUCED, assumption log 53) -/
def State.fdbInsert (s : State) (k b : Nat) (shadow : Bool) (key : List Byte) (data : Nat) : CmdOut :=
  match s.present k b key with
  | some _ => ⟨4, 0, none, s⟩
  | none =>
    match s.freeSlot k b key [] with
    | some i => ⟨1, 0, some (i, b), s.putEntry k b i shadow key data⟩
    | none =>
      match s.movePath k b shadow 32 0 key none [] with
      | (path, none) => ⟨3, path.length, none, s⟩
      | (path, some d) =>
        let t := s.runPath k b path d
        ⟨1, path.length, some (path.headD 0, b), t.putEntry k b (path.headD 0) shadow key data⟩

/-- Delete or find in an FDB bank (R233): a death is staged or a staged birth withdrawn; in the shadow bank the slot is freed. -/
def State.fdbOther (s : State) (op k b : Nat) (shadow : Bool) (key : List Byte) : CmdOut :=
  match s.present k b key with
  | none => ⟨5, 0, none, s⟩
  | some i =>
    if op = 2 then ⟨1, 0, some (i, b), s⟩
    else
      let c := s.fdbCopies
      let a := s.slotAddr k b i + 8
      let w := s.memLe a 2
      let v := if shadow || stagedBirth w s.nextTag then 0 else w % 64 + 32 + 64 * s.nextTag
      let t := s.wrAll c a (leBytes 2 v)
      ⟨1, 0, some (i, b), if shadow then t else t.jrnl (.mem a)⟩

/-! ### LPM tables -/

/-- Two prefixes of a table are the same. -/
def LpmEnt.same (e : LpmEnt) (k : Nat) (key : List Byte) (len : Nat) : Bool :=
  e.table == k && e.len == len && e.key.take 2 == key.take 2 && keyBits (e.key.drop 2) 0 len == keyBits (key.drop 2) 0 len

/-- A command on an LPM table (R233); the device holds 131,072 prefixes of a table (R221). (DEDUCED, assumption log 53) -/
def State.lpmCommand (s : State) (op k : Nat) (key : List Byte) (len action : Nat) : CmdOut :=
  let here := s.lpm.find? (fun e => e.same k key len && lifeValid e.life && !lifeD e.life)
  if op = 0 then
    match here with
    | some _ => ⟨4, 0, none, s⟩
    | none =>
      if 131072 ≤ (s.lpm.filter (fun e => e.table == k)).length then ⟨3, 0, none, s⟩
      else
        let e : LpmEnt := { table := k, key := key, len := len, life := 3 + 4 * s.nextTag, action := action }
        ⟨1, 0, none, ({ s with lpm := s.lpm ++ [e] }).jrnl (.lpm k key len)⟩
  else
    match here with
    | none => ⟨5, 0, none, s⟩
    | some x =>
      if op = 2 then ⟨1, 0, none, s⟩
      else if stagedBirth x.life s.nextTag then ⟨1, 0, none, ({ s with lpm := s.lpm.erase x }).jrnl (.lpm k key len)⟩
      else
        let y := { x with life := x.life % 64 + 32 + 64 * s.nextTag }
        ⟨1, 0, none, ({ s with lpm := updFirst (fun e => e == x) (fun _ => y) s.lpm }).jrnl (.lpm k key len)⟩

/-! ### Table commands (R233–R236) -/

/-- The bank that ACTIVE names for NEXT, or the shadow bank. -/
def State.cmdBank (s : State) (k : Nat) (shadow : Bool) : Option Nat :=
  if shadow then (if s.bankUsed k 0 then (if s.bankUsed k 1 then none else some 1) else some 0)
  else some (s.getF (FWD_TBL_BANK_ACTIVE k))

/-- What a command yields (R233). -/
def State.cmdRun (s : State) (op k : Nat) (shadow : Bool) (key : List Byte) (data : Nat) : CmdOut :=
  let kind := s.tblKind k
  let bad : CmdOut := ⟨7, 0, none, s⟩
  if 3 ≤ op then bad
  else if kind = 1 then
    match s.cmdBank k shadow with
    | none => bad
    | some b =>
      if s.journalFull then ⟨6, 0, none, s⟩
      else if op = 0 then s.fdbInsert k b shadow (fdbKey key) data
      else s.fdbOther op k b shadow (fdbKey key)
  else if kind = 4 ∧ shadow = false then
    if s.journalFull then ⟨6, 0, none, s⟩
    else
      let len := (key.getD 18 0).toNat
      if 128 < len then bad else s.lpmCommand op k (key.take 18) len data
  else bad

/-- A command starts (R233): its effects are made, its RESULT is reported when it completes, and RESULT reads busy meanwhile. -/
def State.cmdStart (s : State) (op k : Nat) (shadow : Bool) (key : List Byte) (data : Nat) : State :=
  let o := s.cmdRun op k shadow key data
  ({ o.st with cmd := some { table := k, key := key, result := o.result, moves := o.moves, slot := o.slot, held := [] } }).setF
    FWD_INS_STATUS_RESULT 2

/-- A GO of FWD_INS_CTL (R233, R236): ignored while RESULT is busy, held from COMMIT.GO to the stroke. -/
def State.cmdGo (s : State) (op k : Nat) (shadow : Bool) : State :=
  let key := (List.range 5).flatMap (fun n => leBytes 4 (s.getF (FWD_INS_KEY_KEY n)))
  let data := s.getF FWD_INS_DATA_LO_DATA + s.getF FWD_INS_DATA_HI_DATA * 2 ^ 32
  if s.getF FWD_INS_STATUS_RESULT = 2 then s
  else if s.gens.op ≠ 0 then
    ({ s with gens := { s.gens with held := s.gens.held ++ [HeldWrite.command op k shadow key data] } }).setF FWD_INS_STATUS_RESULT 2
  else s.cmdStart op k shadow key data

/-- A write of FWD_INS_CTL with GO = 1 (R233, R250): TABLE, OP and SHADOW are written, then the command goes. -/
def State.insCtl (s : State) (op k : Nat) (shadow : Bool) : State :=
  (((s.setF FWD_INS_CTL_TABLE k).setF FWD_INS_CTL_OP op).setB FWD_INS_CTL_SHADOW shadow).cmdGo op k shadow

/-- TABLE_INSERT (R233, R234). -/
def execTableInsert (table : Nat) (shadow : Bool) (s : State) : Host.Outcome State Fault Refusal := .next (s.insCtl 0 (table % 64) shadow)
/-- TABLE_DELETE (R233). -/
def execTableDelete (table : Nat) (shadow : Bool) (s : State) : Host.Outcome State Fault Refusal := .next (s.insCtl 1 (table % 64) shadow)
/-- TABLE_FIND (R233). -/
def execTableFind (table : Nat) (shadow : Bool) (s : State) : Host.Outcome State Fault Refusal := .next (s.insCtl 2 (table % 64) shadow)

/-- Apply a held access to the state as it now stands (R192, R236). -/
def State.applyHeld (s : State) : HeldWrite → State
  | .mem a d => s.bar2Word a d
  | .dram a d en => s.dramWord a (leBytes 4 d) en
  | .reg o d => s.stageWrite o d
  | .command op k sh key d => s.cmdStart op k sh key d

/-- Apply a list of held accesses in their order. -/
def State.applyHelds : State → List HeldWrite → State
  | s, [] => s
  | s, h :: t => (s.applyHeld h).applyHelds t

/-- TABLE_COMMAND_COMPLETE (R233, R235, R236): RESULT, MOVES and the slot are reported, INS_DONE is raised, a refused insert posts its
record, and the writes held meanwhile are applied. -/
def execTableCommandComplete (s : State) : Host.Outcome State Fault Refusal :=
  .next (match s.cmd with
    | none => s
    | some c =>
      let t := { s with cmd := none }
      let t := (t.setF FWD_INS_STATUS_RESULT c.result).setF FWD_INS_STATUS_MOVES c.moves
      let t := match c.slot with
        | some (i, b) => ((t.setF FWD_INS_SLOT_INDEX i).setF FWD_INS_SLOT_BANK b).setF FWD_INS_SLOT_VALID 1
        | none => t.setF FWD_INS_SLOT_VALID 0
      let t := t.raiseFWD FWD_INT_STATUS_INS_DONE
      let t := if c.result = 3 then
          let key := if s.tblKind c.table = 1 then fdbKey c.key else c.key.take 8
          (t.postLearn (t.learnRec key 5 c.table 0xFF 0xFFFF 0 s.workNs.toNat 0)).raiseFWD FWD_INT_STATUS_REHASH_REQ
        else t
      t.applyHelds c.held)

/-! ### The shadow bank (R246) -/

/-- SHADOW_CLEAR: ignored without a shadow bank; the bank that it clears is the one that is the shadow bank now. -/
def State.doShadowClear (s : State) (table : Nat) : State :=
  (if table < 64 ∧ s.tblKind table = 1 ∧ s.shadowFree table = true then
    match s.cmdBank table true with
    | some b => { (s.setF (FWD_TBL_BANK_CLEARING table) 1) with fwd := { s.fwd with clearing := sput s.fwd.clearing table b } }
    | none => s
  else s)

/-- SHADOW_CLEAR. -/
def execShadowClear (table : Nat) (s : State) : Host.Outcome State Fault Refusal := .next (s.doShadowClear table)

/-- Whether a byte address is a life word's byte of bank `b` of an FDB, in any copy. -/
def State.bankLife (s : State) (k b a : Nat) : Bool :=
  let q := a / 0xC00000
  decide (a < 0x03000000) && (s.tableTiles k q).contains (a % 0xC00000 / 0x20000) && (a % 16 == 8 || a % 16 == 9) &&
  s.tableByte k q a / (256 * s.tblBuckets k) == b && s.liveQuads.contains q

/-- SHADOW_CLEAR_DONE: every slot of the bank that CLEAR took has life word 0000h in every copy. -/
def execShadowClearDone (table : Nat) (s : State) : Host.Outcome State Fault Refusal :=
  .next (if table < 64 ∧ s.flag (FWD_TBL_BANK_CLEARING table) = true then
    let t := s.setF (FWD_TBL_BANK_CLEARING table) 0
    let t := { t with fwd := { t.fwd with clearing := sdel t.fwd.clearing table } }
    match s.fwd.clearing.lookup table with
    | some b => { t with mem := t.mem.filter (fun e => !(s.bankLife table b e.1)) }
    | none => t
    else s)

/-! ### Ageing (R243, R244) -/

/-- The sweep of a table; before its first visit it stands at slot 0. -/
def State.sweep (s : State) (k : Nat) : SweepSt := (s.fwd.sweeps.find? (fun x => x.table == k)).getD { table := k, next := 0, passAt := none }

/-- The time between two visits of a slot: AGE_S / 2 seconds, and AGE_S = 1 is taken as 2 (R243, R251). -/
def State.agePeriod (s : State) (k : Nat) : Nat := tMs (500 * max 2 (s.getF (FWD_TBL_AGE_AGE_S k)))

/-- The sweep of a table is at a slot: it visits them in ascending order, and begins a pass one period after the pass before
(DEDUCED, assumption log 100). -/
def State.sweepAt (s : State) (k slot : Nat) : Bool :=
  let w := s.sweep k
  w.next == slot && (slot != 0 || (match w.passAt with | some t0 => decide (t0 + s.agePeriod k ≤ s.now) | none => true))

/-- The sweep goes on to the next slot. -/
def State.sweepOn (s : State) (k slot : Nat) : State :=
  let w := s.sweep k
  let x : SweepSt := { table := k, next := (slot + 1) % (16 * s.tblBuckets k), passAt := if slot = 0 then some s.now else w.passAt }
  { s with fwd := { s.fwd with sweeps := x :: s.fwd.sweeps.filter (fun y => y.table != k) } }

/-- The visit of a slot of bank ACTIVE for CURRENT (R243): it acts on the word of the entry's home copy. -/
def State.ageVisit (s : State) (table slot : Nat) : State :=
    let b := s.rwgF s.curGen (FWD_TBL_BANK_ACTIVE table)
    let c := s.fdbCopies
    let a := s.slotAddr table b slot
    let w := s.memLe (a + 8) 2
    let fl := s.memLe (a + 10) 1
    let home := c.at (s.quadOf (s.memLe (a + 12) 2)) a
    if !liveFor w (s.curGen % 8) || fl.testBit 1 || fl.testBit 2 || lifeB w || lifeD w then s
    else if (s.memLe (home + 10) 1).testBit 0 then s.wrMem (home + 10) [BitVec.ofNat 8 (s.memLe (home + 10) 1 - 1)]
    else if s.journalFull then s.raiseFWD FWD_INT_STATUS_AGE_SKIP
    else
      let t := (s.wrAll c (a + 8) (leBytes 2 (w % 64 + 32 + 64 * s.nextTag))).jrnl (.mem (a + 8))
      let t := t.postLearn (t.learnRec (s.rdMem a 8) 4 0xFF 0xFF (s.memLe (a + 12) 2) 0 s.workNs.toNat 0)
      t.count (FWD_TBL_AGED_COUNT table) 1

/-- AGEING_VISIT (R243, R244): the sweep, where it stands at the slot and neither a table command nor a commit pauses it, visits the slot and
goes on. -/
def execAgeingVisit (table slot : Nat) (s : State) : Host.Outcome State Fault Refusal :=
  .next (
    let paused := s.gens.op == 1 || (match s.cmd with | some x => x.table == table | none => false)
    if s.tblKind table ≠ 1 ∨ 64 ≤ table ∨ s.getF (FWD_TBL_AGE_AGE_S table) = 0 ∨ paused = true ∨ 16 * s.tblBuckets table ≤ slot ∨
       s.sweepAt table slot = false then s
    else (s.ageVisit table slot).sweepOn table slot)

/-! ### TCAM rows -/

/-- TCAM_ROW_WRITE (R207, R213). -/
def execTcamRowWrite (addr data : Nat) (s : State) : Host.Outcome State Fault Refusal :=
  .next (if 0x0E000000 ≤ addr ∧ addr < 0x0E800000 then s.bar2Write addr 4 data else s)

/-- The even row record of a chained row, or the row's own. (DEDUCED, assumption log 51) -/
def State.evenRow (s : State) (q b r : Nat) : Nat := if s.flag (ASM_Q_BLK_ODD q b) then rowAddr q (b - 1) r else rowAddr q b r

/-- A row's mirror word is uncorrectable (R217): reloaded from another quadrant's mirror for a global table, else marked LOST. -/
def State.mirrorLost (s : State) (q b r : Nat) : State :=
  let k := s.getF (ASM_Q_BLK_TABLE q b)
  let others := s.liveQuads.filter (fun x => x != q && !s.lost.contains (s.evenRow x b r))
  match (if s.flag (ASM_TBL_CFG_GLOBAL k) then others.head? else none) with
  | some x => { s with mirror := writeBytes s.mirror (rowAddr q b r) (readBytes s.mirror (rowAddr x b r) 45) }
  | none =>
    let e := s.evenRow q b r
    let t := { s with lost := e :: s.lost.filter (· != e) }
    ((t.setF (ASM_Q_LOST_INFO_ROW q) r).setF (ASM_Q_LOST_INFO_BLOCK q) b).setF (ASM_Q_LOST_INFO_VALID q) 1

/-- TCAM_ROW_CHECK (R216, R217): the row equals its mirror, differs from it, has a single-bit mirror error, or an uncorrectable one. -/
def execTcamRowCheck (q block row fault : Nat) (s : State) : Host.Outcome State Fault Refusal :=
  .next (if 4 ≤ q ∨ 24 ≤ block ∨ 512 ≤ row ∨ s.flag (ASM_Q_BLK_POWERED q block) = false then s
    else if fault = 1 then
      ((s.repairRow (rowAddr q block row)).count (ASM_Q_REPAIR_COUNT q) 1).event (152 + 4 * q + 3) (.tile q)
    else if fault = 2 then s.event (152 + 4 * q + 1) (.tile q)
    else if fault = 3 then (s.mirrorLost q block row).event (152 + 4 * q + 2) (.tile q)
    else s)

end Sys2Proof.Machine
end

