-- ==== Sys2Proof/Machine/Commits.lean ====
section
/-!
DEFINITION. Machine/Commits.lean: commits, discards, draining and retiring of generations (R192–R199).
-/

namespace Sys2Proof.Machine

/-- The CLS_OUTSTANDING register as the outstanding generations make it. -/
def State.genRegs (s : State) : State :=
  let l := s.gens.outs
  let tags := l.foldl (fun m g => m ||| 2 ^ (g.gen % 8)) 0
  let t := (s.setF CLS_OUTSTANDING_COUNT l.length).setF CLS_OUTSTANDING_TAGS tags
  match l.getLast? with | some g => t.setF CLS_OUTSTANDING_OLDEST g.gen | none => t

/-- Some tree table would have more than one root slot live for NEXT (R194). -/
def State.rootClash (s : State) : Bool :=
  (List.range 64).any (fun k => s.tblKind k == 5 &&
    decide (1 < ((List.range 8).filter (fun i => liveFor (s.getF (CLS_ROOT_LIFE_LIFE k i)) s.nextTag)).length))

/-- COMMIT_GO (R192, R194): busy, refused-outstanding and refused-root raise REFUSED; else writes are held from here on. -/
def State.doCommitGo (s : State) : State :=
  (
    let refuse := fun (r : Nat) => (s.setF CLS_COMMIT_STATUS_RESULT r).raiseCLS CLS_INT_STATUS_REFUSED
    if s.gens.op ≠ 0 then refuse 4
    else if 4 ≤ s.gens.outs.length then refuse 3
    else if s.rootClash then refuse 5
    else ({ s with gens := { s.gens with op := 1 } }).setF CLS_COMMIT_STATUS_RESULT 2)

/-- COMMIT_GO (R192, R194). -/
def execCommitGo (s : State) : Host.Outcome State Fault Refusal := .next (s.doCommitGo)

/-- Held _LO writes of staged pairs are applied at the stroke (R9). -/
def State.useStaged (s : State) : State :=
  (s.heldLo.filter (fun e => hasRwg e.1)).foldl (fun t e =>
    { t.stageFields e.1 e.2.toNat with heldLo := t.heldLo.filter (fun x => x.1 != e.1) }) s

/-- The staged values of the RWG registers. -/
def State.stagedWords (s : State) : List (Nat × Word) := s.regs.filter (fun e => hasRwg e.1)

/-- Apply what was held since GO or DISCARD, in order. -/
def State.releaseHeld (s : State) : State :=
  ({ s with gens := { s.gens with held := [] } }).applyHelds s.gens.held

/-- The stroke's cycle (R193): in all quadrants NEXT becomes current, the staged RWG values with it. -/
def State.strike (s : State) : State :=
  let s := s.useStaged
  let old := s.curGen
  let new := s.getF CLS_GEN_NEXT
  let g : GenSt := { gen := new, rwg := s.stagedWords, journal := s.gens.journal, superAt := none, drained := false, settled := false }
  let outs := s.gens.outs.map (fun x => if x.gen == old then { x with superAt := some s.now } else x)
  -- the sweep of a table whose active bank changes restarts at slot 0 of the new bank (R244)
  let sweeps := s.fwd.sweeps.filter (fun w => s.getF (FWD_TBL_BANK_ACTIVE w.table) == s.rwgF old (FWD_TBL_BANK_ACTIVE w.table))
  let t := { s with gens := { s.gens with outs := g :: outs, journal := [], op := 0, strokeAt := s.now }, fwd := { s.fwd with sweeps := sweeps } }
  let t := (t.setF CLS_GEN_CURRENT new).setF CLS_GEN_NEXT ((new + 1) % 65536)
  let t := (t.wr (rCLS_DRAIN (new % 8)) (BitVec.ofNat 32 new)).setF (CLS_DRAIN_OUTSTANDING (new % 8)) 1
  let t := (t.genRegs.setF CLS_JOURNAL_STAGED 0).setF CLS_STROKE_NS_NS (nsPart s.workNs)
  let t := (t.setF CLS_STROKE_SEC_SEC (secPart s.workNs)).setF CLS_COMMIT_STATUS_GEN new
  (t.setF CLS_COMMIT_STATUS_RESULT 1).raiseCLS CLS_INT_STATUS_DONE

/-- STROKE (R192, R193): the pending commit's stroke, then the held writes under the new NEXT. -/
def execStroke (s : State) : Host.Outcome State Fault Refusal :=
  .next (if s.gens.op = 1 then s.strike.releaseHeld else s)

/-- COMMIT_DISCARD (R199): while an operation is under way it only reports busy. -/
def State.doCommitDiscard (s : State) : State :=
  (if s.gens.op ≠ 0 then s.setF CLS_COMMIT_STATUS_RESULT 4
    else ({ s with gens := { s.gens with op := 2 } }).setF CLS_COMMIT_STATUS_RESULT 2)

/-- COMMIT_DISCARD (R199). -/
def execCommitDiscard (s : State) : Host.Outcome State Fault Refusal := .next (s.doCommitDiscard)

/-! ### What a journal record names -/

/-- The life word of a recorded object, and the copies that a write of it reaches. -/
def State.recLife (s : State) : JRec → Nat
  | .mem a => s.memLe a 2
  | .dram a => leNat (s.rdDram a 2)
  | .root k i => s.getF (CLS_ROOT_LIFE_LIFE k i)
  | .lpm k key len => ((s.lpm.find? (fun e => e.same k key len && (lifeB e.life || lifeD e.life))).map (·.life)).getD 0

/-- The addresses of every copy of a recorded BAR2 object. -/
def State.recCopies (s : State) (a : Nat) : List Nat :=
  if a < 0x03000000 then
    let q := a / 0xC00000
    match s.tileOwner q (a % 0xC00000 / 0x20000) with
    | some r => if r.glob then (List.range 4).map (fun x => a % 0xC00000 + 0xC00000 * x) else [a]
    | none => [a]
  else
    let o := a - 0x0E000000
    if s.flag (ASM_TBL_CFG_GLOBAL (s.getF (ASM_Q_BLK_TABLE (o / 0x200000) (o % 0x200000 / 0x8000)))) then
      (List.range 4).map (fun x => 0x0E000000 + 0x200000 * x + o % 0x200000)
    else [a]

/-- Rewrite a recorded object's life word by `f` in every copy. -/
def State.recMap (s : State) (f : Nat → Nat) : JRec → State
  | .mem a => (s.recCopies a).foldl (fun t x => t.wrMem x (leBytes 2 (f (t.memLe x 2)))) s
  | .dram a => s.wrDram a (leBytes 2 (f (leNat (s.rdDram a 2))))
  | .root k i => s.setF (CLS_ROOT_LIFE_LIFE k i) (f (s.getF (CLS_ROOT_LIFE_LIFE k i)))
  | .lpm k key len =>
    { s with lpm := (s.lpm.map (fun e => if e.same k key len then { e with life := f e.life } else e)).filter (fun e => e.life != 0) }

/-- Rewrite the life words of a list of records. -/
def State.recMaps (s : State) (f : Nat → Nat) : List JRec → State
  | [] => s
  | r :: t => (s.recMap f r).recMaps f t

/-- A life word after its generation settles (R197): a birth loses its mark, a death frees the object. (DEDUCED, assumption log 52) -/
def settleLife (n w : Nat) : Nat :=
  if lifeD w && lifeDeath w == n then 0
  else if lifeB w && lifeBirth w == n then w % 2 + w / 32 * 32 else w

/-- A life word whose staging is reverted (R199): a staged birth is withdrawn, a staged death loses its mark. -/
def revertLife (n w : Nat) : Nat :=
  if stagedBirth w n then 0
  else if lifeD w && lifeDeath w == n then w % 32 + w / 512 * 512 else w

/-- A staged RWG register returns to its current value. -/
def State.unstage (s : State) (off : Nat) : State := s.stageFields off (s.rwg s.curGen off).toNat

/-- Return every staged RWG register to its current value. -/
def State.unstageAll (s : State) : List Nat → State
  | [] => s
  | o :: t => (s.unstage o).unstageAll t

/-- DISCARD_COMPLETE (R199): the staging of NEXT is reverted, its journal is empty, RESULT reads discarded. (DEDUCED, assumption log 52)
A _LO write of an RWG pair that is merely held is dropped with it (DESIGN CHOICE, assumption log 75). -/
def execDiscardComplete (s : State) : Host.Outcome State Fault Refusal :=
  .next (if s.gens.op = 2 then
    let t := s.recMaps (revertLife s.nextTag) s.gens.journal
    let cur := match s.gen s.curGen with | some g => g.rwg.map (·.1) | none => []
    let t := t.unstageAll ((s.stagedWords.map (·.1)) ++ cur)
    let t := { t with gens := { t.gens with journal := [], op := 0 }, heldLo := t.heldLo.filter (fun e => !(hasRwg e.1)) }
    ((t.setF CLS_JOURNAL_STAGED 0).setF CLS_COMMIT_STATUS_RESULT 6).releaseHeld
    else s)

/-! ### Draining and retiring -/

/-- Replace the record of an outstanding generation. -/
def State.updGen (s : State) (g : Nat) (f : GenSt → GenSt) : State :=
  { s with gens := { s.gens with outs := updFirst (fun x => x.gen == g) f s.gens.outs } }

/-- GENERATION_DRAINED (R195): the generation is superseded and its count is 0. -/
def execGenerationDrained (gen : Nat) (s : State) : Host.Outcome State Fault Refusal :=
  .next (match s.gen gen with
    | none => s
    | some g =>
      match g.superAt with
      | none => s
      | some at_ =>
        if g.drained || decide (s.drainCount gen ≠ 0) then s
        else
          let t := s.updGen gen (fun x => { x with drained := true })
          ((t.setF (CLS_DRAIN_DRAINED (gen % 8)) 1).maxF CLS_DRAIN_PEAK_NS_NS ((s.now - at_) / 27)).raiseCLS CLS_INT_STATUS_DRAINED)

/-- The stations that hold frames or copies of a generation (R196), as quadrant and index: 0 parse, 1 + k position k, 15 rewrite. -/
def State.holders (s : State) (gen : Nat) : List (Nat × Nat) :=
  let fs := (s.frames.filter (fun f => f.gen == gen && f.phase != .waiting)).filterMap (fun f =>
    f.stationIdx.map (fun i => (s.quadOf f.port, i)))
  let cs := (s.copies.filter (fun c => c.gen == gen && c.phase != .sending)).filterMap (fun c =>
    c.stationIdx.map (fun i => (s.quadOf c.port, i)))
  (fs ++ cs).eraseDups

/-- Raise the station-residency source of each station of a list (R196, R453). -/
def State.residency : State → List (Nat × Nat) → State
  | s, [] => s
  | s, (q, i) :: t => (s.event (183 + 16 * q + i) (.station q i)).residency t

/-- DRAIN_TIMEOUT (R196, R453): 20 µs after the stroke that superseded a generation that is not drained, the drain timeout's own source
180 and the station-residency source of each holder are raised. -/
def execDrainTimeout (gen : Nat) (s : State) : Host.Outcome State Fault Refusal :=
  .next (match s.gen gen with
    | none => s
    | some g =>
      match g.superAt with
      | none => s
      | some at_ =>
        if g.drained || decide (s.now < at_ + tUs 20) then s
        else ((s.raiseCLS CLS_INT_STATUS_DRAIN_TMO).residency (s.holders gen)).event 180 .trafficMgr)

/-- GENERATION_RETIRED (R197, R198): the oldest outstanding generation, drained, retires once the journal of the next one is settled. (DEDUCED, assumption log 52) -/
def execGenerationRetired (gen : Nat) (s : State) : Host.Outcome State Fault Refusal :=
  .next (match s.gens.outs.getLast?, s.gen ((gen + 1) % 65536) with
    | some g, some n =>
      if g.gen ≠ gen ∨ g.drained = false ∨ n.gen = gen then s
      else
        let t := s.recMaps (settleLife (n.gen % 8)) n.journal
        let t := t.updGen n.gen (fun x => { x with settled := true, journal := [] })
        let t := { t with gens := { t.gens with outs := t.gens.outs.filter (fun x => x.gen != gen) } }
        let t := (t.setF (CLS_DRAIN_SETTLED (gen % 8)) 1).setF (CLS_DRAIN_RETIRED (gen % 8)) 1
        (t.setF (CLS_DRAIN_OUTSTANDING (gen % 8)) 0).genRegs.raiseCLS CLS_INT_STATUS_RETIRED
    | _, _ => s)

end Sys2Proof.Machine
end

