-- ==== Sys2Proof/Machine/FlowOps.lean ====
section
/-!
DEFINITION. Machine/FlowOps.lean: received flow control (R106–R108): MAC control frames, pause timers, the classes they hold.
-/

namespace Sys2Proof.Machine

/-- The class of priority `i` under MAC_PFC_MAP (R108). -/
def State.pfcTc (s : State) (p i : Nat) : Nat := s.getF (MAC_PFC_MAP_MAP p) / 2 ^ (3 * i) % 8

/-- The classes held by the timers that run: a PFC timer by priority, the link-level timer as number 8 (R108). -/
def State.pausedMask (s : State) (p : Nat) : Nat :=
  let ign := s.getF (MAC_CTL_PFC_IGNORE p)
  let mine := ((s.port p).map (·.pauseEnd)).getD []
  ((List.range 8).filter (fun t => !ign.testBit t && mine.any (fun e => e.1 == 8 || s.pfcTc p e.1 == t))).foldl (fun m t => m + 2 ^ t) 0

/-- MAC_STATUS.PAUSED follows the timers. -/
def State.pauseShow (s : State) (p : Nat) : State := s.setF (MAC_STATUS_PAUSED p) (s.pausedMask p)

/-- A time in quanta of 512 bit times at the port's nominal rate (R107). -/
def State.quanta (s : State) (p q : Nat) : Nat := if s.rate p = 0 then 0 else q * 512 * 27000 / s.rate p

/-- Each timer of a list starts or is replaced; a time of 0 ends it (R107). -/
def State.pauseTimers (s : State) (p : Nat) : List (Nat × Nat) → State
  | [] => s
  | (i, q) :: t =>
    (s.updPort p (fun x => { x with pauseEnd := if q = 0 then sdel x.pauseEnd i else sput x.pauseEnd i (s.now + s.quanta p q) })).pauseTimers p t

/-- Count PFC frames by class. -/
def State.pfcTallies (s : State) (p k : Nat) : List Nat → State
  | [] => s
  | t :: l => (s.portTally p (tTc t k) 1).pfcTallies p k l

/-- A MAC control frame has come whole, `len` bytes with its FCS (R98, R106–R108): op 0 is link-level pause, 1 PFC, else an opcode that is
not known; `prios` gives priorities and their times in quanta. -/
def State.pauseRx (s : State) (port op len : Nat) (badFcs : Bool) (prios : List (Nat × Nat)) : State :=
  if !s.flag (MAC_STATUS_LINK port) then
    ((s.portTally port tRX_FRAMES 1).portTally port tRX_BYTES len).portTally port tRX_PORT_DOWN 1
  else
    let t := s.rxTally port len
    if badFcs then t.portTally port tRX_FCS_ERR 1
    else
      let t := t.portTally port tRX_MCAST 1
      if 1 < op ∨ op ≠ s.getF (MAC_CTL_FC_MODE port) then t.portTally port tRX_MACCTL_DISCARD 1
      else if op = 0 then
        let t := t.portTally port tRX_PAUSE 1
        if s.flag (MAC_CTL_RX_PAUSE_EN port) then (t.pauseTimers port ((prios.take 1).map (fun e => (8, e.2 % 65536)))).pauseShow port else t
      else
        let ps := (prios.filter (fun e => e.1 < 8)).map (fun e => (e.1, e.2 % 65536))
        let tcs := (ps.map (fun e => s.pfcTc port e.1)).eraseDups
        let ign := tcs.any (fun tc => (s.getF (MAC_CTL_PFC_IGNORE port)).testBit tc)
        let t := (t.portTally port tRX_PFC 1).pfcTallies port 4 tcs
        let t := if ign then t.portTally port tPFC_IGNORED 1 else t
        if s.flag (MAC_CTL_RX_PAUSE_EN port) then (t.pauseTimers port ps).pauseShow port else t

/-- A frame that a front port's MAC consumes (R106): EtherType 8808h. -/
def Frame.macControl (f : Frame) : Bool := decide (f.port < 64 ∧ 14 ≤ f.raw.length) && be16 f.raw 12 == 0x8808

/-- The opcode and the priorities with their times of a MAC control frame, as IEEE 802.3 Annex 31B and IEEE 802.1Qbb lay it out (PRESUMED,
PRESUMED, assumption log 89). -/
def ctlFields (raw : List Byte) : Nat × List (Nat × Nat) :=
  let op := be16 raw 14
  if op = 1 then (0, [(0, be16 raw 16)])
  else if op = 0x101 then (1, ((List.range 8).filter (fun i => (be16 raw 16).testBit i)).map (fun i => (i, be16 raw (18 + 2 * i))))
  else (2, [])

end Sys2Proof.Machine
end

