-- ==== Sys2Proof/Machine/FramePath.lean ====
section
/-!
DEFINITION. Machine/FramePath.lean: a frame from its first bit to its enqueue (R14, R98–R104, R119, R129–R130, R159–R175,
R237–R238, R258, R264–R272).
-/

namespace Sys2Proof.Machine

/-! ### Arrival -/

/-- Why a port admits no frame (R28, R52, R69, R81, R85, R98, R103, R462): the reason its frames are dropped with, or none.  A frame that
the stop of admission loses is counted as a congestion drop, as R476 has every frame not delivered counted (DEDUCED, assumption log 14). -/
def State.notAdmitted (s : State) (p : Nat) : Option Nat :=
  if (p < 64 ∨ p = 65) ∧ (!s.flag (MAC_STATUS_LINK p) ∨ s.flag (MAC_STATUS_SHUTDOWN p) ∨ !s.flag (MAC_CTL_EN p)) then some tRX_PORT_DOWN
  else if !s.forwards || s.mode.admitStop || (s.load.leap == 1 && decide (p < 64)) then some tRX_CONGESTION
  else none

/-- The ingress timestamp of a first bit that arrives now (R115, R293). -/
def State.ingressTs (s : State) (p : Nat) : Nat :=
  (((s.localNs : Int) * 1000 + signedOf 16 (s.getF (MAC_TS_ADJ_RX_ADJ p))) / 1000).toNat

/-- The combined fields at hand-over (R174). -/
def freshRes : Resolved :=
  { fwdOp := 0, dest := 0, locked := false, tc := 0, dp := 0, copyHost := false, mirror := false, profile := 0 }

/-- A frame at its first bit. -/
def newFrame (fid port at_ ts writer : Nat) : Frame :=
  { fid := fid, port := port, arriveAt := at_, ts := ts, phase := .waiting, preempt := false, macsec := false, inject := false,
    recirc := false, bytes := [], raw := [], sec := none, wire := 0, ended := false, gen := 0, flags := 0, layers := [], keys := List.replicate 128 0,
    pos := 0, looking := false, res := freshRes, stream := none, seq := none, list := [], beads := [], writer := writer, pool := 0,
    admitted := 0, why := none, dropCode := none, counted := false, l4full := false, txTag := none, meters := [], vhdr := [], inTc := 0,
    filtered := false, learn := none, lookAt := 0 }

/-- FRAME_ARRIVAL (R14, R98, R115, R268): one of the three ingress writers of the port's quadrant takes the frame; which one comes
with the command (DEDUCED, assumption log 22).  An identifier in use names no new frame. -/
def execFrameArrival (fid port : Nat) (preempt : Bool) (writer : Nat) (vhdr : List Byte) (s : State) : Host.Outcome State Fault Refusal :=
  .next (if (s.frame fid).isSome ∨ !s.ports.any (fun x => x.port == port && x.mode != 0) then s
    else
      let f := newFrame fid port s.now (s.ingressTs port) (0x300 + 3 * s.quadOf port + writer % 3)
      let f := { f with preempt := preempt, vhdr := vhdr }
      let f := if f.replica then { f with stream := some f.ropeHandle } else f
      match s.notAdmitted port with
      | some why => { s with frames := s.frames ++ [{ f with phase := .dropped, why := some why }] }
      | none => { s with frames := s.frames ++ [f] })

/-! ### Parsing -/

/-- Enough of a frame has come for it to be parsed: on a front port its EtherType, which tells a MAC control frame (R106; DEDUCED, assumption
log 89), elsewhere a byte. -/
def Frame.known (f : Frame) : Bool := f.ended || (if f.port < 64 then decide (14 ≤ f.bytes.length) else !f.bytes.isEmpty)

/-- PARSE_THREAD_START (R106, R129, R132, R154, R162, R168): on the engine with more free slots, stamped with the current generation; the
root node's entry and layer. (DEDUCED, assumption log 22) -/
def execParseThreadStart (fid slot : Nat) (s : State) : Host.Outcome State Fault Refusal :=
  .next (match s.frame fid with
    | none => s
    | some f =>
      if f.phase ≠ .waiting ∨ f.known = false ∨ f.macControl = true then s
      else
        let q := s.quadOf f.port
        match s.pickEngine (4 * q) (4 * q + 1) with
        | none => s
        | some e =>
          if !(s.freeSlots e).contains slot then s
          else
            let root := s.node 0
            let ls := match root with | some n => if n.record then [{ kind := n.kind, off := 0 }] else [] | none => []
            let f := { f with phase := .parsing, gen := s.curGen, layers := ls }
            let t := (s.putFrame f).startThread e slot (.frame fid) ((root.map (·.entry)).getD 0)
            (t.count (PRS_Q_FRAMES_COUNT q) 1).evt q 1 f.port 15)

/-- PARSE_SLOT_TIMEOUT (R129): 64 core cycles without a free slot; of the quadrant's two parse engines the first counts the frame
(DESIGN CHOICE, assumption log 96). -/
def execParseSlotTimeout (fid : Nat) (s : State) : Host.Outcome State Fault Refusal :=
  .next (match s.frame fid with
    | none => s
    | some f =>
      let q := s.quadOf f.port
      if f.phase = .waiting ∧ f.macControl = false ∧ f.arriveAt + tCyc 64 ≤ s.now ∧ s.pickEngine (4 * q) (4 * q + 1) = none then
        (s.count (HSQ_NOSLOT_CNT_COUNT (4 * q)) 1).dropFrame fid tRX_CONGESTION
      else s)

/-- An earlier frame of the same port that has been neither handed over nor dropped (R130). -/
def State.earlierHeld (s : State) (f : Frame) : Bool :=
  (s.frames.takeWhile (fun x => x.fid != f.fid)).any (fun x => x.port == f.port && !x.macControl &&
    (x.phase == .waiting || x.phase == .parsing || x.phase == .parsed))

/-- KEY_SET_HANDOVER (R130, R161, R174, R258): the class is taken, and the beads of the bytes that have come are requested. -/
def execKeySetHandover (fid : Nat) (s : State) : Host.Outcome State Fault Refusal :=
  .next (match s.frame fid with
    | none => s
    | some f =>
      if f.phase ≠ .parsed ∨ s.earlierHeld f = true then s
      else
        let t := s.putFrame { (s.classify f) with phase := .station, pos := 0 }
        State.claimBeads 64 (t.maxF (PRS_Q_PEAK_NS_NS (s.quadOf f.port)) ((s.now - f.arriveAt) / 27)) fid)

/-! ### Stations -/

/-- A table's lookups fetch from DRAM: a tree table, or an exact flow table with a DRAM extension (R177, R185). -/
def State.tableFetches (s : State) (k : Nat) : Bool :=
  s.tblKind k == 5 || (s.tblKind k == 3 && s.getF (DRC_RGN_TBL_SIZE_MIB k) != 0)

/-- The station at a position looks up a table that fetches from DRAM. -/
def State.fetchStation (s : State) (q n : Nat) : Bool :=
  let kind := s.getF (CLS_Q_POS_KIND q n)
  kind != 0 && kind != 4 && kind != 5 && s.tableFetches (s.getF (CLS_Q_POS_TABLE q n))

/-- The outstanding DRAM fetches of a quadrant's tree and exact flow stations (R185): one for each of its lookups under way there, since
the fetches of a walk are serial.  (DEDUCED, assumption log 98) -/
def State.fetchCount (s : State) (q : Nat) : Nat :=
  (s.frames.filter (fun f => s.quadOf f.port == q && f.phase == .station && f.looking && s.fetchStation q f.pos)).length +
  (s.copies.filter (fun c => s.quadOf c.port == q && c.phase == .station && c.looking && s.fetchStation q c.pos)).length +
  ((s.threads.filter (fun th => th.eng != 16 && th.eng / 4 == q)).map (fun th => (th.results.filter (fun r => match r with
    | .issued k _ _ => s.tableFetches k | _ => false)).length)).sum

/-- A station of a quadrant accepts no new frame while all 256 DRAM fetches are in use (R185), or, a TCAM station, while its quadrant
restarts (R218); the frame waits upstream. -/
def State.fetchFull (s : State) (q n : Nat) : Bool :=
  (s.fetchStation q n && decide (256 ≤ s.fetchCount q)) || (s.getF (CLS_Q_POS_KIND q n) == 2 && s.restarting q)

/-- A station has work: its clock restarts after 64 cycles without any (R23), which event 11h counts. -/
def State.works (s : State) (q n : Nat) : State :=
  let last := (s.tly.workAt.lookup (16 * q + n)).getD 0
  let t := { s with tly := { s.tly with workAt := sput s.tly.workAt (16 * q + n) s.now } }
  if last + tCyc 64 ≤ s.now then t.evt q 0x11 0 n else t

/-- A station issues its lookup for a frame: 02h, or it lets the frame pass where the image gives the position no station. -/
def State.frameLookup (s : State) (f : Frame) : State :=
  let q := s.quadOf f.port
  if f.phase ≠ .station ∨ f.looking = true ∨ 10 ≤ f.pos ∨ s.fetchFull q f.pos = true then s
  else ((s.works q f.pos).putFrame { f with looking := true, lookAt := s.now }).evt q 2 0 f.pos

/-- STATION_LOOKUP (R170): for a frame in front of an ingress station, or a copy in front of an egress station. -/
def execStationLookup (l : Look) (s : State) : Host.Outcome State Fault Refusal :=
  .next (match l with
    | .frame fid => (match s.frame fid with | some f => s.frameLookup f | none => s)
    | .copy fid p =>
      (match s.copy fid p with
       | some c => if c.phase = .station ∧ c.looking = false ∧ c.pos < 14 ∧ s.fetchFull (s.quadOf p) c.pos = false then
           ((s.works (s.quadOf p) c.pos).putCopy { c with looking := true, lookAt := s.now }).evt (s.quadOf p) 2 0 c.pos else s
       | none => s)
    | .thread _ _ _ => s)

/-- An earlier frame of the same port stands at this position or before it (R170). -/
def State.earlierBehind (s : State) (f : Frame) : Bool :=
  (s.frames.takeWhile (fun x => x.fid != f.fid)).any (fun x => x.port == f.port && x.phase == .station && decide (x.pos ≤ f.pos))

/-- The result of a frame's lookup: hits and misses are counted, the results combine, and the frame moves on (R170–R174). -/
def State.frameResult (s : State) (f : Frame) (confirmFail : Bool) : State :=
  let q := s.quadOf f.port
  let p : Pass := { res := f.res, keys := f.keys, drop := false }
  match s.station q f.pos f.gen f p confirmFail with
  | (none, t) => t.dropFrame f.fid tRX_CONGESTION
  | (some (hit, ws, g), t) =>
    let t := (t.works q f.pos).evt q (if hit then 3 else 4) 0 f.pos
    let r := t.combineAll q false ws p
    let pos := f.pos + 1
    r.2.putFrame { g with res := r.1.res, keys := r.1.keys, looking := false, pos := pos, phase := if pos = 10 then .resolving else .station }

/-- The result of a copy's lookup (R334, R335). -/
def State.copyResult (s : State) (f : Frame) (c : Copy) (confirmFail : Bool) : State :=
  let q := s.quadOf c.port
  let p : Pass := { res := c.res, keys := c.keys, drop := c.egDrop }
  match s.station q c.pos c.gen { f with lookAt := c.lookAt } p confirmFail with
  | (none, t) => t.dropCopy c tTX_CONGESTION
  | (some (hit, ws, g), t) =>
    let t := ((t.works q c.pos).putFrame { f with meters := g.meters }).evt q (if hit then 3 else 4) 0 c.pos
    let r := t.combineAll q true ws p
    r.2.putCopy { c with res := r.1.res, keys := r.1.keys, egDrop := r.1.drop, looking := false, pos := c.pos + 1 }

/-- The result of an LKP (R132, R135, R162): in the quadrant of its engine, under the tag of its frame or copy. -/
def State.threadResult (s : State) (th : Thread) (slot : Nat) (confirmFail : Bool) : State :=
  match th.results.getD slot .empty with
  | .issued k sel at_ =>
    let q := if th.eng < 16 then th.eng / 4 else 0
    let gen := match th.target with
      | .frame fid => (match s.frame fid with | some f => f.gen | none => s.curGen)
      | .copy fid p => (match s.copy fid p with | some c => c.gen | none => s.curGen)
      | .task _ => s.curGen
    let r := s.tableLookup q k gen at_ (s.keyWin (s.keysOf th.target) sel) confirmFail
    let back := fun (t : State) (ws : List Nat) =>
      t.putThread { th with results := th.results.set slot (.returned ws) }
    match r.1 with
    | .hit ws => back (if th.eng < 16 then r.2.evt q 3 0 15 else r.2) ((ws.headD 0 |> fun w => [w % 65536, w / 2 ^ 16 % 65536, w / 2 ^ 32 % 65536, w / 2 ^ 48]))
    | .miss => back (if th.eng < 16 then r.2.evt q 4 0 15 else r.2) []
    | .lost => r.2.loseTarget th.target
  | _ => s

/-- An LKP names a TCAM table of a quadrant that restarts, which accepts no search (R218). -/
def State.searchHeld (s : State) (th : Thread) (slot : Nat) : Bool :=
  match th.results.getD slot .empty with
  | .issued k _ _ => s.tblKind k == 6 && s.restarting (if th.eng < 16 then th.eng / 4 else 0)
  | _ => false

/-- LOOKUP_RESULT_RETURN (R141, R170, R215): a frame moves on in the order of its port; `confirmFail` says that the winning TCAM row
was upset. -/
def execLookupResultReturn (l : Look) (confirmFail : Bool) (s : State) : Host.Outcome State Fault Refusal :=
  .next (match l with
    | .frame fid =>
      (match s.frame fid with
       | some f => if f.phase = .station ∧ f.looking = true ∧ s.earlierBehind f = false then s.frameResult f confirmFail else s
       | none => s)
    | .copy fid p =>
      (match s.frame fid, s.copy fid p with
       | some f, some c => if c.phase = .station ∧ c.looking = true then s.copyResult f c confirmFail else s
       | _, _ => s)
    | .thread e sl slot =>
      (match s.thread e sl with
       | some th => if s.searchHeld th slot = true then s else s.threadResult th slot confirmFail
       | none => s))

/-! ### Learning (R237, R238) -/

/-- The set of the learn filter that a key selects. -/
def filtSet (key : List Byte) : Nat := crc32c key % 1024

/-- A frame presents its learn event: received good, and not dropped in its ingress pass but by a rule or a meter (R237). (DEDUCED, assumption log 23) -/
def Frame.presents (f : Frame) : Bool :=
  f.phase != .dropped &&
  (match f.why with
   | none => true
   | some w => w == tRX_METER_RED || w == tRX_RULE_DROP || (w == tRX_CONGESTION && f.phase == .enqueued))

/-- A learn event meets the filter (R238). (DEDUCED, assumption log 23) -/
def State.learnEvent (s : State) (f : Frame) (e : LearnEv) : State :=
  match s.filt.find? (fun x => x.key == e.key) with
  | some x =>
    if x.portA = f.port then s.count FWD_LEARN_SUPPR_COUNT 1
    else
      let repl := fun (y : FiltEnt) => { s with filt := updFirst (fun z => z.key == e.key) (fun _ => y) s.filt }
      (match x.portB with
       | none => (repl { x with portB := some f.port, tsB := f.ts }).count FWD_LEARN_CONTESTED_COUNT 1
       | some b => if b = f.port then s.count FWD_LEARN_SUPPR_COUNT 1 else repl { x with extra := min 255 (x.extra + 1) })
  | none =>
    if 4 ≤ (s.filt.filter (fun x => filtSet x.key == filtSet e.key)).length then s.count FWD_LEARN_FILT_FULL_COUNT 1
    else
      let x : FiltEnt := { key := e.key, old := e.old, portA := f.port, tsA := f.ts, portB := none, tsB := 0, extra := 0,
                           expires := s.now + tUs (max 1 (s.getF FWD_LEARN_CFG_HOLD_US)) }
      ({ s with filt := s.filt ++ [x] }).setF FWD_FILTER_USED_COUNT (s.filt.length + 1)

/-- Present a frame's event, if it has one. (DEDUCED, assumption log 23) -/
def State.presentLearn (s : State) (f : Frame) : State :=
  match f.learn with | some e => if f.presents then s.learnEvent f e else s | none => s

/-! ### Resolution and enqueue -/

/-- The stream filter where the frame is a member and the filter has EN = 1 (R321): whether it drops the frame. -/
def State.filterStep (s : State) (f : Frame) : Bool × Frame × State :=
  match f.stream with
  | some h => if (s.memLe (filterAddr h + 5) 1).testBit 0 then s.streamFilter f h else (false, f, s)
  | none => (false, f, s)

/-- The reason under which a frame without a copy left resolution, as R237 tells rules and meters from other reasons; none where what took
its copies is no drop (R249, R378). -/
def State.dropWhy (s : State) (f : Frame) : Option Nat :=
  let r := f.res
  if 2 ≤ r.dp then some tRX_METER_RED
  else if r.fwdOp = 3 then some tRX_RULE_DROP
  else if r.fwdOp = 4 then none
  else if r.fwdOp = 0 then some tRX_UNRESOLVED
  else if (extraCopies f ((s.destPorts f).map (fun p => { port := p, why := 0, reason := 0, replica := false }))).isEmpty then some tRX_UNRESOLVED
  else if s.twinDrops f then some tRX_UNRESOLVED
  else none

/-- ACTION_RESOLUTION (R174, R175, R321, R373–R377): the copy list is formed. -/
def execActionResolution (fid : Nat) (s : State) : Host.Outcome State Fault Refusal :=
  .next (match s.frame fid with
    | none => s
    | some f =>
      if f.phase ≠ .resolving then s
      else
        let r := s.filterStep f
        let t := if r.1 then r.2.2.ruleDrop r.2.1 tRX_STREAM_FILTER false else r.2.2.resolve r.2.1
        if f.ended then
          match t.frame fid with
          | some g => t.presentLearn g
          | none => if r.1 then t else t.presentLearn { f with why := r.2.2.dropWhy r.2.1 }
        else t)

/-- ENQUEUE (R269, R270). -/
def execEnqueue (fid : Nat) (s : State) : Host.Outcome State Fault Refusal :=
  .next (match s.frame fid with
    | some f => if f.phase = .listed then s.enqueueFrame f else s
    | none => s)

/-! ### Data and the frame's end -/

/-- A frame that passed check 2 of its stream's filter before its end is longer than MAX_SDU after all (R321): it is dropped under that check. -/
def State.lateSdu (s : State) (fid len : Nat) : State :=
  match s.frame fid with
  | some f =>
    (match f.stream with
     | some h =>
       let sdu := s.memLe (filterAddr h) 2
       if f.filtered && f.why.isNone && decide (sdu ≠ 0 ∧ sdu < len) then
         let t := (s.dropFrame fid tRX_STREAM_FILTER).strmTally h 2
         if (s.memLe (filterAddr h + 5) 1).testBit 2 then t.blockFilter h else t
       else s
     | none => s)
  | none => s

/-- Bytes arrive: they join the frame, up to MAX_FRAME, and each 256 of them request a bead (R104, R120, R258); `len` is the frame's length so far. -/
def State.takeBytes (s : State) (f : Frame) (data : List Byte) (len : Frame → Nat) : State :=
  let g := s.addBytes f data (s.maxFrame f.port)
  (State.claimBeads 64 (s.putFrame g) f.fid).lateSdu f.fid (len g)

/-- FRAME_DATA_BEAD_REQUEST (R104, R120, R258, R263, R321): bytes of a frame arrive. -/
def execFrameDataBeadRequest (fid : Nat) (data : List Byte) (s : State) : Host.Outcome State Fault Refusal :=
  .next (match s.frame fid with
    | some f => if f.ended then s else s.takeBytes f data Frame.rxLen
    | none => s)

/-- The reasons that end a frame at its MAC (R104, R114, R119, R165), before its lengths are judged: FCS error, then MACsec failure, take
precedence over every other reason; a frame that is cut at MAX_FRAME or fails reassembly has no ICV and no end to check (DEDUCED, assumption
log 94), and the reason under which it was dropped before goes ahead. (DEDUCED, assumption log 48) -/
def State.endVerdict (s : State) (f : Frame) (e : FrameEndInfo) : Option Nat × State :=
  if e.tailMarked then (some tRX_FCS_ERR, s.portTally f.port tRX_TAIL_MARKED 1)
  else if e.fcsBad then (some tRX_FCS_ERR, s)
  else if s.maxFrame f.port < e.wire then (some (f.why.getD tRX_OVERSIZE), s)
  else if e.assyErr then (some (f.why.getD tPREEMPT_ASSY_ERR), s)
  else s.macsecVerdict f

/-- The codewords that the decoders of a frame's lanes corrected or could not correct (R125). -/
def State.fecCount : State → List (Nat × Nat × Nat) → State
  | s, [] => s
  | s, (l, c, u) :: t => ((s.count (LAN_FEC_CORR_COUNT l) c).count (LAN_FEC_UNCORR_COUNT l) u).fecCount t

/-- Copies take the beads allocated after the enqueue (R259, R268): the charge moves, further copies add theirs, depths follow; with no copy
left the writer frees them. -/
def State.takeLate (s : State) (f : Frame) : State :=
  let late := f.beads.filter (fun b => match s.buf.held.lookup b with | some r => r.owner == f.writer | none => false)
  let cs := s.copies.filter (fun c => c.fid == f.fid)
  match cs with
  | [] => (s.freeAll f.writer late).putFrame { f with beads := f.beads.filter (fun b => !late.contains b) }
  | c :: rest =>
    let rp := s.poolOf f.res.tc
    let n := late.length
    let t := if rp = f.pool then s else (s.uncharge f.pool n).charge rp n
    let t := t.charge rp (n * rest.length)
    let owner := if rest.isEmpty then 8 * c.port + c.tc else 0xFFE
    let t := { t with buf := { t.buf with held := ownBeads t.buf.held rp owner cs.length late } }
    cs.foldl (fun t c =>
      let d := { c with beads := f.beads.length }
      let u := t.putCopy d
      if c.phase = .queued then (u.setF (SWC_PORT_QDEPTH_BEADS c.port c.tc) (u.getF (SWC_PORT_QDEPTH_BEADS c.port c.tc) + (d.beads - c.beads))) else u) t

/-- Tallies of a received frame (R98, R522). -/
def State.endTallies (s : State) (f : Frame) (e : FrameEndInfo) : State :=
  let len := min e.wire (s.maxFrame f.port)
  if f.why = some tRX_PORT_DOWN then ((s.portTally f.port tRX_FRAMES 1).portTally f.port tRX_BYTES len).bwAdd f.port (8 * len) 0
  else
    let t := s.rxTally f.port len
    let t := if f.preempt then t.portTally f.port tRX_PREEMPT_FRAMES 1 else t
    if e.fcsBad || e.tailMarked || e.assyErr || decide (s.maxFrame f.port < e.wire) then t
    else
      let da := f.bytes.take 6
      if da.all (· == 0xFF) then t.portTally f.port tRX_BCAST 1
      else if (da.getD 0 0).toNat.testBit 0 then t.portTally f.port tRX_MCAST 1 else t.portTally f.port tRX_UCAST 1

/-- A frame that has ended and keeps no verdict against it (R165, R237, R259). -/
def State.goodEnd (s : State) (f : Frame) : State :=
  match f.why with
  | some w =>
    let t := s.countWhy f w
    let f := { f with counted := true }
    if f.phase = .dropped ∧ !t.copies.any (fun c => c.fid == f.fid) then t.delFrame f.fid
    else (((t.putFrame f).presentLearn f).takeLate f).settleFrame f.fid
  | none =>
    let t := s.putFrame f
    let t := if f.phase == .listed || f.phase == .enqueued then t.presentLearn f else t
    (if f.phase = .enqueued then t.takeLate f else t).settleFrame f.fid

/-- A frame of fewer than 64 bytes, checked by a MAC (R104). -/
def isRunt (f : Frame) (wire : Nat) : Bool := decide (wire < 64) && (f.port < 64 || f.port == 65)

/-- A frame whose bytes are good has ended (R104, R163–R166): one that still waits for its parse or runs through it is judged as that ends;
any other is judged now. -/
def State.endGood (s : State) (f : Frame) (wire : Nat) : State :=
  let runt := isRunt f wire && f.why.isNone
  if f.parses then s.putFrame (if runt then { f with why := some tRX_RUNT } else f)
  else
    match s.lengths f with
    | (some r, _) => ((s.recordMal f r).putFrame { f with why := some tRX_MALFORMED }).dropFrame f.fid tRX_MALFORMED
    | (none, pad) =>
      let f := if pad then f.setFlags 4 else f
      let t := s.reachCount f
      if runt then (t.putFrame { f with why := some tRX_RUNT }).dropFrame f.fid tRX_RUNT else t.goodEnd f

/-- FRAME_END (R104, R106, R114, R119, R163–R166, R237, R325): the last byte has come and every check concludes; the reasons FCS error,
MACsec failure and malformed take precedence in that order.  A MAC control frame is consumed. -/
def execFrameEnd (fid : Nat) (e : FrameEndInfo) (s : State) : Host.Outcome State Fault Refusal :=
  .next (match s.frame fid with
    | none => s
    | some f0 =>
      if f0.ended then s
      else
        let t := (s.fecCount e.codewords).takeBytes f0 e.data (fun _ => e.wire)
        match t.frame fid with
        | none => t
        | some f =>
          let f := { f with ended := true, wire := e.wire }
          if f.macControl ∧ f.why ≠ some tRX_PORT_DOWN then
            let c := ctlFields f.raw
            (t.pauseRx f.port c.1 e.wire (e.fcsBad || e.tailMarked) c.2).delFrame fid
          else
            let t := ((t.putFrame f).endTallies f e).meterCorrect e.wire f.meters
            let f := { f with meters := [] }
            if f.why = some tRX_PORT_DOWN then t.goodEnd f
            else
              let v := t.endVerdict f e
              match v.1 with
              | some r =>
                ((v.2.reachCount f).putFrame { f with why := some r, phase := if f.parses then .dropped else f.phase }).dropFrame fid r
              | none => v.2.endGood f e.wire)

/-! ### Beads (R264–R267) -/

/-- The target of a lookup as the frame, copy or task it stands for. -/
def lookTarget : Look → Target
  | .frame fid => .frame fid
  | .copy fid p => .copy fid p
  | .thread _ _ _ => .task 0

/-- A copy has read the last line of one of its beads and releases it (R259): the bead is no longer its own to read or free. -/
def State.copyFrees (s : State) (who : Look) (requester b : Nat) : State :=
  match who with
  | .copy fid p =>
    (match s.copy fid p with
     | some c => if requester = c.freeTag && (s.copyBeads c).contains b then s.putCopy { c with done := c.done ++ [b] } else s
     | none => s)
  | _ => s

/-- BEAD_FREE (R259, R266, R267): by the first row that matches the bead record; `who` is the requester's frame or copy, lost on a bad
pointer. -/
def execBeadFree (addr requester : Nat) (who : Look) (s : State) : Host.Outcome State Fault Refusal :=
  .next (
    let b := addr / 256
    if 2 ^ 26 ≤ addr ∨ addr % 256 ≠ 0 ∨ s.bankOk b = false then
      let t := ((s.count BPM_BADPTR_CNT_COUNT 1).refuseBead addr requester 1 0).raiseBPM BPM_INT_STATUS_BADPTR
      (t.loseTarget (lookTarget who)).event 264 .poolMgr
    else
      let ok := (s.freeAs requester b).buf.badFrees == s.buf.badFrees
      ((if ok then s.copyFrees who requester b else s).freeAs requester b).raiseFrees)

/-- BEAD_QUARANTINE_END (R265): after 64 core cycles the bead joins the tail of the free list and its last charge is released. -/
def execBeadQuarantineEnd (bead : Nat) (s : State) : Host.Outcome State Fault Refusal :=
  .next (match s.buf.quar.find? (fun x => x.bead == bead) with
    | some x =>
      if s.now < x.readyAt then s
      else
        let t := { s with buf := { s.buf with quar := s.buf.quar.filter (fun y => y.bead != bead), freed := s.buf.freed ++ [bead] } }
        (if s.bankOk bead then t.setF BPM_FREE_COUNT (t.getF BPM_FREE_COUNT + 1) else t).uncharge x.pool 1
    | none => s)

/-- A frame that has ended and left its queues' admission hands the beads it gets now to its copies (R259). -/
def State.lateBeads (s : State) (fid : Nat) : State :=
  match s.frame fid with
  | some g => if g.ended && g.phase == .enqueued then s.takeLate g else s
  | none => s

/-- BEAD_WAIT_SERVED (R264): the first request of its pool is served once the pool has room. -/
def execBeadWaitServed (slot : Nat) (s : State) : Host.Outcome State Fault Refusal :=
  .next (match s.buf.waits.find? (fun w => w.slot == slot) with
    | none => s
    | some w =>
      let first := (s.buf.waits.find? (fun x => x.pool == w.pool)) == some w
      if !first || decide (s.getF (BPM_POOL_BEADS_QUOTA w.pool) ≤ s.getF (BPM_POOL_OCC_BEADS w.pool)) then s
      else
        match s.takeBead w.pool w.owner with
        | none => s
        | some (b, t) =>
          let t := { t with buf := { t.buf with waits := t.buf.waits.filter (fun x => x.slot != slot) } }
          let t := t.dec (BPM_POOL_WAIT_COUNT w.pool) 1
          if slot = 12 ∨ slot = 13 then
            match t.copy w.fid w.port with
            | some c => ({ t with buf := { t.buf with held := linkBead t.buf.held c.own b } }).putCopy { c with own := c.own ++ [b] }
            | none => t.beadToQuar b w.pool
          else
            let u := match t.frame w.fid with
              | some f => (State.claimBeads 64 (t.joinBead f b) w.fid).lateBeads w.fid
              | none => t.beadToQuar b w.pool
            u.hostBeads u.frames)

end Sys2Proof.Machine
end

