-- ==== Sys2Proof/Machine/Hiostac.lean ====
section
/-!
DEFINITION. Machine/Hiostac.lean: the meanings of the microwords, of the waits, of the ends of threads, of samples and of the
patch RAM (R131–R148, R347).
-/

namespace Sys2Proof.Machine

/-- The engine kinds that may execute a word (R135): all, parse and rewrite, parse, rewrite, housekeeping. -/
abbrev kPEH : List Nat := [0, 1, 2]
abbrev kPE : List Nat := [0, 1]
abbrev kP : List Nat := [0]
abbrev kE : List Nat := [1]
abbrev kH : List Nat := [2]

/-- A word whose result goes to gD with Z and N, and a carry that R135 does not state: an open value (DESIGN CHOICE, assumption log 5). -/
def State.aluFree (s : State) (th : Thread) (d r : Nat) : State :=
  let v := s.free
  v.2.putThread ((th.set d r).znc r (v.1 % 2 == 1))

/-- A word that only sets the flags from a result. -/
def State.flagFree (s : State) (th : Thread) (r : Nat) : State :=
  let v := s.free
  v.2.putThread (th.znc r (v.1 % 2 == 1))

/-- A sum to gD: Z, N and the carry out. -/
def State.aluAdd (s : State) (th : Thread) (d a b : Nat) : State :=
  let r := add16 a b
  s.putThread ((th.set d r.1).znc r.1 r.2)

/-! ### ALU, compare and move words -/

/-- NOP (R135). -/
def execNop (e sl : Nat) (s : State) : Host.Outcome State Fault Refusal :=
  .next (s.issue e sl (.nop e sl) kPEH (fun t th _ => t.putThread th))
/-- ADD (R135). -/
def execAdd (e sl d a b : Nat) (s : State) : Host.Outcome State Fault Refusal :=
  .next (s.issue e sl (.add e sl d a b) kPEH (fun t th _ => t.aluAdd th d (th.reg a) (th.reg b)))
/-- SUB (R135). -/
def execSub (e sl d a b : Nat) (s : State) : Host.Outcome State Fault Refusal :=
  .next (s.issue e sl (.sub e sl d a b) kPEH (fun t th _ => t.aluFree th d (sub16 (th.reg a) (th.reg b))))
/-- AND (R135). -/
def execAndW (e sl d a b : Nat) (s : State) : Host.Outcome State Fault Refusal :=
  .next (s.issue e sl (.andW e sl d a b) kPEH (fun t th _ => t.aluFree th d (th.reg a &&& th.reg b)))
/-- OR (R135). -/
def execOrW (e sl d a b : Nat) (s : State) : Host.Outcome State Fault Refusal :=
  .next (s.issue e sl (.orW e sl d a b) kPEH (fun t th _ => t.aluFree th d (th.reg a ||| th.reg b)))
/-- XOR (R135). -/
def execXor (e sl d a b : Nat) (s : State) : Host.Outcome State Fault Refusal :=
  .next (s.issue e sl (.xor e sl d a b) kPEH (fun t th _ => t.aluFree th d (th.reg a ^^^ th.reg b)))
/-- SHF (R134, R135). -/
def execShf (e sl d a sub : Nat) (s : State) : Host.Outcome State Fault Refusal :=
  .next (s.issue e sl (.shf e sl d a sub) kPEH (fun t th _ => t.aluFree th d (shift16 (th.reg a) sub)))
/-- ADDI (R135). -/
def execAddi (e sl d a imm : Nat) (s : State) : Host.Outcome State Fault Refusal :=
  .next (s.issue e sl (.addi e sl d a imm) kPEH (fun t th _ => t.aluAdd th d (th.reg a) imm))
/-- ANDI (R135). -/
def execAndi (e sl d a imm : Nat) (s : State) : Host.Outcome State Fault Refusal :=
  .next (s.issue e sl (.andi e sl d a imm) kPEH (fun t th _ => t.aluFree th d (th.reg a &&& imm)))
/-- CMP (R135): Z and N are those of gA − gB. -/
def execCmp (e sl a b : Nat) (s : State) : Host.Outcome State Fault Refusal :=
  .next (s.issue e sl (.cmp e sl a b) kPEH (fun t th _ => t.flagFree th (sub16 (th.reg a) (th.reg b))))
/-- CMPI (R135). -/
def execCmpi (e sl a imm : Nat) (s : State) : Host.Outcome State Fault Refusal :=
  .next (s.issue e sl (.cmpi e sl a imm) kPEH (fun t th _ => t.flagFree th (sub16 (th.reg a) imm)))
/-- MOVI (R135): no flag changes. -/
def execMovi (e sl d imm : Nat) (s : State) : Host.Outcome State Fault Refusal :=
  .next (s.issue e sl (.movi e sl d imm) kPEH (fun t th _ => t.putThread (th.set d imm)))
/-- ORH (R135): no flag changes. -/
def execOrh (e sl d imm : Nat) (s : State) : Host.Outcome State Fault Refusal :=
  .next (s.issue e sl (.orh e sl d imm) kPEH (fun t th _ => t.putThread (th.set d (th.reg d ||| imm * 256))))

/-! ### Header, key and flag words -/

/-- EXR (R134, R135, R138): 1 or 2 header bytes, big-endian; LEN − 1 above 1 is no opcode of R134. -/
def execExr (e sl d off len : Nat) (s : State) : Host.Outcome State Fault Refusal :=
  .next (s.issue e sl (.exr e sl d off len) kPE (fun t th a =>
    if len = 1 ∨ len = 2 then t.withHdr th a (th.hp + off) len (fun u th' b => u.putThread (th'.set d (beNat b)))
    else t.abort th a 2))
/-- EXK (R134, R135, R138). -/
def execExk (e sl off len kpos : Nat) (s : State) : Host.Outcome State Fault Refusal :=
  .next (s.issue e sl (.exk e sl off len kpos) kPE (fun t th a => t.withHdr th a (th.hp + off) len (fun u th' b => u.keyWrite th' a kpos b)))
/-- KEYR (R135): gA, big-endian. -/
def execKeyr (e sl ga kpos : Nat) (s : State) : Host.Outcome State Fault Refusal :=
  .next (s.issue e sl (.keyr e sl ga kpos) kPE (fun t th a => t.keyWrite th a kpos (beBytes 2 (th.reg ga))))
/-- KEYI (R135). -/
def execKeyi (e sl imm kpos : Nat) (s : State) : Host.Outcome State Fault Refusal :=
  .next (s.issue e sl (.keyi e sl imm kpos) kPE (fun t th a => t.keyWrite th a kpos [BitVec.ofNat 8 imm]))
/-- ADVH (R135): past 255, RX is set and HP stays at 255. -/
def execAdvh (e sl ga imm : Nat) (s : State) : Host.Outcome State Fault Refusal :=
  .next (s.issue e sl (.advh e sl ga imm) kP (fun t th _ =>
    let v := th.hp + th.reg ga + imm
    t.putThread (if 255 < v then { th with hp := 255, rx := true } else { th with hp := v })))

/-- The frame a thread parses. -/
def State.threadFrame (s : State) (th : Thread) : Option Frame :=
  match th.target with | .frame fid => s.frame fid | _ => none

/-- SETL (R154, R157). -/
def execSetl (e sl imm : Nat) (s : State) : Host.Outcome State Fault Refusal :=
  .next (s.issue e sl (.setl e sl imm) kP (fun t th _ =>
    let u := t.putThread th
    match u.threadFrame th with | some f => u.recordAt th f imm | none => u))
/-- SETF (R135). -/
def execSetf (e sl flag : Nat) (value : Bool) (s : State) : Host.Outcome State Fault Refusal :=
  .next (s.issue e sl (.setf e sl flag value) kPE (fun t th _ => (t.putThread th).flagWrite th.target flag value))
/-- STAMP (R162): the current generation, only before the thread's first LKP. -/
def execStamp (e sl : Nat) (s : State) : Host.Outcome State Fault Refusal :=
  .next (s.issue e sl (.stamp e sl) kP (fun t th _ =>
    let u := t.putThread th
    match u.threadFrame th with
    | some f => if th.looked then u else u.putFrame { f with gen := u.curGen }
    | none => u))

/-! ### Table words -/

/-- LKP (R135): a lookup into a result slot. -/
def execLkp (e sl table keySel slot : Nat) (s : State) : Host.Outcome State Fault Refusal :=
  .next (s.issue e sl (.lkp e sl table keySel slot) kPEH (fun t th a =>
    let u := t.putThread { th with results := th.results.set (slot % 4) (.issued table keySel t.now), looked := true }
    let u := u.evtM 0x0D 1 e sl a
    if e < 16 then u.evt (e / 4) 2 0 15 else u))
/-- LDT (R135, R138): a word of a returned result, or an implicit RES wait; a word the result does not have is an open value. -/
def execLdt (e sl d word slot : Nat) (s : State) : Host.Outcome State Fault Refusal :=
  .next (s.issue e sl (.ldt e sl d word slot) kPEH (fun t th a =>
    match th.results.getD (slot % 4) .empty with
    | .returned ws =>
      (match ws[word]? with
       | some w => t.putThread (th.set d w)
       | none => (t.free).2.putThread (th.set d (t.free).1))
    | _ => t.beginWait (t.unfetched th) 1 (slot % 4) false false true a))
/-- LDM (R135): the tile word that g0 and g1 address, its low half in g2. (DESIGN CHOICE, assumption log 12) -/
def execLdm (e sl table : Nat) (s : State) : Host.Outcome State Fault Refusal :=
  .next (s.issue e sl (.ldm e sl table) kH (fun t th _ =>
    let w := t.memLe (Config.tileWordAddr table (th.reg 0) (th.reg 1)) 4
    t.putThread ((th.set 2 w).set 3 (w / 65536))))
/-- STM (R135): a compare-and-write; Z is cleared when it fails. (DESIGN CHOICE, assumption log 12) -/
def execStm (e sl table : Nat) (s : State) : Host.Outcome State Fault Refusal :=
  .next (s.issue e sl (.stm e sl table) kH (fun t th _ =>
    let a := Config.tileWordAddr table (th.reg 0) (th.reg 1)
    if t.memLe a 4 = th.reg 4 + 65536 * th.reg 5 then (t.wrMem a (leBytes 4 (th.reg 2 + 65536 * th.reg 3))).putThread th
    else t.putThread { th with z := false }))

/-! ### Control flow (R136, R153) -/

/-- The address a TARGET15 names, by the space of the branching word. -/
def spaceTarget (addr target : Nat) : Nat := if 0x8000 ≤ addr then 0x8000 + target else target

/-- BR (R136). -/
def execBr (e sl cond target : Nat) (s : State) : Host.Outcome State Fault Refusal :=
  .next (s.issue e sl (.br e sl cond target) kPEH (fun t th a =>
    t.putThread (if th.cond cond then { th with pc := spaceTarget a target } else th)))
/-- CALL (R136): a fifth CALL on a full stack aborts with cause 5h. -/
def execCall (e sl target : Nat) (s : State) : Host.Outcome State Fault Refusal :=
  .next (s.issue e sl (.call e sl target) kPEH (fun t th a =>
    if 4 ≤ th.stack.length then t.abort th a 5
    else t.putThread { th with stack := th.pc :: th.stack, pc := spaceTarget a target }))
/-- RET (R136): on an empty stack it aborts with cause 5h. -/
def execRet (e sl : Nat) (s : State) : Host.Outcome State Fault Refusal :=
  .next (s.issue e sl (.ret e sl) kPEH (fun t th a =>
    match th.stack with
    | [] => t.abort th a 5
    | r :: st => t.putThread { th with stack := st, pc := r }))
/-- JX (R135): a JX to 0000h by a parse thread is a node dispatch (R153). -/
def execJx (e sl addr : Nat) (s : State) : Host.Outcome State Fault Refusal :=
  .next (s.issue e sl (.jx e sl addr) kPEH (fun t th _ =>
    match t.threadFrame th with
    | some f => if addr = 0 then (t.putThread th).dispatch th f else t.putThread { th with pc := addr }
    | none => t.putThread { th with pc := addr }))
/-- BTAB (R135): in the current space. -/
def execBtab (e sl ga imm : Nat) (s : State) : Host.Outcome State Fault Refusal :=
  .next (s.issue e sl (.btab e sl ga imm) kPEH (fun t th a =>
    t.putThread { th with pc := spaceTarget a (imm * 16 + th.reg ga % 16) }))

/-! ### Waits (R137–R139) -/

/-- WAIT (R137): a byte at or beyond the reach ends it at once with RX, a condition already met ends it at once, WC = 11b aborts. -/
def execWait (e sl wc arg : Nat) (tsel tf : Bool) (s : State) : Host.Outcome State Fault Refusal :=
  .next (s.issue e sl (.wait e sl wc arg tsel tf) kPEH (fun t th a =>
    if wc = 3 then t.abort th a 2
    else if wc = 0 ∧ t.reach ≤ arg then t.putThread { th with rx := true }
    else
      let x := if wc = 1 then arg % 4 else arg
      let w : WaitSt := { wc := wc, arg := x, tf := tf, deadline := 0, issuedAt := t.now, implied := false, addr := a }
      match t.waitMet th w with
      | some eof => t.putThread { th with eof := th.eof || eof }
      | none => t.beginWait th wc x tsel tf false a))

/-- WAIT_SATISFIED (R137, R138): the thread continues: at the next word after a WAIT, with the same word after an implicit wait.
A rewrite whose window was waited for begins. -/
def execWaitSatisfied (e sl : Nat) (s : State) : Host.Outcome State Fault Refusal :=
  .next (match s.thread e sl with
    | none => s
    | some th =>
      match th.wait with
      | none => s
      | some w =>
        match s.waitMet th w with
        | none => s
        | some eof =>
          let t := s.putThread { th with wait := none, eof := th.eof || (eof && !w.implied) }
          let t := if w.implied && w.wc == 0 then t.evtM 0x0B ((s.now - w.issuedAt) / 20) e sl w.addr else t
          match th.target with
          | .copy fid p =>
            (match t.frame fid, t.copy fid p with
             | some f, some c => if c.phase = .resolved then t.rewriteStep f c else t
             | _, _ => t)
          | _ => t)

/-- Since when a thread that does not wait gets no further (R144, R146): it stalls on a patch word, or loops through a match register. -/
def Thread.stuckAt (th : Thread) : Option Nat :=
  match th.stallAt with
  | some t0 => some t0
  | none => match th.redir with | some (_, t0, n) => if 2 ≤ n then some t0 else none | none => none

/-- WAIT_TIMEOUT (R139, R144, R146): the condition wins where it is met in the same cycle; a thread that stalls on a patch word or whose
patch loops aborts on the long timeout. -/
def execWaitTimeout (e sl : Nat) (s : State) : Host.Outcome State Fault Refusal :=
  .next (match s.thread e sl with
    | none => s
    | some th =>
      match th.wait with
      | none =>
        (match th.stuckAt with
         | some t0 => if t0 + tNs (s.waitNs e false) ≤ s.now then s.abort th (s.fetchAddr th).1 1 else s
         | none => s)
      | some w =>
        if w.deadline ≤ s.now ∧ s.waitMet th w = none then
          if w.tf then (s.putThread { th with wait := none, tmo := true }).evtM 0x0C 1 e sl w.addr
          else s.abort th w.addr 1
        else s)

/-! ### Edit words (R347) -/

/-- Key bytes from byte 2 × KPOS on; bytes past the key set are open values. -/
def State.keyBytes (s : State) (t : Target) (kpos n : Nat) : List Byte × State :=
  s.fillBytes ((List.range n).map (fun i => (s.keysOf t)[2 * kpos + i]?))

/-- Run an edit word on the copy of a rewrite thread; a window beyond 384 bytes aborts with cause 6h. -/
def State.edit (s : State) (th : Thread) (addr : Nat) (act : Copy → Copy) : State :=
  match th.target with
  | .copy fid p =>
    (match s.copy fid p with
     | some c => if 384 < (act c).window.length then s.abort th addr 6 else (s.putThread th).putCopy (act c)
     | none => s.putThread th)
  | _ => s.putThread th

/-- The edit window of a copy as orders 1–6 handle it, and back. -/
def Copy.win (c : Copy) : EditWin := { bytes := c.window, layers := c.layers, skips := 0, expired := false }
def Copy.ofWin (c : Copy) (w : EditWin) : Copy := { c with window := w.bytes, layers := w.layers }

/-- PUSH (R347). -/
def execPush (e sl off len kpos : Nat) (s : State) : Host.Outcome State Fault Refusal :=
  .next (s.issue e sl (.push e sl off len kpos) kE (fun t th a =>
    let k := t.keyBytes th.target kpos len
    k.2.edit th a (fun c => c.ofWin (c.win.ins (th.hp + off) k.1))))
/-- POP (R347): KPOS must be 0, else the word is no opcode. -/
def execPop (e sl off len kpos : Nat) (s : State) : Host.Outcome State Fault Refusal :=
  .next (s.issue e sl (.pop e sl off len kpos) kE (fun t th a =>
    if kpos ≠ 0 then t.abort th a 2 else t.edit th a (fun c => c.ofWin (c.win.cut (th.hp + off) len))))
/-- REPL (R342, R347): the L4 accumulator takes the delta of covered bytes. -/
def execRepl (e sl off len kpos : Nat) (s : State) : Host.Outcome State Fault Refusal :=
  .next (s.issue e sl (.repl e sl off len kpos) kE (fun t th a =>
    let k := t.keyBytes th.target kpos len
    k.2.edit th a (fun c =>
      let o := th.hp + off
      { (c.ofWin (c.win.put o k.1)) with delta := replDelta c.layers o ((c.window.drop o).take len) k.1 c.delta })))
/-- CSUM (R341, R342, R347): LEN − 1 = 0 applies the accumulator; 1 regenerates the IPv4 checksum whose field stands there. -/
def execCsum (e sl off len kpos : Nat) (s : State) : Host.Outcome State Fault Refusal :=
  .next (s.issue e sl (.csum e sl off len kpos) kE (fun t th a =>
    let o := th.hp + off
    if len = 1 then t.edit th a (fun c => { c with window := applyDelta c.window c.layers o c.delta })
    else if len = 2 then t.edit th a (fun c =>
      let h := (c.window.drop (o - 10)).take ((c.window.getD (o - 10) 0).toNat % 16 * 4)
      let i := ((c.layers.filter (fun l => l.kind == 4)).findIdx (fun l => l.off + 10 == o))
      { c with window := setBytes c.window o (beBytes 2 (ipCsum (c.ipOrig.getD i h) h)) })
    else t.abort th a 2))

/-! ### Ends of threads -/

/-- DONE (R155, R338, R135). -/
def execDone (e sl : Nat) (s : State) : Host.Outcome State Fault Refusal :=
  .next (s.issue e sl (.done e sl) kPEH (fun t th _ =>
    let t := t.endSamples e sl
    match th.target with
    | .frame fid => (match t.frame fid with | some f => t.endParse f | none => t.endThreads th.target)
    | .copy fid p =>
      (match t.frame fid, t.copy fid p with
       | some f, some c => t.rewriteEnd f c
       | _, _ => t.endThreads th.target)
    | .task _ => { t with threads := t.threads.filter (fun x => !(x.eng == e && x.slot == sl)) }))

/-- DROP (R135, R155): the frame is counted on its ingress port, by the reason code of the word in a count that no register shows (DESIGN
CHOICE, assumption log 95). -/
def execDrop (e sl reason : Nat) (s : State) : Host.Outcome State Fault Refusal :=
  .next (s.issue e sl (.drop e sl reason) kPE (fun t th _ =>
    let t := t.endSamples e sl
    match th.target with
    | .frame fid =>
      (match t.frame fid with
       | some f => (t.putFrame { f with dropCode := some (reason % 256) }).dropFrame fid tRX_RULE_DROP
       | none => t.endThreads th.target)
    | .copy fid p =>
      (match t.copy fid p with
       | some c => if c.started then (t.putCopy { c with tailMark := true }).endThreads th.target else t.dropCopy c tTX_RULE_DROP
       | none => t.endThreads th.target)
    | .task _ => t))

/-- A frame that a TRAP sends to P64 alone. -/
def trapped (f : Frame) (reason : Nat) : Frame :=
  { f with phase := .listed, list := [{ port := 64, why := 1, reason := reason, replica := false }] }

/-- TRAP (R135, R155): the frame goes to P64 alone; a copy goes there in its own place. -/
def execTrap (e sl reason : Nat) (s : State) : Host.Outcome State Fault Refusal :=
  .next (s.issue e sl (.trap e sl reason) kPE (fun t th _ =>
    let t := t.endSamples e sl
    match th.target with
    | .frame fid =>
      (match t.frame fid with
       | some f =>
         let v := if f.ended then t.judged (t.withdrawn f) else (none, t.withdrawn f, t)
         match v.1 with
         | some why => (v.2.2.putFrame { v.2.1 with why := some why, phase := .parsed }).dropFrame fid why
         | none => State.claimBeads 64 ((v.2.2.endThreads th.target).putFrame (trapped (v.2.2.classify v.2.1) reason)) fid
       | none => t.endThreads th.target)
    | .copy fid p =>
      (match t.frame fid, t.copy fid p with
       | some f, some c =>
         let u := t.addCopy f c { port := 64, why := 1, reason := reason, replica := false } f.keys
         if c.started then (u.putCopy { c with tailMark := true }).endThreads th.target
         else (u.releaseCopy c).settleFrame fid
       | _, _ => t.endThreads th.target)
    | .task _ => t))

/-! ### Samples, tasks, patch RAM -/

/-- SAMPLE_RECORD (R147): the engine stops the causing thread within its skid and writes HSQ_SAMPLE. -/
def execSampleRecord (e sl : Nat) (s : State) : Host.Outcome State Fault Refusal :=
  .next (match s.samples.find? (fun x => x.eng == e && x.slot == sl) with
    | none => s
    | some x => s.writeSample x)

/-- Slots reserved for a task (R131): kinds 0 ageing sweep, 1 scrub, 2 cairn recording, 3 snapshot pacing, 4 ageing monitor. -/
def taskReserve (k : Nat) : Nat := ([8, 8, 4, 4, 4] : List Nat).getD k 0

/-- Threads of the housekeeping engine that hold a shared slot. -/
def State.sharedBusy (s : State) : Nat :=
  let n := fun (k : Nat) => (s.threads.filter (fun th => th.eng == 16 && th.target == .task k)).length
  let all := (s.threads.filter (fun th => th.eng == 16)).length
  all - ((List.range 5).map (fun k => min (n k) (taskReserve k))).sum

/-- HOUSEKEEPING_TASK_START (R131): in a reserved slot, else in a shared one; with none free the trigger stays pending. -/
def execHousekeepingTaskStart (kind slot entry : Nat) (s : State) : Host.Outcome State Fault Refusal :=
  .next (
    let own := (s.threads.filter (fun th => th.eng == 16 && th.target == .task kind)).length
    if !s.engineOk 16 then s
    else if (s.freeSlots 16).isEmpty then { s with tasks := s.tasks.erase kind ++ [kind] }
    else if !(s.freeSlots 16).contains slot then s
    else if own < taskReserve kind ∨ s.sharedBusy < 36 then
      ({ s with tasks := s.tasks.erase kind }).startThread 16 slot (.task kind) entry
    else { s with tasks := s.tasks.erase kind ++ [kind] })

/-- The source of an uncorrectable patch word of a copy, and of a corrected one (R453). -/
def patchUncorr (c : Nat) : Nat := 123 + c
def patchCorr (c : Nat) : Nat := 118 + c
/-- The unit a ROM copy serves. -/
def copyUnit (c : Nat) : FUnit := if c = 4 then .engine 16 else .quadrant c

/-- PATCH_RAM_SCRUB (R146): `errors` bits of a word are found flipped: one is corrected in place, more are uncorrectable. -/
def execPatchRamScrub (copy word errors : Nat) (s : State) : Host.Outcome State Fault Refusal :=
  .next (if errors = 0 ∨ 5 ≤ copy ∨ 2048 ≤ word then s
    else if errors = 1 then (s.count (HSQ_PATCH_ECC_CORR copy) 1).event (patchCorr copy) (copyUnit copy)
    else
      let t := { s with patchBad := (copy, word, false) :: s.patchBad.filter (fun x => !(x.1 == copy && x.2.1 == word)) }
      (t.count (HSQ_PATCH_ECC_UNCORR copy) 1).event (patchUncorr copy) (copyUnit copy))

/-- The word of the sealed image's PATCH block. -/
def State.patchImage (s : State) (copy word : Nat) : Nat :=
  match s.img with
  | some i => (match i.patches.find? (fun p => p.copy == copy) with | some p => p.words.getD word 0 | none => 0)
  | none => 0

/-- PATCH_WORD_REWRITE (R146): the word is written again from the sealed image copy, and the stalled fetches go on. -/
def execPatchWordRewrite (copy word : Nat) (s : State) : Host.Outcome State Fault Refusal :=
  .next (if s.patchBad.any (fun x => x.1 == copy && x.2.1 == word) then
      { (s.setF (HSQ_PATCH_WORD_WORD copy word) (s.patchImage copy word)) with
        patchBad := s.patchBad.filter (fun x => !(x.1 == copy && x.2.1 == word)) }
    else s)

/-- ROM_SIGNATURE_RECHECK (R143): a mismatch is a C4 event of the copy's source. -/
def execRomSignatureRecheck (copy : Nat) (ok : Bool) (s : State) : Host.Outcome State Fault Refusal :=
  .next (if 5 ≤ copy then s
    else
      let t := s.setB (HSQ_ROM_STATUS_SIG_OK copy) ok
      if ok then t else t.event copy (.die 0))

end Sys2Proof.Machine
end

