-- ==== Sys2Proof/Machine/Egress.lean ====
section
/-!
DEFINITION. Machine/Egress.lean: a copy from its queue to the wire: the start of cut-through (R18, R271, R272, R344), selection
(R304–R308), the egress pass (R334, R335, R348), rewrite (R338), the end of transmission (R105, R118, R273, R294, R314, R522), the
analyser path (R349, R350) and the deep queue extension (R274–R276).
-/

namespace Sys2Proof.Machine

/-! ### Cut-through -/

/-- S of R272: bytes that must have come before a cut-through copy starts. -/
def State.cutStart (s : State) (f : Frame) (p : Nat) : Nat :=
  let ro := s.rate p
  if ro = 0 then 0 else (s.maxFrame f.port * (ro - s.rate f.port) + ro - 1) / ro

/-- The conditions of R18, R104, R114, R271 and R272 on a queued copy: no copy starts before the 64th byte of its frame has come. -/
def State.cutOk (s : State) (f : Frame) (c : Copy) : Bool :=
  c.phase == .queued && !c.cut && !c.kept && !f.ended && !f.preempt && !f.l4full && f.phase == .enqueued &&
  decide (s.rate f.port ≤ s.rate c.port) &&
  !(s.copies.takeWhile (fun d => !(d.fid == c.fid && d.port == c.port))).any (fun d => d.port == c.port && d.tc == c.tc && d.phase == .queued) &&
  s.getF (SWC_PORT_HOLD_STATE c.port) == 0 &&
  (!(c.port < 64 || c.port == 65) || s.flag (MAC_STATUS_LINK c.port)) &&
  !(s.getF (MAC_STATUS_PAUSED c.port)).testBit c.tc && s.gateOpen c.port c.tc s.workNs &&
  s.flag (SWC_PORT_CT_CT_EN c.port) && decide (s.cutStart f c.port ≤ f.bytes.length) &&
  (!(f.port < 64 || f.port == 65) || decide (64 ≤ f.raw.length))

/-- The conditions that R344 adds: with ENCAP an IP layer gives N, and the template does not ask for a whole-datagram checksum. -/
def State.cutLenOk (s : State) (f : Frame) (c : Copy) : Bool :=
  let w0 := s.profW { c with gen := s.curGen } 0
  !w0.testBit wENCAP ||
  ((survivingIp f (w0.testBit wDECAP)).isSome &&
   !((s.rdMem (0x0F600000 + 0x80 * (w0 / 65536 % 64) + 3) 1).getD 0 0).toNat.testBit 2)

/-- CUT_THROUGH_START (R18, R271, R272, R344): the copy may start before its frame ends; a copy that R344 alone keeps is stored. -/
def execCutThroughStart (fid port : Nat) (s : State) : Host.Outcome State Fault Refusal :=
  .next (match s.frame fid, s.copy fid port with
    | some f, some c =>
      if s.cutOk f c then
        if s.cutLenOk f c then s.putCopy { c with cut := true }
        else (s.putCopy { c with kept := true }).count (EGR_Q_STORED_COUNT (s.quadOf port)) 1
      else s
    | _, _ => s)

/-! ### Selection -/

/-- Copies of a port between dequeue and the end of transmission, of the classes that `mine` names. -/
def State.macBusy (s : State) (p : Nat) (mine : Nat → Bool) : Bool :=
  s.copies.any (fun c => c.port == p && c.phase != .queued && mine c.tc)

/-- The MAC of a port may start frames of its own or of the core (R81, R99, R103, R124): its link is up, it is enabled and not shut down,
it neither sends nor receives remote fault, no wake burst runs, and its transmitter is not squelched by Hold. -/
def State.macOpen (s : State) (p : Nat) : Bool :=
  s.flag (MAC_STATUS_LINK p) && s.flag (MAC_CTL_EN p) && !s.flag (MAC_STATUS_SHUTDOWN p) && !s.flag (MAC_STATUS_LOCAL_FAULT p) &&
  !s.flag (MAC_STATUS_REMOTE_FAULT p) && !s.flag (MAC_STATUS_WAKE_TX_BUSY p) && s.modeCode != mHold

/-- A frame of a port's queues may start (R99, R103, R124, R277). -/
def State.macReady (s : State) (p : Nat) : Bool :=
  s.getF (SWC_PORT_HOLD_STATE p) == 0 && (!(p < 64 || p == 65) || s.macOpen p)

/-- The deficit of a queue and its limits (R308). -/
def State.deficit (s : State) (p t : Nat) : Int := signedOf 32 (s.getF (SCH_PORT_QDEFICIT_DEFICIT p t))
def State.setDeficit (s : State) (p t : Nat) (d : Int) : State := s.setF (SCH_PORT_QDEFICIT_DEFICIT p t) (unsignedOf 32 d)
def State.quantum (s : State) (p t : Nat) : Nat := max 1 (s.getF (SCH_PORT_QCFG_WEIGHT p t)) * 64
def State.grant (s : State) (p t : Nat) : State :=
  let top : Int := max (s.quantum p t) (s.getF (SCH_PORT_QBURST_BURST p t))
  s.setDeficit p t (min (s.deficit p t + s.quantum p t) top)

/-- The queue that the pointer visits after `t`. -/
def nextTc (group : List Nat) (t : Nat) : Nat :=
  match (group.dropWhile (fun x => x != t)).drop 1 with | a :: _ => a | [] => group.headD 0

/-- The weighted group (R308): the queue that sends, with the pointer at it, in a group in which some queue is eligible. -/
def State.weighted : Nat → State → Nat → List Nat → Nat → Bool → Option (Nat × State)
  | 0, _, _, _, _, _ => none
  | n + 1, s, p, group, t, inV =>
    let el := s.eligible p t
    if inV then
      if el && decide (0 < s.deficit p t) then some (t, s) else State.weighted n s p group (nextTc group t) false
    else if el then
      let u := s.grant p t
      if 0 < u.deficit p t then some (t, u) else State.weighted n u p group (nextTc group t) false
    else if (s.copies.any (fun c => c.port == p && c.tc == t && c.phase == .queued)) then
      State.weighted n s p group (nextTc group t) false
    else State.weighted n (s.grant p t) p group (nextTc group t) false

/-- One selection (R304, R307): the highest eligible strict queue of the classes that `mine` names, else the weighted group from
pointer `t`; with it the pointer and the state. -/
def State.pick (s : State) (p : Nat) (mine : Nat → Bool) (t : Nat) (inV : Bool) : Option (Nat × Nat × Bool × State) :=
  let k := 8 - s.getF (SCH_PORT_CFG_STRICT p)
  let all := [7, 6, 5, 4, 3, 2, 1, 0].filter mine
  match (all.filter (fun x => decide (k ≤ x))).find? (s.eligible p) with
  | some x => some (x, t, inV, s)
  | none =>
    let group := all.filter (fun x => decide (x < k))
    if group.any (s.eligible p) then
      let here := group.contains t
      match State.weighted 16384 s p group (if here then t else group.headD 0) (here && inV) with
      | some (x, u) => some (x, x, true, u)
      | none => none
    else none

/-- A read of a bead by a copy passes (R254, R266): the bead lies in a bank group in service, and is held for the copy's queue or for several;
a bead handed to another frame is none of the copy's. -/
def State.beadOk (s : State) (c : Copy) (b : Nat) : Bool :=
  s.bankOk b && (match s.buf.held.lookup b with | some r => r.owner == 8 * c.port + c.tc || r.owner == 0xFFE | none => false)

/-- The bead of a copy whose read is refused, as its place in the frame and the bead: the first that does not pass, or the one that was freed
with the frame's tail (R266, R268).  A copy already tail-marked reads no further. -/
def State.badRead (s : State) (c : Copy) : Option (Nat × Nat) :=
  if c.tailMark then none
  else
    match (s.copyBeads c).find? (fun b => !s.beadOk c b) with
    | some b => some (c.done.length + (s.copyBeads c).idxOf b, b)
    | none => c.lost.map (fun b => (c.beads, b))

/-- Every read of a copy passes. -/
def State.readOk (s : State) (c : Copy) : Bool := (s.badRead c).isNone

/-- A refused read is counted, recorded and raised (R266). -/
def State.refuseRead (s : State) (c : Copy) : State :=
  let b := ((s.badRead c).map (·.2)).getD 0
  (((s.count BPM_BADPTR_CNT_COUNT 1).refuseBead (256 * b) (8 * c.port + c.tc) 1 0).raiseBPM BPM_INT_STATUS_BADPTR).event 264 .poolMgr

/-- The bytes of a frame that a copy does not get, since a refused read returns no data and none follows it (R266). -/
def State.unread (s : State) (f : Frame) (c : Copy) : Nat := match s.badRead c with | some (i, _) => f.bytes.length - 256 * i | none => 0

/-- The length at which the fragment in transmission of a preemptable frame of `l` bytes can end now (R110, R112, R316): at least its
minimum, with 64 bytes or more left; none where it cannot be split. (DEDUCED, assumption log 25) -/
def State.splitAt (s : State) (c : Copy) (l t0 : Nat) : Option Nat :=
  let sent := (s.now - t0) / 27 * s.rate c.port / 8000
  let n := max sent (64 * (1 + s.getF (MAC_PREEMPT_ADD_FRAG c.port)))
  if c.fragBase + n + 64 ≤ l then some n else none

/-- An express frame would start over the preemptable frame in transmission (R110, R112, R306): none where it waits for the rest of that
frame.  A fragment of which no byte has been sent ends as if it had not begun. (DEDUCED, assumption log 25) -/
def State.preemptOther (s : State) (p : Nat) : Option State :=
  match s.copies.find? (fun c => c.port == p && c.phase == .sending && s.onPmac p c.tc) with
  | some c =>
    (match s.frame c.fid, c.fragAt with
     | some f, some t0 =>
       if t0 = s.now ∧ c.fragments ≠ 0 then some (s.putCopy { c with fragAt := none })
       else
         match s.splitAt c ((c.onWire (s.copyBytes f c).1).length + 4) t0 with
         | some n =>
           let t := s.putCopy { c with fragments := c.fragments + 1, fragBase := c.fragBase + n, fragAt := none }
           some (if c.fragments = 0 then t.portTally p tTX_PREEMPTED 1 else t)
         | none => none
     | _, _ => some s)
  | none => some s

/-- A preempted frame goes on once no express frame is under way on its port and the preemptable MAC is not held (R110, R316). -/
def State.fragResume (s : State) (p : Nat) : State :=
  if (s.schSt p).hold || s.copies.any (fun c => c.port == p && c.phase != .queued && !s.onPmac p c.tc) then s
  else { s with copies := s.copies.map (fun c => if c.port == p && c.phase == .sending && c.fragAt.isNone then { c with fragAt := some s.now } else c) }

/-- The copy that a selection names is dequeued, or dropped under R105, R277, R314, R315 or R444, or lost to a refused read. -/
def State.dequeue (s : State) (p tc : Nat) : State :=
  match s.head p tc with
  | none => s
  | some c =>
    match s.frame c.fid with
    | none => s
    | some f =>
      if p = 64 ∧ s.flag (HDM_RING_CFG_EN (s.rxRing tc)) = false then
        (s.count (HDM_RING_DROP_COUNT (s.rxRing tc)) 1).dropCopy c tTX_CONGESTION
      else match s.dequeueCheck f c with
      | some ctr => s.dropCopy c ctr
      | none => if s.readOk c then s.startCopy f c else (s.refuseRead c).dropCopy c tTX_CONGESTION

/-- Heads that can never fit leave their queues (R315); heads that wait for their gate are counted once (R313, R522). -/
def State.headsOf (s : State) (p : Nat) : List Nat → State
  | [] => s
  | tc :: t =>
    (match s.head p tc with
     | none => s
     | some c =>
       match s.frame c.fid with
       | none => s
       | some f =>
         if !s.headReady p tc then s
         else if s.dequeueCheck f c = some tTX_GATE_NOFIT then s.dropCopy c tTX_GATE_NOFIT
         else if s.gateOpen p tc s.workNs && !s.headFits p tc && !c.gateWait then
           (s.putCopy { c with gateWait := true }).portTally p (tTc tc 6) 1
         else s).headsOf p t

/-- SCHEDULER_SELECT (R304–R308): one selection of each MAC of the port that can start a frame, the express one first. -/
def execSchedulerSelect (port : Nat) (s : State) : Host.Outcome State Fault Refusal :=
  .next (if !s.macReady port then s
    else
      let s := ((s.headsOf port (List.range 8)).cbsAll port).raiseFrees
      let pre := fun (tc : Nat) => s.onPmac port tc
      let x := s.schSt port
      if s.macBusy port (fun tc => !pre tc) then s
      else
        match s.pick port (fun tc => !pre tc) x.ptrE x.inE with
        | some (tc, t, v, u) =>
          (match (u.putSch { x with ptrE := t, inE := v }).preemptOther port with
           | some w => w.dequeue port tc
           | none => s)
        | none =>
          if s.macBusy port pre then s
          else
            match s.pick port pre x.ptrP x.inP with
            | some (tc, t, v, u) => (u.putSch { x with ptrP := t, inP := v }).dequeue port tc
            | none => s)

/-! ### The egress pass -/

/-- Bytes 0–15 of the egress key set (R334). -/
def egressHead (f : Frame) (c : Copy) : List Byte :=
  [BitVec.ofNat 8 c.port, BitVec.ofNat 8 (c.gen % 8 + 8 * f.layers.length)] ++ (f.keys.drop 2).take 10 ++
  [BitVec.ofNat 8 f.port, BitVec.ofNat 8 (c.res.tc % 8 + 8 * (c.res.dp % 4)), 0, 0]

/-- DEQUEUE_EGRESS_PASS (R334): the egress key set is built, and the copy stands in front of position 10. -/
def execDequeueEgressPass (fid port : Nat) (s : State) : Host.Outcome State Fault Refusal :=
  .next (match s.frame fid, s.copy fid port with
    | some f, some c =>
      if c.phase = .dequeued then
        s.putCopy { c with keys := egressHead f c ++ f.keys.drop 16, phase := .station, pos := 10,
                           res := { c.res with copyHost := false, mirror := false } }
      else s
    | _, _ => s)

/-- The copies that egress results add (R348): to P64 and to P67, with the egress port in their descriptor. -/
def State.addedCopies (s : State) (f : Frame) (c : Copy) : State :=
  if c.port = 64 ∨ c.port = 67 ∨ f.recirc = true then s
  else
    let t := if c.res.copyHost then
      s.addCopy f c { port := 64, why := 2, reason := 0, replica := false, eg := some c.port } f.keys else s
    if c.res.mirror then t.addCopy f c { port := 67, why := 3, reason := 0, replica := false, eg := some c.port } f.keys else t

/-- EGRESS_RESOLUTION (R335, R348, R349). -/
def execEgressResolution (fid port : Nat) (s : State) : Host.Outcome State Fault Refusal :=
  .next (match s.frame fid, s.copy fid port with
    | some f, some c =>
      if c.phase = .station ∧ c.pos = 14 ∧ c.looking = false then
        let t := s.addedCopies f c
        if 2 ≤ c.res.dp then t.dropCopy c tTX_METER_RED
        else if c.egDrop then t.dropCopy c tTX_RULE_DROP
        else t.putCopy { c with phase := .resolved,
                                profile := if port = 67 then t.rwgF c.gen EGR_MIRROR_CFG_PROFILE else c.res.profile }
      else s
    | _, _ => s)

/-- REWRITE_THREAD_START (R127, R130, R338, R345): on the rewrite engine with more free slots; the window's bytes are waited for. -/
def execRewriteThreadStart (fid port slot : Nat) (s : State) : Host.Outcome State Fault Refusal :=
  .next (match s.frame fid, s.copy fid port with
    | some f, some c =>
      let q := s.quadOf port
      let earlier := (s.copies.takeWhile (fun d => !(d.fid == fid && d.port == port))).any
        (fun d => d.port == port && (d.phase == .dequeued || d.phase == .station || d.phase == .resolved) && d.dequeuedAt < c.dequeuedAt)
      if c.phase ≠ .resolved ∨ earlier = true ∨ s.threads.any (fun th => th.target == .copy fid port) = true then s
      else
        match s.pickEngine (4 * q + 2) (4 * q + 3) with
        | none => s
        | some e =>
          if !(s.freeSlots e).contains slot then s
          else
            let t := (s.startThread e slot (.copy fid port) (s.profW c 3 % 65536)).count (EGR_Q_COPIES_COUNT q) 1
            let w := (c.keys.getD 11 0).toNat
            if w ≤ f.bytes.length ∨ f.ended = true then t.rewriteStep f c
            else
              match t.thread e slot with
              | some th => t.beginWait th 0 (w - 1) false false true th.pc
              | none => t
    | _, _ => s)

/-! ### The end of a transmission -/

/-- Local time at an earlier instant. -/
def State.localAtT (s : State) (t : Nat) : Nat := s.localNs - (s.now - t) / 27

/-- The egress timestamp of a copy (R115, R293). (DEDUCED, assumption log 25) -/
def State.egressTs (s : State) (c : Copy) : Nat :=
  (((s.localAtT c.sentAt : Int) * 1000 + signedOf 16 (s.getF (MAC_TS_ADJ_TX_ADJ c.port))) / 1000).toNat

/-- The bin of a residence in ns (R522). -/
def resBin (n : Nat) : Nat :=
  if n < 1000 then 0 else if n < 10000 then 1 else if n < 100000 then 2 else if n < 1000000 then 3 else if n < 10000000 then 4 else 5

/-- Raise an extreme tally to at least `v` (R524). -/
def State.maxTally (s : State) (o v : Nat) : State := if s.tally o < v then s.setTally o (v % 2 ^ 48) false else s

/-- An entry of the timestamp FIFO of a port (R294). -/
def State.tsPush (s : State) (p : Nat) (e : TsEntry) : State :=
  let l := (s.time.fifos.lookup p).getD []
  if 4 ≤ l.length then (s.count (TSY_PORT_TX_INFO_OVERFLOW p) 1).raiseTSY TSY_INT_STATUS_TS_OVERFLOW
  else { s with time := { s.time with fifos := sput s.time.fifos p (l ++ [e]) } }

/-- The longest residence of a port since its last tally cairn. -/
def State.resPeak (s : State) (p r : Nat) : State :=
  { s with crn := { s.crn with resPeak := sput s.crn.resPeak p (max r ((s.crn.resPeak.lookup p).getD 0)) } }

/-- The egress timestamp of a frame that asks for one goes to its port's FIFO. -/
def State.txStamp (s : State) (f : Frame) (p ts : Nat) : State :=
  match f.txTag with
  | some tag => if p < 64 ∨ p = 65 then s.tsPush p { ns := ts % 1000000000, sec := ts / 1000000000 % 2 ^ 48, tag := tag } else s
  | none => s

/-- The tallies of a copy transmitted complete and not tail-marked (R522, R524), its timestamp (R294) and the record of its
longest residence (R507). -/
def State.txGood (s : State) (f : Frame) (c : Copy) (b : List Byte) (len : Nat) : State :=
  let p := c.port
  let t := (s.portTally p tTX_FRAMES 1).portTally p tTX_BYTES len
  let da := b.take 6
  let t := if da.all (· == 0xFF) then t.portTally p tTX_BCAST 1
    else if (da.getD 0 0).toNat.testBit 0 then t.portTally p tTX_MCAST 1 else t.portTally p tTX_UCAST 1
  let t := t.portTally p (tTX_SIZE0 + sizeBin len) 1
  let t := (t.portTally p (tTc c.tc 0) 1).portTally p (tTc c.tc 1) len
  let ts := s.egressTs c
  let r := ts - f.ts
  let t := ((t.portTally p (tTc c.tc 3) r).portTally p (tRES_BIN0 + resBin r) 1).maxTally (tlyOff p tRES_MAX) r
  (t.resPeak p r).txStamp f p ts

/-- The Viram header of a forwarded frame (R360). (DEDUCED, assumption log 26) -/
def State.viramHdr (s : State) (f : Frame) (c : Copy) : List Byte :=
  [0x01, BitVec.ofNat 8 (s.getF TWN_STATUS_VIRAM),
   BitVec.ofNat 8 (c.tc % 8 + 8 * (c.res.dp % 4) + 32 * b2n f.seq.isSome + 64 * b2n c.replica), BitVec.ofNat 8 f.port] ++
  leBytes 2 (if c.replica then f.stream.getD 0 else 0) ++ leBytes 2 (f.seq.getD 0)

/-- A copy leaves its queue's shaper and its deficit when it ends (R308, R309). -/
def State.txCharge (s : State) (c : Copy) (len : Nat) : State :=
  (s.setDeficit c.port c.tc (s.deficit c.port c.tc - ((len + 20 : Nat) : Int))).bwAdd c.port 0 (8 * len)

/-- COPY_TRANSMIT_END (R105, R120, R121, R266, R273, R294, R314, R360, R522): the last byte of a copy leaves its MAC, with its SecTAG and ICV and
with the FCS of its bytes on the wire, on the rope the CRC over header and content. -/
def execCopyTransmitEnd (fid port : Nat) (s : State) : Host.Outcome State Fault Refusal :=
  .next (match s.frame fid, (s.fragResume port).copy fid port with
    | some f, some c0 =>
      if c0.phase ≠ .sending ∨ c0.fragAt = none ∨ f.ended = false ∨ port = 64 ∨ port = 67 then s
      else
        let b := (s.copyBytes f c0).1
        let whole := (if port = 65 then s.viramHdr f c0 else []) ++ c0.onWire b
        let wire := if s.readOk c0 then whole else whole.take (whole.length - s.unread f c0 - (if c0.sec.isSome then 16 else 0))
        let len := wire.length + 4
        let t := if s.readOk c0 then s else s.refuseRead c0
        let tooLong := if c0.cut && decide (s.getF (SCH_PORT_QCFG_MAX_SDU port c0.tc) < len - hdrLen port) then some tTX_SDU_DROP
          else if c0.cut && decide (s.maxFrame port < len) then some tTX_OVERSIZE else none
        let c := { c0 with tailMark := c0.tailMark || !s.readOk c0 || tooLong.isSome }
        let t := match tooLong with | some k => (t.portTally port k 1).portTally port (tTc c.tc 2) 1 | none => t
        let t := if c.fragments = 0 then t else t.portTally port tTX_FRAGMENTS (c.fragments + 1)
        let t := (t.txCharge c len).emit (.frame port (wire ++ fcsOf c.tailMark wire) c.tailMark)
        let t := if c.tailMark then t.portTally port tTX_TAIL_MARKED 1 else t.txGood f c b len
        ((((t.releaseCopy c).settleFrame fid).cbsStep port c.tc).fragResume port).raiseFrees
    | _, _ => s)

/-- RECIRCULATE_ENTRY (R16, R302, R349, R350): the P67 copy enters the ingress of P66's quadrant as a frame that has arrived whole. -/
def execRecirculateEntry (fid newFid : Nat) (s : State) : Host.Outcome State Fault Refusal :=
  .next (match s.frame fid, s.copy fid 67 with
    | some f, some c =>
      if c.phase ≠ .sending ∨ f.ended = false ∨ (s.frame newFid).isSome = true then s
      else
        let r := s.copyBytes f c
        let len := r.1.length + 4
        let t := if r.2 then s.count (EGR_Q_TRUNC_COUNT (s.quadOf 67)) 1 else s
        let t := t.txCharge c len
        if c.tailMark || !s.readOk c then
          let t := if s.readOk c then t else t.refuseRead c
          ((((t.portTally 67 tTX_TAIL_MARKED 1).releaseCopy c).settleFrame fid).cbsStep 67 c.tc).raiseFrees
        else
          let t := ((((t.txGood f c r.1 len).releaseCopy c).settleFrame fid).cbsStep 67 c.tc).raiseFrees
          let v := t.free
          let g := newFrame newFid 66 s.now s.localNs (0x300 + 3 * s.quadOf 66 + v.1 % 3)
          let g := { g with recirc := true, bytes := r.1, wire := len, ended := true, inTc := c.tc }
          let t := v.2.rxTally 66 len
          match t.notAdmitted 66 with
          | some _ => t
          | none => { t with frames := t.frames ++ [g] }
    | _, _ => s)

/-! ### Deep queue extension (R274–R276) -/

/-- The copies that wait in a queue's segment, in order. -/
def State.segment (s : State) (p tc k : Nat) : List Copy := (s.queue p tc).filter (fun c => c.seg == k)

/-- A queue is eligible for the DQX (R274). -/
def State.dqxEligible (s : State) (p tc : Nat) : Bool :=
  s.flag (BPM_POOL_CFG_DQX_OK (s.poolOf tc)) && decide (tc + s.getF (SCH_PORT_CFG_STRICT p) < 8) &&
  s.getF SWC_DQX_CFG_SIZE_MIB != 0 && !s.isIso .dqxMover

/-- The copies behind the head that the mover leaves on chip: those after the first REFILL beads (DEDUCED, assumption log 15). -/
def afterHead (keep : Nat) : List Copy → List Copy
  | [] => []
  | c :: t => if keep = 0 then c :: t else afterHead (keep - c.beads) t

/-- Label the copies behind a spilled one as the queue's tail (R275). -/
def markTail (fid p tc : Nat) : List Copy → Bool → List Copy
  | [], _ => []
  | c :: t, seen =>
    if c.port == p && c.tc == tc && c.phase == .queued then
      if seen && c.seg == 0 then { c with seg := 2 } :: markTail fid p tc t seen else c :: markTail fid p tc t (seen || c.fid == fid)
    else c :: markTail fid p tc t seen

/-- A queue without a DRAM segment has no tail of its own: its copies are all its head. -/
def State.joinSegments (s : State) (p tc : Nat) : State :=
  if (s.segment p tc 1).isEmpty then
    { s with copies := s.copies.map (fun c => if c.port == p && c.tc == tc && c.seg == 2 then { c with seg := 0 } else c) }
  else s

/-- The next copy that a queue would spill (R275): the first whole frame of its tail, while the queue is deeper on chip than SPILL. (DEDUCED,
DEDUCED, assumption log 15) -/
def State.spillable (s : State) (p tc : Nat) : Option Copy :=
  if !s.flag SWC_DQX_CFG_EN ∨ s.dqxEligible p tc = false ∨ s.getF (SWC_PORT_QDEPTH_BEADS p tc) ≤ s.getF SWC_DQX_THR_SPILL then none
  else
    let tail := if (s.segment p tc 1).isEmpty then afterHead (s.getF SWC_DQX_THR_REFILL) (s.segment p tc 0) else s.segment p tc 2
    tail.find? (fun c => !c.cut && (match s.frame c.fid with | some f => f.ended | none => false))

/-- A deeper queue has a frame to spill, and is served first (R276): all queues have one SPILL, so the depths beyond it order as the depths. -/
def State.deeperFirst (s : State) (p tc : Nat) : Bool :=
  s.copies.any (fun d => d.phase == .queued && decide (s.getF (SWC_PORT_QDEPTH_BEADS p tc) < s.getF (SWC_PORT_QDEPTH_BEADS d.port d.tc)) &&
    (s.spillable d.port d.tc).isSome)

/-- DQX_SPILL (R275, R276): a frame of the queue's tail goes to the end of its DRAM segment, in the order of the depths beyond SPILL. -/
def execDqxSpill (port tc : Nat) (s : State) : Host.Outcome State Fault Refusal :=
  .next (
      match s.spillable port tc with
      | none => s
      | some c =>
        if s.deeperFirst port tc then s
        else if s.getF SWC_DQX_CFG_SIZE_MIB * 4096 < s.getF SWC_DQX_USED_SLOTS + c.beads then s.count SWC_DQX_FULL_CNT_COUNT 1
        else
          let t := (s.depthSub c).freeAll c.freeTag (s.copyBeads c)
          let d := { c with seg := 1, own := [] }
          let t := ((t.putCopy d).depthAdd d).setF SWC_DQX_USED_SLOTS (s.getF SWC_DQX_USED_SLOTS + c.beads)
          { t with copies := markTail c.fid port tc t.copies false })

/-- The mover asks for the beads of a frame that it refills, which it owns until they are all there (R256): each is served, or one request
waits in slot 12 or 13 (R263, R264). -/
def State.refillBeads : Nat → State → Nat → Nat → State
  | 0, s, _, _ => s
  | n + 1, s, fid, p =>
    match s.copy fid p with
    | none => s
    | some c =>
      if c.beads ≤ c.own.length ∨ s.buf.waits.any (fun w => w.fid == fid && w.port == p && (w.slot == 12 || w.slot == 13)) = true then s
      else
        match [12, 13].find? (fun k => !s.buf.waits.any (fun w => w.slot == k)) with
        | none => s
        | some k =>
          let rp := s.poolOf c.tc
          match s.grantBead rp 0x360 with
          | some (b, t) =>
            State.refillBeads n (({ t with buf := { t.buf with held := linkBead t.buf.held c.own b } }).putCopy { c with own := c.own ++ [b] }) fid p
          | none => (s.emptyInd rp (s.quadOf p)).waitBead k rp 0x360 fid p

/-- DQX_REFILL (R275, R276): the first frame of the DRAM segment goes to the end of the head once all its beads are granted; one that
meets an uncorrectable DRAM error is dropped. -/
def execDqxRefill (port tc : Nat) (uncorrectable : Bool) (s : State) : Host.Outcome State Fault Refusal :=
  .next (
    let head := ((s.segment port tc 0).map (·.beads)).sum
    match (s.segment port tc 1).head? with
    | none => s
    | some c =>
      if s.getF SWC_DQX_THR_REFILL ≤ head then s
      else if uncorrectable then ((s.count SWC_DQX_ERR_COUNT 1).dropCopy c tTX_CONGESTION).joinSegments port tc
      else
        let t := State.refillBeads (c.beads + 1) s c.fid port
        match t.copy c.fid port with
        | some d =>
          if d.own.length < d.beads then t
          else
            let u := (t.dec SWC_DQX_USED_SLOTS d.beads).dec (SWC_PORT_QDQX_SLOTS port tc) d.beads
            let e := { d with seg := 0 }
            let u := { u with buf := { u.buf with held := ownBeads u.buf.held (t.poolOf tc) (8 * port + tc) 1 d.own } }
            ((u.putCopy e).depthAdd e).joinSegments port tc
        | none => t)

end Sys2Proof.Machine
end

