-- ==== Sys2Proof/Machine/ImageBytes.lean ====
section
/-!
DEFINITION. Machine/ImageBytes.lean: an image read from its bytes: the header (R31), the section table with its CRCs (R32), the
signature block (R33) and the sections whose layout the spec gives (R34, R150, R151).
-/

namespace Sys2Proof

/-- `n` bytes at an offset. -/
def bytesAt (l : List Byte) (off n : Nat) : List Byte := (l.drop off).take n
/-- A little-endian field of `n` bytes at an offset. -/
def fieldAt (l : List Byte) (off n : Nat) : Nat := leNat (bytesAt l off n)
/-- Bytes that are all 0. -/
def zeros (l : List Byte) : Bool := l.all (· == 0)

/-- The records of `n` bytes each that a section holds. -/
def recordsOf (l : List Byte) (n : Nat) : List (List Byte) := (List.range (l.length / n)).map (fun k => bytesAt l (n * k) n)

namespace Machine

/-- Entry `k` of the section table (R32), which follows the header; its CRC-32C is computed over the section. -/
def sectionAt (l : List Byte) (k : Nat) : Section :=
  let b := 64 + 16 * k
  let off := fieldAt l (b + 4) 4
  let len := fieldAt l (b + 8) 4
  { id := fieldAt l b 2, sver := fieldAt l (b + 2) 2, off := off, len := len, crcOk := crc32c (bytesAt l off len) == fieldAt l (b + 12) 4 }

/-- The section table. -/
def sectionTable (l : List Byte) : List Section := (List.range (fieldAt l 20 2)).map (sectionAt l)

/-- The bytes of the section with a known number (R32). -/
def sectionBytes (l : List Byte) (n : Nat) : List Byte :=
  match (sectionTable l).find? (fun x => x.id % 32768 == n) with
  | some x => bytesAt l x.off x.len
  | none => []

/-- A LANEMAP record (R34), its fields in the order of the table. (DEDUCED, assumption log 83) -/
def laneRecOf (b : List Byte) : LaneRec :=
  { lane := fieldAt b 0 1, rate := fieldAt b 1 1, port := fieldAt b 2 1, position := fieldAt b 3 1, polarity := fieldAt b 4 1,
    eqPreset := fieldAt b 5 1 }

/-- A PORTS record (R34), its fields in the order of the table. (DEDUCED, assumption log 83) -/
def portRecOf (b : List Byte) : PortRec :=
  { port := fieldAt b 0 1, mode := fieldAt b 1 1, quadrant := fieldAt b 2 1, macsecCode := fieldAt b 3 1, maxFrame := fieldAt b 4 2,
    holdMs := fieldAt b 6 2, nominal := fieldAt b 8 4 }

/-- STATIONS record `n` (R34): quadrant n / 14; POSITION, KIND, TABLE and KEYSEL, a byte each. (DEDUCED, assumption log 83) -/
def stationRecOf (b : List Byte) (n : Nat) : StationRec :=
  { quadrant := n / 14, position := fieldAt b 0 1, kind := fieldAt b 1 1, table := fieldAt b 2 1, keySel := fieldAt b 3 1 }

/-- An edge of a node record (R151). -/
def edgeOf (b : List Byte) : Edge := { value := fieldAt b 0 2, mask := fieldAt b 2 2, next := fieldAt b 4 1, adv := fieldAt b 5 1 }

/-- The node records that follow the preamble (R151). -/
def nodesOf : Nat → List Byte → List Node
  | 0, _ => []
  | n + 1, l =>
    let c := fieldAt l 4 1
    { node := fieldAt l 0 1, kind := fieldAt l 1 1, entry := fieldAt l 2 2, record := (fieldAt l 5 1).testBit 0,
      edges := (recordsOf (bytesAt l 8 (8 * c)) 8).map edgeOf } :: nodesOf n (l.drop (8 + 8 * c))

/-- What R151 has 0 in `n` node records is 0, and they fill the section. -/
def nodesForm : Nat → List Byte → Bool
  | 0, l => l.isEmpty
  | n + 1, l =>
    let c := fieldAt l 4 1
    decide (8 + 8 * c ≤ l.length) && decide (fieldAt l 5 1 < 2) && zeros (bytesAt l 6 2) &&
    (recordsOf (bytesAt l 8 (8 * c)) 8).all (fun e => zeros (bytesAt e 6 2)) && nodesForm n (l.drop (8 + 8 * c))

/-- A key window byte (R150). -/
def keyWinOf (b : Byte) : KeyWin := { start := b.toNat % 64, width := b.toNat / 64 }

/-- The PARSE section (R150, R151). -/
def parseOf (l : List Byte) : ParseRec :=
  { reach16 := fieldAt l 0 1, layers := fieldAt l 1 1, reachAction := fieldAt l 2 1, wins := (bytesAt l 8 8).map keyWinOf,
    nodes := nodesOf (fieldAt l 4 2) (l.drop 16) }

/-- Reserved bytes are 0 where the image's version reserves them, flag bits without a meaning are 0, and sections of records hold whole
records (R31, R34, R37, R150, R151). (DEDUCED, assumption log 84) -/
def formOk (l : List Byte) : Bool :=
  let p := sectionBytes l 3
  decide (fieldAt l 14 1 < 4) && decide (fieldAt l 22 2 < 16) &&
  (decide (2 < fieldAt l 4 2) || (zeros (bytesAt l 34 30) && zeros (bytesAt p 3 1) && zeros (bytesAt p 6 2) &&
    nodesForm (fieldAt p 4 2) (p.drop 16))) &&
  (sectionBytes l 1).length % 8 == 0 && (sectionBytes l 2).length == 16 * 68 && (sectionBytes l 4).length == 4 * 56 &&
  decide (16 ≤ p.length)

/-- The signature block (R33): 97 bytes of key with first byte 04h, 7 of 0, r and s, 56 of 0. -/
def sigForm (b : List Byte) : Bool := b.length == 256 && bytesAt b 0 1 == [4] && zeros (bytesAt b 97 7) && zeros (bytesAt b 200 56)

/-- The image that the bytes spell (R31–R34).  The digest covers every byte before the signature block. -/
def imageOf (f : ImageFile) : Image :=
  let l := f.bytes
  let len := fieldAt l 16 4
  let b := bytesAt l (len - 256) 256
  { formOk := formOk l, injEn := f.injEn, readOk := f.readOk, magic := fieldAt l 0 4, fmtVer := fieldAt l 4 2, fmtMin := fieldAt l 6 2,
    epoch := fieldAt l 8 2, compatEpoch := fieldAt l 10 2, stepMask := fieldAt l 12 2, variantMask := fieldAt l 14 1, keySlot := fieldAt l 15 1,
    length := len, sectionCount := fieldAt l 20 2, flags := fieldAt l 22 2, buildId := fieldAt l 24 8, drainMax := fieldAt l 32 2,
    sections := sectionTable l, sigForm := sigForm b, pubKey := bytesAt b 0 97, signature := bytesAt b 104 96,
    digest := Config.sha384 (l.take (len - 256)), streamsDigest := Config.sha384 (sectionBytes l 10),
    lanes := (recordsOf (sectionBytes l 1) 8).map laneRecOf, ports := (recordsOf (sectionBytes l 2) 16).map portRecOf,
    parse := parseOf (sectionBytes l 3),
    stations := (recordsOf (sectionBytes l 4) 4).zipIdx.map (fun (r, n) => stationRecOf r n),
    tiles := f.tiles, sched := f.sched, pools := f.pools, dqxMib := f.dqxMib, groups := f.groups, sources := f.sources, ageing := f.ageing,
    streams := f.streams, patches := f.patches }

end Machine

end Sys2Proof
end

