-- ==== Sys2Proof/Machine/ImageOps.lean ====
section
/-!
DEFINITION. Machine/ImageOps.lean: the checks of an image (R31–R40 and the rules that name code 0Ah) and the load of a verified
image into the structure (R30, R46, R312, R397, R560).
-/

namespace Sys2Proof

/-! ### Check 11: lanes and ports (R89–R92, R356) -/

/-- The PORTS record of a port. -/
def Image.portRec (i : Image) (p : Nat) : Option PortRec := i.ports.find? (fun r => r.port == p)
def Image.modeOf (i : Image) (p : Nat) : Nat := ((i.portRec p).map (·.mode)).getD 0

/-- The lane count and the rate codes of a front port mode (R89). -/
def modeLanes : Nat → Nat × List Nat
  | 1 => (1, [0]) | 2 => (1, [1]) | 3 => (1, [2]) | 4 => (1, [2]) | 5 => (1, [3, 4]) | 6 => (1, [5]) | 7 => (2, [5])
  | 8 => (4, [5]) | _ => (0, [])

/-- A lane that carries Q-USXGMII sub-ports (R91). -/
def Image.isUsx (i : Image) (l : LaneRec) : Bool :=
  l.rate == 1 && (i.modeOf l.port == 9 || i.modeOf l.port == 0) && (List.range 4).any (fun k => i.modeOf (l.port + k) == 9)

/-- Front lane records that carry port `p` as their first port. -/
def Image.lanesFor (i : Image) (p : Nat) : List LaneRec := i.lanes.filter (fun l => l.lane < 24 && l.port == p)

/-- A front port's lanes fit its mode (R89–R91). -/
def Image.portLanesOk (i : Image) (p : Nat) : Bool :=
  let m := i.modeOf p
  let ls := i.lanesFor p
  let group := i.lanes.filter (fun l => l.lane < 24 && i.isUsx l && l.port ≤ p && p < l.port + 4)
  if m = 9 then group.length == 1 && (ls.isEmpty || ls == group)
  else if m = 0 then ls.all i.isUsx
  else
    let c := modeLanes m
    let first := (ls.map (·.lane)).foldl min 24
    group.isEmpty && ls.length == c.1 && ls.all (fun l => c.2.contains l.rate && l.position == l.lane - first && l.lane < first + c.1) &&
    (match ls with | [] => false | l :: t => t.all (fun x => x.rate == l.rate)) && first % (max 1 c.1) == 0

/-- The sub-ports of a Q-USXGMII lane (R91, R92). -/
def Image.usxOk (i : Image) (l : LaneRec) : Bool :=
  let ps := (List.range 4).map (fun k => l.port + k)
  let nom := fun (p : Nat) => (((i.portRec p).map (·.nominal)).getD 0 : Nat)
  ps.all (fun p => p < 64 && (i.modeOf p == 0 || (i.modeOf p == 9 && [10000, 5000, 2500, 1000].contains (nom p)))) &&
  decide ((((ps.filter (fun p => i.modeOf p == 9)).map nom).sum : Nat) ≤ 10000) && l.position == 0 &&
  i.lanes.all (fun x => x == l || 24 ≤ x.lane || x.port < l.port || l.port + 4 ≤ x.port)

def Image.lanesOk (i : Image) : Bool :=
  i.lanes.all (fun l => (l.lane < 24 && decide (l.rate ≤ 5) && decide (l.port < 64)) ||
    (decide (0x40 ≤ l.lane) && decide (l.lane ≤ 0x44) && l.rate == 6 && l.port == 0xFF && l.position == 0)) &&
  i.lanes.all (fun l => decide (l.position ≤ 3) && decide (l.polarity ≤ 3) && decide (l.eqPreset ≤ 15)) &&
  decide ((i.lanes.map (·.lane)).Nodup) &&
  ((i.lanes.filter (fun l => 0x40 ≤ l.lane)).length == (if i.pair then 5 else 0)) &&
  (List.range 64).all i.portLanesOk && (i.lanes.filter (fun l => l.lane < 24 && i.isUsx l)).all i.usxOk

def Image.portsOk (i : Image) : Bool :=
  decide ((i.ports.map (·.port)).Nodup) && i.ports.length == 68 && i.ports.all (·.port < 68) &&
  i.ports.all (fun r => decide (r.quadrant ≤ 3) && decide (64 ≤ r.maxFrame) && decide (r.maxFrame ≤ 16383) && decide (r.holdMs ≤ 1000)) &&
  (List.range 64).all (fun p => decide (i.modeOf p ≤ 9)) &&
  i.modeOf 64 == 0x0A && i.modeOf 65 == (if i.pair then 0x0B else 0) && i.modeOf 66 == 0x0C && i.modeOf 67 == 0x0D &&
  i.ports.all (fun r => decide (r.macsecCode ≤ (if r.port < 64 then 1 else 0)))

/-! ### Check 11: parse graph, stations, tables -/

/-- A kind code that R156 recognises or leaves to image routines. -/
def kindOk (k : Nat) : Bool := (decide (1 ≤ k) && decide (k ≤ 0x12)) || (decide (0x40 ≤ k) && decide (k ≤ 0x7F))

def Image.parseOk (i : Image) : Bool :=
  let g := i.parse
  decide (4 ≤ g.reach16) && decide (g.reach16 ≤ 16) && decide (1 ≤ g.layers) && decide (g.layers ≤ 16) && decide (g.reachAction ≤ 1) &&
  decide (1 ≤ g.nodes.length) && decide (g.nodes.length ≤ 256) && g.wins.length == 8 &&
  g.wins.all (fun w => decide (w.start < 64) && decide (w.width ≤ 3) && decide (2 * w.start + w.bytes ≤ 128)) &&
  (g.nodes.map (·.node) == List.range g.nodes.length) &&
  g.nodes.all (fun n => kindOk n.kind && decide (n.edges.length ≤ 16) &&
    ((decide (1 ≤ n.entry) && decide (n.entry ≤ 0x7FFF)) || (decide (0x8000 ≤ n.entry) && decide (n.entry ≤ 0x87FF))) &&
    n.edges.all (fun e => decide (n.node < e.next) && decide (e.next < g.nodes.length) && decide (e.adv ≤ 255)))

/-- The TILES record of a table. -/
def Image.tile (i : Image) (k : Nat) : Option TileRec := i.tiles.find? (fun t => t.table == k)

/-- One station record (R34, R169, R226). (DEDUCED, assumption log 56) -/
def Image.stationOk (i : Image) (r : StationRec) : Bool :=
  let k := (i.tile r.table).map (·.kind)
  decide (r.quadrant ≤ 3) && decide (r.position ≤ 13) && (match r.kind with
    | 1 =>
      if k = some .fdb then r.keySel % 128 < 8 && decide (r.keySel < 256)
      else (k == some .stream || k == some .exactFlow || k == some .lpm) && decide (r.keySel < 8)
    | 2 => k == some .tcam && decide (r.keySel < 8)
    | 3 => k == some .treeCache && decide (r.keySel < 8) && decide (r.position ≤ 9)
    | 4 => r.table == 0 && decide (r.keySel ≤ 3)
    | 5 => k == some .exactFlow && decide (r.keySel ≤ 3)
    | _ => false)

def Image.stationsOk (i : Image) : Bool :=
  i.stations.all i.stationOk &&
  (List.range 4).all (fun q => (List.range 14).all (fun p => ((i.stations.filter (fun r => r.quadrant == q && r.position == p)).length == 1))) &&
  (List.range 4).all (fun q => decide ((i.stations.filter (fun r => r.quadrant == q && r.kind == 1 &&
    (i.tile r.table).map (·.kind) == some .fdb && decide (128 ≤ r.keySel))).length ≤ 1))

/-- A station's key window is 44 or 64 bytes wide (R204). -/
def Image.wide (i : Image) (r : StationRec) : Bool := ((i.parse.wins[r.keySel]?).map (fun w => w.width % 2 == 1)).getD false

/-- The TCAM stations that name a table. -/
def Image.tcamStations (i : Image) (k : Nat) : List StationRec := i.stations.filter (fun r => r.kind == 2 && r.table == k)

/-- A TCAM table is chained when the stations that name it use a wide window; a table that no station names is single (R204). -/
def Image.chained (i : Image) (k : Nat) : Bool := (i.tcamStations k).any i.wide

/-- Bits of a mask. -/
def popcount (n w : Nat) : Nat := ((List.range w).filter (fun i => n.testBit i)).length
def pow2 (n : Nat) : Bool := (List.range 24).any (fun k => n == 2 ^ k)

/-- One TILES record (R176, R177, R204, R221, R560). (DEDUCED, assumption log 53) -/
def Image.tileOk (i : Image) (t : TileRec) : Bool :=
  let all := fun (n : Nat) => t.tileMasks.all (fun m => m == 0 || decide (n ≤ popcount m 96 * 131072))
  decide (t.table < 64) && t.tileMasks.length == 4 && t.blockMasks.length == 4 && t.tileMasks.all (· < 2 ^ 96) && t.blockMasks.all (· < 2 ^ 24) &&
  decide (t.ageS ≤ 65535) &&
  (!t.glob || (t.tileMasks.all (· == t.tileMasks.headD 0) && t.blockMasks.all (· == t.blockMasks.headD 0))) &&
  (match t.kind with
   | .fdb => t.glob && pow2 t.buckets && decide (256 ≤ t.buckets) && decide (t.buckets ≤ 16384) && t.dramMib == 0 && all (512 * t.buckets)
   | .stream => t.glob && t.buckets == 16384 && t.dramMib == 0 && all (128 * t.buckets)
   | .exactFlow => pow2 t.buckets && decide (4 * t.buckets ≤ 131072) && (t.dramMib == 0 || pow2 t.dramMib) && all (128 * t.buckets)
   | .lpm => t.dramMib == 0 && t.tileMasks.all (fun m => decide (popcount m 96 ≤ 40))
   | .treeCache => t.glob
   | .tcam =>
     t.dramMib == 0 &&
     (let st := i.tcamStations t.table
      st.all (fun r => i.wide r == i.chained t.table) &&
      (!i.chained t.table || t.blockMasks.all (fun m => (List.range 12).all (fun k => m.testBit (2 * k) == m.testBit (2 * k + 1)))) &&
      (List.range 4).all (fun q => decide ((st.filter (fun r => r.quadrant == q)).length ≤ 1)))
   | .other _ => false)

/-- No tile and no block belongs to two tables (R204, R560). -/
def Image.masksApart (i : Image) : Bool :=
  decide (i.tiles.Pairwise (fun a b => a.table ≠ b.table ∧ (List.range 4).all (fun q =>
    (a.tileMasks.getD q 0 &&& b.tileMasks.getD q 0 == 0) && (a.blockMasks.getD q 0 &&& b.blockMasks.getD q 0 == 0)) = true))

/-- The on-chip exact flow entries that a table takes: a copy in each quadrant whose mask is not empty (R176). (DEDUCED, assumption log 53) -/
def TileRec.flowEntries (t : TileRec) : Nat :=
  if t.kind = .exactFlow then 4 * t.buckets * (t.tileMasks.filter (fun m => m != 0)).length else 0

def Image.tilesOk (i : Image) : Bool :=
  i.tiles.all i.tileOk && i.masksApart && decide ((i.tiles.map (·.flowEntries)).sum ≤ 524288) &&
  decide (((i.tiles.filter (fun t => t.kind == .exactFlow)).map (·.dramMib)).sum ≤ 64)

/-! ### Check 11: scheduling, pools, safety, ageing, streams, patches -/

/-- A gate entry as R310 writes it: bits 10–8 of word 0 are its OP. -/
def GateEntry.ok (e : GateEntry) : Bool := decide (1 ≤ e.interval) && decide (e.interval ≤ 1000000000) && decide (e.states / 256 % 8 ≤ 2)

def Image.schedOk (i : Image) : Bool :=
  decide ((i.sched.map (·.port)).Nodup) && i.sched.length == 68 && i.sched.all (·.port < 68) &&
  i.sched.all (fun r => decide (r.strict ≤ 4) && decide (r.pmacMask < 256) && decide (r.gates.length ≤ 1024) && r.gates.all GateEntry.ok &&
    (r.gates.isEmpty || (decide (1 ≤ r.cycleNs) && decide (r.cycleNs ≤ 1000000000))) && r.classes.length == 8 &&
    r.classes.all (fun c => decide (64 ≤ c.maxSdu) && decide (c.maxSdu ≤ 16383) && decide (c.rank ≤ 7) && decide (c.weight < 65536) &&
      decide (c.burst < 2 ^ 24) && decide (c.idleSlope < 2 ^ 30) && decide (c.maxResUs < 2 ^ 20)))

def Image.poolsOk (i : Image) : Bool :=
  i.pools.length == 16 && decide (i.dqxMib ≤ 32768) &&
  i.pools.all (fun r => decide (r.warn1 ≤ r.warn2) && decide (r.warn2 ≤ r.full) && decide (r.full ≤ r.beads) && decide (r.rank ≤ 7) &&
    decide (r.reservedCode ≤ 1) && decide (r.dqxCode ≤ 1)) &&
  (List.range 8).all (fun t => (i.pools.filter (fun r => r.tcs.testBit t)).length == 1)

def Image.safetyOk (i : Image) : Bool :=
  i.groups.length == 48 && i.groups.all (fun r => decide (r.cls ≤ 4) && decide (1 ≤ r.belayUs) && decide (r.belayUs ≤ 100000)) &&
  (i.groups.take 4).all (fun r => r.cls == 4) &&
  i.sources.all (fun r => decide (r.source ≤ 411) && decide (1 ≤ r.n) && decide (r.n ≤ 255) && decide (1 ≤ r.wUs) && decide (r.wUs ≤ 10000000))

def Image.ageingOk (i : Image) : Bool :=
  let a := i.ageing
  decide (a.replanCode ≤ 1) && decide (1 ≤ a.intervalH) && decide (a.intervalH ≤ 720) && decide (-40 ≤ a.tLow) && decide (a.tLow ≤ 124) && decide (a.tLow < a.tHigh) &&
  decide (a.tHigh ≤ 125) && decide (720 ≤ a.avsMin) && decide (a.avsMin ≤ 800) && a.avsMin % 5 == 0 && decide (a.avsMin ≤ a.avsMax) &&
  decide (a.avsMax ≤ 800) && a.avsMax % 5 == 0 && decide (5 ≤ a.laneFloorMv) && decide (a.laneFloorMv ≤ 200) && decide (50 ≤ a.laneFloorMui) &&
  decide (a.laneFloorMui ≤ 500) && decide (10 ≤ a.sramFloorMv) && decide (a.sramFloorMv ≤ 100)

def Image.streamsOk (i : Image) : Bool :=
  i.streams.all (fun r => decide (r.handle < 65536) && decide (r.home ≤ 1) && decide (1 ≤ r.history) && decide (r.history ≤ 64) && decide (r.rank ≤ 7) &&
    decide (r.replicateCode ≤ 1) && decide (r.criticalCode ≤ 1) && decide (r.algCode ≤ 1)) && decide (i.streams.length ≤ 65536) &&
  decide ((i.streams.map (·.handle)).Nodup) && decide ((i.streams.filter (·.replicate)).length ≤ 16384)

def Image.patchesOk (i : Image) : Bool :=
  decide ((i.patches.map (·.copy)).Nodup) && i.patches.all (fun b => decide (b.copy ≤ 4) && decide (b.words.length ≤ 2048) && b.words.all (· < 2 ^ 24) &&
    decide (b.matches_.length ≤ 64) && b.matches_.all (fun m => decide (m.romAddr < 32768) && decide (m.patchIdx < 2048) && (b.copy == 4 || m.romAddr != 0)))

/-- ADMIT values are unique across SCHED, POOLS and STREAMS (R35). -/
def Image.admits (i : Image) : List Nat :=
  (i.sched.flatMap (fun r => r.classes.filterMap (·.admitAt))) ++ i.pools.filterMap (·.admitAt) ++ i.streams.filterMap (·.admitAt)

/-- The DRAM regions in order with their sizes in MiB (R397): exact-flow extensions, trees, then the DQX as table 64. -/
def Image.regions (i : Image) : List (Nat × Nat) :=
  let of := fun (k : TableKind) => (((i.tiles.filter (fun t => t.kind == k && t.dramMib != 0)).map (fun t => (t.table, t.dramMib))).mergeSort
    (fun a b => decide (a.1 ≤ b.1)))
  of .exactFlow ++ of .treeCache ++ (if i.dqxMib = 0 then [] else [(64, i.dqxMib)])

/-- COMPAT_EPOCH and DRAIN_MAX as the device takes them (R37). (DEDUCED, assumption log 42) -/
def Image.compat (i : Image) : Nat := if min i.fmtVer 2 = 1 then i.epoch else i.compatEpoch
def Image.drainMs (i : Image) : Nat := if min i.fmtVer 2 = 1 then 10 else i.drainMax

/-- The header's fields are in range (R31): DRAIN_MAX is 1 to 100 ms where the version has it, and what is reserved is 0. -/
def Image.headerOk (i : Image) : Bool := i.formOk && decide (1 ≤ i.drainMs) && decide (i.drainMs ≤ 100)

end Sys2Proof

namespace Sys2Proof.Machine

/-- Check 11 of R40. -/
def State.fieldsOk (s : State) (i : Image) : Bool :=
  i.headerOk && i.lanesOk && i.portsOk && i.parseOk && i.stationsOk && i.tilesOk && i.schedOk && i.poolsOk && i.safetyOk && i.ageingOk && i.streamsOk &&
  i.patchesOk && decide (i.admits.Nodup) && decide (i.admits.all (· < 65536) = true) &&
  decide ((i.regions.map (·.2)).sum ≤ s.getF DRC_MAPPED_MIB)

/-! ### R40 -/

/-- The twelve checks in order: 0 when the image passes, else the code of the first that fails.  `pushed` is IMG_PUSH_LEN of a push
(R44).  An entry whose ID has a known section's number is that section, whatever its SKIPPABLE bit (DESIGN CHOICE, assumption log 85); a
malformed signature block fails check 8 and an empty section other than PATCH fails check 10 (DEDUCED, assumption log 84). -/
def State.verify (s : State) (i : Image) (pushed : Option Nat) : Nat :=
  let step := (s.getF GLB_ID_HI_STEP_MAJOR - 1) * 8 + s.getF GLB_ID_HI_STEP_MINOR
  let ids := i.sections.map (·.id)
  let keyOk := Config.sha384 i.pubKey == s.otp.keyHash.getD i.keySlot [] && !(s.otp.keyHash.getD i.keySlot []).isEmpty && !s.otp.revoked.testBit i.keySlot
  if !i.readOk then 0x0C
  else if i.magic ≠ 0x52544853 then 0x01
  else if i.fmtVer = 0 ∨ i.fmtMin = 0 ∨ i.fmtVer < i.fmtMin ∨ 2 < i.fmtMin then 0x02
  else if !i.stepMask.testBit step then 0x03
  else if !i.variantMask.testBit (b2n s.otp.is2416) || (s.otp.is2416 && i.lanes.any (fun l => 16 ≤ l.lane && l.lane < 24)) ||
      (i.pair && i.senior != s.mode.senior) then 0x04
  else if i.length % 64 ≠ 0 ∨ 4194304 < i.length ∨ i.sectionCount < 11 ∨ 32 < i.sectionCount ∨ i.sectionCount ≠ i.sections.length ∨
      i.sections.any (fun x => decide (i.length < x.off + x.len)) = true ∨ pushed.any (fun n => n != i.length) = true then 0x05
  else if !keyOk then 0x06
  else if !i.sigForm || !Config.ecdsaOk i.pubKey i.digest i.signature then 0x07
  else if i.sections.any (fun x => !x.crcOk) then 0x08
  else if (List.range 11).any (fun k => (ids.filter (fun x => x % 32768 == k + 1)).length != 1) ||
      i.sections.any (fun x => decide (11 < x.id % 32768 ∨ x.id % 32768 = 0) && !x.id.testBit 15) ||
      i.sections.any (fun x => decide (1 ≤ x.id % 32768 ∧ x.id % 32768 ≤ 10) && x.len == 0) then 0x09
  else if !s.fieldsOk i then 0x0A
  else if i.epoch < s.otp.floor then 0x0B
  else 0

/-! ### The load -/

/-- Fold an update over a list. -/
def State.foldS {α : Type} (f : State → α → State) : State → List α → State
  | s, [] => s
  | s, a :: t => State.foldS f (f s a) t

/-- Code of a table kind in FWD_TBLk_GEOM (R251). -/
def kindCode : TableKind → Nat
  | .fdb => 1 | .stream => 2 | .exactFlow => 3 | .lpm => 4 | .treeCache => 5 | .tcam => 6 | .other c => c

/-- The lowest bit of a mask. -/
def lowBit (m w : Nat) : Option Nat := (List.range w).find? (fun i => m.testBit i)

def State.loadParse (s : State) (g : ParseRec) : State :=
  let t := ((s.setF PRS_CFG_REACH (16 * g.reach16)).setF PRS_CFG_LAYERS g.layers).setF PRS_CFG_REACH_ACTION g.reachAction
  (t.setF PRS_GRAPH_NODES g.nodes.length).foldS (fun u (w, k) => (u.setF (PRS_KEYWIN_START k) w.start).setF (PRS_KEYWIN_WIDTH k) w.width) g.wins.zipIdx

def State.loadStation (s : State) (i : Image) (r : StationRec) : State :=
  let src := r.kind == 1 && (i.tile r.table).map (·.kind) == some .fdb && decide (128 ≤ r.keySel)
  let t := ((s.setF (CLS_Q_POS_KIND r.quadrant r.position) r.kind).setF (CLS_Q_POS_TABLE r.quadrant r.position) r.table).setF
    (CLS_Q_POS_KEYSEL r.quadrant r.position) r.keySel
  if src then (t.setF (FWD_Q_SRC_POS r.quadrant) r.position).setF (FWD_Q_SRC_PRESENT r.quadrant) 1 else t

def State.loadBlock (s : State) (r : TileRec) (chained : Bool) (q n : Nat) : State :=
  if (r.blockMasks.getD q 0).testBit n then
    ((s.setF (ASM_Q_BLK_TABLE q n) r.table).setF (ASM_Q_BLK_USED q n) 1).setB (ASM_Q_BLK_ODD q n) (chained && n % 2 == 1)
  else s

def State.loadTile (s : State) (chained : Bool) (r : TileRec) : State :=
  let k := r.table
  let t := ((s.setF (FWD_TBL_GEOM_KIND k) (kindCode r.kind)).setB (FWD_TBL_GEOM_GLOBAL k) r.glob).setF (FWD_TBL_GEOM_BUCKETS k)
    (if r.kind = .fdb ∨ r.kind = .stream ∨ r.kind = .exactFlow then r.buckets else 0)
  let t := ((t.setF (FWD_TBL_SEED0_SEED k) r.seed0).setF (FWD_TBL_SEED1_SEED k) r.seed1).setF (FWD_TBL_AGE_AGE_S k) r.ageS
  let t := match r.kind, lowBit (r.tileMasks.headD 0) 96 with
    | .fdb, some j | .stream, some j | .exactFlow, some j => t.setF (FWD_TBL_LOC_OFFSET k) (0x20000 * j)
    | _, _ => t.setF (FWD_TBL_LOC_OFFSET k) 0
  if r.kind = .tcam then
    let u := ((t.setB (ASM_TBL_CFG_CHAIN k) chained).setB (ASM_TBL_CFG_GLOBAL k) r.glob).setF (ASM_TBL_CFG_BLOCKS k)
      ((r.blockMasks.map (fun m => popcount m 24)).foldl max 0)
    u.foldS (fun v (x : Nat) => v.loadBlock r chained (x / 24) (x % 24)) (List.range 96)
  else t

/-- The regions of R397 from mapped address 0 upward. -/
def State.loadRegions : State → Nat → List (Nat × Nat) → State
  | s, _, [] => s
  | s, base, (k, n) :: t =>
    (if k = 64 then (s.setF DRC_RGN_DQX_BASE_MIB base).setF DRC_RGN_DQX_SIZE_MIB n
     else (s.setF (DRC_RGN_TBL_BASE_MIB k) base).setF (DRC_RGN_TBL_SIZE_MIB k) n).loadRegions (base + n) t

def State.loadClass (s : State) (p t : Nat) (c : ClassRec) : State :=
  let u := ((s.setF (SCH_PORT_QCFG_WEIGHT p t) c.weight).setF (SCH_PORT_QCFG_MAX_SDU p t) c.maxSdu).setF (SCH_PORT_QBURST_BURST p t) c.burst
  let u := ((u.setF (SCH_PORT_QCBS_IDLE_SLOPE p t) c.idleSlope).setB (SCH_PORT_QCBS_CBS_EN p t) c.cbsEn).setF (SCH_PORT_QRES_MAX_RES_US p t) c.maxResUs
  let u := (u.setF (SCH_PORT_QGUAR_RANK p t) c.rank).setF (SCH_PORT_QGUAR_ADMIT p t) (c.admitAt.getD 0)
  (u.setF (SCH_PORT_QGUAR_BROKEN p t) 0).setF (SCH_PORT_QALLOC_RATE p t) (if c.cbsEn then c.idleSlope else 0)

def State.loadSched (s : State) (r : SchedRec) : State :=
  let b := gateBlock (.port r.port)
  let t := (s.setF (SCH_PORT_CFG_STRICT r.port) r.strict).setF (MAC_PREEMPT_PMAC_MASK r.port) r.pmacMask
  let t := (t.setB (GATE_GCTL_GATE_EN b) (r.gateEn && !r.gates.isEmpty)).setF (GATE_ADMIN_CYCLE_NS_NS b) r.cycleNs
  let t := (t.setF (GATE_OPER_CYCLE_NS_NS b) r.cycleNs).setF (GATE_OPER_LEN_LEN b) r.gates.length
  let t := t.wrMem (operList (.port r.port)) (r.gates.flatMap (fun e => leBytes 4 e.states ++ leBytes 4 e.interval))
  t.foldS (fun u (c, k) => u.loadClass r.port k c) r.classes.zipIdx

def State.loadPool (s : State) (r : PoolRec) (n : Nat) : State :=
  let t := ((s.setF (BPM_POOL_CFG_TCS n) r.tcs).setB (BPM_POOL_CFG_RESERVED n) r.reserved).setB (BPM_POOL_CFG_DQX_OK n) r.dqxOk
  let t := (t.setF (BPM_POOL_CFG_RANK n) r.rank).setF (BPM_POOL_CFG_ADMIT n) (r.admitAt.getD 0)
  let t := (t.setF (BPM_POOL_BEADS_QUOTA n) r.beads).setF (BPM_POOL_CARVED_COUNT n) r.beads
  ((t.setF (BPM_POOL_WARN1_BEADS n) r.warn1).setF (BPM_POOL_WARN2_BEADS n) r.warn2).setF (BPM_POOL_FULL_BEADS n) r.full

def State.loadAgeing (s : State) (a : AgeingRec) : State :=
  let t := (s.setB AGE_CTL_REPLAN_EN a.replanEn).setF AGE_CFG_INTERVAL_H a.intervalH
  let t := (t.setF AGE_CFG_T_LOW (unsignedOf 8 a.tLow)).setF AGE_CFG_T_HIGH (unsignedOf 8 a.tHigh)
  let t := (t.setF AGE_AVS_WIN_MIN_MV a.avsMin).setF AGE_AVS_WIN_MAX_MV a.avsMax
  ((t.setF AGE_SRAM_FLOOR_MV a.sramFloorMv).setF AGE_LANE_FLOOR_HEIGHT_MV a.laneFloorMv).setF AGE_LANE_FLOOR_WIDTH_MUI a.laneFloorMui

def State.loadPatch (s : State) (b : PatchRec) : State :=
  let t := s.foldS (fun u (w, k) => u.setF (HSQ_PATCH_WORD_WORD b.copy k) w) b.words.zipIdx
  t.foldS (fun u (m, k) => ((u.setF (HSQ_MATCH_ROM_ADDR b.copy k) m.romAddr).setF (HSQ_MATCH_PATCH_IDX b.copy k) m.patchIdx).setF (HSQ_MATCH_VALID b.copy k) 1)
    b.matches_.zipIdx

/-- Registers whose values an image gives, returned to reset before a load (R30). -/
def imageReg (o : Nat) : Bool :=
  (0x320100 ≤ o && o < 0x334000 && 0x100 ≤ (o - 0x320000) % 0x4000) || (0x340000 ≤ o && o < 0x340028) ||
  (0x401000 ≤ o && o < 0x405000 && (o - 0x401000) % 0x1000 < 0x38) || (0x480000 ≤ o && o < 0x480100) ||
  (0x481000 ≤ o && o < 0x485000 && (o - 0x481000) % 0x1000 < 0x60) || (0x501000 ≤ o && o < 0x501800 && (o - 0x501000) % 0x20 < 0x18) ||
  (0x508000 ≤ o && o < 0x50C000 && (o - 0x508000) % 0x1000 = 0) || (0x900060 ≤ o && o < 0x900200) ||
  (0xB02000 ≤ o && o < 0xB02000 + 0x10 * 412 && o % 0x10 = 0)

/-- The state of a port after a load: its record, with nothing under way. -/
def portFresh (r : PortRec) : PortSt :=
  { port := r.port, faultAt := none, lockAt := none, holdEnd := none, pauseEnd := [], genPause := 0, refreshAt := 0, verifyLeft := 0,
    verifyAt := 0, wakeEnd := none, verifyFails := 0, ctlDown := false, mode := r.mode, quad := r.quadrant, macsec := r.macsec, maxFrame := r.maxFrame, nominal := r.nominal }

/-- A port keeps what runs on it when it is loaded again with its record (R51 step 4). -/
def State.portLoad (s : State) (r : PortRec) : PortSt :=
  match s.port r.port with
  | some x => if x.mode = r.mode then { x with quad := r.quadrant, macsec := r.macsec, maxFrame := r.maxFrame, nominal := r.nominal } else portFresh r
  | none => portFresh r

def laneFresh (r : LaneRec) : LaneSt :=
  { lane := r.lane, rate := r.rate, port := r.port, position := r.position, polarity := r.polarity, eqPreset := r.eqPreset, began := none, retryAt := none,
    skew := 0, taps := [] }

/-- A lane whose record is unchanged keeps its link (R51 step 4). -/
def State.laneLoad (s : State) (r : LaneRec) : LaneSt :=
  match s.lanes.find? (fun l => l.lane == r.lane) with
  | some l =>
    let n := laneFresh r
    if l.rate = r.rate ∧ l.port = r.port ∧ l.position = r.position ∧ l.polarity = r.polarity ∧ l.eqPreset = r.eqPreset then l else n
  | none => laneFresh r

/-- The available rates at the load: NOMINAL, and for P64 and P67 as R327 and R349 say; P65 starts without active lanes. -/
def State.loadRate (s : State) (r : PortRec) : State :=
  if r.port = 64 ∨ r.port = 65 then s else s.setF (SCH_PORT_RATE_AVAIL_MBPS r.port) (if r.port = 67 then 100000 else r.nominal)

/-- Write the structure from a verified image (R30, R46): every register the image gives; a source without a record takes N and W of R452. -/
def State.loadImage (s : State) (i : Image) : State :=
  let s := { s with regs := s.regs.filter (fun e => !imageReg e.1) }
  let t := { s with img := some i, ports := i.ports.map s.portLoad, lanes := i.lanes.map s.laneLoad }
  let t := (t.loadParse i.parse).foldS (fun u r => u.loadStation i r) i.stations
  let t := (t.foldS (fun u r => u.loadTile (i.chained r.table) r) i.tiles).loadRegions 0 i.regions
  let t := t.foldS (fun u r => (u.setF (SWC_PORT_HOLD_HOLD_MS r.port) r.holdMs).loadRate r) i.ports
  let t := (t.foldS State.loadSched i.sched).foldS (fun u (r, n) => u.loadPool r n) i.pools.zipIdx
  let t := (t.setF SWC_DQX_CFG_SIZE_MIB (i.dqxMib % 65536)).loadAgeing i.ageing
  let t := t.foldS (fun u (r, g) => (u.setF (FLT_GRP_CFG_CLASS g) r.cls).setF (FLT_GRP_CFG_BELAY_US g) r.belayUs) i.groups.zipIdx
  let t := t.foldS (fun u r => (u.setF (FLT_SRC_CFG_N r.source) r.n).setF (FLT_SRC_CFG_W_US r.source) r.wUs) i.sources
  let t := (t.foldS State.loadPatch i.patches).setB FLT_CTL_INJ_EN i.injEn
  let t := (t.setF IMG_RUN_EPOCH i.epoch).setF IMG_RUN_FMT (min i.fmtVer 2)
  t.setTwin (if i.pair then (if t.flag AON_MODE_INFO_PARTNER_PARKED then twAway else twWaiting) else twSingle) 0

end Sys2Proof.Machine
end

