-- ==== Sys2Proof/Machine/TimeOps.lean ====
section
/-!
DEFINITION. Machine/TimeOps.lean: local time and the real-time counter (R285, R286), the domain times (R288, R289, R292).
-/

namespace Sys2Proof.Machine

/-- Replace the record of a domain time. -/
def State.putDom (s : State) (n : Nat) (d : DomSt) : State := { s with time := { s.time with doms := s.time.doms.set n d } }

/-- Both domain times start equal to local time (R292). -/
def State.domsStart (s : State) : State :=
  let d : DomSt := { base := (s.localNs : Int) * 2 ^ 32, ref := s.localNs, slewAdj := 0, slewAt := 0 }
  { s with time := { s.time with doms := [d, d] } }

/-- Local time is loaded from the real-time counter (R285): its subseconds count 30,517.578125 ns each. -/
def State.loadLocal (s : State) : State :=
  let r := s.rtc
  let ns := r % 32768 * 30517578125 / 1000000
  ({ s with time := { s.time with localBase := r / 32768 * 1000000000 + ns, localAt := s.now } }).domsStart

/-- What has passed at the rate of a domain is brought into its base, before the rate changes (R288). -/
def State.rebase (s : State) (n : Nat) : State :=
  match s.time.doms[n]? with
  | none => s
  | some d =>
    s.putDom n { d with base := d.base + ((s.localNs - d.ref : Nat) : Int) * ((2 ^ 32 : Int) + s.domRate n), ref := s.localNs }

/-- A write of RATE (R288). -/
def State.setRate (s : State) (n rate : Nat) : State := (s.rebase n).setF (TSY_DOM_RATE_RATE n) rate

/-- A domain time takes the value `fx`, in units of 2^−32 ns: a running slew is cancelled and JUMPS counts (R289, R300). -/
def State.jump (s : State) (n : Nat) (fx : Int) : State :=
  let t := s.putDom n { base := fx, ref := s.localNs, slewAdj := 0, slewAt := s.localNs }
  (t.setF (TSY_DOM_STATUS_SLEWING n) 0).count (TSY_DOM_STATUS_JUMPS n) 1

/-- The real-time counter takes a value in units of 2^−15 s. -/
def State.setRtc (s : State) (v : Nat) : State := { s with time := { s.time with rtcBase := v, rtcAt := s.now } }

end Sys2Proof.Machine
end

