-- ==== Sys2Proof/Machine/ResetOps.lean ====
section
/-!
DEFINITION. Machine/ResetOps.lean: the cold and the warm reset (R79, R82), the entries to Ascent (R65, R77), the park snapshot and
its return (R69–R72, R77, R78), the wake (R73), the load of an image into the running machine, and the seal (R46–R49).
-/

namespace Sys2Proof.Machine

/-! ### The write index of the cairn store -/

/-- The lowest slot from `i` on whose word 0 is zero, among the next `n` (R512). -/
def State.writeIndex (s : State) : Nat → Nat → Nat
  | 0, i => i
  | n + 1, i => if (readBytes s.crn.mram (64 * i) 4).all (· == 0) then i else s.writeIndex n (i + 1)

/-- At every Ascent the device finds the write index; a full store is full again (R512, R513). -/
def State.findIndex (s : State) : State :=
  let u := s.writeIndex 65536 0
  let t := s.setF CRN_STATUS_USED u
  if u = 65536 then t.setF CRN_STATUS_FULL 1 else t

/-! ### Resets -/

/-- What the kind of a restart keeps: a cold reset, a warm reset, the loss of the switched rails in Bivouac. -/
inductive Restart where
  | cold | warm | bivouac
  deriving DecidableEq, Repr

/-- The registers after a restart: a cold reset and a park keep some whole, a warm reset keeps fields (R72, R79). -/
def Restart.regs : Restart → List (Nat × Word) → List (Nat × Word)
  | .cold => keepKeys keptCold
  | .warm => warmRegs
  | .bivouac => keepKeys (fun o => (0x20000 ≤ o && o < 0x30000) || o == rFLT_C4_CAUSE || o == rCRN_LOST)

/-- The volatile state returns to reset; the queue, the pins' record, OTP, the always-on domain and the cairns stay (R79).  A warm reset
keeps the retention store, the MSI-X table, the time base and the collector's windows too. -/
def State.restart (s : State) (k : Restart) : State :=
  let full := s.getF CRN_STATUS_FULL
  let m := { s.mode with
    arrays := false, dramOpen := false, romOk := false, park := 0, parkWaits := false, abseilDue := false,
    faultUntil := if k = .warm then s.mode.faultUntil else 0,
    admitStop := false, ascent := .none, step := 0, pcieUp := s.mode.pcieUp && k == .warm, clkMon := s.mode.clkMon && k == .warm,
    retValid := s.mode.retValid && k != .cold, wrapKey := s.mode.wrapKey && k != .cold,
    retEq := if k = .cold then [] else s.mode.retEq }
  let tm := { TimeSt.reset with
    rtcBase := s.time.rtcBase, rtcAt := s.time.rtcAt, rtcLoad := none, fifos := if k = .warm then s.time.fifos else [],
    localBase := if k = .warm then s.time.localBase else 0, localAt := if k = .warm then s.time.localAt else s.now }
  let dc := match k with
    | .cold => DramSt.reset
    | .warm => { DramSt.reset with moved := s.dramc.moved, used := s.dramc.used, failed := s.dramc.failed }
    | .bivouac => { DramSt.reset with
        moved := s.dramc.moved, used := s.dramc.used, failed := s.dramc.failed,
        resume := s.dramc.resume, poison := s.dramc.poison, selfRefresh := true }
  let t : State := { State.reset with
    pending := s.pending, now := s.now, freeCtr := s.freeCtr, out := s.out, otp := s.otp,
    regs := k.regs s.regs, bar4 := if k = .warm then keepKeys (fun o => 0x2000 ≤ o) s.bar4 else [], mode := m, time := tm, dramc := dc,
    dram := if k = .bivouac then s.dram else [], snap := if k = .bivouac then s.snap else none,
    load := { LoadSt.reset with copy := if k = .bivouac then s.load.copy else none },
    flt := if k = .warm then { faultIdle with winStart := s.flt.winStart, shadowEnd := s.flt.shadowEnd, accum := s.flt.accum } else faultIdle,
    crn := if k = .warm then { s.crn with nonce := none, exportAddr := 0, exportEnd := 0, exportFrom := 0, exportNext := 0 }
      else { CairnSt.blank with mram := s.crn.mram, nearFullDone := s.crn.nearFullDone, failCodes := if k = .cold then 0 else s.crn.failCodes },
    rope := { RopeSt.reset with session := s.rope.session },
    age := if k = .warm then s.age else AgeSt.reset }
  (t.setF CRN_STATUS_FULL full).loadFixed

/-- Ascent is entered: a new Viram session, the write index (R363, R512). -/
def State.ascend (s : State) (k : AscentKind) (step : Nat) : State :=
  { s.findIndex with
    mode := { s.mode with ascent := k, step := step },
    rope := { s.rope with session := (s.rope.session + 1) % 65536, counter := 0 } }

/-- The causes of the last reset (R88): `bit` alone, and C4_CYCLE where a power cycle ended a C4 Hold. -/
def State.resetCause (s : State) (f : Fld) (cycle : Bool) : State :=
  ((s.wr rAON_RESET_CAUSE 0).setF f 1).setB AON_RESET_CAUSE_C4_CYCLE cycle

/-- A cold reset (R79, R82, R542): a power cycle clears C4_LATCH; while the latch stays set the mode is Hold.  The device is held
until PORST_N is released with PWRGOOD high. (DEDUCED, assumption log 37) -/
def State.coldReset (s : State) (vcoreLow : Bool) : State :=
  let cycle := vcoreLow && s.flag AON_MODE_INFO_C4_LATCH
  let t := if cycle then s.setF AON_MODE_INFO_C4_LATCH 0 else s
  let m := if t.flag AON_MODE_INFO_C4_LATCH then mHold else mAscent
  let t := (t.enterMode m 0).restart .cold
  let t := (t.setF GLB_MODE_MODE m).resetCause AON_RESET_CAUSE_PORST cycle
  { t.refreshRules with mode := { t.mode with porst := true, everRan := false }, out := s.out }

/-- A warm reset (R67, R79): a migration that runs ends on its spare; Ascent runs from step 3. (DEDUCED, assumption log 37) -/
def State.warmReset (s : State) (cause : Nat) : State :=
  let t := if s.flag DRC_STATUS_MIGRATING then s.toSpare (s.getF DRC_STATUS_MIG_RANK) else s
  let t := t.abandonAll.clearIso
  let t := (((t.enterMode mAscent cause).restart .warm).domsStart).refreshRules
  { (t.resetCause AON_RESET_CAUSE_WARM false).ascend .cold 2 with out := s.out }

/-! ### The seal -/

/-- The TCAM blocks that R24 gates: those that are not carved, and those of a quadrant without ports. -/
def State.powerGate (s : State) : State :=
  State.foldS (fun u (x : Nat) => u.setB (ASM_Q_BLK_POWERED (x / 24) (x % 24)) (u.flag (ASM_Q_BLK_USED (x / 24) (x % 24)) && u.quadPowered (x / 24)))
    s (List.range 96)

/-- Lanes that do not run start their bring-up (R65 step 10). -/
def State.lanesBegin (s : State) : State :=
  s.lanesStart (s.lanes.filter (fun l => l.began.isNone && l.retryAt.isNone && !s.flag (LAN_STATUS_LOCKED l.lane)))

/-- The seal (R48): RWL registers and JTAG are locked, unused units lose their power, the image digest goes to the retention store, the
sealed image is copied to the retention area, and lane bring-up starts. -/
def State.sealNow (s : State) : State :=
  match s.img with
  | none => s
  | some i =>
    let t := ({ s with isSealed := true }).powerGate
    let st := if t.mode.ascent == AscentKind.short then 5 else 10
    let t := { t with mode := { t.mode with retImage := i.digest, retValid := true, step := st },
                      load := { t.load with copy := some i, ready := none } }
    (t.imgState 4).lanesBegin

/-- The RWG values in force become those that stand in the registers. -/
def State.genSync (s : State) : State :=
  { s with gens := { s.gens with outs := s.gens.outs.map (fun g => if g.gen == s.curGen then { g with rwg := s.stagedWords } else g) } }

/-- The version registers return to generation 0001h (R66). -/
def State.genReset (s : State) : State :=
  { s with gens := genFirst, regs := s.regs.filter (fun e => !(0x400000 ≤ e.1 && e.1 < 0x400044)) }

/-- The registers of the port tallies, their extremes and their peaks (R522, R531, R533). -/
def portTallyReg (o : Nat) : Bool :=
  0xC90000 ≤ o && o < 0xCD4000 && (o % 0x1000 < 0x640 || o % 0x1000 == 0x808 || o % 0x1000 == 0x80C)

/-- The registers of the event tallies and their SAMPLES (R531, R534). -/
def evtTallyReg (o : Nat) : Bool :=
  0xC81000 ≤ o && o < 0xC85000 && o % 0x1000 < 0x800 && (o % 0x40 == 8 || o % 0x40 == 0xC || o % 0x40 == 0x10)

/-- The captured values of the selected stream (R526). -/
def strmReg (o : Nat) : Bool := 0xC80048 ≤ o && o < 0xC80078

/-- Every port tally is 0, with its CARRY (R531). -/
def State.clearPorts (s : State) : State :=
  let t := { s with regs := keepKeys (fun o => !portTallyReg o) s.regs }
  State.foldS (fun u (n : Nat) => u.wr (rTLY_CARRY_PORTS n) 0) t (List.range 3)

/-- Every event tally is 0, with its CARRY and its SAMPLES (R531). (DEDUCED, assumption log 64) -/
def State.clearEvt (s : State) : State := { s with regs := keepKeys (fun o => !evtTallyReg o) s.regs }

/-- Every stream tally is 0, with its CARRY, and the captured values (R526, R531). -/
def State.clearStrm (s : State) : State := { s with strm := [], strmCarry := [], regs := keepKeys (fun o => !strmReg o) s.regs }

/-- The tallies start from 0 (R66, R531). -/
def State.talliesClear (s : State) : State := { s.clearPorts.clearEvt.clearStrm with bw := [] }

/-- Sequencing and recovery records after an Ascent (R375, R380): TAKE_ANY is set, no generator has numbered a frame; a handle that no
longer names a replicated stream reads 0 (R389). -/
def State.frerStart (s : State) : State :=
  let t := { s with mem := keepKeys (fun a => !(0x0F800000 ≤ a && a < 0x0FA00000) || s.replicated ((a - 0x0F800000) / 32)) s.mem,
                    frerAt := [], genUsed := [] }
  State.foldS (fun u (r : StreamRec) => u.setFrerFlag r.handle 0 true) t t.replicas

/-- A lane whose LANEMAP record an image changes or leaves out loses its link, and its ports go down (R51 step 4). -/
def State.dropLanes (s : State) (i : Image) : State :=
  let same := fun (l : LaneSt) => i.lanes.any (fun r => r.lane == l.lane && r.rate == l.rate && r.port == l.port && r.position == l.position &&
    r.polarity == l.polarity && r.eqPreset == l.eqPreset)
  State.foldS (fun u (l : LaneSt) =>
    (u.portsDown ((u.ports.filter (fun p => (u.lanesOf p.port).any (fun x => x.lane == l.lane))).map (·.port))).wr (rLAN_STATUS l.lane) 0)
    s (s.lanes.filter (fun l => !same l))

/-- The step of the Ascent or short Ascent that the device is in. -/
def State.modeStep (s : State) (n : Nat) : State := { s with mode := { s.mode with step := n } }

/-- The DRAM extensions of the exact flow tables are empty, as every table at a load (R66, R78). -/
def State.emptyFlows (s : State) : State :=
  let tiles := match s.img with | some i => i.tiles | none => []
  let rs := (tiles.filter (fun r => r.kind == .exactFlow && r.dramMib != 0)).map (fun r =>
    (s.getF (DRC_RGN_TBL_BASE_MIB r.table) * 1048576, s.getF (DRC_RGN_TBL_SIZE_MIB r.table) * 1048576))
  { s with dram := keepKeys (fun a => !rs.any (fun r => decide (r.1 ≤ a ∧ a < r.1 + r.2))) s.dram }

/-- Write the structure from a verified image and report it loaded (R46); the tables start empty, but for those that a snapshot brings back (R66, R77). -/
def State.loadRun (s : State) (i : Image) (slotB pushed : Bool) : State :=
  let t := ((s.dropLanes i).loadImage i).genSync.frerStart
  let t := if s.mode.ascent == .short then t else t.emptyFlows
  let t := ((t.setB IMG_STATUS_SLOT slotB).setB IMG_STATUS_PUSHED pushed).setF IMG_STATUS_HOST_MODIFIED 0
  let st := if s.mode.ascent == AscentKind.short then 4 else 9
  let t := t.imgState 3
  let t := t.modeStep st
  let t := { t with load := { t.load with sealAt := s.now + tMs 50, ready := none } }
  if !i.hostSeal || s.mode.ascent == .short then t.sealNow else t

/-- The load that ends a re-image in Service (R49, R64, R66): the remaining frames are flushed as congestion drops, the seal is cleared,
tables start empty at generation 0001h, tallies at 0, and the device is in Ascent.  RWG fields keep the values in force. -/
def State.reimage (s : State) (cause : Nat) : State :=
  let t := (s.cutCopies (s.copies.filter (·.started))).flushAll
  let t := (t.dropFrames (t.frames.filter Frame.inIngress)).clearIso
  let cur := match t.gen t.curGen with | some g => g.rwg.map (·.1) | none => []
  let t := (t.unstageAll ((t.stagedWords.map (·.1)) ++ cur)).genReset.talliesClear
  let t := { t with isSealed := false, mem := keepKeys (fun a => !(a < 0x0E800000)) t.mem, mirror := [], lost := [], asmRem := [], trees := [],
                    lpm := [], filt := [], cmd := none, fwd := FwdSt.reset, regs := t.regs.filter (fun e => !(0x408000 ≤ e.1 && e.1 < 0x409000)),
                    heldLo := t.heldLo.filter (fun e => !(hasRwg e.1)), threads := [], samples := [],
                    flt := { t.flt with reactions := [], belay := [], pendRestart := [] } }
  let t := (t.enterMode mAscent cause).ascend .cold 9
  { t with mode := { t.mode with admitStop := false, abseilDue := false }, load := { t.load with reimage := false },
           rope := { t.rope with started := false } }

/-! ### The park snapshot -/

/-- Registers of the snapshot that are kept whole: tree roots, gate registers, port statistics and event tallies (R72). -/
def snapWhole (o : Nat) : Bool :=
  (0x408000 ≤ o && o < 0x409000) || (0x700000 ≤ o && o < 0x78D000 && ((0x789000 ≤ o) || (0x40 ≤ o % 0x2000 && o % 0x2000 < 0x80))) ||
  (0xC90000 ≤ o && o < 0xCD4000) || (0xC81000 ≤ o && o < 0xC85000 && o % 0x1000 < 0x800)

/-- Registers that the snapshot leaves out: HDM and the always-on domain (R72). -/
def snapNever (o : Nat) : Bool := (0xA00000 ≤ o && o < 0xA02400) || (0x20000 ≤ o && o < 0x30000)

/-- The fields that the snapshot keeps (R72). -/
def snapFld (f : RegFld) : Bool := f.acc == .rw || f.acc == .rws || f.acc == .rwg

/-- BAR2 memory that the snapshot keeps: tiles, TCAM rows, meters and gate lists, multicast groups (R72). -/
def snapMem (a : Nat) : Bool :=
  a < 0x03000000 || (0x0E000000 ≤ a && a < 0x0E800000) || (0x0F100000 ≤ a && a < 0x0F600000) || (0x0FA00000 ≤ a && a < 0x0FA40000)

/-- The word that the snapshot brings back over `cur`. -/
def snapWord (o : Nat) (cur w : Word) : Word :=
  if snapNever o then cur else if snapWhole o then w
  else BitVec.ofNat 32 (mergeFields snapFld cur.toNat w.toNat (fldsAt .bar0 o))

/-- Settle the journals of the outstanding generations, oldest first (R197, coincidence of a park with two generations). -/
def State.settleAll : State → List GenSt → State
  | s, [] => s
  | s, g :: t => ((if g.settled then s else s.recMaps (settleLife (g.gen % 8)) g.journal)).settleAll t

/-- Take the snapshot of the last committed generation (R69 step 5, R70): staging is lost, the journals are settled. (DEDUCED, assumption log 39) -/
def State.takeSnap (s : State) : State :=
  let t := s.recMaps (revertLife s.nextTag) s.gens.journal
  let cur := match t.gen t.curGen with | some g => g.rwg.map (·.1) | none => []
  let t := t.unstageAll ((t.stagedWords.map (·.1)) ++ cur)
  let t := t.settleAll t.gens.outs.reverse
  let d := t.free
  { d.2 with
    snap := some { digest := d.1, regs := t.regs, rwg := (match t.gen t.curGen with | some g => g.rwg | none => []), mem := keepKeys snapMem t.mem,
                   mirror := t.mirror, lost := t.lost, lpm := t.lpm, gates := t.gates.map (fun g => { g with switchAt := none }),
                   strm := t.strm, strmCarry := t.strmCarry, sas := t.sas, scs := t.scs, gen := t.curGen },
    mode := { t.mode with retSnap := d.1, retGen := t.curGen, wrapKey := true } }

/-- The registers come back over what the image load has written. -/
def State.snapRegs (s : State) (words : List (Nat × Word)) : List Nat → State
  | [] => s
  | o :: t => (s.wr o (snapWord o (s.rd o) (sget resetWord words o))).snapRegs words t

/-- A restored gate register block: no change is pending. -/
def State.gatesIdle (s : State) (l : List GateSt) : State :=
  State.foldS (fun u (g : GateSt) => u.setF (GATE_GSTATUS_PENDING (gateBlock g.gate)) 0) s l

/-- Bring the snapshot back (R77 step 6): tables, registers and tallies at the saved generation, every domain at local time. (DEDUCED, assumption log 39) -/
def State.restoreSnap (s : State) (n : Snap) : State :=
  let rates := [n.regs, s.regs]
  let t := s.snapRegs n.regs ((rates.flatMap (fun l => l.map (·.1))).eraseDups)
  let frer := keepKeys (fun a => 0x0F800000 ≤ a && a < 0x0FA00000) s.mem
  let t := { t with
    mem := frer.foldl (fun m (e : Nat × Byte) => sput m e.1 e.2) n.mem,
    mirror := n.mirror, lost := n.lost, lpm := n.lpm, gates := n.gates, strm := n.strm, strmCarry := n.strmCarry, sas := n.sas, scs := n.scs,
    gens := { genFirst with outs := [{ gen := n.gen, rwg := n.rwg, journal := [], superAt := none, drained := false, settled := true }] } }
  let t := (t.setF CLS_GEN_CURRENT n.gen).setF CLS_GEN_NEXT ((n.gen + 1) % 65536)
  let t := (t.wr (rCLS_DRAIN 1) 0).wr (rCLS_DRAIN (n.gen % 8)) (BitVec.ofNat 32 n.gen)
  let t := (t.setF (CLS_DRAIN_OUTSTANDING (n.gen % 8)) 1).genRegs
  (t.gatesIdle n.gates).domsStart

/-! ### Rails and wakes -/

/-- The rails that the device switches, in power-up order: 0 VDD_SRAM, 1 VDD_CORE, 2 VDDA_SD, 3 VDDH_SD (R537, R538). -/
def State.switched (s : State) : List Nat :=
  if (List.range 8).any (fun d => s.flag (AON_WAKE_DET_ARMED d)) then [0, 1] else [0, 1, 2, 3]

/-- Send OPERATION to a list of rails: 80h on, 00h off (PRESUMED, assumption log 24). -/
def State.rails (s : State) (on : Bool) : List Nat → State
  | [] => s
  | r :: t => (s.emit (.pmbus r 0x01 (if on then 0x80 else 0))).rails on t

/-- A detector may be armed (R74): enabled, on a bound front lane of RATE 0 or 1. -/
def State.mayArm (s : State) (d : Nat) : Bool :=
  s.flag (AON_WAKE_DET_EN d) && s.lanes.any (fun l => l.lane < 24 && l.lane == s.getF (AON_WAKE_DET_LANE d) && decide (l.rate ≤ 1))

/-- The equaliser settings of the lanes that are trained go to the retention store (R69 step 6, R72, R96). -/
def State.saveEq (s : State) : State :=
  { s with mode := { s.mode with retEq := (s.lanes.filter (fun l => s.flag (LAN_STATUS_TRAINED l.lane))).map (fun l =>
      (l.lane, s.getF (LAN_STATUS_EQ_PRESET l.lane), l.taps)) } }

/-- Arm the detectors (R74): an armed one has the rate of its lane. -/
def State.armAll (s : State) : State :=
  let t := State.foldS (fun u (d : Nat) => u.setB (AON_WAKE_DET_ARMED d) (s.mayArm d)) s (List.range 8)
  let rate := fun (d : Nat) => (s.lanes.find? (fun l => l.lane == s.getF (AON_WAKE_DET_LANE d))).map (fun l => (d, l.rate))
  { t with mode := { t.mode with detRates := ((List.range 8).filter s.mayArm).filterMap rate } }

/-- A short Ascent starts (R77 step 1): the rails are commanded on; the wrapping key has not been read yet. -/
def State.startShort (s : State) : State :=
  let t := (s.enterMode mAscent 2).setF GLB_INT_STATUS_MODE_CHG 0
  let t := ((t.resetCause AON_RESET_CAUSE_WAKE false).rails true t.switched).ascend .short 1
  { t with mode := { t.mode with wakeAt := s.now, railRetryAt := s.now + tMs 20, wakeLatched := false, pwrgood := false } }

/-- A wake event (R73): in Bivouac it starts a short Ascent, during the park it is latched; one in the cycle of the wake is recorded too. -/
def State.wake (s : State) (note : State → State) : State :=
  if s.mode.porst then s
  else if s.modeCode = mBivouac then (note s).startShort
  else if s.mode.park ≠ 0 then (let t := note s; { t with mode := { t.mode with wakeLatched := true } })
  else if s.mode.ascent = .short ∧ s.now = s.mode.wakeAt then note s
  else s

end Sys2Proof.Machine
end

