-- ==== Sys2Proof/Machine/Modes.lean ====
section
/-!
DEFINITION. Machine/Modes.lean: the meanings of mode requests, parking, wakes, resets and the steps of an Ascent (R60–R88, R405, R408,
R540–R543).
-/

namespace Sys2Proof.Machine

/-! ### Requests (R61, R62) -/

/-- The outcome of a request in AON_MODE_INFO: 1 accepted, 2 refused, 3 busy. -/
def State.reqResult (s : State) (r : Nat) : State := s.setF AON_MODE_INFO_REQ_RESULT r

/-- A request with its key; nothing is taken in Bivouac or while the device is held in reset. -/
def State.request (s : State) (key : Nat) (f : State → State) : State :=
  if key ≠ 0xA5C3 ∨ s.modeCode = mBivouac ∨ s.mode.porst = true then s else f s

/-- A transition is under way: a park, or one that waits for a reaction. -/
def State.moving (s : State) : Bool := s.mode.park != 0 || s.mode.parkWaits

/-- A request that is carried out from the modes of a list, else refused; busy during a transition. -/
def State.requestFrom (s : State) (key : Nat) (from_ : Bool) (f : State → State) : State :=
  s.request key (fun s => if s.moving then s.reqResult 3 else if from_ then f (s.reqResult 1) else s.reqResult 2)

/-- The modes that carry traffic. -/
def State.running (s : State) : Bool := s.modeCode == mPaired || s.modeCode == mSolo || s.modeCode == mAbseil

/-- REQ_PARK (R63, R69): from Paired, Solo and Abseil; it waits for a reaction that runs. -/
def State.doReqPark (s : State) (key : Nat) (_i2c : Bool) : State :=
  (s.requestFrom key s.running (fun t =>
    if t.flt.reactions.any (fun r => r.done.isNone) then { t with mode := { t.mode with parkWaits := true } } else t.parkStart))

/-- REQ_PARK (R63, R69). -/
def execReqPark (key : Nat) (_i2c : Bool) (s : State) : Host.Outcome State Fault Refusal := .next (s.doReqPark key _i2c)

/-- Hold on request: the message of this Hold names open values (DESIGN CHOICE, assumption log 5). -/
def State.hostHold (s : State) : State := (s.free).2.enterHold 3 ((s.free).1 % 48) ((s.free).1 / 48 % 412)

/-- The modes from which a request enters Hold (R63). -/
def State.mayHold (s : State) : Bool :=
  s.running || s.modeCode == mService || s.modeCode == mTest || (s.modeCode == mAscent && s.isSealed)

/-- REQ_HOLD (R62, R63, R83): during a transition it is kept pending. -/
def State.doReqHold (s : State) (key : Nat) (_i2c : Bool) : State :=
  (s.request key (fun s =>
    if s.moving then (s.reqResult 1).setF AON_MODE_INFO_HOLD_PENDING 1
    else if s.mayHold then (s.reqResult 1).hostHold else s.reqResult 2))

/-- REQ_HOLD (R62, R63, R83). -/
def execReqHold (key : Nat) (_i2c : Bool) (s : State) : Host.Outcome State Fault Refusal := .next (s.doReqHold key _i2c)

/-- HOLD_PENDING_EXECUTE (R62): once no transition is under way and R63 has a way to Hold from the mode held.  A park ends in Bivouac,
from which there is none: the request stays pending, as AON_MODE_INFO survives Bivouac and resets (R79, R87), and is carried out after
the seal of the Ascent that follows (DEDUCED, assumption log 81). -/
def execHoldPendingExecute (s : State) : Host.Outcome State Fault Refusal :=
  .next (if s.flag AON_MODE_INFO_HOLD_PENDING = true ∧ s.moving = false ∧ s.mode.porst = false ∧ s.mayHold = true then s.hostHold else s)

/-- REQ_WARM (R63, R67, R82): from every mode but Bivouac; refused while C4_LATCH = 1. -/
def State.doReqWarm (s : State) (key : Nat) (_i2c : Bool) : State :=
  (s.requestFrom key (!s.flag AON_MODE_INFO_C4_LATCH) (fun t => t.warmReset 1))

/-- REQ_WARM (R63, R67, R82). -/
def execReqWarm (key : Nat) (_i2c : Bool) (s : State) : Host.Outcome State Fault Refusal := .next (s.doReqWarm key _i2c)

/-- REQ_TEST (R63): from Ascent before the seal or in image wait; a slot read under way ends. -/
def State.doReqTest (s : State) (key : Nat) (_i2c : Bool) : State :=
  (s.requestFrom key (s.modeCode == mAscent && !s.isSealed) (fun t =>
    let u := t.enterMode mTest 3
    { u with mode := { u.mode with ascent := .none, admitStop := true }, load := { u.load with reading := 0, push := none } }))

/-- REQ_TEST (R63). -/
def execReqTest (key : Nat) (_i2c : Bool) (s : State) : Host.Outcome State Fault Refusal := .next (s.doReqTest key _i2c)

/-- Service is entered (R63, R85, R364): the partner is told, and forwarding goes on only with SERVICE_FWD. -/
def State.enterService (s : State) (cause : Nat) : State :=
  let m := s.modeCode
  let t := if s.twin = twPaired then s.tellState 3 [BitVec.ofNat 8 (b2n s.svcFwd)] [] else s
  let t := t.enterMode mService cause
  { t with mode := { t.mode with resume := m, admitStop := !s.svcFwd } }

/-- REQ_SERVICE (R63, R85). -/
def State.doReqService (s : State) (key : Nat) (_i2c : Bool) : State :=
  (s.requestFrom key s.running (fun t => t.enterService 3))

/-- REQ_SERVICE (R63, R85). -/
def execReqService (key : Nat) (_i2c : Bool) (s : State) : Host.Outcome State Fault Refusal := .next (s.doReqService key _i2c)

/-- REQ_RESUME (R63, R64): back to the mode held before, or to Abseil where a unit was isolated meanwhile; not once an image load has
started.  A pair that Service has parted pairs again under R367 (DEDUCED, assumption log 27). -/
def State.doReqResume (s : State) (key : Nat) (_i2c : Bool) : State :=
  (s.requestFrom key (s.modeCode == mService && !s.load.reimage) (fun t =>
    let u := t.enterMode t.mode.resume 3
    let u := if (t.mode.abseilDue || t.anyIso) && (t.mode.resume == mPaired || t.mode.resume == mSolo) then u.enterMode mAbseil 5 else u
    let u := { u with mode := { u.mode with admitStop := false, abseilDue := false } }
    if t.twin = twPaired ∧ t.svcFwd = false then { u with rope := u.rope.fresh }.setTwin twNegotiating 4 else u))

/-- REQ_RESUME (R63, R64). -/
def execReqResume (key : Nat) (_i2c : Bool) (s : State) : Host.Outcome State Fault Refusal := .next (s.doReqResume key _i2c)

/-! ### Parking -/

/-- PARK_SEND_TIMEOUT (R69 step 3): what is still queued after 10 ms is flushed as congestion drops. -/
def execParkSendTimeout (s : State) : Host.Outcome State Fault Refusal :=
  .next (if s.mode.park = 1 ∧ s.mode.parkEnd ≤ s.now then { s.flushAll with mode := { s.mode with park := 2 } } else s)

/-- Nothing is left in the device that the park waits for (R69 step 4, R514). -/
def State.parkIdle (s : State) : Bool :=
  s.frames.isEmpty && s.copies.isEmpty && s.crn.queue.isEmpty && s.cmd.isNone

/-- The rank whose migration goes on after the park (R72, and the coincidence table after R416). -/
def State.migHold (s : State) (r : Option Nat) : State := { s with dramc := { s.dramc with resume := r } }

/-- What stands in Bivouac: a valid retention store with its key, no power good, the memories in self-refresh (R69, R71, R72). -/
def State.bivouacHolds (s : State) : State :=
  { s with mode := { s.mode with retValid := true, wrapKey := true, pwrgood := false }, dramc := { s.dramc with selfRefresh := true } }

/-- Steps 5 to 7 of R69: the snapshot and the retention store are written, the memories enter self-refresh, detectors are armed and the
rails go off in reverse order. -/
def State.bivouac (s : State) : State :=
  let mig := if s.flag DRC_STATUS_MIGRATING then some (s.getF DRC_STATUS_MIG_RANK) else none
  let t := s.takeSnap.saveEq.armAll.migHold mig
  let t := t.rails false t.switched.reverse
  let t := (t.enterMode mBivouac 3).restart .bivouac
  let t := (t.setF GLB_MODE_MODE mBivouac).bivouacHolds
  if t.mode.wakeLatched then t.startShort else t

/-- PARK_DRAINED (R69): no frame of any generation in any pipeline and the recording queue empty. -/
def execParkDrained (s : State) : Host.Outcome State Fault Refusal :=
  .next (if s.mode.park ≠ 0 ∧ s.parkIdle = true then s.bivouac else s)

/-! ### Wakes (R73) -/

/-- The enabled pins of a set that hold their active level: `levels` gives the levels. -/
def State.pinsActive (s : State) (pins levels : Nat) : Nat :=
  let pol := s.getF AON_WAKE_CFG_PIN_POL
  ((List.range 8).filter (fun i => pins.testBit i && (s.getF AON_WAKE_CFG_PIN_EN).testBit i && levels.testBit i == pol.testBit i)).foldl
    (fun a i => a + 2 ^ i) 0

/-- WAKE_PIN (R73): pins held at their levels for `heldMs`. -/
def execWakePin (pins levels heldMs : Nat) (s : State) : Host.Outcome State Fault Refusal :=
  .next (let p := s.pinsActive pins levels
    if p = 0 ∨ heldMs < s.getF AON_WAKE_CFG_DEBOUNCE then s else s.wake (fun t => t.orF AON_WAKE_CAUSE_PIN p))

/-- The wake ordered set at a lane rate (R123): at 10.3125 Gbit/s the block type, O code and data bytes; at 1.25 Gbit/s the octets of
/K28.1/D10.2/D1.1/D23.2/. -/
def wakeSet (rate : Nat) : List Nat := if rate = 1 then [0x4B, 0x0F, 0x0A, 0x21, 0x57] else [0x3C, 0x4A, 0x21, 0x57]

/-- Sixteen wake ordered sets with no more than 1 µs between consecutive ones (R123): what is received is a list of gaps in ns and of what
follows them; `gap` is the time since the last wake ordered set, `n` the length of the run. -/
def wakeRun (w : List Nat) : List (Nat × List Nat) → Nat → Nat → Bool
  | [], _, _ => false
  | (g, x) :: t, gap, n =>
    if x = w then
      let m := if gap + g ≤ 1000 then n + 1 else 1
      decide (16 ≤ m) || wakeRun w t 0 m
    else wakeRun w t (gap + g) n

/-- WAKE_DETECTOR (R123, R124): a lane named by a detector receives ordered sets, each with the gap before it in ns.  In Bivouac an armed
detector fires; while the port of the lane runs, its MAC discards and counts them (DESIGN CHOICE, assumption log 88: on a Q-USXGMII lane, the
lane's first sub-port counts). -/
def execWakeDetector (heard : WakeHeard) (s : State) : Host.Outcome State Fault Refusal :=
  let det := heard.det
  .next (if 8 ≤ det then s
    else if s.flag (AON_WAKE_DET_ARMED det) && (s.modeCode == mBivouac || s.mode.ascent == .short) then
      (if wakeRun (wakeSet ((s.mode.detRates.lookup det).getD 0)) heard.sets 0 0 then s.wake (fun t => t.orF AON_WAKE_CAUSE_DET (2 ^ det)) else s)
    else
      match s.lanes.find? (fun l => l.lane == s.getF (AON_WAKE_DET_LANE det)) with
      | some l => if 2 ≤ l.rate then s else s.portTally l.port tRX_WAKE_OS (heard.sets.filter (fun x => x.2 == wakeSet l.rate)).length
      | none => s)

/-- WAKE_ALARM (R73, R286): the low 32 bits of the counter's seconds equal the alarm. -/
def execWakeAlarm (s : State) : Host.Outcome State Fault Refusal :=
  .next (if s.flag AON_WAKE_CFG_ALARM_EN ∧ s.rtc / 32768 % 2 ^ 32 = s.getF AON_ALARM_SECONDS then s.wake (fun t => t.setF AON_WAKE_CAUSE_ALARM 1) else s)

/-- A write to the management port's wake register (R558). -/
def State.i2cWake (s : State) (value : Nat) : State :=
  if value = 0xA5 ∧ s.flag AON_WAKE_CFG_I2C_EN = true then s.wake (fun t => t.setF AON_WAKE_CAUSE_I2C 1) else s

/-- WAKE_I2C (R558). -/
def execWakeI2c (value : Nat) (s : State) : Host.Outcome State Fault Refusal := .next (s.i2cWake value)

/-! ### The short Ascent (R75–R78) -/

/-- SHORT_ASCENT_PWRGOOD (R77 step 2, R285): the PLLs start, and local time is loaded from the real-time counter. -/
def execShortAscentPwrgood (s : State) : Host.Outcome State Fault Refusal :=
  .next (if s.mode.ascent = .short ∧ s.mode.step = 1 then
    ({ s with mode := { s.mode with step := 2, pwrgood := true } }).loadLocal else s)

/-- RAIL_RETRY (R543): 20 ms after the wake, then every 100 ms, the rails of stages 3 and 4 are commanded off and on again. -/
def execRailRetry (s : State) : Host.Outcome State Fault Refusal :=
  .next (if s.mode.ascent = .short ∧ s.mode.step = 1 ∧ s.mode.railRetryAt ≤ s.now then
    let t := (s.rails false s.switched.reverse).rails true s.switched
    { t with mode := { t.mode with railRetryAt := s.now + tMs 100 } }
    else s)

/-- The slots are read as in a cold Ascent (R42, R43). -/
def State.readSlots (s : State) : State := (({ s with load := { s.load with reading := 1 } }).setF IMG_STATUS_FALLBACK 0).imgState 1

/-- A migration that a park interrupted goes on (R415). -/
def State.migResume (s : State) : State :=
  match s.dramc.resume with
  | some r => ({ s with dramc := { s.dramc with resume := none } }).retireRank r
  | none => s

/-- The memories leave self-refresh and the windows open (R77 step 4). -/
def State.dramBack (s : State) : State :=
  { s with mode := { s.mode with dramOpen := true, step := 4 }, dramc := { s.dramc with selfRefresh := false } }

/-- What a short Ascent kept is given up and the device goes on as in a cold Ascent from image loading (R77 step 5). (DEDUCED, assumption log 39) -/
def State.shortLost (s : State) : State :=
  ({ s with mode := { s.mode with ascent := .cold, step := 6, wrapKey := false }, snap := none }).readSlots

/-- The image copy of a short Ascent is loaded, where its digest is the one that the retention store holds (R43, R77 step 5): `copyOk`
says that the copy reads back from DRAM as it was written (DEDUCED, assumption log 39).  IMG_STATUS then reports slot A and nothing
pushed, since the copy is no slot (DESIGN CHOICE, assumption log 82). -/
def State.shortLoad (s : State) (copyOk : Bool) : State :=
  match s.load.copy with
  | some i => if copyOk && s.mode.retValid && i.digest == s.mode.retImage then s.loadRun i false false else s.shortLost
  | none => s.shortLost

/-- SHORT_ASCENT_DRAM_READY (R43, R75 orders 4 and 5, R76, R77 steps 4 and 5): the image copy is loaded and sealed, or, where its digest
differs, the device goes on as in a cold Ascent from image loading. -/
def execShortAscentDramReady (copyOk : Bool) (s : State) : Host.Outcome State Fault Refusal :=
  .next (if s.mode.ascent = .short ∧ s.mode.step = 3 ∧ s.mode.arrays = true then
    (((s.dramBack.setF DRC_STATUS_TRAINED 1).refreshRules).migResume).shortLoad copyOk
    else s)

/-- SNAPSHOT_RESTORED (R77 step 6, R78): the tables return at the saved generation, or they start empty, their DRAM extensions too, and
the loss is recorded; `digestOk` says that the snapshot reads back as it was written.  The wrapping key is erased either way (R72). -/
def execSnapshotRestored (digestOk : Bool) (s : State) : Host.Outcome State Fault Refusal :=
  .next (if s.mode.ascent = .short ∧ s.mode.step = 5 then
    let t := { s with mode := { s.mode with step := 6, wrapKey := false }, snap := none }
    let lost := (t.emptyFlows.setF AON_MODE_INFO_SNAP_LOST 1).talliesClear.cairn 0x47 0 (leBytes 2 s.mode.retGen ++ leBytes 2 1)
    match s.snap with
    | some n => if digestOk && n.digest == s.mode.retSnap then t.restoreSnap n else lost
    | none => lost
    else s)

/-! ### Power and resets -/

/-- AON_POWER_ON (R79, R540): everything but the cairns and OTP starts from reset; the device is held by PORST_N. (DEDUCED, assumption log 38) -/
def execAonPowerOn (strap : Bool) (s : State) : Host.Outcome State Fault Refusal :=
  .next (
    let t := { State.reset with
      pending := s.pending, now := s.now, freeCtr := s.freeCtr, out := s.out, otp := s.otp,
      mode := { ModeSt.reset with strap := strap, opSince := some s.now, aonAt := s.now },
      time := { TimeSt.reset with localAt := s.now, rtcAt := s.now },
      crn := { CairnSt.blank with mram := s.crn.mram } }
    t.loadFixed.refreshRules)

/-- XTAL_STABLE (R540 step 5). -/
def execXtalStable (s : State) : Host.Outcome State Fault Refusal :=
  .next (if s.mode.aonAt + tSec 2 ≤ s.now then { s with mode := { s.mode with xtal := true } } else s)

/-- COLD_RESET (R79, R82, R541): in a device that is held already, only a power cycle is recorded. (DEDUCED, assumption log 38) -/
def execColdReset (vcoreLow : Bool) (s : State) : Host.Outcome State Fault Refusal :=
  .next (if s.mode.porst && !(vcoreLow && s.flag AON_MODE_INFO_C4_LATCH) then s else s.coldReset vcoreLow)

/-- PWRGOOD_FALL (R542): ignored in Bivouac and while PWRGOOD is low. -/
def execPwrgoodFall (s : State) : Host.Outcome State Fault Refusal :=
  .next (if s.modeCode = mBivouac ∨ s.mode.pwrgood = false then s
    else { s.coldReset false with mode := { (s.coldReset false).mode with pwrgood := false } })

/-- PORST_RELEASE (R65 step 1, R80, R82, R355, R540): PORST_N released and PWRGOOD high together; SENIOR is sampled.  With C4_LATCH set
the device restarts into Hold. (DEDUCED, assumption log 38) -/
def execPorstRelease (senior : Bool) (s : State) : Host.Outcome State Fault Refusal :=
  .next (if s.mode.porst then
    let t := { s with mode := { s.mode with porst := false, pwrgood := true, senior := senior, strap := senior } }
    let t := (t.setB TWN_STATUS_SENIOR senior).count AON_PCYCLE_COUNT 1
    if s.modeCode = mAscent then t.ascend .cold 1
    else { t.findIndex with mode := { t.mode with ascent := .cold, step := 1 } }
    else s)

/-- ASCENT_PLL_LOCK (R65 step 2, R77 step 3, R285): the clock monitors are armed; in a cold Ascent local time is loaded. -/
def execAscentPllLock (s : State) : Host.Outcome State Fault Refusal :=
  .next (if s.mode.ascent = .cold ∧ s.mode.step = 1 then
      ({ s with mode := { s.mode with step := 2, clkMon := true } }).loadLocal
    else if s.mode.ascent = .short ∧ s.mode.step = 2 then { s with mode := { s.mode with step := 3, clkMon := true } }
    else s)

/-- The cairn of a C4 Hold, at step 3 of the next cold Ascent (R474, R508, R514): FROM_LATCH is set. -/
def State.latchCairn (s : State) : State :=
  match s.mode.c4Hold with
  | none => s
  | some pc =>
    let src := s.getF FLT_C4_CAUSE_SOURCE
    ({ s with mode := { s.mode with c4Hold := none } }).cairn 0x43 src (BitVec.ofNat 8 (groupOf src) :: leBytes 3 pc) 2

/-- The signature of every ROM copy has been checked and holds (R143, R149). -/
def State.romChecked (s : State) : State :=
  State.foldS (fun u (c : Nat) => u.setF (HSQ_ROM_STATUS_SIG_OK c) 1) { s with mode := { s.mode with romOk := true } } (List.range 5)

/-- ASCENT_SELF_CHECK_PASS (R65 step 3, R75 order 2, R143): the signatures hold; in a cold Ascent slot A is read.  A copy whose signature does
not is a C4 event of its source (ROM_SIGNATURE_RECHECK). -/
def execAscentSelfCheckPass (s : State) : Host.Outcome State Fault Refusal :=
  .next (if s.mode.ascent = .cold ∧ s.mode.step = 2 then
      let t := s.romChecked
      let t := { t with mode := { t.mode with step := 3 } }
      if s.modeCode = mAscent then t.latchCairn.readSlots else t
    else if s.mode.ascent = .short ∧ s.mode.step = 3 then s.romChecked
    else s)

/-- A verified image that waits is loaded once the arrays are written and the DRAM is open (R65 steps 7 to 9, R408). -/
def State.readyLoad (s : State) : State :=
  match s.load.ready with
  | some (k, i) => if s.mode.arrays && s.mode.dramOpen && s.modeCode == mAscent then s.loadRun i (k == 1) (k == 2) else s
  | none => s

/-- ARRAY_INIT_DONE (R65 step 4, R75 order 3). -/
def execArrayInitDone (s : State) : Host.Outcome State Fault Refusal :=
  .next (if s.mode.romOk = true ∧ s.mode.arrays = false then ({ s with mode := { s.mode with arrays := true } }).readyLoad else s)

/-- PCIE_LINK_UP (R65 step 5, R420): BAR0 opens. -/
def execPcieLinkUp (gen width : Nat) (s : State) : Host.Outcome State Fault Refusal :=
  .next (if 3 ≤ s.mode.step ∧ s.isIso .hostIf = false ∧ s.mode.pcieUp = false ∧ s.mode.porst = false ∧ s.modeCode ≠ mBivouac ∧ (gen = 3 ∨ gen = 4 ∨ gen = 5) ∧
      (width = 1 ∨ width = 2 ∨ width = 4 ∨ width = 8) then
    ({ s with mode := { s.mode with pcieUp := true } }).pcieLink gen width
    else s)

/-- One rank, by its physical number, fails its training (R408): a logical rank in service moves to its spare, where that is free and has
trained; the Bool says whether training fails. -/
def State.rankFails (failed : List Nat) (x : State × Bool) (f : Nat) : State × Bool :=
  let s := x.1
  let spare := 4 * (f / 4) + 1
  if s.flag DRC_GEOM_SPARE_EN && f == spare then (s, true)
  else if !s.fitted f || s.getF (rkF f) != 0 then x
  else if s.spareFree (f / 4) && !failed.contains spare then (s.toSpare f, x.2)
  else (s, true)

/-- The end of a training (R405, R408). -/
def State.trained (s : State) (failed : List Nat) : State :=
  if !s.descOk then s.setF DRC_STATUS_DESC_BAD 1
  else
    let r := (failed.filter (· < 8)).foldl (State.rankFails failed) (s, false)
    if r.2 then
      let t := r.1.setF DRC_STATUS_TRAIN_FAIL 1
      { t with dramc := { t.dramc with retryAt := s.now + tSec 1 } }
    else
      let t := (r.1.setF DRC_STATUS_TRAIN_FAIL 0).setF DRC_STATUS_TRAINED 1
      ({ t with mode := { t.mode with dramOpen := true } }).readyLoad

/-- DRAM_TRAINING_DONE (R405, R408). -/
def execDramTrainingDone (failed : List Nat) (s : State) : Host.Outcome State Fault Refusal :=
  .next (if s.mode.ascent = .cold ∧ s.mode.romOk = true ∧ s.modeCode = mAscent ∧ s.mode.dramOpen = false ∧
      s.flag DRC_STATUS_TRAIN_FAIL = false ∧ s.flag DRC_STATUS_DESC_BAD = false then s.trained failed else s)

/-- DRAM_TRAINING_RETRY (R408): every 1 s while TRAIN_FAIL is set. -/
def execDramTrainingRetry (failed : List Nat) (s : State) : Host.Outcome State Fault Refusal :=
  .next (if s.modeCode = mAscent ∧ s.flag DRC_STATUS_TRAIN_FAIL = true ∧ s.dramc.retryAt ≤ s.now then s.trained failed else s)

/-- Every bound lane is locked or declared down (R65 step 11). -/
def State.lanesSettled (s : State) : Bool :=
  s.lanes.all (fun l => s.flag (LAN_STATUS_LOCKED l.lane) || s.flag (LAN_STATUS_DOWN_DECLARED l.lane))

/-- ASCENT_LANES_SETTLED (R65 steps 11 and 12, R77 steps 7 and 8): Viram starts on the rope; with the rope down, or without a pair, the
device enters Solo.  Pairing, or its refusal, ends the other case. -/
def execAscentLanesSettled (s : State) : Host.Outcome State Fault Refusal :=
  .next (if s.modeCode = mAscent ∧ s.isSealed = true ∧ s.rope.started = false ∧ s.lanesSettled = true ∧
      (s.mode.ascent = .cold ∨ (s.mode.ascent = .short ∧ s.mode.step = 6)) then
    let t := { s with rope := { s.rope with started := true }, mode := { s.mode with step := if s.mode.ascent = .cold then 11 else 7 } }
    let pair := match s.img with | some i => i.pair | none => false
    if pair && s.flag (MAC_STATUS_LINK 65) then (if s.twin = twNegotiating then t else t.ropeBegins) else ({ t with rope := { t.rope with ceded := false } }).enterRun mSolo (s.getF AON_MODE_INFO_CAUSE)
    else s)

end Sys2Proof.Machine
end

