-- ==== Sys2Proof/Machine/Loader.lean ====
section
/-!
DEFINITION. Machine/Loader.lean: the meanings of slot reads, pushes, slot programming, the seal, the epoch floor and the leapfrog
(R39–R55).
-/

namespace Sys2Proof.Machine

/-! ### Slots (R42, R45) -/

/-- Record a slot's check (R45, R58, R59): the epoch and the result. -/
def State.slotResult (s : State) (slotB : Bool) (code : Nat) (i : Image) : State :=
  let ep := if code = 0 then i.epoch else 0xFFFF
  let t := if slotB then s.setF IMG_SLOT_INFO_EPOCH_B ep else s.setF IMG_SLOT_INFO_EPOCH_A ep
  if slotB then { t with load := { t.load with chkB := some (code == 0) } } else { t with load := { t.load with chkA := some (code == 0) } }

/-- FAIL_A or FAIL_B takes a code. (DEDUCED, assumption log 41) -/
def State.slotFail (s : State) (slotB : Bool) (code : Nat) : State :=
  if slotB then s.setF IMG_STATUS_FAIL_B code else s.setF IMG_STATUS_FAIL_A code

/-- A verified image of a slot is loaded: at once from Service, in Ascent when the arrays and the DRAM are ready; STATE is 2 (verifying)
until then (DEDUCED, assumption log 86). -/
def State.slotLoad (s : State) (slotB : Bool) (i : Image) : State :=
  let t := { s with load := { s.load with reading := 0 } }
  if s.modeCode = mService then
    let u := (t.reimage (if s.load.leap = 0 then 6 else 7)).loadRun i slotB false
    { u with load := { u.load with leap := 0 } }
  else
    (({ t with load := { t.load with ready := some (b2n slotB, i), leap := 0 } }).imgState 2).readyLoad

/-- Image wait (R42): FAULT_N is asserted; a leaping twin that finds no image has entered Ascent for its load. (DEDUCED, assumption log 40) -/
def State.imageWait (s : State) : State :=
  let t := { s with load := { s.load with reading := 0 } }
  let t := if s.modeCode = mService then t.reimage (if s.load.leap = 0 then 6 else 7) else t
  ({ t with load := { t.load with leap := s.load.leap } }).imgState 5

/-- SLOT_VERIFY_DONE (R42, R55): slot A, or slot B after it, is verified; a slot that fails records its code. -/
def execSlotVerifyDone (slotB : Bool) (file : ImageFile) (s : State) : Host.Outcome State Fault Refusal :=
  .next (if s.load.reading = (if slotB then 2 else 1) then
    let img := imageOf file
    let code := s.verify img none
    let t := s.slotResult slotB code img
    if code = 0 then t.slotLoad slotB img
    else if slotB then (t.slotFail slotB code).imageWait
    else
      let u := ((t.slotFail slotB code).setF IMG_STATUS_FALLBACK 1).cairn 0x46 2 ([BitVec.ofNat 8 code, 0] ++ leBytes 2 img.epoch)
      ({ u with load := { u.load with reading := 2 } }).imgState 1
    else s)

/-! ### The seal (R46, R48) -/

/-- SEAL (R46, R57): a loaded image; ignored in every other state. -/
def State.doSeal (s : State) : State :=
  (if s.getF IMG_STATUS_STATE = 3 ∧ s.isSealed = false then s.sealNow else s)

/-- SEAL (R46, R57). -/
def execSeal (s : State) : Host.Outcome State Fault Refusal := .next (s.doSeal)

/-- SEAL_TIMEOUT (R46): 50 ms after loading. -/
def execSealTimeout (s : State) : Host.Outcome State Fault Refusal :=
  .next (if s.modeCode = mAscent ∧ s.getF IMG_STATUS_STATE = 3 ∧ s.isSealed = false ∧ s.load.sealAt ≤ s.now then s.sealNow else s)

/-! ### Pushes (R44, R45) -/

/-- FAIL_PUSH takes the code of a refused push or leapfrog. -/
def State.failPush (s : State) (code : Nat) : State := s.setF IMG_STATUS_FAIL_PUSH code

/-- A push of a destination is accepted in the present mode and state (R44). (DEDUCED, assumption log 40) -/
def State.pushOk (s : State) (dest : Nat) : Bool :=
  if dest = 0 then s.getF IMG_STATUS_STATE == 5 || s.modeCode == mService
  else decide (dest < 3) && (s.running || s.modeCode == mAscent || s.modeCode == mService)

/-- IMG_PUSH (R44): the fetch starts, or is refused with code 0Eh.  A push to run in Service starts an image load: forwarding stops, and the
slots that a leapfrog reads are left for it (R51 step 4, R55). (DEDUCED, assumption log 40) -/
def State.doImgPush (s : State) : State :=
  (
    let s := s.useLo rIMG_PUSH_ADDR_LO
    let dest := s.getF IMG_CTL_DEST
    let len := s.getF IMG_PUSH_LEN_LEN
    if s.pushOk dest = false ∨ s.load.push.isSome = true ∨ s.load.programming ≠ 0 ∨ s.getF IMG_PUSH_ADDR_LO_ADDR % 64 ≠ 0 ∨
      len < 512 ∨ 4194304 < len ∨ len % 64 ≠ 0 then s.failPush 0x0E
    else
      let t := { s with load := { s.load with push := some (dest, len) } }
      if dest = 0 ∧ s.modeCode = mService then
        { t with load := { t.load with reimage := true, reading := 0 }, mode := { t.mode with admitStop := true } }
      else t)

/-- IMG_PUSH (R44). -/
def execImgPush (s : State) : Host.Outcome State Fault Refusal := .next (s.doImgPush)

/-- A pushed image to run has passed R40. -/
def State.pushRun (s : State) (i : Image) : State :=
  let c := if s.load.leap = 0 then 6 else 7
  let t := (if s.modeCode = mService then (s.reimage c).setF IMG_STATUS_FALLBACK 0 else s).failPush 0
  if s.modeCode = mService then (let u := t.loadRun i false true; { u with load := { u.load with leap := 0 } })
  else (({ t with load := { t.load with ready := some (2, i), leap := 0 } }).imgState 2).readyLoad

/-- A pushed image to run has failed (R55): a leaping twin tries slot A; in Service the old structure stands. -/
def State.pushFail (s : State) (code : Nat) : State :=
  let t := s.failPush code
  if s.load.leap ≠ 0 then t.readSlots
  else if s.modeCode = mService then { t with load := { t.load with reimage := false }, mode := { t.mode with admitStop := !s.svcFwd } }
  else t

/-- The programming of a slot begins (R45, R58); its last check is void. (DEDUCED, assumption log 41) -/
def State.programStart (s : State) (dest : Nat) : State :=
  let l := s.load
  let t := { s with load := { l with
    programming := dest, saved := s.getF IMG_STATUS_STATE,
    chkA := if dest = 1 then none else l.chkA, chkB := if dest = 2 then none else l.chkB } }
  if 1 ≤ s.getF IMG_STATUS_STATE ∧ s.getF IMG_STATUS_STATE ≤ 3 then t else t.setF IMG_STATUS_STATE 6

/-- PUSH_VERIFY_DONE (R44, R45): `file` is what was fetched, `other` what the other slot reads where it has no last check. -/
def execPushVerifyDone (file : ImageFile) (other : Option ImageFile) (s : State) : Host.Outcome State Fault Refusal :=
  .next (match s.load.push with
    | none => s
    | some (dest, len) =>
      let t := { s with load := { s.load with push := none } }
      let img := imageOf file
      let code := s.verify img (some len)
      if dest = 0 then (if code = 0 then t.pushRun img else t.pushFail code)
      else if code ≠ 0 then t.failPush code
      else
        let b := dest == 1
        let t := match (if b then s.load.chkB else s.load.chkA), other with
          | none, some o => (t.slotResult b (s.verify (imageOf o) none) (imageOf o)).slotFail b (s.verify (imageOf o) none)
          | _, _ => t
        if (if b then t.load.chkB else t.load.chkA) = some true then t.programStart dest else t.failPush 0x0F)

/-- SLOT_PROGRAM_DONE (R45, R58): the slot is read back and verified again; STATE returns to what it was.  A slot that fails has that
code as its last fail code. -/
def execSlotProgramDone (file : ImageFile) (s : State) : Host.Outcome State Fault Refusal :=
  .next (if s.load.programming = 0 then s
    else
      let img := imageOf file
      let code := s.verify img none
      let b := s.load.programming == 2
      let t := s.slotResult b code img
      let t := if code = 0 then t else t.slotFail b code
      let t := { t with load := { t.load with programming := 0 } }
      (if t.getF IMG_STATUS_STATE = 6 then t.setF IMG_STATUS_STATE s.load.saved else t).failPush code)

/-! ### The epoch floor (R39) -/

/-- FLOOR_RAISE (R39): in Service; at most 63 raises, a further one is recorded. (DEDUCED, assumption log 41) -/
def State.doFloorRaise (s : State) : State :=
  (
    let e := s.getF IMG_RUN_EPOCH
    if s.modeCode ≠ mService ∨ e ≤ s.otp.floor then s
    else if 63 ≤ s.otp.raises then s.cairn 0x46 3 ([0, 0] ++ leBytes 2 e)
    else (({ s with otp := { s.otp with floor := e, raises := s.otp.raises + 1 } }).setF IMG_CAP_FLOOR e).setF IMG_OTP_KEYS_RAISES (s.otp.raises + 1))

/-- FLOOR_RAISE (R39). -/
def execFloorRaise (s : State) : Host.Outcome State Fault Refusal := .next (s.doFloorRaise)

/-! ### The leapfrog (R50–R55) -/

/-- LEAP (R50, R51 steps 1 and 2): refused with code 10h unless both twins are Paired and neither has isolated units.  A LEAP during a
leapfrog or a park is refused with that code too (DESIGN CHOICE, assumption log 87). -/
def State.doLeap (s : State) : State :=
  (if s.modeCode ≠ mPaired ∨ s.twin ≠ twPaired ∨ s.getF TWN_STATUS_PARTNER_MODE ≠ mPaired ∨ s.rope.peerTwin ≠ twPaired ∨ s.anyIso = true ∨
      s.rope.peerIso ≠ 0 ∨ s.load.leap ≠ 0 ∨ s.moving = true then s.failPush 0x10
    else
      let drain := match s.img with | some i => i.drainMs | none => 10
      let t := (s.tellState 4 [] []).failPush 0
      let t := { t with rope := { t.rope with ceded := true },
                        load := { t.load with leap := 1, leapEnd := s.now + tMs drain } }
      t.imgState 7)

/-- LEAP (R50, R51 steps 1 and 2). -/
def execLeap (s : State) : Host.Outcome State Fault Refusal := .next (s.doLeap)

/-- The end of a leapfrog by abort (R54): cause 1 the write, 2 the partner's departure. -/
def State.leapAbort (s : State) (cause : Nat) : State :=
  let t := ((s.tellState 5 [BitVec.ofNat 8 cause] []).imgState 4).failPush 0
  { t with load := { t.load with leap := 0 },
           rope := { t.rope with ceded := s.rope.ceded && cause == 1 && s.getF TWN_STATUS_VIRAM == 2 } }

/-- LEAP_ABORT (R54): in step 2 or 3; later it is ignored. -/
def State.doLeapAbort (s : State) : State :=
  (if s.load.leap = 1 then s.leapAbort 1 else s)

/-- LEAP_ABORT (R54). -/
def execLeapAbort (s : State) : Host.Outcome State Fault Refusal := .next (s.doLeapAbort)

/-- Steps 3 and 4 of R51: Service is entered and slot A is read. -/
def State.leapService (s : State) : State :=
  let t := s.enterService 7
  ({ t with load := { t.load with leap := 2, reimage := true }, mode := { t.mode with admitStop := true } }).readSlots

/-- LEAP_QUEUES_EMPTY (R51 step 3). -/
def execLeapQueuesEmpty (s : State) : Host.Outcome State Fault Refusal :=
  .next (if s.load.leap = 1 ∧ s.copies.isEmpty = true ∧ s.frames.isEmpty = true then s.leapService else s)

/-- LEAP_DRAIN_MAX_EXPIRY (R51 step 3): what remains is flushed as congestion drops. -/
def execLeapDrainMaxExpiry (s : State) : Host.Outcome State Fault Refusal :=
  .next (if s.load.leap = 1 ∧ s.load.leapEnd ≤ s.now then
    (let t := (s.cutCopies (s.copies.filter (·.started))).flushAll
     (t.dropFrames (t.frames.filter Frame.inIngress)).leapService)
    else s)

end Sys2Proof.Machine
end

