-- ==== Sys2Proof/Machine/Ports.lean ====
section
/-!
DEFINITION. Machine/Ports.lean: the meanings of the lanes, the ports and the MAC (R94–R111, R123, R124, R277): bring-up, loss and
return of links, shutdown, flow control, verify exchange, wake bursts.
-/

namespace Sys2Proof.Machine

/-! ### Links -/

/-- The lane's record in force. -/
def State.lane (s : State) (c : Nat) : Option LaneSt := s.lanes.find? (fun l => l.lane == c)
def State.updLane (s : State) (c : Nat) (f : LaneSt → LaneSt) : State :=
  { s with lanes := updFirst (fun l => l.lane == c) f s.lanes }

/-- The used front ports that a lane carries (R91, R93). -/
def State.portsOfLane (s : State) (l : LaneSt) : List Nat :=
  (s.ports.filter (fun x => x.mode != 0 && x.port < 64 && (x.port == l.port || (x.mode == 9 && l.port ≤ x.port && x.port < l.port + 4)))).map (·.port)

/-- Start the debounce on every port of a list. (DEDUCED, assumption log 54) -/
def State.linkFaults : State → List Nat → State
  | s, [] => s
  | s, p :: t => (s.linkFault p).linkFaults t

/-- A lane loses signal (kind 0), clock and data recovery (1) or lock (2). -/
def State.laneLoses (s : State) (c kind : Nat) : State :=
  let t := s.setF (LAN_STATUS_LOCKED c) 0
  let t := if kind ≤ 1 then t.setF (LAN_STATUS_CDR_LOCK c) 0 else t
  if kind = 0 then t.setF (LAN_STATUS_SIGNAL c) 0 else t

/-- The receiver of a port begins to report local fault: its transmitter sends remote fault (R99). -/
def State.localFault (s : State) (p : Nat) : State :=
  if s.flag (MAC_STATUS_LOCAL_FAULT p) then s else (s.setF (MAC_STATUS_LOCAL_FAULT p) 1).macSend p 4 1

/-- Local fault is no longer reported. -/
def State.localClear (s : State) (p : Nat) : State :=
  if s.flag (MAC_STATUS_LOCAL_FAULT p) then (s.setF (MAC_STATUS_LOCAL_FAULT p) 0).macSend p 4 0 else s

/-- LINK_FAULT_DETECT (R93, R99): kinds 0–2 on a lane of the port concern every port of the lane; kind 3 is local fault, 4 remote
fault, 5 a USXGMII control word that reports the sub-port down, which R99 does not debounce (DESIGN CHOICE, assumption log 88). -/
def execLinkFaultDetect (port lane kind : Nat) (s : State) : Host.Outcome State Fault Refusal :=
  .next (if !s.ports.any (fun x => x.port == port && x.mode != 0) then s
    else if kind = 3 then (s.localFault port).linkFault port
    else if kind = 4 then (s.setF (MAC_STATUS_REMOTE_FAULT port) 1).linkFault port
    else if kind = 5 then
      (if ((s.port port).map (·.mode)).getD 0 = 9 then (s.updPort port (fun x => { x with ctlDown := true })).portDown port else s)
    else
      match s.lane lane with
      | none => s
      | some l =>
        if 2 < kind then s
        else if 0x40 ≤ lane then (if port = 65 then (s.laneLoses lane kind).ropeUnlock (lane - 0x40) else s)
        else if (s.portsOfLane l).contains port then (s.laneLoses lane kind).linkFaults (s.portsOfLane l)
        else s)

/-- The other sub-ports go down with their lane (R93). -/
def State.withLane (s : State) (p : Nat) : List Nat :=
  p :: (s.lanes.filter (fun l => l.lane < 0x40 && (s.portsOfLane l).contains p && !s.flag (LAN_STATUS_LOCKED l.lane))).flatMap
    (fun l => (s.portsOfLane l).filter (· != p))

/-- PORT_DOWN (R99): a fault that has lasted DOWN_US. -/
def execPortDown (port : Nat) (s : State) : Host.Outcome State Fault Refusal :=
  .next (match s.port port with
    | some x =>
      (match x.faultAt with
       | some t0 =>
         if s.flag (MAC_STATUS_LINK port) = true ∧ t0 + tUs (min 1000 (s.getF (MAC_LINK_CFG_DOWN_US port))) ≤ s.now
         then s.portsDown (s.withLane port) else s
       | none => s)
    | none => s)

/-- Every lane of a front port is locked and its bring-up complete (R94, R97). -/
def State.lanesLocked (s : State) (p : Nat) : Bool :=
  !(s.lanesOf p).isEmpty && (s.lanesOf p).all (fun l => s.flag (LAN_STATUS_LOCKED l.lane) && l.began.isNone && !s.flag (LAN_STATUS_DOWN_DECLARED l.lane))

/-- The lanes of a port lie within the deskew range of 64 ns (R97). -/
def State.deskewed (s : State) (p : Nat) : Bool :=
  let k := (s.lanesOf p).map (·.skew)
  decide (k.foldl max 0 ≤ k.foldl min (k.headD 0) + 64)

/-- A port has its link: a front port with all its lanes locked and deskewed, no fault received and, on a Q-USXGMII sub-port, the control
word up (R93, R97, R99); the rope with one active logical lane (R357). -/
def State.portLocked (s : State) (p : Nat) : Bool :=
  if p = 65 then s.getF TWN_LANE_MAP_ACTIVE != 0
  else s.lanesLocked p && s.deskewed p && !s.flag (MAC_STATUS_LOCAL_FAULT p) && !s.flag (MAC_STATUS_REMOTE_FAULT p) &&
    !((s.port p).map (·.ctlDown)).getD false

/-- The front lanes of a port lock again. -/
def State.relock : State → List LaneSt → State
  | s, [] => s
  | s, l :: t => (((s.setF (LAN_STATUS_SIGNAL l.lane) 1).setF (LAN_STATUS_CDR_LOCK l.lane) 1).setF (LAN_STATUS_LOCKED l.lane) 1).relock t

/-- LOCK_REGAINED (R93, R98, R99): lanes that had been trained hold lock again, no fault is received, and the control word reports the
sub-port up. -/
def execLockRegained (port : Nat) (s : State) : Host.Outcome State Fault Refusal :=
  .next (let t := ((s.localClear port).setF (MAC_STATUS_REMOTE_FAULT port) 0).updPort port (fun x => { x with ctlDown := false })
    let t := if port < 64 then t.relock ((t.lanesOf port).filter (fun l => l.began.isNone && !t.flag (LAN_STATUS_DOWN_DECLARED l.lane))) else t
    if t.portLocked port && s.ports.any (fun x => x.port == port && x.mode != 0) then t.lockGained port else s)

/-- PORT_UP (R98): locked for UP_MS, or at once in Ascent. -/
def execPortUp (port : Nat) (s : State) : Host.Outcome State Fault Refusal :=
  .next (match s.port port with
    | some x =>
      (match x.lockAt with
       | some t0 =>
         if s.mayRise port = true ∧ (s.modeCode = mAscent ∨ t0 + tMs (min 100 (s.getF (MAC_LINK_CFG_UP_MS port))) ≤ s.now)
         then s.portUp port else s
       | none => s)
    | none => s)

/-- PORT_HOLD_EXPIRY (R277). -/
def execPortHoldExpiry (port : Nat) (s : State) : Host.Outcome State Fault Refusal :=
  .next (match (s.port port).bind (·.holdEnd) with
    | some e => if s.getF (SWC_PORT_HOLD_STATE port) = 1 ∧ e ≤ s.now then s.expireHold port else s
    | none => s)

/-- HOLD_FLUSH_COMPLETE (R277, R269): copies admitted while the flush ran are flushed with the rest. -/
def execHoldFlushComplete (port : Nat) (s : State) : Host.Outcome State Fault Refusal :=
  .next (if s.getF (SWC_PORT_HOLD_STATE port) = 3 then (s.flushPort port tTX_HOLD_FLUSH).setF (SWC_PORT_HOLD_STATE port) 2 else s)

/-! ### Lanes -/

/-- LANE_BRINGUP_START (R94): a bound lane of a sealed structure that is neither locked nor under way. -/
def execLaneBringupStart (lane : Nat) (s : State) : Host.Outcome State Fault Refusal :=
  .next (match s.lane lane with
    | some l => if s.isSealed && l.began.isNone && l.retryAt.isNone && !s.flag (LAN_STATUS_LOCKED lane) then s.laneStart lane else s
    | none => s)

/-- Whether a port mode's lane negotiates (R89, R95). -/
def State.negotiates (s : State) (l : LaneSt) : Bool :=
  l.lane < 0x40 && (l.rate == 0 || (s.portsOfLane l).any (fun p => ((s.port p).map (·.mode)).getD 0 == 9) || s.flag (LAN_CTL_AN_EN l.lane))

/-- The bring-up limit of a lane (R94). -/
def State.trainLimit (s : State) (c : Nat) : Nat := tMs (min 80 (s.getF (LAN_CTL_TRAIN_LIMIT c)) + 5)

/-- Lock reaches the ports of a lane (R97, R98): a multi-lane port whose lanes are skewed stays down and is counted. -/
def State.lockPorts (s : State) : List Nat → State
  | [] => s
  | p :: t =>
    (if s.portLocked p then s.lockGained p
     else if s.lanesLocked p && !s.deskewed p then s.portTally p tRX_DESKEW_FAIL 1
     else s).lockPorts t

/-- The FEC of a port mode (R89): 0 none, 1 RS(528,514), 2 RS(544,514). -/
def modeFec (m : Nat) : Nat := if m = 3 then 1 else if 5 ≤ m ∧ m ≤ 8 ∨ m = 11 then 2 else 0

/-- Negotiation fails (R95): the partner does not advertise the mode of the image, or the resolved FEC is not that mode's. -/
def State.mismatch (s : State) (l : LaneSt) (modes : List Nat) (fec : Nat) : Bool :=
  match (s.portsOfLane l).head? with
  | some p => let m := ((s.port p).map (·.mode)).getD 0; !modes.contains m || fec != modeFec m
  | none => false

/-- The steps of bring-up that LAN_STATUS reports (R94), up to step `k`: 0 signal, 1 clock and data recovery, 2 negotiation, 3 training, 4
block or alignment-marker lock.  A step that the lane does not use leaves no report. -/
def State.laneSteps (s : State) (l : LaneSt) (k : Nat) : State :=
  let c := l.lane
  let t := s.setF (LAN_STATUS_SIGNAL c) 1
  let t := if 1 ≤ k then t.setF (LAN_STATUS_CDR_LOCK c) 1 else t
  let t := if 2 ≤ k ∧ s.negotiates l = true then t.setF (LAN_STATUS_AN_DONE c) 1 else t
  let t := if 3 ≤ k ∧ 2 ≤ l.rate ∧ s.flag (LAN_CTL_LT_EN c) = true then t.setF (LAN_STATUS_TRAINED c) 1 else t
  if 4 ≤ k then t.setF (LAN_STATUS_LOCKED c) 1 else t

/-- LANE_LOCK (R94, R95, R97, R98): the bring-up of a lane has come as far as step `step`, within the limit of the attempt: 5 is lane deskew
and 6 FEC lock, which completes it.  A mismatch with what the partner advertises or with the FEC resolved keeps the lane down until
negotiation restarts. -/
def execLaneLock (lane step : Nat) (seen : LaneSeen) (s : State) : Host.Outcome State Fault Refusal :=
  .next (match s.lane lane with
    | none => s
    | some l =>
      match l.began with
      | none => s
      | some t0 =>
        if t0 + s.trainLimit lane < s.now ∨ s.flag (LAN_STATUS_AN_MISMATCH lane) then s
        else if 2 ≤ step ∧ s.negotiates l = true ∧ s.mismatch l seen.modes seen.fec = true then
          ((s.laneSteps l 1).setF (LAN_STATUS_AN_MISMATCH lane) 1).updLane lane (fun x => { x with retryAt := some (s.now + tSec 1) })
        else
          let t := s.laneSteps l step
          if step < 6 then t
          else
            let t := t.updLane lane (fun x => { x with began := none, retryAt := none, skew := seen.skew })
            if 0x40 ≤ lane then t.ropeLock (lane - 0x40) else t.lockPorts (t.portsOfLane l))

/-- LANE_TRAIN_LIMIT_EXPIRY (R94): the lane and its ports are declared down; the rope goes down only with its last lane. -/
def execLaneTrainLimitExpiry (lane : Nat) (s : State) : Host.Outcome State Fault Refusal :=
  .next (match s.lane lane with
    | none => s
    | some l =>
      match l.began with
      | none => s
      | some t0 =>
        if s.now < t0 + s.trainLimit lane then s
        else
          let t := (s.setF (LAN_STATUS_DOWN_DECLARED lane) 1).updLane lane
            (fun x => { x with began := none, retryAt := some (x.retryAt.getD (s.now + tSec 1)) })
          if lane < 0x40 then t.portsDown (t.portsOfLane l)
          else if t.getF TWN_LANE_MAP_ACTIVE = 0 then t.portDown 65 else t)

/-- The retry of a lane is due. -/
def State.retryDue (s : State) (c : Nat) : Bool :=
  match (s.lane c).bind (·.retryAt) with | some t => decide (t ≤ s.now) | none => false

/-- LANE_RETRY (R96). -/
def execLaneRetry (lane : Nat) (s : State) : Host.Outcome State Fault Refusal :=
  .next (if s.flag (LAN_STATUS_DOWN_DECLARED lane) && s.retryDue lane then s.laneStart lane else s)

/-- AN_RESTART (R95). -/
def execAnRestart (lane : Nat) (s : State) : Host.Outcome State Fault Refusal :=
  .next (if s.flag (LAN_STATUS_AN_MISMATCH lane) && s.retryDue lane then s.laneStart lane else s)

/-- LAN_RETRAIN (R96): the ports of the lane go down at once, without waiting for DOWN_US. -/
def State.doLanRetrain (s : State) (lane : Nat) : State :=
  (match s.lane lane with
    | some l =>
      if !s.isSealed then s
      else if lane < 0x40 then (s.portsDown (s.portsOfLane l)).laneStart lane
      else
        let t := (s.laneLoses lane 2).ropeUnlock (lane - 0x40)
        (if t.getF TWN_LANE_MAP_ACTIVE = 0 then t.portDown 65 else t).laneStart lane
    | none => s)

/-- LAN_RETRAIN (R96). -/
def execLanRetrain (lane : Nat) (s : State) : Host.Outcome State Fault Refusal := .next (s.doLanRetrain lane)

/-! ### Shutdown -/

/-- Whether a port has a MAC (R126). -/
def hasMac (p : Nat) : Bool := p < 64 || p == 65

/-- EN = 0 is written (R103). (DEDUCED, assumption log 54) -/
def State.shutdown (s : State) (p : Nat) : State :=
  if !hasMac p then s
  else
    let t := (s.setF (MAC_STATUS_EN_PENDING p) 0)
    if !s.flag (MAC_CTL_EN p) then t else (t.setF (MAC_CTL_EN p) 0).setF (MAC_STATUS_SHUTDOWN p) 1

/-- EN = 1 is written (R98, R103): held while a shutdown runs. -/
def State.enable (s : State) (p : Nat) : State :=
  if !hasMac p then s
  else
    let t := s.setF (MAC_CTL_EN p) 1
    if s.flag (MAC_STATUS_SHUTDOWN p) then t.setF (MAC_STATUS_EN_PENDING p) 1
    else if !s.flag (MAC_CTL_EN p) && t.portLocked p then t.lockGained p else t

/-- PORT_SHUTDOWN (R103): a write of MAC_CTL.EN = 0. -/
def execPortShutdown (port : Nat) (s : State) : Host.Outcome State Fault Refusal := .next (s.shutdown port)

/-- PORT_SHUTDOWN_COMPLETE (R103, R278): what is received and what is sent has ended; the queues are flushed as for a hold that
expires in its first cycle, and an enable held meanwhile returns the port. (DEDUCED, assumption log 54) -/
def execPortShutdownComplete (port : Nat) (s : State) : Host.Outcome State Fault Refusal :=
  .next (if !s.flag (MAC_STATUS_SHUTDOWN port) || s.frames.any (fun f => f.port == port && !f.ended && f.phase != .dropped) ||
      s.copies.any (fun c => c.port == port && c.started) then s
    else
      let en := s.flag (MAC_STATUS_EN_PENDING port)
      let t := (s.portDown port).expireHold port
      let t := ((t.setF (SWC_PORT_HOLD_STATE port) 2).setF (MAC_STATUS_SHUTDOWN port) 0).setF (MAC_STATUS_EN_PENDING port) 0
      if en && t.portLocked port then t.lockGained port else t)

/-! ### Flow control -/

/-- PAUSE_FRAME_RX (R98, R106–R108): a MAC control frame of 64 bytes; op 0 link-level pause, 1 PFC, else an opcode that is not known. -/
def execPauseFrameRx (port op : Nat) (badFcs : Bool) (prios : List (Nat × Nat)) (s : State) : Host.Outcome State Fault Refusal :=
  .next (if 64 ≤ port ∨ !s.ports.any (fun x => x.port == port && x.mode != 0) then s else s.pauseRx port op 64 badFcs prios)

/-- PAUSE_TIMER_EXPIRY (R107): the timers of a class that have run out end. -/
def execPauseTimerExpiry (port tc : Nat) (s : State) : Host.Outcome State Fault Refusal :=
  .next ((s.updPort port (fun x => { x with pauseEnd := x.pauseEnd.filter (fun e =>
    !(decide (e.2 ≤ s.now) && (e.1 == 8 || s.pfcTc port e.1 == tc))) })).pauseShow port)

/-- The classes under back-pressure (R260, R261). -/
def State.bpTcs (s : State) : Nat :=
  ((List.range 16).filter (fun n => s.flag (BPM_POOL_OCC_BP n))).foldl (fun m n => m ||| s.getF (BPM_POOL_CFG_TCS n)) 0

/-- The priorities of a port's priority map that feed a pool under back-pressure (R109, R261). -/
def State.bpPrios (s : State) (p : Nat) : Nat :=
  let m := s.rwgF s.curGen (SCH_PORT_PMAP_PCP_MAP p)
  ((List.range 8).filter (fun i => s.bpTcs.testBit (m / 2 ^ (3 * i) % 8))).foldl (fun a i => a + 2 ^ i) 0

/-- Send a pause or PFC frame (R109): the priorities it names and those it holds. -/
def State.pauseSend (s : State) (p names held : Nat) : State :=
  let q := s.getF (MAC_PAUSE_TX_QUANTA p)
  let t := s.updPort p (fun x => { x with genPause := held, refreshAt := s.now + s.quanta p (s.getF (MAC_PAUSE_TX_REFRESH p)) })
  if s.flag (MAC_CTL_FC_MODE p) then
    let m := s.rwgF s.curGen (SCH_PORT_PMAP_PCP_MAP p)
    let tcs := (((List.range 8).filter (fun i => names.testBit i)).map (fun i => m / 2 ^ (3 * i) % 8)).eraseDups
    ((t.portTally p tTX_PFC 1).pfcTallies p 5 tcs).macSend p 1 (names + 2 ^ 8 * held + 2 ^ 16 * q)
  else (t.portTally p tTX_PAUSE 1).macSend p 0 (if held = 0 then 0 else q)

/-- The express MAC of a port may send a control frame now: it may start frames, and it is at a frame boundary (R99, R103, R109, R124). -/
def State.pauseReady (s : State) (p : Nat) : Bool :=
  decide (p < 64) && s.macOpen p && s.flag (MAC_CTL_TX_PAUSE_EN p) && !s.macBusy p (fun tc => !s.onPmac p tc)

/-- PAUSE_FRAME_TX (R109): back-pressure began, changed or ended since the last frame sent. -/
def execPauseFrameTx (port : Nat) (s : State) : Host.Outcome State Fault Refusal :=
  .next (let old := ((s.port port).map (·.genPause)).getD 0
    let new := s.bpPrios port
    if s.pauseReady port && decide (new ≠ old) then s.pauseSend port (new ||| old) new else s)

/-- PAUSE_REFRESH (R109): every REFRESH quanta while back-pressure lasts. -/
def execPauseRefresh (port : Nat) (s : State) : Host.Outcome State Fault Refusal :=
  .next (match s.port port with
    | some x => if s.pauseReady port && decide (x.genPause ≠ 0) && decide (x.refreshAt ≤ s.now) && s.bpPrios port == x.genPause
        then s.pauseSend port x.genPause x.genPause else s
    | none => s)

/-! ### Preemption and wake -/

/-- VERIFY_RESPONSE (R111). -/
def execVerifyResponse (port : Nat) (s : State) : Host.Outcome State Fault Refusal :=
  .next (if s.getF (MAC_STATUS_VERIFY port) = 1 then s.setF (MAC_STATUS_VERIFY port) 2 else s)

/-- VERIFY_TIMEOUT (R111): up to three verify packets, then the exchange has failed, which is counted: in a count that no register shows
(DESIGN CHOICE, assumption log 90). -/
def execVerifyTimeout (port : Nat) (s : State) : Host.Outcome State Fault Refusal :=
  .next (match s.port port with
    | some x =>
      if s.getF (MAC_STATUS_VERIFY port) = 1 ∧ x.verifyAt ≤ s.now then
        if x.verifyLeft = 0 then (s.setF (MAC_STATUS_VERIFY port) 3).updPort port (fun x => { x with verifyFails := x.verifyFails + 1 })
        else (s.macSend port 2 0).updPort port
          (fun x => { x with verifyLeft := x.verifyLeft - 1, verifyAt := s.now + tMs (s.getF (MAC_PREEMPT_VERIFY_MS port)) })
      else s
    | none => s)

/-- The ports on which a wake burst of a port runs: on a Q-USXGMII lane, every sub-port (R124). -/
def State.burstPorts (s : State) (p : Nat) : List Nat :=
  match s.port p with
  | some x => if x.mode = 9 then (s.lanesOf p).flatMap s.portsOfLane else if x.mode = 1 ∨ x.mode = 2 then [p] else []
  | none => []

/-- A wake burst starts on every port of a list. -/
def State.bursts : State → List Nat → State
  | s, [] => s
  | s, p :: t =>
    ((s.setF (MAC_STATUS_WAKE_TX_BUSY p) 1).updPort p (fun x => { x with wakeEnd := some (s.now + tUs 200) })).bursts t

/-- WAKE_TX (R124). (DEDUCED, assumption log 54) -/
def State.doWakeTx (s : State) (port : Nat) : State :=
  (if (s.burstPorts port).isEmpty then s
    else if s.modeCode = mHold then s
    else ((s.bursts (s.burstPorts port)).portTally port tTX_WAKE_BURSTS 1).macSend port 3 0)

/-- WAKE_TX (R124). -/
def execWakeTx (port : Nat) (s : State) : Host.Outcome State Fault Refusal := .next (s.doWakeTx port)

/-- WAKE_BURST_END (R124). -/
def execWakeBurstEnd (port : Nat) (s : State) : Host.Outcome State Fault Refusal :=
  .next (match (s.port port).bind (·.wakeEnd) with
    | some e => if e ≤ s.now then (s.setF (MAC_STATUS_WAKE_TX_BUSY port) 0).updPort port (fun x => { x with wakeEnd := none }) else s
    | none => s)

end Sys2Proof.Machine
end

