-- ==== Sys2Proof/Machine/Twin.lean ====
section
/-!
DEFINITION. Machine/Twin.lean: the meanings of the twin family (R357–R388): heartbeats and the loss of the rope, pairing, the partner's
messages, flow control and time over the rope, lanes of the rope, recovery timeouts.
-/

namespace Sys2Proof.Machine

/-- P65 is up: messages pass on the rope. (DEDUCED, assumption log 43) -/
def State.ropeUp (s : State) : Bool := s.flag (MAC_STATUS_LINK 65)

/-- The image pairs (R31, R369). -/
def State.pairImage (s : State) : Bool := match s.img with | some i => i.pair | none => false

/-- The version in force (R364, R366); 0 while none is. -/
def State.viram (s : State) : Nat := s.getF TWN_STATUS_VIRAM

/-- Bits set in a word. -/
def popCount (n : Nat) : Nat := ((List.range 32).filter (fun i => n.testBit i)).length

/-- Isolated units, saturating at FFh (R362). -/
def State.isoCount (s : State) : Nat :=
  min 255 (popCount (s.rd rFLT_ISO).toNat + popCount (s.rd rFLT_ISO_PORTS_LO).toNat + popCount (s.rd rFLT_ISO_PORTS_HI).toNat +
    popCount (s.rd rFLT_ISO_BANKS).toNat + popCount (s.rd rFLT_ISO_ENG).toNat + s.flt.isoUnits.length)

/-- Receive lock of T0–T4 (R362). -/
def State.rxLock (s : State) : Nat :=
  ((List.range 5).filter (fun t => s.flag (LAN_STATUS_LOCKED (0x40 + t)))).foldl (fun a t => a + 2 ^ t) 0

/-! ### The mode follows the twin (R63, R369–R371) -/

/-- The partner is gone or refused: Paired becomes Solo, an Ascent that waits for the pair ends in Solo, Service resumes to Solo; a park goes
on. (DEDUCED, assumption log 45) -/
def State.ropeSolo (s : State) : State :=
  if s.mode.park ≠ 0 then s
  else if s.modeCode = mPaired then s.enterMode mSolo 4
  else if s.modeCode = mAscent ∧ s.isSealed = true ∧ s.rope.started = true then s.enterRun mSolo (s.getF AON_MODE_INFO_CAUSE)
  else if s.modeCode = mService ∧ s.mode.resume = mPaired then { s with mode := { s.mode with resume := mSolo } }
  else s

/-- A leapfrog in step 2 or 3 ends when the partner leaves Paired (R54). (DEDUCED, assumption log 45) -/
def State.leapLost (s : State) : State := if s.load.leap = 1 then s.leapAbort 2 else s

/-- Pairing settles (R367 step 4). (DEDUCED, assumption log 45) -/
def State.pairNow (s : State) : State :=
  let t := s.setTwin twPaired 0
  if t.mode.park ≠ 0 then t
  else if t.modeCode = mAscent ∧ t.isSealed = true ∧ t.rope.started = true then t.enterRun mPaired (t.getF AON_MODE_INFO_CAUSE)
  else if t.modeCode = mSolo then t.enterMode mPaired 4
  else if t.modeCode = mService ∧ t.mode.resume = mSolo then { t with mode := { t.mode with resume := mPaired } }
  else t

/-- The partner has announced that it leaves (R371): cause 2 parked, 3 Hold, 4 Service without forwarding. (DEDUCED, assumption log 44) -/
def State.goAway (s : State) (cause : Nat) : State :=
  if s.twin = twSingle then s
  else
    let t := { s with rope := { s.rope with away := true } }
    let t := if cause = 2 then t.setF AON_MODE_INFO_PARTNER_PARKED 1 else t
    let t := if s.twin = twAway then t else (t.setTwin twAway cause).raiseTWN TWN_INT_STATUS_PARTNER_AWAY
    t.ropeSolo.leapLost

/-- A state message of the partner: taken while the rope is up, and only under the version in force (R364). -/
def State.stateRx (s : State) (ver : Nat) (f : State → State) : State :=
  if s.ropeUp = false then s
  else if ver ≠ s.viram ∨ ver = 0 then s.event 372 (.die 0)
  else f s

/-! ### Heartbeats (R362, R363, R370) -/

/-- The modes that send heartbeats (R362). (DEDUCED, assumption log 26) -/
def State.beats (s : State) : Bool :=
  s.ropeUp && s.loaderState != 5 && (s.running || s.modeCode == mService || (s.modeCode == mAscent && s.isSealed))

/-- The heartbeat of this twin (R362). (DEDUCED, assumption log 43) -/
def State.heartbeat (s : State) : List Byte :=
  [0x02, BitVec.ofNat 8 s.viram, BitVec.ofNat 8 (s.modeCode + 16 * s.twin),
   BitVec.ofNat 8 (s.getF TWN_STATUS_SENIOR + 2 * s.getF TWN_STATUS_ROLES)] ++
  leBytes 4 s.rope.counter ++ leBytes 2 s.rope.session ++ [BitVec.ofNat 8 s.isoCount, BitVec.ofNat 8 s.rxLock] ++
  leBytes 2 (s.getF IMG_RUN_EPOCH) ++ List.replicate 50 0

/-- HEARTBEAT_SEND (R362): every 50 µs. -/
def execHeartbeatSend (s : State) : Host.Outcome State Fault Refusal :=
  .next (if s.beats then
      (let t := s.emit (.rope s.heartbeat)
       { t with rope := { t.rope with counter := (s.rope.counter + 1) % 2 ^ 32 } })
    else s)

/-- A heartbeat is newer than the last valid one (R363). -/
def RopeSt.newer (r : RopeSt) (m : Heartbeat) : Bool :=
  match r.heard with
  | none => true
  | some (ses, c) => m.session != ses || (let d := (m.counter + 2 ^ 32 - c) % 2 ^ 32; 1 ≤ d && d < 2 ^ 31)

/-- The gap that a valid heartbeat ends (R388). -/
def State.beatGap (s : State) : State :=
  match s.rope.heard with
  | none => s
  | some _ =>
    let us := (s.now - s.rope.heardAt) / 27000
    (s.maxF TWN_HB_GAP_US_US us).count TWN_HB_MISSED_COUNT (us / 50 - 1)

/-- A valid heartbeat (R363, R388); in handover, a partner that has entered Service leaves this twin in Solo (R371). -/
def State.beatTake (s : State) (m : Heartbeat) : State :=
  let t := s.beatGap
  let t := { t with rope := { t.rope with
    heard := some (m.session, m.counter), heardAt := s.now, peerIso := m.isolated, peerTwin := m.twin } }
  let t := (t.setF TWN_STATUS_PARTNER_MODE m.mode).setF TWN_PEER_EPOCH m.epoch
  let t := if t.twin = twHandover ∧ m.mode = mService then t.ropeSolo else t
  if t.load.leap = 1 ∧ m.twin ≠ twPaired ∧ m.twin ≠ twHandover then t.leapAbort 2 else t

/-- HEARTBEAT_RX (R360, R362, R363): a bad CRC is counted on P65 and as an event of FG38. -/
def execHeartbeatRx (m : Heartbeat) (s : State) : Host.Outcome State Fault Refusal :=
  .next (if s.ropeUp = false then s
    else if m.crcOk = false then (s.portTally 65 tRX_FCS_ERR 1).event 371 (.die 0)
    else if s.rope.newer m then s.beatTake m
    else s)

/-- The twin states that the loss of the rope turns into crevasse (R370). (DEDUCED, assumption log 43) -/
def State.pairing (s : State) : Bool := s.twin == twPaired || s.twin == twNegotiating || s.twin == twHandover

/-- The entry to crevasse (R370). -/
def State.crevasse (s : State) : State :=
  let t := (s.setTwin twCrevasse 1).raiseTWN TWN_INT_STATUS_CREVASSE
  (((t.count TWN_CREV_CNT_COUNT 1).twinCairn 1 (t.getF TWN_STATUS_LAST_CAUSE)).ropeSolo).leapLost

/-- ROPE_LOST (R370): 150 µs without a valid heartbeat; no crevasse after a message that announced the partner's departure. (DEDUCED, assumption log 43) (DEDUCED, assumption log 44) -/
def execRopeLost (s : State) : Host.Outcome State Fault Refusal :=
  .next (if (s.ropeUp || s.pairing) && decide (s.rope.heardAt + tUs 150 ≤ s.now) && s.pairImage then
      (let c := s.pairing && !s.rope.away
       let t := if s.rope.away then s else (s.count TWN_HB_MISSED_COUNT 3).event 370 (.die 0)
       let t := if s.ropeUp then t.portDown 65 else t
       if c then t.crevasse else t)
    else s)

/-! ### Pairing (R366–R368, R375) -/

/-- The highest version advertised (R366, R388). -/
def State.vmax (s : State) : Nat := if s.getF TWN_CTL_VMAX = 1 then 1 else 2

/-- HELLO (R364, R366). -/
def State.hello (s : State) : List Byte :=
  match s.img with
  | none => []
  | some i =>
    stateMsg 1 0 ([1, BitVec.ofNat 8 s.vmax, BitVec.ofNat 8 (s.getF TWN_STATUS_SENIOR + 2 * b2n s.rope.helloIn + 4 * b2n i.pair), 0] ++
      leBytes 2 i.epoch ++ leBytes 2 i.compat) i.streamsDigest

/-- HELLO_SEND (R360, R367): every 1 ms while negotiating, every 1 s while refused; in handover once the partner's HELLO has come. -/
def execHelloSend (s : State) : Host.Outcome State Fault Refusal :=
  .next (if s.ropeUp && s.pairImage && s.rope.started && s.modeCode != mHold && s.modeCode != mTest &&
      (s.twin == twNegotiating || s.twin == twRefused || (s.twin == twHandover && s.rope.helloIn))
    then s.emit (.rope s.hello) else s)

/-- The images allow pairing (R38). (DEDUCED, assumption log 42) -/
def State.imagesPair (s : State) (m : Hello) : Bool :=
  match s.img with
  | none => false
  | some i => (i.epoch == m.epoch && i.streamsDigest == m.digest) || i.compat == m.epoch || m.compat == i.epoch

/-- Why pairing is refused (R368, R388): 1 no common version, 3 seniority, 2 the images; 0 it is not. -/
def State.refusal (s : State) (m : Hello) : Nat :=
  if min s.vmax m.vmax < max 1 m.vmin then 1
  else if m.senior = s.flag TWN_STATUS_SENIOR then 3
  else if !s.imagesPair m then 2
  else 0

/-- Pairing is refused (R368): reported when it begins or its cause changes. -/
def State.refuse (s : State) (cause : Nat) : State :=
  if s.twin = twRefused ∧ s.getF TWN_REFUSE_CAUSE = cause then s
  else
    let t := (s.setF TWN_REFUSE_CAUSE cause).setF TWN_STATUS_VIRAM 0
    let t := (t.setTwin twRefused 5).raiseTWN TWN_INT_STATUS_PAIR_REFUSED
    (t.twinCairn 2 cause).ropeSolo.leapLost

/-- The NEXT of a stream (R375); none where it is absent. -/
def State.nextSeq (s : State) (r : StreamRec) : Option Nat :=
  if s.serves r then some (s.frer r.handle 0 2)
  else if s.frerFlag r.handle 0 then none
  else some ((s.frer r.handle 2 2 + 1) % 65536)

/-- The entries of SEQ_RESUME, in ascending handle order (R364). -/
def State.resumeList (s : State) : List (Nat × Nat) :=
  (s.replicas.mergeSort (fun a b => decide (a.handle ≤ b.handle))).filterMap (fun r => (s.nextSeq r).map (fun n => (r.handle, n)))

/-- Send SEQ_RESUME: at most 8,192 entries a message, LAST on the final one (R364). -/
def State.sendResume : Nat → State → List (Nat × Nat) → State
  | 0, s, _ => s
  | n + 1, s, l =>
    let h := l.take 8192
    let t := s.tellState 6 (leBytes 2 h.length ++ [BitVec.ofNat 8 (b2n (decide (l.length ≤ 8192)))]) (h.flatMap (fun e => leBytes 2 e.1 ++ leBytes 2 e.2))
    if l.length ≤ 8192 then t else t.sendResume n (l.drop 8192)

/-- SEQ_RESUME is sent; in handover this twin stops serving the partner's streams in the same cycle (R375). -/
def State.resumeNow (s : State) : State :=
  let t := s.sendResume 9 s.resumeList
  let t := { t with rope := { t.rope with seqSent := true } }
  if t.twin = twHandover then ({ t with rope := { t.rope with away := false } }).setTwin twNegotiating 0 else t

/-- Pairing settles once SEQ_RESUME has passed both ways (R367 steps 3 and 4). -/
def State.pairWhenDone (s : State) : State := if s.rope.seqSent && s.rope.seqDone then s.pairNow else s

/-- The partner's HELLO with ACK = 1 (R367 step 3): Viram 2 sends SEQ_RESUME, Viram 1 pairs. -/
def State.helloAcked (s : State) : State :=
  let t := { s with rope := { s.rope with helloAck := true } }
  if t.viram = 1 then t.pairNow
  else (if t.rope.seqSent then t else t.resumeNow).pairWhenDone

/-- A HELLO that does not refuse (R366, R367 step 2). (DEDUCED, assumption log 44) -/
def State.helloTake (s : State) (m : Hello) : State :=
  let t := s.setF TWN_STATUS_VIRAM (min s.vmax m.vmax)
  let t := if t.twin = twHandover ∨ t.twin = twNegotiating then t
    else ({ t with rope := { t.rope.fresh with away := false } }).setTwin twNegotiating 0
  let t := { t with rope := { t.rope with helloIn := true } }
  if m.ack then t.helloAcked else t

/-- HELLO_RX (R364, R366–R368): a message of an unknown KIND is discarded and counted. -/
def execHelloRx (m : Hello) (s : State) : Host.Outcome State Fault Refusal :=
  .next (if s.ropeUp = false then s
    else if m.kind ≠ 1 then (if 2 ≤ m.kind ∧ m.kind ≤ 8 then s else s.event 372 (.die 0))
    else
      let t := (s.setF TWN_PEER_EPOCH m.epoch).setF TWN_PEER_COMPAT_EPOCH m.compat
      if t.pairImage = false ∨ t.rope.started = false ∨ t.twin = twPaired then t
      else if t.refusal m = 0 then t.helloTake m
      else t.refuse (t.refusal m))

/-- Adopt NEXT values: for the replicated streams that this twin serves or is about to serve again, whose generators have numbered no frame
since the last Ascent; at a handback without an Ascent, all of them (R54, R375). -/
def State.adoptNext : State → List (Nat × Nat) → State
  | s, [] => s
  | s, e :: t =>
    (match s.streamRec e.1 with
     | some r =>
       if r.replicate && (s.serves r || (s.rope.ceded && s.isHome r)) && (!s.genUsed.contains e.1 || (s.rope.ceded && s.twin == twPaired))
       then s.putFrer e.1 0 2 e.2 else s
     | none => s).adoptNext t

/-- SEQ_RESUME_RX (R364, R367, R375, R54). -/
def execSeqResumeRx (m : SeqResume) (s : State) : Host.Outcome State Fault Refusal :=
  .next (s.stateRx m.ver (fun s =>
    let t := s.adoptNext m.entries
    if !m.last then t
    else
      let t := { t with rope := { t.rope with seqDone := true, ceded := false } }
      if t.twin = twNegotiating ∧ t.rope.helloAck = true then t.pairWhenDone else t))

/-! ### The partner's messages (R371) -/

/-- PARK_MSG_RX (R71, R371). -/
def execParkMsgRx (ver : Nat) (s : State) : Host.Outcome State Fault Refusal := .next (s.stateRx ver (fun s => s.goAway 2))

/-- SERVICE_MSG_RX (R85, R371): in handover the partner's Service leaves this twin in Solo with its twin state. -/
def execServiceMsgRx (ver : Nat) (fwd : Bool) (s : State) : Host.Outcome State Fault Refusal :=
  .next (s.stateRx ver (fun s => if s.twin = twHandover then s.ropeSolo else if fwd then s else s.goAway 4))

/-- Take over the generators of the partner's streams (R51, R375). -/
def State.takeOver : State → List StreamRec → State
  | s, [] => s
  | s, r :: t =>
    (if s.isHome r then s
     else s.putFrer r.handle 0 2 (if s.frerFlag r.handle 0 then 0 else (s.frer r.handle 2 2 + 1) % 65536)).takeOver t

/-- LEAP_MSG_RX (R51 step 1, R371): with a leapfrog of its own under way the senior goes on with its own, the junior gives way. (DEDUCED, assumption log 45) -/
def execLeapMsgRx (ver : Nat) (s : State) : Host.Outcome State Fault Refusal :=
  .next (s.stateRx ver (fun s =>
    if s.twin ≠ twPaired ∨ (s.load.leap = 1 ∧ s.flag TWN_STATUS_SENIOR = true) then s
    else
      let t := if s.load.leap = 1 then
          (let u := (s.imgState 4).setF IMG_STATUS_FAIL_PUSH 0x10
           { u with load := { u.load with leap := 0 }, rope := { u.rope with ceded := false } })
        else s
      let t := (t.takeOver t.replicas).setTwin twHandover 6
      ({ t with rope := { t.rope with away := true } }).raiseTWN TWN_INT_STATUS_PARTNER_AWAY))

/-- LEAP_ABORT_MSG_RX (R54): the streams are handed back, under Viram 2 with SEQ_RESUME. -/
def execLeapAbortMsgRx (ver : Nat) (s : State) : Host.Outcome State Fault Refusal :=
  .next (s.stateRx ver (fun s =>
    if s.twin ≠ twHandover then s
    else
      let t := if s.viram = 2 then s.sendResume 9 s.resumeList else s
      t.pairNow))

/-- SAFETY_MSG_RX (R371, R473): the group, class and flags of bytes 2 and 3. -/
def execSafetyMsgRx (m : List Byte) (s : State) : Host.Outcome State Fault Refusal :=
  .next (if s.ropeUp = false then s
    else
      let c := (m.getD 3 0).toNat
      let t := (s.setF TWN_PARTNER_FAULT_GROUP (m.getD 2 0).toNat).setF TWN_PARTNER_FAULT_CLASS (c % 8)
      let t := (t.setF TWN_PARTNER_FAULT_VALID 1).raiseTWN TWN_INT_STATUS_PARTNER_FAULT
      if c.testBit 4 then t.goAway 3 else t)

/-! ### Time over the rope (R365, R387) -/

/-- A timestamp of P65 for a message sent or received now: local ns with the port's adjustment in ps (R293). -/
def State.ropeTs (s : State) (adj : Fld) : Nat := (((s.localNs : Int) * 1000 + signedOf 16 (s.getF adj)) / 1000).toNat

/-- NS and 48-bit SEC of a local time (R365). -/
def tsBytes (t : Nat) : List Byte := leBytes 4 (t % 1000000000) ++ leBytes 6 (t / 1000000000)

/-- The time that ten bytes of a message hold, in ns. -/
def tsOf (b : List Byte) : Nat := leNat (b.take 4) + leNat ((b.drop 4).take 6) * 1000000000

/-- The time message (R365). (DEDUCED, assumption log 26) (DEDUCED, assumption log 46) -/
def State.timeMsg (s : State) : List Byte :=
  [0x05, BitVec.ofNat 8 s.viram,
   BitVec.ofNat 8 (s.getF TSY_CTL_WORK + 2 * s.getF (TSY_DOM_CFG_SYNCED 0) + 4 * s.getF (TSY_DOM_CFG_SYNCED 1))] ++ List.replicate 5 0 ++
  tsBytes (s.rope.timeTx.getD 0) ++ tsBytes (s.rope.timeRx.getD 0) ++ leBytes 8 (unsignedOf 64 (s.workNs - s.localNs)) ++ List.replicate 28 0

/-- TIME_MSG_SEND (R387): every 1 ms while Paired. -/
def execTimeMsgSend (s : State) : Host.Outcome State Fault Refusal :=
  .next (if s.twin = twPaired ∧ s.ropeUp = true ∧ s.ropeCarries 5 = true then
      (let t := s.emit (.rope s.timeMsg)
       { t with rope := { t.rope with timeTx := some (s.ropeTs (MAC_TS_ADJ_TX_ADJ 65)) } })
    else s)

/-- Half of a difference of times: exact where it is even, else rounded either way (DESIGN CHOICE, assumption log 5). -/
def halfOf (n : Int) (free : Nat) : Int := (n + (free % 2 : Nat)) / 2

/-- OFS and DELAY from the four times (R387); a DELAY that its register cannot hold is an open value (DESIGN CHOICE, assumption log 5). (DEDUCED, assumption log 46) -/
def State.timeResult (s : State) (t1 t2 t3 t4 : Nat) : State :=
  let f := s.free
  let g := f.2.free
  let ofs := unsignedOf 64 (halfOf (((t2 : Int) - t1) - ((t4 : Int) - t3)) f.1)
  let d := halfOf (((t4 : Int) - t1) - ((t3 : Int) - t2)) f.1
  let t := (g.2.setF TWN_TIME_OFS_LO_OFS ofs).setF TWN_TIME_OFS_HI_OFS (ofs / 2 ^ 32)
  t.setF TWN_TIME_DELAY_NS (if 0 ≤ d ∧ d < 65536 then d.toNat else g.1)

/-- TIME_MSG_RX (R365, R387): T1 of this message completes the exchange of the partner's last one. (DEDUCED, assumption log 46) -/
def execTimeMsgRx (m : List Byte) (s : State) : Host.Outcome State Fault Refusal :=
  .next (if s.ropeUp = false then s
    else
      let t3 := tsOf (m.drop 8)
      let t2 := tsOf (m.drop 18)
      let fl := (m.getD 2 0).toNat
      let t4 := s.ropeTs (MAC_TS_ADJ_RX_ADJ 65)
      let t := match s.rope.timePend with
        | some (a, b, c) => if t3 = 0 then s else s.timeResult a b t3 c
        | none => s
      let t := (t.setF TWN_PEER_TIME_WORK fl).setF TWN_PEER_TIME_SYNCED0 (fl / 2)
      let t := (t.setF TWN_PEER_TIME_SYNCED1 (fl / 4)).setF TWN_PEER_TIME_VALID 1
      let t := (t.setF TWN_PEER_WORK_LO_OFS (leNat ((m.drop 28).take 4))).setF TWN_PEER_WORK_HI_OFS (leNat ((m.drop 32).take 4))
      { t with rope := { t.rope with
        timeRx := some t4, timePend := if t2 = 0 then none else s.rope.timeTx.map (fun t1 => (t1, t2, t4)) } })

/-! ### Flow control on the rope (R386) -/

/-- ROPE_FC_SEND (R386): every 100 µs while back-pressure applies, and once with the mask cleared when it ends. -/
def execRopeFcSend (s : State) : Host.Outcome State Fault Refusal :=
  .next (if s.ropeUp = true ∧ s.ropeCarries 6 = true ∧ (s.bpTcs ≠ 0 ∨ s.getF TWN_FC_XOFF_TX ≠ 0) then
      (s.emit (.rope ([0x06, BitVec.ofNat 8 s.viram, BitVec.ofNat 8 s.bpTcs] ++ List.replicate 61 0))).setF TWN_FC_XOFF_TX s.bpTcs
    else s)

/-- ROPE_FC_RX (R386): the classes of the mask are held, the others released; classes in PFC_IGNORE are never held. -/
def execRopeFcRx (mask : Nat) (s : State) : Host.Outcome State Fault Refusal :=
  .next (if s.ropeUp = false then s
    else
      let held := (List.range 8).filter (fun t => mask.testBit t && !(s.getF (MAC_CTL_PFC_IGNORE 65)).testBit t)
      let t := { s with rope := { s.rope with fcAt := held.map (fun c => (c, s.now)) } }
      t.setF TWN_FC_XOFF_RX (held.foldl (fun a c => a + 2 ^ c) 0))

/-- ROPE_FC_RELEASE (R386): 300 µs after the last message that held the class. -/
def execRopeFcRelease (tc : Nat) (s : State) : Host.Outcome State Fault Refusal :=
  .next (match s.rope.fcAt.lookup tc with
    | some at_ =>
      if at_ + tUs 300 ≤ s.now then
        ({ s with rope := { s.rope with fcAt := s.rope.fcAt.filter (fun e => e.1 != tc) } }).clrBit TWN_FC_XOFF_RX tc
      else s
    | none => s)

/-! ### Rope lanes (R358, R359) -/

/-- The physical lane that carries a logical lane. -/
def State.physLane (s : State) (k : Nat) : Nat := s.getF (logField k)

/-- ROPE_LANE_LOSS (R358): an active logical lane loses lock. -/
def execRopeLaneLoss (log : Nat) (s : State) : Host.Outcome State Fault Refusal :=
  .next (if log < 4 ∧ (s.getF TWN_LANE_MAP_ACTIVE).testBit log = true then (s.laneLoses (0x40 + s.physLane log) 2).ropeUnlog log else s)

/-- The spare joins in place of a lane lost or taken out (R358, R359). (DEDUCED, assumption log 47) -/
def State.spareJoins (s : State) (k : Nat) : State :=
  if s.rope.retired.contains (s.physLane k) then (s.ropeSpare k).raiseTWN TWN_INT_STATUS_LANE_SWAP else s.ropeSpare k

/-- ROPE_REFORM_DONE (R358): the first re-forming takes the lost lanes out, a second one brings the spare in. -/
def execRopeReformDone (s : State) : Host.Outcome State Fault Refusal :=
  .next (if s.reforming ≠ [] then s.ropeActive (s.reforming.foldl (fun m k => m - 2 ^ k) (s.getF TWN_LANE_MAP_ACTIVE))
    else if s.flag TWN_STATUS_SPARE_READY = false then s
    else match s.rope.reform with
      | k :: _ => s.spareJoins k
      | [] => s)

/-- A lane of the rope may be swapped: it is active, no lane is lost, and no swap is agreed. -/
def State.swappable (s : State) (k : Nat) : Bool :=
  decide (k < 4) && (s.getF TWN_LANE_MAP_ACTIVE).testBit k && s.rope.reform.isEmpty && s.rope.swap.isNone

/-- SWAP_AT (R359, R364): the codeword count is an open value (DESIGN CHOICE, assumption log 5). -/
def State.swapAt (s : State) (k : Nat) : State :=
  let f := s.free
  let t := f.2.tellState 8 ([BitVec.ofNat 8 k, BitVec.ofNat 8 (s.getF TWN_LANE_MAP_SPARE)] ++ List.replicate 6 0 ++ leBytes 8 f.1) []
  { t with rope := { t.rope with swap := some (k, s.physLane k) } }

/-- A swap of a logical lane for the spare (R359).  With the spare in use or not locked a worn lane stays, and a cairn says so. -/
def State.askSwap (s : State) (lane : Nat) : State :=
  if s.ropeUp = false ∨ s.viram = 0 ∨ s.swappable lane = false then s
  else if s.flag TWN_STATUS_SPARE_READY = false then s.twinCairn 4 0
  else if s.viram = 1 then
    ({ s with rope := { s.rope with retired := s.rope.retired ++ [s.physLane lane] } }).ropeUnlog lane
  else if s.flag TWN_STATUS_SENIOR then s.swapAt lane
  else s.tellState 7 [BitVec.ofNat 8 lane, BitVec.ofNat 8 (s.physLane lane)] []

/-- TWN_SWAP (R359): requested by the host, whose write sets SWAP_LANE, or for a worn lane. (DEDUCED, assumption log 44) -/
def execTwnSwap (lane : Nat) (worn : Bool) (s : State) : Host.Outcome State Fault Refusal :=
  .next ((if worn then s else s.setF TWN_CTL_SWAP_LANE lane).askSwap lane)

/-- SWAP_REQ_RX (R359): the senior answers with SWAP_AT; once the spare has been used a request finds it in use. -/
def execSwapReqRx (ver lane : Nat) (s : State) : Host.Outcome State Fault Refusal :=
  .next (s.stateRx ver (fun s =>
    if s.flag TWN_STATUS_SENIOR = false ∨ s.viram ≠ 2 then s
    else if s.flag TWN_STATUS_SPARE_READY = false ∨ s.rope.swap.isSome = true then s.twinCairn 4 0
    else if s.swappable lane then s.swapAt lane
    else s))

/-- SWAP_AT_APPLY (R359): from the named codeword the spare carries the logical lane, and the worn lane is retired.  The senior has agreed
the lane; the junior takes it from SWAP_AT. -/
def execSwapAtApply (lane : Nat) (s : State) : Host.Outcome State Fault Refusal :=
  .next (if s.ropeUp = true ∧ s.viram = 2 ∧ lane < 4 ∧ s.flag TWN_STATUS_SPARE_READY = true ∧ s.rope.reform.isEmpty = true ∧
      (s.getF TWN_LANE_MAP_ACTIVE).testBit lane = true ∧ (s.flag TWN_STATUS_SENIOR = false ∨ (s.rope.swap.map (·.1)) = some lane) then
    ({ s with rope := { s.rope with retired := s.rope.retired ++ [s.physLane lane], swap := none } }).spareJoins lane
    else s)

/-! ### Roles and recovery functions (R380, R383) -/

/-- ROLE_TAKE (R383): in crevasse and refused only. -/
def State.doRoleTake (s : State) : State :=
  (if s.twin = twCrevasse ∨ s.twin = twRefused then
      ({ s with rope := { s.rope with taken := true } }).setF TWN_STATUS_ROLES 1
    else s)

/-- ROLE_TAKE (R383). -/
def execRoleTake (s : State) : Host.Outcome State Fault Refusal := .next (s.doRoleTake)

/-- FRER_RESET_TIMEOUT (R380): the recovery function has passed no frame for RESET_MS. -/
def execFrerResetTimeout (handle : Nat) (s : State) : Host.Outcome State Fault Refusal :=
  .next (match s.frerAt.lookup handle with
    | some at_ =>
      if at_ + tMs (max 1 (s.getF TWN_FRER_CFG_RESET_MS)) ≤ s.now then
        (({ s with frerAt := sdel s.frerAt handle }).setFrerFlag handle 0 true).countFrer handle 30 2
      else s
    | none => s)

end Sys2Proof.Machine
end

