-- ==== Sys2Proof/Machine/Ageing.lean ====
section
/-!
DEFINITION. Machine/Ageing.lean: the meanings of ageing and margin re-planning (R485–R501), and of the regulators' alerts (R536).
-/

namespace Sys2Proof.Machine

/-! ### Triggers (R490) -/

/-- A trigger: it starts a re-plan, or sets PENDING where the mode does not allow one or one runs; ignored with REPLAN_EN = 0 (R499). -/
def State.replan (s : State) : State :=
  if s.flag AGE_CTL_REPLAN_EN then
    (if replanMode s.modeCode && !s.flag AGE_STATUS_RUNNING && s.mode.park == 0 then s.replanStart else s.setF AGE_STATUS_PENDING 1)
  else s

/-- REPLAN_INTERVAL (R490): INTERVAL_H operating hours after the last margin-history cairn, once for each such cairn. (DEDUCED, assumption log 63) -/
def execReplanInterval (s : State) : Host.Outcome State Fault Refusal :=
  .next (let base := s.lastKind 4
    if s.modeCode = mBivouac ∨ s.opSec < base + 3600 * s.getF AGE_CFG_INTERVAL_H ∨ s.age.firedFor = some base ∨ s.img.isNone = true then s
    else { s with age := { s.age with firedFor := some base } }.replan)

/-- TEMP_EXCURSION (R490): a junction sensor has been outside the limits for 1 s. -/
def execTempExcursion (sensor : Nat) (temp : Int) (s : State) : Host.Outcome State Fault Refusal :=
  .next (if s.modeCode ≠ mBivouac ∧ sensor < 8 ∧ s.img.isSome = true ∧
      (temp < signedOf 8 (s.getF AGE_CFG_T_LOW) ∨ signedOf 8 (s.getF AGE_CFG_T_HIGH) < temp) then
    (let t := (s.setF AGE_STATUS_EXCURSION 1).raiseAGE AGE_INT_STATUS_EXCURSION
     ({ t with age := { t.age with hot := true } }).cairn 0x49 sensor [BitVec.ofInt 8 temp])
    else s)

/-- EXCURSION_RECOVERED (R490): within the limits for 10 s after an excursion. -/
def execExcursionRecovered (s : State) : Host.Outcome State Fault Refusal :=
  .next (if s.age.hot then ({ s with age := { s.age with hot := false } }).replan else s)

/-- REPLAN_AFTER_ENTRY (R490): Paired or Solo has been entered after an Ascent. -/
def execReplanAfterEntry (s : State) : Host.Outcome State Fault Refusal :=
  .next (if s.age.entryDue then ({ s with age := { s.age with entryDue := false } }).replan else s)

/-- AGE_RUN (R490, R499). -/
def execAgeRun (s : State) : Host.Outcome State Fault Refusal := .next s.replan

/-! ### Ring oscillators and the core target (R486, R492) -/

/-- The unit that a ring oscillator measures (R485). -/
def roUnit (n : Nat) : FUnit := if n < 40 then .quadrant (n / 10) else if n < 52 then .core else if n < 58 then .die 1 else .die 2

/-- A unit that has power and is not isolated (R485). -/
def State.measured (s : State) (u : FUnit) : Bool :=
  !s.isIso u && (match u with | .quadrant q => s.quadPowered q && !s.flt.reactions.any (fun r => r.unit == u) | _ => true)

/-- One reading: more than 30 % from the baseline it is an error, source 392, and discarded; else it is reported. -/
def State.roTake (s : State) (r : RoReading) : State :=
  if r.slow < -3000 ∨ 3000 < r.slow then s.event 392 (.die 0)
  else (s.setF (AGE_RO_FREQ_MHZ r.ro) (min 65535 r.freq)).setF (AGE_RO_DEG r.ro) (max 0 r.slow).toNat

def State.roTakes : State → List RoReading → State
  | s, [] => s
  | s, r :: t => (s.roTake r).roTakes t

/-- The reading of the worst oscillator: the first of those with the largest DEG. -/
def worstRo : List RoReading → Option RoReading
  | [] => none
  | r :: t => match worstRo t with | some w => if max 0 w.slow ≤ max 0 r.slow then some r else some w | none => some r

/-- The core target before the window (R492): BASE_MV and 10 mV for each 1.00 % of DEG, rounded up to 5 mV. -/
def coreTarget (base deg : Nat) : Nat := (10 * base + deg + 49) / 50 * 5

/-- The target within the window (R492). -/
def State.clampMv (s : State) (v : Nat) : Nat := min (s.getF AGE_AVS_WIN_MAX_MV) (max (s.getF AGE_AVS_WIN_MIN_MV) v)

/-- Raise a limit flag: LIMIT reports one that was not set (R496, R500). -/
def State.limitFlag (s : State) (f : Fld) (b : Bool) : State :=
  let t := s.setB f b
  if b && !s.flag f then t.raiseAGE AGE_INT_STATUS_LIMIT else t

/-- A target above AVS_MAX sets VCORE_LIMIT and raises source 387: once in a re-plan, and between re-plans when it begins (R492, R496). (DEDUCED, assumption log 63) -/
def State.vcoreLimit (s : State) (above step1 : Bool) : State :=
  let t := s.limitFlag AGE_STATUS_VCORE_LIMIT above
  if above && (step1 || !s.flag AGE_STATUS_VCORE_LIMIT) then t.event 387 (.die 0) else t

/-- The re-plan runs and stands at a step. -/
def State.atStep (s : State) (n : Nat) : Bool := s.flag AGE_STATUS_RUNNING && s.getF AGE_STATUS_STEP == n

/-- Step 2 of a re-plan ends when the voltage has its value, or stays where it is (R491, R493). (PRESUMED, assumption log 24) -/
def State.voltageDone (s : State) : State :=
  let t := { s with age := { s.age with goal := none, nackAt := none } }
  if t.atStep 2 then t.setF AGE_STATUS_STEP 3 else t

/-- The target of a reading: a re-plan takes it, and between re-plans or while step 2 lowers only a higher one counts (R493). -/
def State.setGoal (s : State) (v : Nat) : State :=
  if s.atStep 1 then
    (let t := (s.setF AGE_STATUS_STEP 2)
     if v = s.age.vcore then t.voltageDone else { t with age := { t.age with goal := some v } })
  else if s.age.goal.getD s.age.vcore < v ∧ s.modeCode ≠ mHold then { s with age := { s.age with goal := some v } }
  else s

/-- RO_READ (R485, R486, R492, R493): every 1 s, and at step 1 of a re-plan, which waits for the shadow of a quadrant restart. -/
def execRoRead (l : List RoReading) (s : State) : Host.Outcome State Fault Refusal :=
  .next (if s.modeCode = mBivouac ∨ s.img.isNone = true then s
    else
      let l := l.filter (fun r => decide (r.ro < 64) && s.measured (roUnit r.ro))
      let t := s.roTakes l
      match worstRo (l.filter (fun r => decide (-3000 ≤ r.slow ∧ r.slow ≤ 3000))) with
      | none => t
      | some w =>
        let deg := (max 0 w.slow).toNat
        let v := coreTarget (s.getF AGE_CORE_BASE_MV) deg
        let waits := s.atStep 1 && s.flt.reactions.any (fun r => match r.unit with | .quadrant _ => true | _ => false)
        let t := (t.setF AGE_CORE_WORST_RO w.ro).setF AGE_CORE_WORST_DEG deg
        if waits then t else (t.vcoreLimit (decide (s.getF AGE_AVS_WIN_MAX_MV < v)) (s.atStep 1)).setGoal (s.clampMv v))

/-! ### The voltage (R493) -/

/-- VOUT_COMMAND, STATUS_WORD and READ_VOUT on VDD_CORE (PRESUMED, assumption log 24). (DESIGN CHOICE, assumption log 28) -/
def State.vout (s : State) (mv : Nat) : State := s.emit (.pmbus 1 0x21 mv)

/-- The next value on the way to the goal: 5 mV nearer. (DESIGN CHOICE, assumption log 28) -/
def nextMv (now goal : Nat) : Nat := if goal < now then max goal (now - 5) else min goal (now + 5)

/-- A command is taken; after the last step READ_VOUT and STATUS_WORD are read. -/
def State.voltageAt (s : State) (mv goal readMv : Nat) (fault : Bool) : State :=
  let t := ({ s with age := { s.age with vcore := mv, nackAt := none } }).setF AGE_AVS_TARGET_MV mv
  if mv ≠ goal then t
  else
    let t := ((t.emit (.pmbus 1 0x8B 0)).emit (.pmbus 1 0x79 0)).setF AGE_AVS_READ_MV (min 1023 readMv)
    let t := if readMv + 10 < s.getF AGE_AVS_WIN_MIN_MV ∨ s.getF AGE_AVS_WIN_MAX_MV + 10 < readMv then t.event 394 (.die 0) else t
    (if fault then t.event 395 (.die 0) else t).voltageDone

/-- AVS_STEP (R493): one step every 100 µs, not in Hold; what the regulator answers. -/
def execAvsStep (ack : Bool) (readMv : Nat) (fault : Bool) (s : State) : Host.Outcome State Fault Refusal :=
  .next (match s.age.goal with
    | none => s
    | some g =>
      if s.age.nackAt.isSome = true ∨ s.modeCode = mHold ∨ s.now < s.age.stepAt + tUs 100 then s
      else
        let mv := nextMv s.age.vcore g
        let t := s.vout mv
        let t := { t with age := { t.age with stepAt := s.now } }
        if ack then t.voltageAt mv g readMv fault else { t with age := { t.age with nackAt := some s.now } })

/-- PMBUS_NACK_RETRY (R493): a second refusal raises source 393, and the voltage stays where it is. -/
def execPmbusNackRetry (ack : Bool) (readMv : Nat) (fault : Bool) (s : State) : Host.Outcome State Fault Refusal :=
  .next (match s.age.goal, s.age.nackAt with
    | some g, some at_ =>
      if s.now < at_ + tMs 1 then s
      else
        let mv := nextMv s.age.vcore g
        let t := s.vout mv
        let t := { t with age := { t.age with stepAt := s.now } }
        if ack then t.voltageAt mv g readMv fault else (t.event 393 (.die 0)).voltageDone
    | _, _ => s)

/-- PMBUS_ALERT (R536): STATUS_WORD of a regulator is read; a fault bit raises source 395. -/
def execPmbusAlert (rail : Nat) (fault : Bool) (s : State) : Host.Outcome State Fault Refusal :=
  .next (if rail < 4 ∧ s.modeCode ≠ mBivouac ∧ s.mode.porst = false then
      (let t := s.emit (.pmbus rail 0x79 0)
       if fault then t.event 395 (.die 0) else t)
    else s)

/-! ### Eyes (R487) -/

/-- The fault unit of a lane code. -/
def laneUnit (c : Nat) : FUnit := if c < 0x40 then .lane c else .ropeLane (c - 0x40)

/-- A lane that is up and not isolated. -/
def State.laneUp (s : State) (c : Nat) : Bool := s.lanes.any (fun l => l.lane == c) && s.flag (LAN_STATUS_LOCKED c) && !s.isIso (laneUnit c)

/-- A reading of a lane's eye; a lane that is down keeps its last one. -/
def State.eyeTake (s : State) (e : Nat × Nat × Nat) : State :=
  if s.laneUp e.1 then (s.setF (LAN_EYE_HEIGHT e.1) (min 65535 e.2.1)).setF (LAN_EYE_WIDTH e.1) (min 65535 e.2.2) else s

def State.eyeTakes : State → List (Nat × Nat × Nat) → State
  | s, [] => s
  | s, e :: t => (s.eyeTake e).eyeTakes t

/-- EYE_READ (R487): every 60 s for each lane that is up. -/
def execEyeRead (lane height width : Nat) (s : State) : Host.Outcome State Fault Refusal := .next (s.eyeTake (lane, height, width))

/-! ### Lane retunes (R495) -/

/-- Add the steps of the taps; a tap of which nothing is known stands at 0. -/
def addTaps : List Int → List Int → List Int
  | l, [] => l
  | [], d => d
  | a :: l, b :: d => (a + b) :: addTaps l d

/-- The eye reading improves: it opens higher, or as high and wider (R495: "improves"). (DEDUCED, assumption log 105) -/
def State.eyeBetter (s : State) (c h w : Nat) : Bool :=
  decide (s.getF (LAN_EYE_HEIGHT c) < h) || (s.getF (LAN_EYE_HEIGHT c) == h && decide (s.getF (LAN_EYE_WIDTH c) < w))

/-- The steps of a retune: each of at most 2 codes a tap; one that does not improve the eye, or during which an uncorrectable codeword
comes, is taken back and ends it. -/
def State.retuneSteps (s : State) (c : Nat) : List RetuneStep → State
  | [] => s
  | r :: t =>
    let u := s.count (LAN_FEC_UNCORR_COUNT c) r.uncorr
    if r.deltas.all (fun d => decide (d.natAbs ≤ 2)) && s.eyeBetter c (min 65535 r.height) (min 65535 r.width) && r.uncorr == 0 then
      (({ u with lanes := updFirst (fun x => x.lane == c) (fun x => { x with taps := addTaps x.taps r.deltas }) u.lanes }).eyeTake
        (c, r.height, r.width)).retuneSteps c t
    else u

/-- The retunes of the lanes that are up: up to 8 steps each. -/
def State.retunes : State → List (Nat × List RetuneStep) → State
  | s, [] => s
  | s, e :: t => (if s.laneUp e.1 then s.retuneSteps e.1 (e.2.take 8) else s).retunes t

/-! ### The end of a re-plan (R491 steps 3–6, R494–R498) -/

/-- The SRAM assist (R494): one level up below the floor + 10 mV, one down above the floor + 40 mV; then the margin again. -/
def State.assist (s : State) (m : Margins) : State :=
  let fl := s.getF AGE_SRAM_FLOOR_MV
  let w := s.getF AGE_SRAM_WASSIST
  let r := s.getF AGE_SRAM_RASSIST
  if m.sram < fl + 10 ∧ w < 7 then (s.setF AGE_SRAM_WASSIST (w + 1)).setF AGE_SRAM_MARGIN_MV (min 255 m.sramAfter)
  else if m.sram < fl + 10 ∧ r < 3 then (s.setF AGE_SRAM_RASSIST (r + 1)).setF AGE_SRAM_MARGIN_MV (min 255 m.sramAfter)
  else if fl + 40 < m.sram ∧ 0 < r then (s.setF AGE_SRAM_RASSIST (r - 1)).setF AGE_SRAM_MARGIN_MV (min 255 m.sramAfter)
  else if fl + 40 < m.sram ∧ 0 < w then (s.setF AGE_SRAM_WASSIST (w - 1)).setF AGE_SRAM_MARGIN_MV (min 255 m.sramAfter)
  else s.setF AGE_SRAM_MARGIN_MV (min 255 m.sram)

/-- The channels of the pair that migrates keep their training until MIG_DONE (R491). -/
def State.migrating (s : State) (c : Nat) : Bool := s.flag DRC_STATUS_MIGRATING && s.getF DRC_STATUS_MIG_RANK / 4 == c / 2

/-- Step 5: the eyes of the DRAM channels (R406). -/
def State.dramEyes (s : State) (l : List (Nat × Nat)) : State :=
  let t := State.foldS (fun u (x : (Nat × Nat) × Nat) =>
    if x.2 < 4 && !s.migrating x.2 then (u.setF (DRC_CH_EYE_RD_PS x.2) (min 65535 x.1.1)).setF (DRC_CH_EYE_WR_PS x.2) (min 65535 x.1.2) else u) s l.zipIdx
  let t := { t with age := { t.age with retrainLater := s.flag DRC_STATUS_MIGRATING } }
  t.raiseDRC DRC_INT_STATUS_RETRAINED

/-- The margin of a lane (R496): one whose width is below its floor counts as 0. -/
def State.laneMargin (s : State) (c : Nat) : Int :=
  if s.getF (LAN_EYE_WIDTH c) < s.getF AGE_LANE_FLOOR_WIDTH_MUI then 0 else (s.getF (LAN_EYE_HEIGHT c) : Int) - s.getF AGE_LANE_FLOOR_HEIGHT_MV

/-- The lanes that are up. -/
def State.upLanes (s : State) : List Nat := (s.lanes.map (·.lane)).filter s.laneUp

/-- The first lane of a list with the smallest margin. -/
def State.worstLane (s : State) : List Nat → Option Nat
  | [] => none
  | c :: t => match s.worstLane t with | some w => if s.laneMargin c ≤ s.laneMargin w then some c else some w | none => some c

/-- The core headroom (R492). -/
def State.headroom (s : State) : Nat := s.getF AGE_AVS_WIN_MAX_MV - coreTarget (s.getF AGE_CORE_BASE_MV) (s.getF AGE_CORE_WORST_DEG)

/-- The DRAM margin: the smallest eye of the four channels over the floor (R496). -/
def State.dramMargin (s : State) : Int :=
  (((List.range 4).map (fun c => min (s.getF (DRC_CH_EYE_RD_PS c)) (s.getF (DRC_CH_EYE_WR_PS c)))).foldl min 65535 : Nat) - (s.getF AGE_DRAM_FLOOR_PS : Int)

/-- The bytes of the last `n` valid margin-history cairns in the written slots below `i`, newest first (R497). -/
def histSlots (s : State) : Nat → Nat → List (Nat × List Byte)
  | 0, _ => []
  | i + 1, n =>
    if n = 0 then []
    else
      let b := s.slotBytes i
      if (b.getD 0 0).toNat = 4 ∧ slotValid b = true then (leNat ((b.drop 8).take 5), (b.drop 24).take 8) :: histSlots s i (n - 1)
      else histSlots s i n

/-- Operating seconds and the four margins' bytes of up to the last 30 margin-history cairns, queued or written. -/
def State.history (s : State) : List (Nat × List Byte) :=
  let q := ((s.crn.queue.filter (fun c => c.kind == 4)).reverse.map (fun c => (c.firstSec, c.payload.take 8))).take 30
  q ++ histSlots s (s.getF CRN_STATUS_USED) (30 - q.length)

/-- Points of one kind: seconds and margin. -/
def points (h : List (Nat × List Byte)) (k : Nat) : List (Int × Int) := h.map (fun e => ((e.1 : Int), signedOf 16 (leNat ((e.2.drop (2 * k)).take 2))))

/-- The slope of the least-squares line through points as a fraction: numerator and denominator (R497). -/
def slope (l : List (Int × Int)) : Int × Int :=
  let n : Int := l.length
  let sx := (l.map (·.1)).sum
  let sy := (l.map (·.2)).sum
  (n * (l.map (fun e => e.1 * e.2)).sum - sx * sy, n * (l.map (fun e => e.1 * e.1)).sum - sx * sx)

/-- The whole days that a margin lasts at the fitted decline; none where it does not decline (R497). -/
def daysLeft (margin : Int) (l : List (Int × Int)) : Option Nat :=
  let f := slope l
  if f.2 ≤ 0 ∨ 0 ≤ f.1 then none else some (margin * f.2 / (-f.1 * 86400)).toNat

/-- The projected remaining margin (R497): FFFFh with fewer than 5 cairns or without a decline. (DEDUCED, assumption log 63) -/
def State.projection (s : State) (ms : List Int) : Nat :=
  let h := s.history
  if h.length < 5 then 0xFFFF
  else
    let d := ms.zipIdx.filterMap (fun x => daysLeft x.1 (points h x.2))
    if d.isEmpty then 0xFFFF else min 0xFFFE (d.foldl min 0xFFFE)

/-- A margin below its floor sets its flag and raises its source, once in a re-plan (R496). -/
def State.marginFlag (s : State) (f : Fld) (src : Nat) (low : Bool) : State :=
  let t := s.limitFlag f low
  if low then t.event src (.die 0) else t

/-- A worn rope lane is swapped (R359, R498): the logical lane that it carries. -/
def State.swapWorn : State → List Nat → State
  | s, [] => s
  | s, c :: t =>
    (match (List.range 4).find? (fun k => s.physLane k == c - 0x40) with
     | some k => s.askSwap k
     | none => s).swapWorn t

/-- Step 6 (R496, R497): margins, flags, the cairn, DONE. -/
def State.marginsDone (s : State) : State :=
  let up := s.upLanes
  let f := s.free
  let worst := s.worstLane up
  let lane : Int := match worst with | some c => s.laneMargin c | none => signedOf 16 f.1
  let core : Int := s.headroom
  let sram : Int := (s.getF AGE_SRAM_MARGIN_MV : Int) - s.getF AGE_SRAM_FLOOR_MV
  let dram := s.dramMargin
  let t := if worst.isSome then s else f.2
  let low := up.filter (fun c => decide (s.laneMargin c < 0))
  let t := t.setF AGE_LANES_LOW_LO_FRONT ((low.filter (· < 24)).foldl (fun a c => a + 2 ^ c) 0)
  let t := t.setF AGE_LANES_LOW_HI_ROPE ((low.filter (0x40 ≤ ·)).foldl (fun a c => a + 2 ^ (c - 0x40)) 0)
  let t := t.marginFlag AGE_STATUS_LANE_LOW 388 (!low.isEmpty)
  let t := t.marginFlag AGE_STATUS_SRAM_LOW 389 (decide (sram < 0))
  let t := t.marginFlag AGE_STATUS_DRAM_LOW 390 (decide (dram < 0))
  let d := t.projection [core, lane, sram, dram]
  let t := (t.setF AGE_MARGIN_PROJ_DAYS d).marginFlag AGE_STATUS_PROJ_LOW 391 (decide (d < s.getF AGE_MARGIN_LIMIT_DAYS))
  let t := t.swapWorn (low.filter (0x40 ≤ ·))
  let st := t.getF AGE_STATUS_VCORE_LIMIT + 2 * t.getF AGE_STATUS_LANE_LOW + 4 * t.getF AGE_STATUS_SRAM_LOW + 8 * t.getF AGE_STATUS_DRAM_LOW +
    16 * t.getF AGE_STATUS_PROJ_LOW
  let t := t.cairn 4 0 (leBytes 2 s.headroom ++ leBytes 2 (unsignedOf 16 lane) ++ leBytes 2 (unsignedOf 16 sram) ++ leBytes 2 (unsignedOf 16 dram) ++
    leBytes 2 d ++ leBytes 2 (t.getF AGE_AVS_TARGET_MV) ++ leBytes 2 (t.getF AGE_CORE_WORST_DEG) ++
    [BitVec.ofNat 8 (worst.getD f.1), BitVec.ofNat 8 st])
  ((t.count AGE_REPLANS_COUNT 1).setF AGE_STATUS_RUNNING 0).setF AGE_STATUS_STEP 0

/-- REPLAN_DONE (R491 steps 3–6, R490): a pending re-plan follows. -/
def execReplanDone (m : Margins) (s : State) : Host.Outcome State Fault Refusal :=
  .next (if s.flag AGE_STATUS_RUNNING = true ∧ 3 ≤ s.getF AGE_STATUS_STEP then
      (let t := ((((s.assist m).eyeTakes m.eyes).retunes m.tunes).dramEyes m.dram).marginsDone
       (t.raiseAGE AGE_INT_STATUS_DONE).replanPending)
    else s)

end Sys2Proof.Machine
end

