-- ==== Sys2Proof/Machine/Dram.lean ====
section
/-!
DEFINITION. Machine/Dram.lean: the meanings of the DRAM family but for training (R391, R399–R416).
-/

namespace Sys2Proof.Machine

/-- RANK_RETIRE (R413): by the host, whose write sets RANK, or by a first uncorrectable read. -/
def State.doRankRetire (s : State) (rank : Nat) (ue : Bool) : State :=
  (if 8 ≤ rank then s else (if ue then s else s.setF DRC_CTL_RANK rank).retireRank rank)

/-- RANK_RETIRE (R413). -/
def execRankRetire (rank : Nat) (ue : Bool) (s : State) : Host.Outcome State Fault Refusal := .next (s.doRankRetire rank ue)

/-- MIGRATION_DONE (R414, R415): the copy has passed the last line; the lines that were uncorrectable carry POISON on the spare. -/
def execMigrationDone (poisoned : List Nat) (s : State) : Host.Outcome State Fault Refusal :=
  .next (if s.flag DRC_STATUS_MIGRATING ∧ s.dramc.selfRefresh = false then
      let r := s.getF DRC_STATUS_MIG_RANK
      let lines := poisoned.filter (fun l => decide (64 * l < s.getF DRC_MAPPED_MIB * 1048576) && s.rankOf (64 * l) == r)
      let t := { s with dramc := { s.dramc with poison := (s.dramc.poison ++ lines).eraseDups } }
      let t := (t.setF DRC_STATUS_MIG_PERMILLE 1000).toSpare r
      let t := if t.age.retrainLater then { t with age := { t.age with retrainLater := false }, dramc := { t.dramc with retrain := true } } else t
      ((t.dramCairn 2 r).raiseDRC DRC_INT_STATUS_MIG_DONE).migEnd
    else s)

/-- DRAM_RETRAIN (R406): the retraining of every rank begins. -/
def State.doDramRetrain (s : State) : State :=
  (if s.mode.dramOpen = true ∧ s.dramc.selfRefresh = false then { s with dramc := { s.dramc with retrain := true } } else s)

/-- DRAM_RETRAIN (R406). -/
def execDramRetrain (s : State) : Host.Outcome State Fault Refusal := .next (s.doDramRetrain)

/-- DRAM_RETRAIN_DONE (R406): the narrowest eyes of each channel, read and write, in ps. -/
def execDramRetrainDone (eyes : List (Nat × Nat)) (s : State) : Host.Outcome State Fault Refusal :=
  .next (if s.dramc.retrain then
      let put := fun (u : State) (c : Nat) =>
        match eyes[c]? with
        | some e => (u.setF (DRC_CH_EYE_RD_PS c) (min 65535 e.1)).setF (DRC_CH_EYE_WR_PS c) (min 65535 e.2)
        | none => u
      let t := [0, 1, 2, 3].foldl put { s with dramc := { s.dramc with retrain := false } }
      t.raiseDRC DRC_INT_STATUS_RETRAINED
    else s)

/-- DESC_OTP_BURN (R391): in Test only, once; a later burn is ignored and recorded. -/
def State.doDescOtpBurn (s : State) : State :=
  (if s.modeCode ≠ mTest then s
    else if s.otp.descBurned then s.cairn 0x46 4 ([0, 0] ++ leBytes 2 (s.getF IMG_RUN_EPOCH))
    else { s with otp := { s.otp with desc := descRegs.map (fun o => (o, s.rd o)), descBurned := true } })

/-- DESC_OTP_BURN (R391). -/
def execDescOtpBurn (s : State) : Host.Outcome State Fault Refusal := .next (s.doDescOtpBurn)

/-! ### Refresh -/

/-- REFRESH_DUE (R402, R403): under the running rules it is postponed while a class-2 read waits for the rank and fewer than 8 are. -/
def execRefreshDue (ch rank : Nat) (busy : Bool) (s : State) : Host.Outcome State Fault Refusal :=
  .next (
    let r := 2 * ch + rank
    if 4 ≤ ch ∨ 2 ≤ rank ∨ s.fitted r = false ∨ s.mode.dramOpen = false ∨ s.dramc.selfRefresh = true then s
    else if s.strictOn ch || !busy then s.refreshes r 1
    else if s.postponedOf r < 8 then s.setPostponed r (s.postponedOf r + 1)
    else (s.refreshes r 1).count (DRC_CH_POSTPONE_URGENT ch) 1)

/-- REFRESH_READOUT (R402): the factor of a rank (0h: 4, 1h: 2, 2h: 1, 3h: 0.5, 4h: 0.25, 7h: beyond range) and whether the rank reports
above its 85 °C threshold. -/
def execRefreshReadout (ch rank code : Nat) (hot : Bool) (s : State) : Host.Outcome State Fault Refusal :=
  .next (
    let r := 2 * ch + rank
    if 4 ≤ ch ∨ 2 ≤ rank ∨ s.fitted r = false ∨ s.mode.dramOpen = false ∨ s.dramc.selfRefresh = true ∨ (4 < code ∧ code ≠ 7) then s
    else
      let was := s.hotRank r
      let t := s.setF (rateF r) code
      let t := if hot then t.orF (DRC_CH_STATE_HOT ch) (2 ^ rank) else t.clrBit (DRC_CH_STATE_HOT ch) rank
      let t := t.setF (trefiF r) (t.trefi r)
      let t := if hot && !was then t.raiseDRC DRC_INT_STATUS_HOT else t
      if code = 7 then t.event (343 + 7 * ch) (.dramCh ch) else t)

/-- REFRESH_CATCHUP (R403): a rank without a request for 100 ns. -/
def execRefreshCatchup (ch rank : Nat) (s : State) : Host.Outcome State Fault Refusal :=
  .next (if ch < 4 ∧ rank < 2 ∧ s.postponedOf (2 * ch + rank) ≠ 0 then s.catchUp (2 * ch + rank) else s)

/-- WCK_OSC_READ (R406): the oscillator of each rank of the channel is read, command 3, and the lane delays follow it. -/
def execWckOscRead (ch : Nat) (s : State) : Host.Outcome State Fault Refusal :=
  .next (if 4 ≤ ch ∨ s.mode.dramOpen = false ∨ s.dramc.selfRefresh = true then s
    else
      let t := if s.fitted (2 * ch) then s.emit (.dram ch 0 3) else s
      if s.fitted (2 * ch + 1) || s.flag (DRC_CH_STATE_SPARE_HERE ch) then t.emit (.dram ch 1 3) else t)

/-! ### Accesses -/

/-- The codes of DRC_CHc_LAST_UE.CAUSE, and the source of the DRAM fault group that each raises (R401, R410, R418, R453). -/
def ueSource (ch cause : Nat) : Nat :=
  339 + 7 * ch + (if cause = 2 then 1 else if cause = 3 then 2 else if cause = 5 then 3 else 0)

/-- The user of a request loses what it waited for (R411). -/
def State.loseLook (s : State) : Look → State
  | .frame fid => s.dropFrame fid tRX_CONGESTION
  | .copy fid p => match s.copy fid p with | some c => s.dropCopy c tTX_CONGESTION | none => s
  | .thread e sl _ => match s.threads.find? (fun x => x.eng == e && x.slot == sl) with | some th => s.loseTarget th.target | none => s

/-- The quadrant that a lookup belongs to. -/
def State.lookQuad (s : State) : Look → Nat
  | .frame fid => match s.frame fid with | some f => s.quadOf f.port | none => 0
  | .copy _ p => s.quadOf p
  | .thread e _ _ => if e < 16 then e / 4 else 0

/-- What an uncorrectable read does to its user (R411). -/
def State.ueUser (s : State) : DramUser → State
  | .treeFill l => (s.count (CLS_Q_WALK_ABORT_COUNT (s.lookQuad l)) 1).loseLook l
  | .flow l => s.loseLook l
  | .imageLine c both => if both then s.event (123 + c % 5) .noUnit else s
  | .dqx | .journal | .snapshot | .host => s

/-- An uncorrectable read (R401, R410, R413): counted, recorded, raised and handed to its user; it triggers a migration except under
POISON and after a timeout. -/
def State.dramUe (s : State) (r : DramDone) (cause : Nat) : State :=
  let c := r.rank / 2
  let t := s.count (DRC_CH_UE_COUNT c) 1
  let t := ((t.setF (DRC_CH_LAST_UE_LINE c) r.line).setF (DRC_CH_LAST_UE_RANK c) (r.rank % 2)).setB (DRC_CH_LAST_UE_BAND c) r.band
  let t := ((t.setF (DRC_CH_LAST_UE_CAUSE c) cause).setF (DRC_CH_LAST_UE_VALID c) 1).raiseDRC DRC_INT_STATUS_UE
  let t := (t.event (ueSource c cause) (.dramCh c)).ueUser r.user
  if cause = 4 ∨ cause = 5 then t
  else if r.spare then t.spareFails (r.rank / 4)
  else t.retireRank r.rank

/-- The line carries POISON (R409, R415). (DEDUCED, assumption log 57) -/
def State.poisoned (s : State) (r : DramDone) : Bool := !r.band && s.dramc.poison.contains (r.addr / 64)

/-- A read that ends, by the first row of R410 that applies. -/
def State.dramRead (s : State) (r : DramDone) : State :=
  let c := r.rank / 2
  let settle := fun (t : State) (f : DramFinding) =>
    match f with
    | .double => t.dramUe r 1
    | .poison => t.dramUe r 4
    | .single => if t.poisoned r then t.dramUe r 4 else (t.count (DRC_CH_CE_COUNT c) 1).event (345 + 7 * c) (.dramCh c)
    | _ => if t.poisoned r then t.dramUe r 4 else t
  match r.first with
  | .parity =>
    if r.again = .parity then (s.count (DRC_CH_CAPAR_COUNT c) 2).dramUe r 3
    else if r.again = .stamp then (s.count (DRC_CH_CAPAR_COUNT c) 1).dramUe r 2
    else settle (s.count (DRC_CH_CAPAR_COUNT c) 1) r.again
  | .stamp => if r.again = .stamp then s.dramUe r 2 else if r.again = .parity then (s.count (DRC_CH_CAPAR_COUNT c) 1).dramUe r 3 else settle s r.again
  | f => settle s f

/-- A request of class 2 (R399). -/
def classTwo : DramUser → Bool
  | .treeFill _ | .flow _ => true
  | _ => false

/-- A request names a rank in use. -/
def State.reqOk (s : State) (r : DramDone) : Bool := decide (r.rank < 8) && s.fitted r.rank && s.mode.dramOpen && !s.dramc.selfRefresh

/-- DRAM_REQUEST_COMPLETE (R399–R411). -/
def execDramRequestComplete (r : DramDone) (s : State) : Host.Outcome State Fault Refusal :=
  .next (if !s.reqOk r then s
    else if r.write then s
    else (if classTwo r.user then s.maxF (DRC_CH_LAT_PEAK_NS (r.rank / 2)) r.ns else s).dramRead r)

/-- DRAM_REQUEST_TIMEOUT (R401): handled as an uncorrectable read of cause residency, without a retirement. (DEDUCED, assumption log 57) -/
def execDramRequestTimeout (r : DramDone) (s : State) : Host.Outcome State Fault Refusal :=
  .next (if s.reqOk r then s.dramUe r 5 else s)

/-- PATROL_SCRUB (R410, R412): a line of a rank in service, or of a spare, read in class 6 without a user. -/
def execPatrolScrub (r : DramDone) (s : State) : Host.Outcome State Fault Refusal :=
  .next (if s.reqOk r then s.dramRead { r with write := false, user := .host } else s)

end Sys2Proof.Machine
end

