-- ==== Sys2Proof/Machine/Faults.lean ====
section
/-!
DEFINITION. Machine/Faults.lean: the meanings of the fault family: events, acknowledgements, belays, reactions, shadows,
probes and checks (R455–R475).
-/

namespace Sys2Proof.Machine

/-- The clock monitors and the oscillator check report nothing before they are armed (R65, R540). -/
def State.unarmed (s : State) (src : Nat) : Bool := (decide (5 ≤ src ∧ src ≤ 9) && !s.mode.clkMon) || (src == 10 && !s.mode.xtal)

/-- The sources whose detector drops or tail-marks the frame, the copy or the lookup that it found at fault (R254, R458, R468, R477):
check codes at the stations and in the core, uncorrectable words of tiles, exact-flow buckets, uncorrectable buffer lines. -/
def losesVictim (src : Nat) : Bool :=
  (33 ≤ src && src ≤ 100 && (src - 33) % 17 != 16) || (128 ≤ src && src ≤ 151 && (src - 128) % 6 == 1) ||
  (168 ≤ src && src ≤ 179 && (src - 168) % 3 == 2) || (247 ≤ src && src ≤ 262) || src == 270 || src == 271 || src == 274

/-- The frame, copy or thread that a detector names loses its frame or copy (R458). -/
def State.loseVictim (s : State) : Option Look → State
  | none => s
  | some (.frame fid) => s.loseTarget (.frame fid)
  | some (.copy fid p) => s.loseTarget (.copy fid p)
  | some (.thread e sl _) => match s.threads.find? (fun th => th.eng == e && th.slot == sl) with | some th => s.loseTarget th.target | none => s

/-- An engine finds a word of its ROM uncorrectable as a thread fetches it (R143): the thread aborts with cause 4h. -/
def State.romVictim (s : State) (src : Nat) (victim : Option Look) : Option Thread :=
  match victim with
  | some (.thread e sl _) => if src = 101 + e then s.thread e sl else none
  | _ => none

/-- FAULT_EVENT (R143, R455, R458): not in Bivouac, not while PORST_N holds the collector, and not from a power-gated unit (R24). -/
def execFaultEvent (src : Nat) (found : FaultAt) (s : State) : Host.Outcome State Fault Refusal :=
  .next (if s.modeCode = mBivouac ∨ s.mode.porst = true ∨ 412 ≤ src ∨ s.unarmed src = true ∨ s.gatedSource src found.unit = true then s
    else
      match s.romVictim src found.victim with
      | some th => s.abort th (s.fetchAddr th).1 4
      | none => (s.on (losesVictim src) (fun t => t.loseVictim found.victim)).event src found.unit)

/-- Close a belay as handled by the host (R459): a cairn of kind 42h, no reaction. -/
def State.ackHandled (s : State) (g : Nat) : State :=
  ((s.cairn 0x42 (s.getF (FLT_GRP_STATUS_LAST_SOURCE g)) [BitVec.ofNat 8 g]).groupIdle g).setF (FLT_GRP_STATUS_ACKED g) 1

/-- FAULT_ACK_HANDLED (R459): outside a belay the write is ignored and counted as an event of FG31. -/
def State.doFaultAckHandled (s : State) (g : Nat) : State :=
  (if s.getF (FLT_GRP_STATUS_STATE g) = 1 then s.ackHandled g else s.minor srcHostOther)

/-- FAULT_ACK_HANDLED (R459). -/
def execFaultAckHandled (g : Nat) (s : State) : Host.Outcome State Fault Refusal := .next (s.doFaultAckHandled g)

/-- Start the reaction of a group in belay, on the unit that its severe event named (R459, R461, R462). -/
def State.reactGroup (s : State) (g : Nat) : State :=
  let src := s.getF (FLT_GRP_STATUS_LAST_SOURCE g)
  let u := (s.flt.sevUnit.lookup g).getD (eventUnit src .hostIf)
  s.react g src u (s.effClass (s.getF (FLT_GRP_CFG_CLASS g)) u) false

/-- FAULT_ACK_REACT (R459). -/
def State.doFaultAckReact (s : State) (g : Nat) : State :=
  (if s.getF (FLT_GRP_STATUS_STATE g) = 1 then s.reactGroup g else s.minor srcHostOther)

/-- FAULT_ACK_REACT (R459). -/
def execFaultAckReact (g : Nat) (s : State) : Host.Outcome State Fault Refusal := .next (s.doFaultAckReact g)

/-- BELAY_EXPIRY (R459, R461): the belay ran out without an ACK. -/
def execBelayExpiry (g : Nat) (s : State) : Host.Outcome State Fault Refusal :=
  .next (match s.flt.belay.lookup g with
    | some d => if s.getF (FLT_GRP_STATUS_STATE g) = 1 ∧ d ≤ s.now then s.reactGroup g else s
    | none => s)

/-- The reaction of a group, if one runs or casts its shadow. -/
def State.reactionOf (s : State) (g : Nat) : Option Reaction := s.flt.reactions.find? (fun r => r.group == g)

/-- What a completed reaction restores: a restarted quadrant's tables (R214, R218, R245), and its ports are declared up, unless isolated or
without lock (R278). -/
def State.restored (s : State) (r : Reaction) : State :=
  match r.cls, r.unit with
  | 3, .quadrant q => (s.reloadQuad q).portsUp ((s.portsOf q).filter (fun p => !s.portIso p &&
      ((s.port p).map (fun x => x.faultAt.isNone)).getD false && (s.lanesOf p).all (fun l => s.flag (LAN_STATUS_LOCKED l.lane))))
  | _, _ => s

/-- The first restart held as pending for a quadrant runs when the one before it completes (R465). -/
def State.nextRestart (s : State) (q : Nat) : State :=
  match s.flt.pendRestart.find? (fun e => e.1 == q) with
  | none => s
  | some (_, src) =>
    let t := { s with flt := { s.flt with pendRestart := s.flt.pendRestart.filter (fun e => e != (q, src)) } }
    let g := groupOf src
    (t.setF (FLT_GRP_STATUS_PENDING_RESTART g) 0).react g src (.quadrant q) 3 false

/-- REACTION_COMPLETE (R461, R465, R466, R473): the END message goes out, the settle time begins, a pending restart and a
park that waited for the reaction run. -/
def execReactionComplete (g : Nat) (s : State) : Host.Outcome State Fault Refusal :=
  .next (match s.reactionOf g with
    | some r =>
      if r.done.isSome then s
      else
        let t := { s with flt := { s.flt with reactions := updFirst (fun x => x.group == g) (fun x => { x with done := some s.now }) s.flt.reactions } }
        let t := (t.setF (FLT_GRP_STATUS_STATE g) 3).restored r
        let t := match r.unit with | .dramCh _ => t.refreshRules | _ => t
        let t := if r.cls = 2 ∨ r.cls = 3 then t.ropeSend (t.safetyMsg g r.cls true false r.source r.unit r.evNs) else t
        let t := match r.unit with | .quadrant q => if r.cls = 3 then t.nextRestart q else t | _ => t
        if t.mode.parkWaits && !t.flt.reactions.any (fun x => x.done.isNone) then t.parkStart else t
    | none => s)

/-- The bound of a class's reaction in µs (R461). -/
def reactionBound (cls : Nat) : Nat := if cls = 1 then 25 else if cls = 2 then 200 else 80

/-- REACTION_TIMEOUT (R464): a reaction not complete within its bound is escalated to the next one at once. -/
def execReactionTimeout (g : Nat) (s : State) : Host.Outcome State Fault Refusal :=
  .next (match s.reactionOf g with
    | some r =>
      if r.done.isNone ∧ r.start + tUs (reactionBound r.cls) ≤ s.now ∧ escalates r.source = true then
        match s.nextClass r.cls r.unit with
        | some c =>
          let t := { s with flt := { s.flt with reactions := s.flt.reactions.filter (fun x => x.group != g) } }
          t.react g r.source r.unit c true
        | none => s
      else s
    | none => s)

/-- SHADOW_END (R466): 20 µs after the reaction completed its shadow ends and the group is idle. -/
def execShadowEnd (g : Nat) (s : State) : Host.Outcome State Fault Refusal :=
  .next (match s.reactionOf g with
    | some r =>
      match r.done with
      | some d =>
        if d + tUs 20 ≤ s.now then
          let rest := s.flt.reactions.filter (fun x => x.group != g)
          let t := { s with flt := { s.flt with reactions := rest, shadowEnd := sput s.flt.shadowEnd r.source (s.now, r.cls) } }
          (t.groupIdle g).setB FLT_STATUS_SHADOW (!rest.isEmpty)
        else s
      | none => s
    | none => s)

/-- The unit of an injected event whose source leaves it to the detector: one of the units that the source has, which one is open
(DESIGN CHOICE, assumption log 80). -/
def State.injectUnit (s : State) (src : Nat) : State × FUnit :=
  let pick := fun (l : List Nat) (mk : Nat → FUnit) =>
    if l.isEmpty then (s, FUnit.noUnit) else (s.free.2, mk (l.getD (s.free.1 % l.length) 0))
  if src = 263 then pick (List.range 16) FUnit.bankGroup
  else if 313 ≤ src ∧ src ≤ 320 then pick (s.portsOf ((src - 313) / 2)) FUnit.port
  else if src = 321 ∨ src = 322 then pick ((s.ports.filter (·.macsec)).map (·.port)) FUnit.port
  else if 400 ≤ src ∧ src ≤ 407 then pick (s.portsOf ((src - 400) / 2)) FUnit.port
  else if 335 ≤ src ∧ src ≤ 338 then pick (List.range 32) FUnit.dma
  else (s, .hostIf)

/-- FAULT_INJECT (R475): one event of the source, as if it had been detected. -/
def State.doFaultInject (s : State) (src : Nat) : State :=
  if !s.flag FLT_CTL_INJ_EN then s.minor srcHostOther
  else if src < 412 then (let u := s.injectUnit src; u.1.event src u.2)
  else s

/-- FAULT_INJECT (R475). -/
def execFaultInject (src : Nat) (s : State) : Host.Outcome State Fault Refusal := .next (s.doFaultInject src)

/-- A probe passes through a quadrant that is powered, not isolated and not restarting, and returns (R468). -/
def State.probeReturns (s : State) (q : Nat) : Bool :=
  s.quadPowered q && !(s.getF FLT_ISO_QUAD).testBit q &&
  !s.flt.reactions.any (fun r => r.cls == 3 && r.done.isNone && s.unitQuad r.unit == some q)

/-- PROBE_SEND (R468): no tally counts a probe. -/
def execProbeSend (s : State) : Host.Outcome State Fault Refusal :=
  .next { s with flt := { s.flt with probeAt :=
    ((List.range 4).filter s.probeReturns).foldl (fun m q => sput m q s.now) s.flt.probeAt } }

/-- QUADRANT_HEARTBEAT_TIMEOUT (R468): no probe has returned from a powered quadrant for 100 µs. -/
def execQuadrantHeartbeatTimeout (q : Nat) (s : State) : Host.Outcome State Fault Refusal :=
  .next (if q < 4 ∧ s.quadPowered q = true ∧ (s.getF FLT_ISO_QUAD).testBit q = false ∧
      (s.flt.probeAt.lookup q).getD 0 + tUs 100 ≤ s.now then s.event (277 + q) (.quadrant q) else s)

/-- Raise one source for each quadrant of a list. -/
def State.quadEvents (s : State) (base : Nat) : List Nat → State
  | [] => s
  | q :: t => State.quadEvents (s.event (base + q) (.quadrant q)) base t

/-- RWL_CRC_CHECK (R468): `bad` names the quadrants whose RWL registers differ from the CRC stored at the seal. -/
def execRwlCrcCheck (bad : Nat) (s : State) : Host.Outcome State Fault Refusal :=
  .next (if s.isSealed then s.quadEvents 396 ((List.range 4).filter (fun q => bad.testBit q && s.quadPowered q)) else s)

/-- HOLD_SAFETY_REPEAT (R473): the message that the entry to Hold sent is repeated.  That of a Hold on host request names a group and
a source that no rule gives (DESIGN CHOICE, assumption log 5). -/
def execHoldSafetyRepeat (s : State) : Host.Outcome State Fault Refusal :=
  .next (if s.modeCode = mHold then s.ropeSend s.flt.holdMsg else s)

end Sys2Proof.Machine
end

