-- ==== Sys2Proof/Machine/GateCtl.lean ====
section
/-!
DEFINITION. Machine/GateCtl.lean: the meanings of changes of a gate list (R311, R316–R319, R322).
-/

namespace Sys2Proof.Machine

/-- A gate that exists: 68 ports and 256 stream gates (R330, R331). -/
def gateExists : GateId → Bool
  | .port p => p < 68
  | .stream g => g < 256

/-- The operation of the entry in force acts on the preemptable MAC of a port (R316); while GATE_EN = 0 no list is applied, and a hold of
one is released (R312). (DEDUCED, assumption log 102) -/
def State.gateOp (s : State) (g : GateId) (word : Nat) : State :=
  match g with
  | .port p =>
    if !s.preemptOn p then s
    else if !s.flag (GATE_GCTL_GATE_EN (gateBlock g)) then
      (if (s.schSt p).hold then (s.putSch { s.schSt p with hold := false }).fragResume p else s)
    else if word / 256 % 8 = 1 then ((s.preemptOther p).getD s).putSch { s.schSt p with hold := true }
    else if word / 256 % 8 = 2 then (s.putSch { s.schSt p with hold := false }).fragResume p
    else s
  | .stream _ => s

/-- GSTATUS shows the entry in force and the states in effect (R331). -/
def State.gateShow (s : State) (g : GateId) : State :=
  let b := gateBlock g
  let m := match g with | .port _ => 256 | .stream _ => 32
  let t := (s.setF (GATE_GSTATUS_ENTRY b) (s.gateIndex g s.workNs)).setF (GATE_GSTATUS_STATES b) (s.gateStates g s.workNs % m)
  t.setB (GATE_GSTATUS_ACTIVE b) (s.flag (GATE_GCTL_GATE_EN b))

/-- The entry in force comes into effect: its states, its operation, and the credit of the port's shapers from there on (R309, R316). -/
def State.gateApply (s : State) (g : GateId) : State :=
  let t := (s.gateShow g).gateOp g (if (s.operGate g).1.isEmpty then 0 else s.gateWord g s.workNs)
  match g with | .port p => t.cbsAll p | .stream _ => t

/-- The cause for which an admin list is refused (R317), 0 for none. -/
def State.gateCause (s : State) (g : GateId) : Nat :=
  let b := gateBlock g
  let n := s.getF (GATE_GCTL_ADMIN_LEN b)
  let l := s.gateEntries (adminList g) n
  let c := s.getF (GATE_ADMIN_CYCLE_NS_NS b)
  if n = 0 ∨ maxList g < n then 1
  else if l.any (fun e => e.2 == 0) = true ∨ c = 0 ∨ 1000000000 < c ∨ 999999999 < s.getF (GATE_ADMIN_BASE_NS_NS b) then 2
  else if (match g with | .port _ => l.any (fun e => decide (2 < e.1 / 256 % 8)) | .stream _ => false) then 3
  else 0

/-- The admin base time in ns. -/
def State.adminBase (s : State) (g : GateId) : Nat :=
  let b := gateBlock g
  (s.getF (GATE_ADMIN_BASE_SEC_LO_SEC b) + s.getF (GATE_ADMIN_BASE_SEC_HI_SEC b) * 2 ^ 32) * 1000000000 + s.getF (GATE_ADMIN_BASE_NS_NS b)

/-- The switch time S = B + n × C, the first at least 2 µs ahead (R318). -/
def switchTime (b c : Nat) (now : Int) : Nat :=
  if now + 2000 ≤ (b : Int) then b else b + ((now + 2000 - b).toNat + c - 1) / c * c

/-- GATE_CHANGE (R317–R319): ignored and counted while a change is pending. -/
def State.doGateChange (s : State) (g : GateId) : State :=
  (
    let b := gateBlock g
    if !gateExists g then s
    else if s.flag (GATE_GSTATUS_PENDING b) then s.minor srcHostOther
    else
      let s := s.useLo (rGATE_ADMIN_BASE_SEC_LO b)
      let cause := s.gateCause g
      if cause ≠ 0 then ((s.setF (GATE_GSTATUS_REFUSED b) 1).setF (GATE_GSTATUS_CAUSE b) cause).raiseSCH SCH_INT_STATUS_GATE_REFUSED
      else
        let at_ := switchTime (s.adminBase g) (s.getF (GATE_ADMIN_CYCLE_NS_NS b)) s.workNs
        let t := ((s.setF (GATE_GSTATUS_PENDING b) 1).setF (GATE_CHANGE_NS_NS b) (at_ % 1000000000)).setF (GATE_CHANGE_SEC_SEC b) (at_ / 1000000000)
        t.putGate { s.gateSt g with switchAt := some at_ })

/-- GATE_CHANGE (R317–R319). -/
def execGateChange (g : GateId) (s : State) : Host.Outcome State Fault Refusal := .next (s.doGateChange g)

/-- GATE_CANCEL (R319): ignored when no change is pending. -/
def State.doGateCancel (s : State) (g : GateId) : State :=
  (if gateExists g = true ∧ s.flag (GATE_GSTATUS_PENDING (gateBlock g)) = true then
    (s.setF (GATE_GSTATUS_PENDING (gateBlock g)) 0).putGate { s.gateSt g with switchAt := none } else s)

/-- GATE_CANCEL (R319). -/
def execGateCancel (g : GateId) (s : State) : Host.Outcome State Fault Refusal := .next (s.doGateCancel g)

/-- The admin list and registers become the operational copy (R318). -/
def State.gateTake (s : State) (g : GateId) : State :=
  let b := gateBlock g
  let n := s.getF (GATE_GCTL_ADMIN_LEN b)
  let base := s.adminBase g
  let t := s.wrMem (operList g) (s.rdMem (adminList g) (8 * n))
  let t := (t.setF (GATE_OPER_CYCLE_NS_NS b) (s.getF (GATE_ADMIN_CYCLE_NS_NS b))).setF (GATE_OPER_LEN_LEN b) n
  let t := (t.setF (GATE_OPER_BASE_NS_NS b) (base % 1000000000)).setF (GATE_OPER_BASE_SEC_SEC b) (base / 1000000000)
  (t.setF (GATE_GSTATUS_PENDING b) 0).putGate { gate := g, base := base, switchAt := none }

/-- GATE_SWITCH (R318): working time is at or after S. -/
def execGateSwitch (g : GateId) (s : State) : Host.Outcome State Fault Refusal :=
  .next (match (s.gateSt g).switchAt with
    | some at_ =>
      if gateExists g = true ∧ s.flag (GATE_GSTATUS_PENDING (gateBlock g)) = true ∧ (at_ : Int) ≤ s.workNs then
        ((s.gateTake g).gateApply g).raiseSCH SCH_INT_STATUS_GATE_SWITCHED
      else s
    | none => s)

/-- GATE_ENTRY_ADVANCE (R311, R316, R331): the entry in force at the present working time comes into effect. -/
def execGateEntryAdvance (g : GateId) (s : State) : Host.Outcome State Fault Refusal :=
  .next (if gateExists g then s.gateApply g else s)

end Sys2Proof.Machine
end

