-- ==== Sys2Proof/Machine/HostDma.lean ====
section
/-!
DEFINITION. Machine/HostDma.lean: the meanings of the host family: the mailbox (R426–R430, R518), DMA channels (R431–R440), the
packet rings of P64 (R441–R446, R450), the PCIe link and MSI-X (R420, R424).
-/

namespace Sys2Proof.Machine

/-! ### The mailbox -/

/-- The first `n` words of a BAR4 buffer from offset `o`, as bytes. -/
def State.bar4Bytes (s : State) (o n : Nat) : List Byte :=
  (List.range n).flatMap (fun i => leBytes 4 (s.rd4 (o + 4 * i)).toNat)

/-- Write bytes into a BAR4 buffer word by word; the last word is filled with its old bytes. -/
def State.putBar4 : Nat → State → Nat → List Byte → State
  | 0, s, _, _ => s
  | n + 1, s, o, b =>
    if b.isEmpty then s
    else
      let old := leBytes 4 (s.rd4 o).toNat
      State.putBar4 n (s.wr4 o (BitVec.ofNat 32 (leNat ((b.take 4) ++ old.drop (b.take 4).length)))) (o + 4) (b.drop 4)

/-- A request as the device reads it: header and payload (R427). -/
structure MbReq where
  ver : Nat
  op : Nat
  tag : Nat
  len : Nat
  crc : Nat
  payload : List Byte
  deriving DecidableEq, Repr

/-- The request in HDM_MB_REQ. -/
def State.mbReq (s : State) : MbReq :=
  let b := s.bar4Bytes 0x1000 256
  let len := leNat ((b.drop 4).take 2)
  { ver := (b.getD 0 0).toNat, op := (b.getD 1 0).toNat, tag := leNat ((b.drop 2).take 2), len := len, crc := leNat ((b.drop 8).take 4),
    payload := (b.drop 16).take len }

/-- The version in force (R428). -/
def State.mbVer (s : State) : Nat := (s.rd4 rHDM_MB_STATUS).toNat / 16 % 16
def State.setMbVer (s : State) (v : Nat) : State :=
  s.wr4 rHDM_MB_STATUS (HDM_MB_STATUS_VER.put (s.rd4 rHDM_MB_STATUS) v)

/-- The response to a request: its bytes, with the CRC of version 2 (R427). -/
def mbResponse (q : MbReq) (status : Nat) (pay : List Byte) : List Byte :=
  [BitVec.ofNat 8 q.ver, BitVec.ofNat 8 q.op] ++ leBytes 2 q.tag ++ leBytes 2 pay.length ++ [BitVec.ofNat 8 status, 0] ++
  leBytes 4 (if q.ver = 2 then crc32c pay else 0) ++ [0, 0, 0, 0] ++ pay

/-- The response is written, DONE is set and MB_DONE is raised (R426). -/
def State.mbAnswer (s : State) (q : MbReq) (status : Nat) (pay : List Byte) : State :=
  let t := State.putBar4 256 s 0x1400 (mbResponse q status pay)
  (t.wr4 rHDM_MB_STATUS (HDM_MB_STATUS_DONE.put (HDM_MB_STATUS_BUSY.put (t.rd4 rHDM_MB_STATUS) 0) 1)).raiseHDM HDM_INT_STATUS_MB_DONE

/-- `n` bytes that the spec leaves open: a fresh nonce. -/
def State.freeBytes : Nat → State → List Byte × State
  | 0, s => ([], s)
  | n + 1, s => let v := s.free; let r := State.freeBytes n v.2; (BitVec.ofNat 8 v.1 :: r.1, r.2)

/-- HELLO (R428). -/
def State.mbHello (s : State) (q : MbReq) : State :=
  let hmin := (q.payload.getD 0 0).toNat
  let hmax := (q.payload.getD 1 0).toNat
  let v := if max hmin 1 ≤ min hmax 2 then min hmax 2 else 0
  if q.len < 2 then s.mbAnswer q 3 [] else (s.setMbVer v).mbAnswer q (if v = 0 then 8 else 0) [1, 2, BitVec.ofNat 8 v]

/-- The nonce of the clear command (R518). -/
def State.cairnNonce (s : State) (n : Option Nat) : State := { s with crn := { s.crn with nonce := n } }

/-- A code of the clear command fails (R518). -/
def State.cairnCodeFails (s : State) : State := { s with crn := { s.crn with failCodes := s.crn.failCodes + 1 } }

/-- The authorisation code of the clear command (R518): the nonce is used either way. -/
def State.mbClearCode (s : State) (q : MbReq) : State :=
  let t := s.cairnNonce none
  match s.otp.cairnKey, s.crn.nonce with
  | some key, some n =>
    if 8 ≤ s.crn.failCodes || s.flag CRN_STATUS_EXPORTING || s.flag CRN_STATUS_CLEARING then t.mbAnswer q 7 []
    else
      let m := leBytes 8 n ++ leBytes 4 (s.rd rGLB_ID_LO).toNat ++ leBytes 4 (s.rd rGLB_ID_HI).toNat ++ leBytes 4 (s.rd rAON_PCYCLE).toNat
      if q.payload = (Config.hmacSha384 key m).take 8 then (t.setF CRN_STATUS_CLEARING 1).mbAnswer q 0 []
      else t.cairnCodeFails.mbAnswer q 7 []
  | _, _ => t.mbAnswer q 7 []

/-- CAIRN_CLEAR (R518). -/
def State.mbCairnClear (s : State) (q : MbReq) : State :=
  if s.modeCode ≠ mService then s.mbAnswer q 2 []
  else if q.len = 0 then
    let r := State.freeBytes 8 s
    (r.2.cairnNonce (some (leNat r.1))).mbAnswer q 0 r.1
  else if q.len ≠ 8 then s.mbAnswer q 3 []
  else s.mbClearCode q

/-- JTAG_CHALLENGE (R429). -/
def State.mbChallenge (s : State) (q : MbReq) : State :=
  let r := State.freeBytes 48 s
  ({ r.2 with load := { r.2.load with jtagNonce := some r.1 } }).mbAnswer q 0 r.1

/-- JTAG_UNLOCK (R429): the nonce is consumed either way. -/
def State.mbUnlock (s : State) (q : MbReq) : State :=
  if q.len ≠ 194 then s.mbAnswer q 3 []
  else
    let slot := (q.payload.getD 0 0).toNat
    let key := (q.payload.drop 1).take 97
    let hash := s.otp.keyHash.getD slot []
    let id := leBytes 4 (s.rd rGLB_ID_LO).toNat ++ leBytes 4 (s.rd rGLB_ID_HI).toNat
    let ok := match s.load.jtagNonce with
      | some n => !hash.isEmpty && !s.otp.revoked.testBit slot && Config.sha384 key == hash &&
          Config.ecdsaOk key (Config.sha384 (n ++ id)) ((q.payload.drop 98).take 96)
      | none => false
    ({ s with load := { s.load with jtagNonce := none, jtagOpen := s.load.jtagOpen || ok } }).mbAnswer q (if ok then 0 else 7) []

/-- OTP_KEY (R429). -/
def State.mbOtpKey (s : State) (q : MbReq) : State :=
  if q.len ≠ 49 then s.mbAnswer q 3 []
  else
    let slot := (q.payload.getD 0 0).toNat
    if 4 ≤ slot ∨ (s.otp.keyHash.getD slot []).isEmpty = false then s.mbAnswer q 7 []
    else
      let all := (List.range 4).map (fun i => if i = slot then (q.payload.drop 1).take 48 else s.otp.keyHash.getD i [])
      (({ s with otp := { s.otp with keyHash := all } }).orF IMG_OTP_KEYS_VALID (2 ^ slot)).mbAnswer q 0 []

/-- OTP_REVOKE (R429): not the slot of the running image. -/
def State.mbOtpRevoke (s : State) (q : MbReq) : State :=
  if q.len ≠ 1 then s.mbAnswer q 3 []
  else
    let slot := (q.payload.getD 0 0).toNat
    if 4 ≤ slot ∨ s.img.any (fun i => i.keySlot == slot) = true then s.mbAnswer q 7 []
    else (({ s with otp := { s.otp with revoked := s.otp.revoked ||| 2 ^ slot } }).orF IMG_OTP_KEYS_REVOKED (2 ^ slot)).mbAnswer q 0 []

/-- The modes in which an opcode is allowed (R429). -/
def State.mbModeOk (s : State) (op : Nat) : Bool :=
  let m := s.modeCode
  if op = 0x10 then m == mService
  else if op = 0x20 ∨ op = 0x21 then s.isSealed
  else if op = 0x30 then m == mTest
  else if op = 0x31 then m == mTest || m == mService
  else m != mBivouac

/-- Execute a request (R426–R430).  The order of the checks is version, opcode, mode, LEN, CRC (DEDUCED, assumption log 18). -/
def State.mbExecute (s : State) (q : MbReq) : State :=
  let ver := s.mbVer
  if (q.op = 0 ∧ q.ver ≠ 1) ∨ (q.op ≠ 0 ∧ (ver = 0 ∨ q.ver ≠ ver)) then s.mbAnswer q 6 []
  else if !([0x00, 0x01, 0x10, 0x20, 0x21, 0x30, 0x31] : List Nat).contains q.op then s.mbAnswer q 1 []
  else if !s.mbModeOk q.op then s.mbAnswer q 2 []
  else if (if q.ver = 2 then 1008 else 240) < q.len then s.mbAnswer q 3 []
  else if q.ver = 2 ∧ q.crc ≠ crc32c q.payload then s.mbAnswer q 4 []
  else if q.op = 0 then s.mbHello q
  else if q.op = 1 then s.mbAnswer q 0 q.payload
  else if q.op = 0x10 then s.mbCairnClear q
  else if q.op = 0x20 then s.mbChallenge q
  else if q.op = 0x21 then s.mbUnlock q
  else if q.op = 0x30 then s.mbOtpKey q
  else s.mbOtpRevoke q

/-- A write of HDM_MB_DOORBELL.RING (R426). -/
def State.mbRing (s : State) : State :=
  if HDM_MB_STATUS_BUSY.get (s.rd4 rHDM_MB_STATUS) = 1 then (s.raiseHDM HDM_INT_STATUS_MB_REFUSED).minor srcMailbox
  else s.mbExecute s.mbReq

/-- A doorbell while the request buffer holds opcode `op`. -/
def State.mbRow (s : State) (op : Nat) : State := if s.mbReq.op = op then s.mbRing else s

/-- MB_HELLO (R428). -/
def execMbHello (s : State) : Host.Outcome State Fault Refusal := .next (s.mbRow 0x00)
/-- MB_ECHO (R429). -/
def execMbEcho (s : State) : Host.Outcome State Fault Refusal := .next (s.mbRow 0x01)
/-- MB_CAIRN_CLEAR (R518). -/
def execMbCairnClear (s : State) : Host.Outcome State Fault Refusal := .next (s.mbRow 0x10)
/-- MB_JTAG_CHALLENGE (R429). -/
def execMbJtagChallenge (s : State) : Host.Outcome State Fault Refusal := .next (s.mbRow 0x20)
/-- MB_JTAG_UNLOCK (R429). -/
def execMbJtagUnlock (s : State) : Host.Outcome State Fault Refusal := .next (s.mbRow 0x21)
/-- MB_OTP_KEY (R429). -/
def execMbOtpKey (s : State) : Host.Outcome State Fault Refusal := .next (s.mbRow 0x30)
/-- MB_OTP_REVOKE (R429). -/
def execMbOtpRevoke (s : State) : Host.Outcome State Fault Refusal := .next (s.mbRow 0x31)

/-! ### DMA -/

/-- The listed ranges of BAR2 (R422): first offset and end. -/
def bar2Ranges : List (Nat × Nat) := [
  (0, 0x3000000), (0x4000000, 0xC000000), (0xE000000, 0xE800000), (0xF000000, 0xF600000), (0xF600000, 0xF618000),
  (0xF800000, 0xFA00000), (0xFA00000, 0xFA40000)]

/-- A range lies inside its space (R432): host addresses have 64 bits. -/
def State.dmaInside (s : State) (space a n : Nat) (write : Bool) : Bool :=
  match space with
  | 0 => decide (a + n ≤ 2 ^ 64)
  | 1 => bar2Ranges.any (fun r => decide (r.1 ≤ a) && decide (a + n ≤ r.2))
  | _ => decide (a + n ≤ s.mapped) && !(write && decide (s.getF DRC_RGN_DQX_SIZE_MIB ≠ 0) &&
      decide (a < (s.getF DRC_RGN_DQX_BASE_MIB + s.getF DRC_RGN_DQX_SIZE_MIB) * 1048576) && decide (s.getF DRC_RGN_DQX_BASE_MIB * 1048576 < a + n))

/-- A request is refused at GO (R432). -/
def State.dmaRefuse (s : State) (c err : Nat) : State := (s.setF (HDM_DMA_STATUS_ERR c) err).dmaDone c

/-- GO of a channel (R431, R432, R434, R436). -/
def State.dmaGo (s : State) (c : Nat) : State :=
  if 13 ≤ c then s.minor srcHostOther
  else if s.flag (HDM_DMA_STATUS_BUSY c) then s.minor srcHostOther
  else
    let t := (s.useLo (rHDM_DMA_SRC_LO c)).useLo (rHDM_DMA_DST_LO c)
    let src := t.pair (rHDM_DMA_SRC_LO c)
    let dst := t.pair (rHDM_DMA_DST_LO c)
    let cnt := t.getF (HDM_DMA_CNT_BYTES c)
    let ss := t.getF (HDM_DMA_CTL_SRC_SPACE c)
    let ds := t.getF (HDM_DMA_CTL_DST_SPACE c)
    let crc := t.flag (HDM_DMA_CTL_CRC_WR c)
    let n := cnt + 4 * b2n crc
    if t.flag (HDM_DMA_STATUS_SHUTDOWN c) || !t.flag (HDM_DMA_CTL_EN c) then t.dmaRefuse c 7
    else if cnt = 0 ∨ 16777216 < cnt then t.dmaRefuse c 1
    else if ss = 3 ∨ ds = 3 then t.dmaRefuse c 2
    else if (ss = 1 ∧ (src % 4 ≠ 0 ∨ cnt % 4 ≠ 0)) ∨ (ds = 1 ∧ (dst % 4 ≠ 0 ∨ cnt % 4 ≠ 0)) then t.dmaRefuse c 3
    else if !t.dmaInside ss src cnt false || !t.dmaInside ds dst n true then t.dmaRefuse c 4
    else
      let down := ss == ds && decide (src < dst) && decide (dst < src + cnt)
      let t := t.setF ⟨rHDM_DMA_STATUS c, 2, 10⟩ 0
      let t := (t.setF (HDM_DMA_STATUS_BUSY c) 1).setB (HDM_DMA_STATUS_DIR c) down
      { t with dma := t.dma ++ [{ chan := c, src := src, dst := dst, cnt := cnt, srcSpace := ss, dstSpace := ds, crcWr := crc,
                                  desc := down, moved := 0, data := [], stop := false }] }

/-- DMA_GO (R432). -/
def execDmaGo (c : Nat) (s : State) : Host.Outcome State Fault Refusal := .next (if 32 ≤ c then s else s.dmaGo c)

/-- STOP of a channel (R440): it acts after the current burst. -/
def State.dmaStop (s : State) (c : Nat) : State :=
  { s with dma := updFirst (fun r => r.chan == c) (fun r => { r with stop := true }) s.dma }

/-- DMA_STOP (R440). -/
def execDmaStop (c : Nat) (s : State) : Host.Outcome State Fault Refusal := .next (s.dmaStop c)

/-- EN = 0 of a channel (R440): a running transfer stops as for STOP, and SHUTDOWN reads 1 until its last burst has ended. -/
def State.dmaShutdown (s : State) (c : Nat) : State :=
  let t := (s.setF (HDM_DMA_CTL_EN c) 0).setF (HDM_DMA_STATUS_EN_PENDING c) 0
  if s.flag (HDM_DMA_STATUS_BUSY c) then (t.setF (HDM_DMA_STATUS_SHUTDOWN c) 1).dmaStop c else t

/-- EN = 1 of a channel (R440): held while its shutdown runs; the records that wait for paced channel 13 go out (R241). -/
def State.dmaEnable (s : State) (c : Nat) : State :=
  if s.flag (HDM_DMA_STATUS_SHUTDOWN c) then s.setF (HDM_DMA_STATUS_EN_PENDING c) 1
  else (s.setF (HDM_DMA_CTL_EN c) 1).on (c == 13) State.learnFlush

/-- DMA_SHUTDOWN (R440). -/
def execDmaShutdown (c : Nat) (s : State) : Host.Outcome State Fault Refusal := .next (if 32 ≤ c then s else s.dmaShutdown c)

/-- The next burst of a transfer (R433, R436): its offset from the start of the range and its length; a burst ends at a 512-byte
boundary of the destination address. (DEDUCED, assumption log 60) -/
def DmaRun.burst (r : DmaRun) : Nat × Nat :=
  if r.desc then
    let e := r.dst + (r.cnt - r.moved)
    let b := max r.dst ((e - 1) / 512 * 512)
    (b - r.dst, e - b)
  else
    let a := r.dst + r.moved
    (r.moved, min (r.cnt - r.moved) (512 - a % 512))

/-- A byte of BAR2 as a read shows it: FLAGS[1] of a recovery record says whether this twin serves the stream (R372, R389). -/
def State.bar2Byte (s : State) (a : Nat) : Byte :=
  let b := (s.rdMem a 1).headD 0
  if 0x0F800000 ≤ a ∧ a < 0x0FA00000 ∧ a % 32 = 12 then
    match s.streamRec ((a - 0x0F800000) / 32) with
    | some r => if r.replicate && s.serves r then b ||| 2 else b
    | none => b
  else b

/-- Bytes of the device's own spaces: BAR2, its DRAM window included, or mapped DRAM. (DEDUCED, assumption log 60) -/
def State.dmaRead (s : State) (space a n : Nat) : List Byte :=
  if space = 1 then
    if 0x4000000 ≤ a ∧ a < 0xC000000 then s.rdDram (s.getF DRC_WIN_BASE_MIB * 1048576 + (a - 0x4000000)) n
    else (List.range n).map (fun i => s.bar2Byte (a + i))
  else s.rdDram a n

/-- BAR2 writes of a burst word by word (R437); the Bool says that one was refused; a poisoned word is not applied (R438). -/
def State.dmaBar2 : Nat → State → Nat → List Byte → List Bool → Bool → State × Bool
  | 0, s, _, _, _, b => (s, b)
  | n + 1, s, a, d, bad, b =>
    if d.isEmpty then (s, b)
    else if (bad.take 4).any (· == true) then State.dmaBar2 n s (a + 4) (d.drop 4) (bad.drop 4) b
    else
      let t := if 0x4000000 ≤ a ∧ a < 0xC000000 then s.dramWrite (s.getF DRC_WIN_BASE_MIB * 1048576 + (a - 0x4000000)) (d.take 4) 15
               else s.bar2Word a (leNat (d.take 4))
      let refused := t.gens.held == s.gens.held && (t.getF CLS_WREF_CNT_COUNT != s.getF CLS_WREF_CNT_COUNT ||
        (s.getF CLS_WREF_CNT_COUNT == 2 ^ CLS_WREF_CNT_COUNT.width - 1 && t.mem == s.mem && t.rdDram a 4 != d.take 4))
      State.dmaBar2 n t (a + 4) (d.drop 4) (bad.drop 4) (b || refused)

/-- DMA_BURST_DONE (R433, R435–R440): one burst of a transfer moves.  Data of host memory come with the command; `bad` names the
source lines (address / 64) found uncorrectable.  A burst into BAR2 waits while a commit holds such writes. (DEDUCED, assumption log 60) -/
def execDmaBurstDone (c : Nat) (data : List Byte) (bad : List Nat) (s : State) : Host.Outcome State Fault Refusal :=
  .next (match s.dmaRun c with
    | none => s
    | some r =>
      if r.moved = r.cnt ∨ (r.dstSpace = 1 ∧ s.gens.op ≠ 0) then s
      else
        let b := r.burst
        let a := r.src + b.1
        let d := if r.srcSpace = 0 then padTo b.2 data else s.dmaRead r.srcSpace a b.2
        let isBad := fun (i : Nat) => bad.contains ((a + i) / 64) || (r.srcSpace == 2 && s.dramc.poison.contains ((a + i) / 64))
        let marks := (List.range b.2).map isBad
        let anyBad := marks.any (· == true)
        let to_ := r.dst + b.1
        let w := if r.dstSpace = 0 then (s.emit (.hostWrite to_ d), false)
          else if r.dstSpace = 1 then State.dmaBar2 128 s to_ d marks false
          else
            let t := s.dramWrite to_ d (2 ^ b.2 - 1)
            let lines := ((List.range b.2).filter isBad).map (fun i => (to_ + i) / 64)
            ({ t with dramc := { t.dramc with poison := t.dramc.poison ++ lines.eraseDups } }, false)
        let t := if w.2 then w.1.setF (HDM_DMA_STATUS_REFUSED c) 1 else w.1
        let t := if anyBad then t.setF (HDM_DMA_STATUS_POISON c) 1 else t
        let r2 := { r with moved := r.moved + b.2, data := if r.desc then d ++ r.data else r.data ++ d }
        let t := { t with dma := updFirst (fun x => x.chan == c) (fun _ => r2) t.dma }
        let t := t.setF (HDM_DMA_DONE_BYTES_BYTES c) r2.moved
        if r.stop && decide (r2.moved < r.cnt) then t.dmaStopped r2 else t)

/-- DMA_TRANSFER_DONE (R433, R434): every byte has moved; the CRC is stored, and written behind the data with CRC_WR = 1. -/
def execDmaTransferDone (c : Nat) (s : State) : Host.Outcome State Fault Refusal :=
  .next (match s.dmaRun c with
    | none => s
    | some r =>
      if r.moved < r.cnt ∨ (r.crcWr = true ∧ r.dstSpace = 1 ∧ s.gens.op ≠ 0) then s
      else
        let v := crc32c r.data
        let t := s.setF (HDM_DMA_CRC_CRC c) v
        let a := r.dst + r.cnt
        let t := if !r.crcWr then t
          else if r.dstSpace = 0 then t.emit (.hostWrite a (leBytes 4 v))
          else if r.dstSpace = 1 then
            let w := State.dmaBar2 1 t a (leBytes 4 v) [] false
            if w.2 then w.1.setF (HDM_DMA_STATUS_REFUSED c) 1 else w.1
          else t.dramWrite a (leBytes 4 v) 15
        t.dmaEnd r)

/-- DMA_REQUEST_ERROR (R438): kind 1 completion timeout, 2 Unsupported Request, 3 Completer Abort, 4 poisoned completion. -/
def execDmaRequestError (c kind : Nat) (s : State) : Host.Outcome State Fault Refusal :=
  .next (if 32 ≤ c ∨ kind = 0 ∨ 4 < kind then s
    else
      let t := (s.setF HDM_ERR_INFO_KIND kind).setF HDM_ERR_INFO_CHANNEL c
      let t := ((t.setF HDM_ERR_INFO_VALID 1).count HDM_ERR_CNT_COUNT 1).raiseHDM HDM_INT_STATUS_HOST_ERR
      let t := match t.dmaRun c with
        | some r => (t.setF (HDM_DMA_STATUS_ERR c) 5).dmaEnd r
        | none => t
      t.minor srcPcie)

/-! ### Rings -/

/-- A TAIL doorbell (R450). -/
def State.doorbell (s : State) (n val : Nat) : State :=
  if s.ringSize n ≤ val then s.minor srcHostOther else s.wr4 (rHDM_RING_TAIL n) (BitVec.ofNat 32 val)

/-- RING_DOORBELL (R450). -/
def execRingDoorbell (n val : Nat) (s : State) : Host.Outcome State Fault Refusal :=
  .next (if 16 ≤ n ∨ 65536 ≤ val then s else s.doorbell n val)

/-- A tx descriptor breaks R441: LEN out of range or a reserved bit set. -/
def State.txBad (s : State) (d : List Byte) : Bool :=
  let len := leNat ((d.drop 8).take 2)
  decide (len < 60) || decide (s.maxFrame 64 < len + 4) || decide (8 ≤ (d.getD 10 0).toNat) || decide (8 ≤ (d.getD 11 0).toNat) ||
  (d.drop 15).any (· != 0)

/-- HEAD of a tx ring moves on (R442, R449): written back where an address is set. -/
def State.txAdvance (s : State) (n : Nat) : State :=
  let t := s.ringAdvance n
  let wb := t.pair (rHDM_RING_WB_LO n)
  let t := if wb = 0 then t else t.emit (.hostWrite wb (leBytes 4 (t.getF (HDM_RING_HEAD_INDEX n))))
  t.ringComplete n

/-- TX_DESCRIPTOR_PROCESS (R441, R442, R261): the descriptor at HEAD and its frame, both read from host memory, come with the command.
The ring starts no frame while its pool raises back-pressure or admission to P64 is stopped. -/
def execTxDescriptorProcess (r fid : Nat) (desc data : List Byte) (s : State) : Host.Outcome State Fault Refusal :=
  .next (
    let d := padTo 32 desc
    let tc := (d.getD 11 0).toNat % 8
    if 8 ≤ r ∨ !s.flag (HDM_RING_CFG_EN r) ∨ !s.ringHas r ∨ (s.frame fid).isSome ∨ (s.notAdmitted 64).isSome ∨
       s.flag (BPM_POOL_OCC_BP (s.poolOf tc)) then s
    else if s.txBad d then ((s.count (HDM_RING_DROP_COUNT r) 1).txAdvance r)
    else
      let fl := (d.getD 10 0).toNat
      let f := newFrame fid 64 s.now s.localNs (0x330 + r)
      let res := if fl.testBit 0 then { freshRes with fwdOp := 1, dest := leNat ((d.drop 12).take 2), locked := true } else freshRes
      let f := { f with inject := true, bytes := padTo (leNat ((d.drop 8).take 2)) data, res := res, inTc := tc, l4full := fl.testBit 1,
                        txTag := if fl.testBit 2 then some (d.getD 14 0).toNat else none }
      (({ s with frames := s.frames ++ [f] }).count (HDM_RING_FRAMES_COUNT r) 1).txAdvance r)

/-- Bytes 8 to 31 of a completed rx descriptor (R443). -/
def rxDescriptor (f : Frame) (c : Copy) (n : Nat) (phase trunc bad poison : Bool) : List Byte :=
  let l4 := f.l4
  let ok := match l4 with | some (ip, l) => l4Ok f.bytes ip l | none => false
  leBytes 2 n ++ [BitVec.ofNat 8 f.port, BitVec.ofNat 8 (if c.why = 1 then c.reason else 0),
   BitVec.ofNat 8 (b2n phase + 2 * b2n l4.isSome + 4 * b2n ok + 8 * b2n trunc + 16 * b2n bad + 32 * b2n poison +
     64 * b2n (c.why == 2 || c.why == 3)), BitVec.ofNat 8 (c.tc % 8 + 8 * (c.res.dp % 4))] ++
  leBytes 2 (c.eg.getD 0xFFFF) ++ leBytes 4 (f.ts % 1000000000) ++ leBytes 4 (f.ts / 1000000000) ++ List.replicate 8 0

/-- RX_COMPLETION (R443, R444): the copy is written from ADDR and its descriptor completed in place, bytes 12–15 last; the descriptor
as host memory holds it comes with the command.  A TRUNC or BAD copy counts as not delivered. -/
def execRxCompletion (fid : Nat) (desc : List Byte) (poison : Bool) (s : State) : Host.Outcome State Fault Refusal :=
  .next (match s.frame fid, s.copy fid 64 with
    | some f, some c =>
      let n := s.rxRing c.tc
      if c.phase ≠ .sending ∨ f.ended = false ∨ (s.ringHas n = false ∧ s.flag (HDM_RING_STATUS_SHUTDOWN n) = false) then s
      else
        let d := padTo 32 desc
        let b := (s.copyBytes f c).1
        let buf := leNat ((d.drop 8).take 2)
        let w := (b.take (b.length - s.unread f c)).take buf
        let trunc := decide (buf < b.length)
        let bad := c.tailMark || !s.readOk c
        let t := if s.readOk c then s else s.refuseRead c
        let at_ := s.pair (rHDM_RING_BASE_LO n) + 32 * s.getF (HDM_RING_HEAD_INDEX n)
        let e := rxDescriptor f c w.length (s.flag (HDM_RING_HEAD_PHASE n)) trunc bad poison
        let t := (t.emit (.hostWrite (leNat (d.take 8)) w)).emit (.hostWrite (at_ + 8) (e.take 4))
        let t := (t.emit (.hostWrite (at_ + 16) (e.drop 8))).emit (.hostWrite (at_ + 12) ((e.drop 4).take 4))
        let len := b.length + 4
        let t := (t.txCharge c len).count (HDM_RING_FRAMES_COUNT n) 1
        let t := if bad || trunc then t.portTally 64 tTX_TAIL_MARKED 1 else t.txGood f c b len
        let t := ((t.ringAdvance n).ringComplete n)
        ((((t.releaseCopy c).settleFrame fid).cbsStep 64 c.tc).ringShut n).raiseFrees
    | _, _ => s)

/-- RING_SHUTDOWN (R445). (DEDUCED, assumption log 59) -/
def execRingShutdown (n : Nat) (s : State) : Host.Outcome State Fault Refusal := .next (if 16 ≤ n then s else s.ringStop n)

/-- RING_COAL_TIMEOUT (R449): COAL_US after the first unreported completion. -/
def execRingCoalTimeout (n : Nat) (s : State) : Host.Outcome State Fault Refusal :=
  .next (
    let x := s.ringSt n
    let us := s.getF (HDM_RING_CFG_COAL_US n)
    if n < 16 ∧ us ≠ 0 ∧ x.unrep ≠ 0 ∧ x.since + tUs us ≤ s.now then (s.putRing { x with unrep := 0 }).sendVec (64 + n) else s)

/-! ### The link, resets and MSI-X -/

/-- PCIE_LINK_CHANGE (R420). -/
def execPcieLinkChange (gen width : Nat) (s : State) : Host.Outcome State Fault Refusal :=
  .next (if (gen = 3 ∨ gen = 4 ∨ gen = 5) ∧ (width = 1 ∨ width = 2 ∨ width = 4 ∨ width = 8) ∧ s.mode.pcieUp = true then s.pcieLink gen width else s)

/-- HOST_INTERFACE_RESET (R79, R446): a hot reset, a function-level reset, or PCIE_PERST_N low, which also takes the link down. (DEDUCED, assumption log 59) -/
def execHostInterfaceReset (perst : Bool) (s : State) : Host.Outcome State Fault Refusal :=
  .next (if s.modeCode = mBivouac then s
    else
      let t := s.hostReset
      if perst then (((t.setF HDM_LINK_GEN 0).setF HDM_LINK_WIDTH 0).regrant 64 0) else t)

/-- A vector is unmasked: with its PBA bit set, one message is sent (R424). -/
def State.unmask (s : State) (v : Nat) : State :=
  let w := s.rd4 (rMSIX_CTL v)
  let t := s.wr4 (rMSIX_CTL v) (w &&& 0xFFFFFFFE#32)
  if (s.rd4 (rMSIX_PBA v)).getLsbD (v % 32) then
    (t.wr4 (rMSIX_PBA v) (t.rd4 (rMSIX_PBA v) &&& ~~~(1#32 <<< (v % 32)))).emit (.msix v s.now)
  else t

/-- MSIX_UNMASK (R424). -/
def execMsixUnmask (vector : Nat) (s : State) : Host.Outcome State Fault Refusal := .next (if 256 ≤ vector then s else s.unmask vector)

end Sys2Proof.Machine
end

