-- ==== Sys2Proof/Machine/Time.lean ====
section
/-!
DEFINITION. Machine/Time.lean: the meanings of the time family (R289–R301): domain commands, snapshots, pulses, the real-time counter
and the timestamp FIFOs.
-/

namespace Sys2Proof.Machine

/-! ### Domain times (R289) -/

/-- The pulse instant of PPS_OUT that the domain has last passed: whole seconds counted from its offset (R297). (DEDUCED, assumption log 65) -/
def State.ppsIndex (s : State) : Int :=
  (s.domNs (s.getF TSY_PPS_OUT_CFG_DOM) - signedOf 32 (s.getF TSY_PPS_OUT_OFS_OFFSET_NS)) / 1000000000

/-- The next pulse is the first after the present time of the domain (R297). (DEDUCED, assumption log 35) -/
def State.ppsArm (s : State) : State := { s with time := { s.time with ppsDone := some s.ppsIndex } }

/-- A domain jumps; where it drives PPS_OUT no pulse is given for the jump (R289, R297). (DEDUCED, assumption log 65) -/
def State.domJump (s : State) (n : Nat) (fx : Int) : State :=
  let t := s.jump n fx
  if s.getF TSY_PPS_OUT_CFG_DOM = n then t.ppsArm else t

/-- DOMAIN_STEP (R289): an ADJ beyond ±999,999,999 ns is ignored and counted as a minor event. -/
def State.doDomainStep (s : State) (n : Nat) : State :=
  (
    let adj := signedOf 32 (s.getF (TSY_DOM_ADJ_ADJ n))
    if 2 ≤ n then s
    else if adj < -999999999 ∨ 999999999 < adj then s.minor srcHostOther
    else s.domJump n (s.domFx n + adj * 2 ^ 32))

/-- DOMAIN_STEP (R289). -/
def execDomainStep (n : Nat) (s : State) : Host.Outcome State Fault Refusal := .next (s.doDomainStep n)

/-- DOMAIN_SET (R289): a SET_NS above 999,999,999 is ignored and counted as a minor event. -/
def State.doDomainSet (s : State) (n : Nat) : State :=
  (
    if 2 ≤ n then s
    else
      let s := s.useLo (rTSY_DOM_SET_SEC_LO n)
      let ns := s.getF (TSY_DOM_SET_NS_NS n)
      let sec := s.getF (TSY_DOM_SET_SEC_LO_SEC n) + s.getF (TSY_DOM_SET_SEC_HI_SEC n) * 2 ^ 32
      if 999999999 < ns then s.minor srcHostOther
      else s.domJump n (((sec * 1000000000 + ns : Nat) : Int) * 2 ^ 32))

/-- DOMAIN_SET (R289). -/
def execDomainSet (n : Nat) (s : State) : Host.Outcome State Fault Refusal := .next (s.doDomainSet n)

/-- DOMAIN_SLEW (R289): a new slew replaces what remains of a running one. -/
def State.doDomainSlew (s : State) (n : Nat) : State :=
  (
    if 2 ≤ n then s
    else
      (s.putDom n { base := s.domFx n, ref := s.localNs, slewAdj := signedOf 32 (s.getF (TSY_DOM_ADJ_ADJ n)), slewAt := s.localNs }).setF
        (TSY_DOM_STATUS_SLEWING n) 1)

/-- DOMAIN_SLEW (R289). -/
def execDomainSlew (n : Nat) (s : State) : Host.Outcome State Fault Refusal := .next (s.doDomainSlew n)

/-- SLEW_DONE (R289): |ADJ| × 10 µs have passed. -/
def execSlewDone (n : Nat) (s : State) : Host.Outcome State Fault Refusal :=
  .next (match s.time.doms[n]? with
    | none => s
    | some d =>
      if s.flag (TSY_DOM_STATUS_SLEWING n) = true ∧ d.slewAdj.natAbs * 10000 ≤ s.localNs - d.slewAt then
        ((s.putDom n { base := s.domFx n, ref := s.localNs, slewAdj := 0, slewAt := s.localNs }).setF (TSY_DOM_STATUS_SLEWING n) 0).raiseTSY
          TSY_INT_STATUS_SLEW_DONE
      else s)

/-! ### Snapshots and pulses (R295–R297) -/

/-- A domain time goes to its snapshot registers. -/
def State.snapDom (s : State) (n : Nat) : State :=
  let t := s.domNs n
  ((s.setF (TSY_SNAP_DOM_NS_NS n) (nsPart t)).setF (TSY_SNAP_DOM_SEC_LO_SEC n) (secPart t)).setF (TSY_SNAP_DOM_SEC_HI_SEC n) (secPart t / 2 ^ 32)

/-- TIME_SNAPSHOT (R295): local time and both domain times, in one cycle. -/
def State.doTimeSnapshot (s : State) : State :=
  (
    let l : Int := (s.localNs : Nat)
    let t := ((s.setF TSY_SNAP_LOCAL_NS_NS (nsPart l)).setF TSY_SNAP_LOCAL_SEC_LO_SEC (secPart l)).setF TSY_SNAP_LOCAL_SEC_HI_SEC (secPart l / 2 ^ 32)
    (t.snapDom 0).snapDom 1)

/-- TIME_SNAPSHOT (R295). -/
def execTimeSnapshot (s : State) : Host.Outcome State Fault Refusal := .next (s.doTimeSnapshot)

/-- PPS_IN_CAPTURE (R296): the command is the rising edge that the input has found wide enough; a capture that is held is overwritten, and
OVERRUN is set. -/
def execPpsInCapture (s : State) : Host.Outcome State Fault Refusal :=
  .next (
    let l : Int := (s.localNs : Nat)
    let t := (s.setF TSY_PPS_IN_NS_NS (nsPart l)).setF TSY_PPS_IN_SEC_SEC (secPart l)
    let t := t.setF TSY_PPS_IN_STAT_COUNT (s.getF TSY_PPS_IN_STAT_COUNT + 1)
    let t := if s.flag TSY_PPS_IN_STAT_VALID then t.setF TSY_PPS_IN_STAT_OVERRUN 1 else t
    (t.setF TSY_PPS_IN_STAT_VALID 1).raiseTSY TSY_INT_STATUS_PPS_IN)

/-- PPS_OUT_RISE (R297): the domain has reached a whole second plus the offset; WIDTH_US is taken within its range. (DEDUCED, assumption log 65) -/
def execPpsOutRise (s : State) : Host.Outcome State Fault Refusal :=
  .next (match s.time.ppsDone with
    | some d =>
      if s.flag TSY_PPS_OUT_CFG_EN = true ∧ d < s.ppsIndex then
        let w := max 1 (min 500000 (s.getF TSY_PPS_OUT_CFG_WIDTH_US))
        let t := s.ppsArm
        if s.time.ppsHigh then t
        else { t.emit (.pps true) with time := { t.time with ppsHigh := true, ppsFall := s.now + tUs w } }
      else s
    | none => s.ppsArm)

/-- PPS_OUT falls. -/
def State.ppsLow (s : State) : State :=
  if s.time.ppsHigh then { s.emit (.pps false) with time := { s.time with ppsHigh := false } } else s

/-- PPS_OUT_FALL (R297). -/
def execPpsOutFall (s : State) : Host.Outcome State Fault Refusal := .next (if s.time.ppsFall ≤ s.now then s.ppsLow else s)

/-! ### The real-time counter (R298) -/

/-- RTC_LOAD (R298): the load waits for the next whole second of working time; with AUTO set it adds nothing. -/
def State.doRtcLoad (s : State) : State :=
  { s with time := { s.time with rtcLoad := some (s.workNs / 1000000000) } }

/-- RTC_LOAD (R298). -/
def execRtcLoad (s : State) : Host.Outcome State Fault Refusal := .next (s.doRtcLoad)

/-- RTC_LOAD_APPLY (R298): the counter holds the working time of the last whole second, with subseconds 0 there, when a whole second has come
since LOAD, or with AUTO = 1. -/
def execRtcLoadApply (s : State) : Host.Outcome State Fault Refusal :=
  .next (
    let due := match s.time.rtcLoad with | some k => decide (s.workNs / 1000000000 ≠ k) | none => false
    if due || s.flag TSY_RTC_CTL_AUTO then
      { s with time := { s.time with rtcBase := secPart s.workNs * 32768, rtcAt := s.now - 27 * nsPart s.workNs, rtcLoad := none } }
    else s)

/-! ### Timestamp FIFOs (R294, R301) -/

/-- The INFO word of a port's FIFO: tag and depth of the head, entries dropped, VALID. -/
def State.tsInfo (s : State) (p : Nat) : Nat :=
  let l := (s.time.fifos.lookup p).getD []
  ((l.map (·.tag)).headD 0) % 256 + l.length % 8 * 2 ^ 8 + s.getF (TSY_PORT_TX_INFO_OVERFLOW p) * 2 ^ 16 + b2n (!l.isEmpty) * 2 ^ 31

/-- TS_FIFO_POP (R301): the read returns the head and removes it; OVERFLOW is read and cleared. -/
def State.doTsFifoPop (s : State) (port : Nat) : State :=
  (if 64 ≤ port ∧ port ≠ 65 then { s with readData := 0 }
    else
      let l := (s.time.fifos.lookup port).getD []
      let t := { s with readData := s.tsInfo port,
                        time := { s.time with fifos := if l.length ≤ 1 then sdel s.time.fifos port else sput s.time.fifos port l.tail } }
      t.setF (TSY_PORT_TX_INFO_OVERFLOW port) 0)

/-- TS_FIFO_POP (R301). -/
def execTsFifoPop (port : Nat) (s : State) : Host.Outcome State Fault Refusal := .next (s.doTsFifoPop port)

end Sys2Proof.Machine
end

