-- ==== Sys2Proof/Machine/RegRead.lean ====
section
/-!
DEFINITION. Machine/RegRead.lean: what a read of a register finds (R5–R9, R554): the fields that report something held elsewhere,
the latch of a pair, and the fields that a read clears.
-/

namespace Sys2Proof.Machine

/-- A field put into a word. -/
def withF (w : Word) (f : Fld) (v : Nat) : Word := f.put w v
/-- A one-bit field put into a word. -/
def withB (w : Word) (f : Fld) (b : Bool) : Word := f.put w (b2n b)

/-! ### Fields that report something held elsewhere -/

/-- A block holds an enabled status bit that is set. -/
def State.intOn (s : State) (st en : Nat) : Bool := (s.rd st &&& s.rd en) != 0

/-- GLB_INT_SRC.VECTORS (R425, R556): no register masks the link changes of vector 9. -/
def State.intVectors (s : State) : Nat :=
  let l := [s.intOn rTWN_INT_STATUS rTWN_INT_EN, s.intOn rCLS_INT_STATUS rCLS_INT_EN, s.intOn rFWD_INT_STATUS rFWD_INT_EN,
    s.intOn rBPM_INT_STATUS rBPM_INT_EN, s.intOn rSCH_INT_STATUS rSCH_INT_EN, s.intOn rTSY_INT_STATUS rTSY_INT_EN,
    s.intOn rDRC_INT_STATUS rDRC_INT_EN, s.intOn rHDM_INT_STATUS rHDM_INT_EN,
    (List.range 68).any (fun p => s.flag (MAC_STATUS_LINK_CHG p)), s.intOn rGLB_INT_STATUS rGLB_INT_EN, s.intOn rAGE_INT_STATUS rAGE_INT_EN,
    s.intOn rCRN_INT_STATUS rCRN_INT_EN, s.intOn rTLY_INT_STATUS rTLY_INT_EN]
  l.foldr (fun b a => b2n b + 2 * a) 0

/-- GLB_MODE (R556). (DEDUCED, assumption log 38) -/
def State.glbMode (s : State) : Word :=
  let w := withB (s.rd rGLB_MODE) GLB_MODE_SEALED (s.getF IMG_STATUS_STATE == 4)
  let w := withF (withB w GLB_MODE_SENIOR (s.flag TWN_STATUS_SENIOR)) GLB_MODE_TWIN (s.getF TWN_STATUS_STATE)
  withB (withB w GLB_MODE_ISOLATED s.anyIso) GLB_MODE_FAULT s.faultN

/-- FLT_STATUS (R482). -/
def State.fltStatus (s : State) : Word := withB (withB (s.rd rFLT_STATUS) FLT_STATUS_FAULT_N s.faultN) FLT_STATUS_ISOLATED s.anyIso

/-- The secure association and channel that MAC_SEC_SEL selects (R117, R126). (DEDUCED, assumption log 34) -/
def State.selSc (s : State) (p : Nat) : Nat := s.getF (MAC_SEC_SEL_SC p)
def State.selAn (s : State) (p : Nat) : Nat := s.getF (MAC_SEC_SEL_AN p)
def State.selSa (s : State) (p : Nat) : SaSt := s.sa p (s.selSc p) (s.selAn p)

/-- A register of a port's MAC block at offset `k` of the block (R126): what P64, P66, P67 and P65 do not have reads 0. -/
def State.macView (s : State) (p k : Nat) : Word :=
  let w := s.rd (0x200000 + 0x1000 * p + k)
  if p = 64 ∨ p = 66 ∨ p = 67 then (if k = 0 then w &&& 0xFFFFFFC0#32 else if 0x14 ≤ k then 0 else w)
  else if p = 65 then
    if k = 0 then w &&& 0xFFFFFFC1#32
    else if k = 4 then withF w (MAC_STATUS_PAUSED 65) (s.getF TWN_FC_XOFF_RX &&& (255 - s.getF (MAC_CTL_PFC_IGNORE 65)))
    else if k = 0xC ∨ k = 0x10 ∨ k = 0x14 ∨ 0x40 ≤ k then 0
    else w
  else if k < 0x58 ∨ 0x98 < k then w
  else if k < 0x84 then 0
  else if k = 0x84 then BitVec.ofNat 32 (s.selSa p).ssci
  else if k = 0x88 then BitVec.ofNat 32 (s.selSa p).pn
  else if k = 0x8C then BitVec.ofNat 32 ((s.selSa p).pn / 2 ^ 32)
  else if k = 0x90 then BitVec.ofNat 32 (s.sc p (s.selSc p)).sci
  else if k = 0x94 then BitVec.ofNat 32 ((s.sc p (s.selSc p)).sci / 2 ^ 32)
  else BitVec.ofNat 32 (s.sc p (s.selSc p)).replay

/-- The entries of an FDB that are live for CURRENT in the active bank (R251), counted in one copy; other kinds have no bank. (DEDUCED, assumption log 35) -/
def State.fdbLive (s : State) (k : Nat) : Nat :=
  if s.tblKind k ≠ 1 then 0
  else
    let b := s.rwgF s.curGen (FWD_TBL_BANK_ACTIVE k)
    let q := s.fdbCopies.q
    (s.mem.filter (fun e => decide (e.1 / 0xC00000 = q) && e.1 % 16 == 8 && (s.tableTiles k q).contains (e.1 % 0xC00000 / 0x20000) &&
      s.tableByte k q e.1 / (256 * s.tblBuckets k) == b && liveFor (s.memLe e.1 2) (s.curGen % 8))).length

/-- FWD_TBLk_BANK and FWD_TBLk_LIVE (R246, R251). -/
def State.tblView (s : State) (k r : Nat) (w : Word) : Word :=
  if r = 8 then withB (withF w (FWD_TBL_BANK_CUR_ACTIVE k) (s.rwgF s.curGen (FWD_TBL_BANK_ACTIVE k))) (FWD_TBL_BANK_SHADOW_FREE k) (s.shadowFree k)
  else if r = 0x18 then BitVec.ofNat 32 (s.fdbLive k)
  else w

/-- The gate whose control block holds a register (R331). -/
def gateAt (o : Nat) : Option GateId :=
  if 0x700000 ≤ o ∧ o < 0x788000 ∧ 0x40 ≤ (o - 0x700000) % 0x2000 ∧ (o - 0x700000) % 0x2000 < 0x80 then some (.port ((o - 0x700000) / 0x2000))
  else if 0x789000 ≤ o ∧ o < 0x78D000 then some (.stream ((o - 0x789000) / 0x40))
  else none

/-- GSTATUS and the shaper credit now (R309, R330, R331). -/
def State.schView (s : State) (o : Nat) (w : Word) : Word :=
  match gateAt o with
  | some g => if o = rGATE_GSTATUS (gateBlock g) then (s.gateShow g).rd o else w
  | none =>
    let p := (o - 0x700000) / 0x2000
    let r := (o - 0x700000) % 0x2000
    if p < 68 ∧ 0x100 ≤ r ∧ r < 0x200 ∧ r % 0x20 = 0x14 then
      match s.shapers.find? (fun x => x.port == p && x.tc == (r - 0x100) / 0x20) with
      | some x => BitVec.ofNat 32 (unsignedOf 32 (s.cbsNow x / 27000000))
      | none => w
    else w

/-- The head of a timestamp FIFO and its INFO word (R301). -/
def State.fifoView (s : State) (p r : Nat) : Nat :=
  let l := (s.time.fifos.lookup p).getD []
  if 64 ≤ p ∧ p ≠ 65 then 0
  else if r = 0 then (l.map (·.ns)).headD 0
  else if r = 4 then (l.map (·.sec)).headD 0 % 2 ^ 32
  else s.tsInfo p

/-- The time left of a deadline in µs. -/
def State.leftUs (s : State) (d : Option Nat) : Nat := match d with | some e => (e - s.now) / 27000 | none => 0

/-- A BAR0 register as it stands: its word, with the fields that report something held elsewhere. -/
def State.view (s : State) (o : Nat) : Word :=
  let w := s.rd o
  if o = rGLB_MODE then s.glbMode
  else if o = rGLB_INT_SRC then BitVec.ofNat 32 s.intVectors
  else if o = rAON_OPSEC_LO then BitVec.ofNat 32 s.opSec
  else if o = rAON_OPSEC_HI then BitVec.ofNat 32 (s.opSec / 2 ^ 32)
  else if o = rDRC_STATUS ∧ s.flag DRC_STATUS_MIGRATING = true then
    withF w DRC_STATUS_MIG_PERMILLE (min 1000 (Config.migPermille (s.now - s.dramc.migAt)))
  else if 0x110000 ≤ o ∧ o < 0x118000 ∧ s.otp.is2416 = true then 0
  else if 0x200000 ≤ o ∧ o < 0x244000 then s.macView ((o - 0x200000) / 0x1000) (o % 0x1000)
  else if 0x300000 ≤ o ∧ o < 0x311000 ∧ o % 0x1000 = 0 then
    (let e := (o - 0x300000) / 0x1000
     withF (withB w (HSQ_ENG_STATUS_POWERED e) (s.engPowered e)) (HSQ_ENG_STATUS_BUSY e) (s.threads.filter (fun th => th.eng == e)).length)
  else if 0x320000 ≤ o ∧ o < 0x334000 ∧ o % 0x4000 = 0 then
    (let c := (o - 0x320000) / 0x4000
     withB w (HSQ_ROM_STATUS_PATCHED c) (s.isSealed && (List.range 64).any (fun n => s.flag (HSQ_MATCH_VALID c n))))
  else if 0x400010 ≤ o ∧ o < 0x400030 then
    (let t := (o - 0x400010) / 4
     if s.flag (CLS_DRAIN_OUTSTANDING t) then withF w (CLS_DRAIN_COUNT t) (min 4095 (s.drainCount (s.getF (CLS_DRAIN_GEN t)))) else w)
  else if 0x501000 ≤ o ∧ o < 0x501800 then s.tblView ((o - 0x501000) / 0x20) (o % 0x20) w
  else if 0x641000 ≤ o ∧ o < 0x645400 ∧ o % 0x100 = 4 then
    (let p := (o - 0x641000) / 0x100
     if s.getF (SWC_PORT_HOLD_STATE p) = 1 then BitVec.ofNat 32 (s.leftUs ((s.port p).bind (·.holdEnd))) else 0)
  else if o = rTSY_RTC_SEC_LO then BitVec.ofNat 32 (s.rtc / 32768)
  else if o = rTSY_RTC_SEC_HI then BitVec.ofNat 32 (s.rtc / 32768 / 2 ^ 32 % 65536)
  else if o = rTSY_RTC_SUB then BitVec.ofNat 32 (s.rtc % 32768)
  else if 0x681000 ≤ o ∧ o < 0x681440 then BitVec.ofNat 32 (s.fifoView ((o - 0x681000) / 16) (o % 16))
  else if 0x700000 ≤ o ∧ o < 0x78D000 then s.schView o w
  else if o = rFLT_STATUS then s.fltStatus
  else if 0xB01000 ≤ o ∧ o < 0xB01600 ∧ o % 0x20 = 0x10 then BitVec.ofNat 32 (s.leftUs (s.flt.belay.lookup ((o - 0xB01000) / 0x20)))
  else if 0xB02000 ≤ o ∧ o < 0xB039C0 ∧ o % 0x10 = 8 then
    (let n := (o - 0xB02000) / 0x10
     withB w (FLT_SRC_STATE_SHADOWED n) (s.shadowOf n).isSome)
  else if o = rCRN_STATUS then withF w CRN_STATUS_FMT s.cairnVer
  else w

/-! ### Reads -/

/-- A word with its WO fields read as 0 (R6). -/
def readable (flds : List RegFld) (w : Word) : Nat := mergeFields (fun f => f.acc != .wo) 0 w.toNat flds

/-- The RC fields of a word after a read (R6, R7): what the events of the read's cycle left in them. -/
def State.readClears (s : State) (o ev : Nat) : State :=
  let flds := fldsAt .bar0 o
  if flds.any (fun f => f.acc == .rc) then s.wr o (BitVec.ofNat 32 (mergeFields (fun f => f.acc == .rc) (s.rd o).toNat ev flds)) else s

/-- A read of RES_MAX_NS clears both of its halves (R522). -/
def State.readMax (s : State) (o : Nat) : State :=
  if 0xC90000 ≤ o ∧ o < 0xCD4000 ∧ (o - 0xC90000) % 0x1000 = 8 * tRES_MAX then s.setTally o 0 false else s

/-- A read of _LO latches _HI (R9); TSY_RTC_SEC_LO latches the subseconds too (R299). (DEDUCED, assumption log 31) -/
def State.latchHi (s : State) (o : Nat) : State :=
  if isPairLo o then
    let t := { s with latch := sput s.latch (o + 4) (s.view (o + 4)) }
    if o = rTSY_RTC_SEC_LO then { t with latch := sput t.latch rTSY_RTC_SUB (s.view rTSY_RTC_SUB) } else t
  else s

/-- Whether a register returns what a read of its _LO register latched (R9). (DEDUCED, assumption log 31) -/
def latched (o : Nat) : Bool := (decide (4 ≤ o) && isPairLo (o - 4)) || o == rTSY_RTC_SUB

/-- A read of a BAR0 register of 4 bytes at an aligned offset. -/
def State.readReg (s : State) (o ev : Nat) : State :=
  if !inSpan o then { s with readData := 0 }.minor srcAccess
  else if 0xC01000 ≤ o ∧ o < 0xC02000 then s.doCairnWindowRead (o - 0xC01000)
  else if 0x681000 ≤ o ∧ o < 0x681440 ∧ o % 16 = 8 then s.doTsFifoPop ((o - 0x681000) / 16)
  else if latched o then { s with readData := ((s.latch.lookup o).getD (s.view o)).toNat }
  else (({ s with readData := readable (fldsAt .bar0 o) (s.view o) }.latchHi o).readClears o ev).readMax o

/-- A read over BAR0 or BAR4 (R5, R451, R554). -/
def State.read (s : State) (bar : Bar) (o size ev : Nat) : State :=
  if size ≠ 4 ∨ o % 4 ≠ 0 then { s with readData := 0 }.minor srcAccess
  else
    match bar with
    | .bar0 => s.readReg o ev
    | .bar4 => { s with readData := (s.rd4 o).toNat }

/-- READ_CLEAR (R6, R7): a read of a register; `ev` holds what the events of its cycle leave in the RC fields. -/
def execReadClear (bar : Bar) (off size ev : Nat) (s : State) : Host.Outcome State Fault Refusal := .next (s.read bar off size ev)

/-- PAIR_LO_READ (R9): a read of the _LO register of a pair that holds one quantity. (DEDUCED, assumption log 31) -/
def execPairLoRead (off : Nat) (s : State) : Host.Outcome State Fault Refusal := .next (if isPairLo off then s.read .bar0 off 4 0 else s)

end Sys2Proof.Machine
end

