-- ==== Sys2Proof/Machine/Tallies.lean ====
section
/-!
DEFINITION. Machine/Tallies.lean: the meanings of the tallies' family (R521–R533): clears, snapshots, bandwidth windows, the capture of a
stream's tallies.
-/

namespace Sys2Proof.Machine

/-! ### Events by the cycle (R527) -/

/-- A frame or a copy stands in front of a position and its lookup is not under way: it waits at the station.
(DEDUCED, assumption log 107) -/
def State.waitsAt (s : State) (q n : Nat) : Bool :=
  s.frames.any (fun f => f.phase == .station && !f.looking && f.pos == n && s.quadOf f.port == q) ||
  s.copies.any (fun c => c.phase == .station && !c.looking && c.pos == n && s.quadOf c.port == q)

/-- Events 07h of a cycle, at each position of a list. -/
def State.waitEvents (s : State) (q : Nat) : List Nat → State
  | [] => s
  | n :: t => (if s.waitsAt q n then s.evt q 7 0 n else s).waitEvents q t

/-- The events of one core cycle in a quadrant: powered (00h), all 256 DRAM fetches in use (06h), frames that wait (07h). -/
def State.cycleEvents (s : State) (q : Nat) : State :=
  if s.quadPowered q then
    (let t := s.evt q 0 0 0
     (if 256 ≤ t.fetchCount q then t.evt q 6 0 0 else t).waitEvents q (List.range 14))
  else s

/-- One core cycle in which no command waits: the time goes on, and the events of a cycle are counted (assumption logs 1, 2 and 107). -/
def State.cycle (s : State) : State := State.foldS State.cycleEvents s.tick (List.range 4)

/-! ### Clears (R531) -/

/-- CLEAR_PORTS. -/
def execClearPorts (s : State) : Host.Outcome State Fault Refusal := .next s.clearPorts
/-- CLEAR_EVT. -/
def execClearEvt (s : State) : Host.Outcome State Fault Refusal := .next s.clearEvt
/-- CLEAR_STRM. -/
def execClearStrm (s : State) : Host.Outcome State Fault Refusal := .next s.clearStrm

/-! ### Snapshots (R529, R530) -/

/-- An entry of the body: the value, and CARRY in bit 63. -/
def State.snapEntry (s : State) (o : Nat) : Nat := s.tally o + (s.rd (o + 4)).toNat / 2 ^ 31 * 2 ^ 63

/-- The entries of the ports and the event tallies that a scope selects, in order. -/
def State.snapBody (s : State) (scope : Nat) : List Nat :=
  (if scope.testBit 0 then (List.range 68).flatMap (fun p => (List.range 200).map (fun i => s.snapEntry (tlyOff p i))) else []) ++
  (if scope.testBit 1 then (List.range 128).map (fun k => s.snapEntry (rTLY_Q_EVT_LO (k / 32) (k % 32))) else [])

/-- The entries of the streams of a record. (DEDUCED, assumption log 64) -/
def State.strmBody (s : State) (first count : Nat) : List Nat :=
  (List.range (min count (65536 - first))).flatMap (fun j => (List.range 6).map (fun k =>
    (s.strm.lookup (8 * (first + j) + k)).getD 0 + b2n (s.strmCarry.contains (8 * (first + j) + k)) * 2 ^ 63))

/-- Start a snapshot: captured in this cycle; one that falls while a record is written is skipped (R529). (DEDUCED, assumption log 64) -/
def State.snapStart (s : State) : State :=
  if s.flag TLY_SNAP_STATUS_BUSY then (s.count TLY_SNAP_SKIP_COUNT 1).raiseTLY TLY_INT_STATUS_SNAP_SKIP
  else
    let t := s.useLo rTLY_SNAP_ADDR_LO
    let scope := (t.rd rTLY_SNAP_SCOPE).toNat % 8
    let seq := (t.tly.seq + 1) % 65536
    let run : SnapRun :=
      { addr := t.pair rTLY_SNAP_ADDR_LO / 64 * 64, seq := seq, scope := scope, ns := nsPart t.localNs, sec := secPart t.localNs,
        first := t.getF TLY_SNAP_STRM_FIRST, count := t.getF TLY_SNAP_STRM_COUNT, body := t.snapBody scope }
    ({ t with tly := { t.tly with seq := seq, run := some run } }).setF TLY_SNAP_STATUS_BUSY 1

/-- SNAP_GO. -/
def execSnapGo (s : State) : Host.Outcome State Fault Refusal := .next s.snapStart

/-- SNAP_PERIODIC (R529): every SNAP_PERIOD_MS of local time, when that field is not 0. -/
def execSnapPeriodic (s : State) : Host.Outcome State Fault Refusal :=
  .next (let p := s.getF TLY_CFG_SNAP_PERIOD_MS
    if p = 0 ∨ s.localNs < s.tly.periodAt + p * 1000000 then s
    else ({ s with tly := { s.tly with periodAt := s.localNs } }).snapStart)

/-- SNAP_STOP (R529, R439): the record ends, and its header is not written. (DEDUCED, assumption log 61) -/
def State.doSnapStop (s : State) : State :=
  (if s.flag TLY_SNAP_STATUS_BUSY then
      ({ s with tly := { s.tly with run := none } }).setF TLY_SNAP_STATUS_BUSY 0
    else s)

/-- SNAP_STOP (R529, R439). -/
def execSnapStop (s : State) : Host.Outcome State Fault Refusal := .next (s.doSnapStop)

/-- The header of a record (R530). -/
def snapHeader (r : SnapRun) (crc : Nat) : List Byte :=
  [1, 1] ++ leBytes 2 r.seq ++ [BitVec.ofNat 8 r.scope, 0, 0, 0] ++ leBytes 4 r.ns ++ leBytes 4 r.sec ++ leBytes 2 r.first ++ leBytes 2 r.count ++
  leBytes 4 crc ++ List.replicate 40 0

/-- SNAP_DONE (R530): the streams are captured as the record is written; the body goes out first, the header last. -/
def execSnapDone (s : State) : Host.Outcome State Fault Refusal :=
  .next (match s.tly.run with
    | none => s
    | some r =>
      if s.flag (HDM_DMA_CTL_EN 15) = false then s
      else
        let body := (r.body ++ (if r.scope.testBit 2 then s.strmBody r.first r.count else [])).flatMap (leBytes 8)
        let t := (s.emit (.hostWrite (r.addr + 64) body)).emit (.hostWrite r.addr (snapHeader r (crc32c body)))
        let t := ((t.setF TLY_SNAP_STATUS_BUSY 0).setF TLY_SNAP_STATUS_DONE 1).setF TLY_SNAP_STATUS_SEQ r.seq
        ({ t with tly := { t.tly with run := none } }).raiseTLY TLY_INT_STATUS_SNAP_DONE)

/-! ### Bandwidth windows (R525) -/

/-- BW_WIN_US, taken as the nearer limit outside 10–1,000. -/
def State.winUs (s : State) : Nat := max 10 (min 1000 (s.getF TLY_CFG_BW_WIN_US))

/-- The rates of a port in the window that ends, and its peaks. -/
def State.bwPort (s : State) (p : Nat) : State :=
  let b := (s.bw.lookup p).getD (0, 0)
  let rx := min 0xFFFFF (b.1 / s.winUs)
  let tx := min 0xFFFFF (b.2 / s.winUs)
  (((s.setF (TLY_P_BW_RX_MBPS p) rx).setF (TLY_P_BW_TX_MBPS p) tx).maxF (TLY_P_PEAK_RX_MBPS p) rx).maxF (TLY_P_PEAK_TX_MBPS p) tx

/-- BW_WINDOW_END (R525): local time has passed a boundary; a window cut short by a change of its length is discarded. -/
def execBwWindowEnd (s : State) : Host.Outcome State Fault Refusal :=
  .next (let l := 1000 * s.winUs
    if s.localNs / l ≤ s.tly.winAt / l then s
    else
      let t := if s.tly.cut then s else State.foldS State.bwPort s (List.range 68)
      { t with bw := [], tly := { t.tly with winAt := s.localNs / l * l, cut := false } })

/-! ### Streams (R526) -/

/-- Capture tally `k` of a stream. (DEDUCED, assumption log 64) -/
def State.strmCapture (s : State) (h k : Nat) : State :=
  let v := (s.strm.lookup (8 * h + k)).getD 0
  ((s.setF (TLY_STRM_CNT_LO_VALUE k) v).setF (TLY_STRM_CNT_HI_VALUE k) (v / 2 ^ 32)).setB (TLY_STRM_CNT_HI_CARRY k) (s.strmCarry.contains (8 * h + k))

/-- A write of TLY_STRM_SEL captures the six tallies of the handle in one cycle. -/
def State.selStrm (s : State) (h : Nat) : State :=
  State.foldS (fun u (k : Nat) => u.strmCapture (h % 65536) k) (s.setF TLY_STRM_SEL_HANDLE h) (List.range 6)

/-- STRM_SEL (R526). -/
def execStrmSel (handle : Nat) (s : State) : Host.Outcome State Fault Refusal := .next (s.selStrm handle)

end Sys2Proof.Machine
end

