-- ==== Sys2Proof/Machine/RegWrite.lean ====
section
/-!
DEFINITION. Machine/RegWrite.lean: host writes to BAR0 and BAR4 (R5–R9, R47, R554): what each access code takes, the registers that
take a write otherwise, and the commands that a write of a trigger bit or of an enable gives.
-/

namespace Sys2Proof.Machine

/-! ### Access codes (R6, R7) -/

/-- A field after a write of a word: `rwl` says whether RWL fields take it, `ev` has the bits that events set in the write's cycle.
A W1S bit is a command here: what it asks for happens in the write, and the bit reads 0 again at once, since no rule says when the
device clears it (DESIGN CHOICE, assumption log 73). -/
def writeField (rwl : Bool) (old val ev : Nat) (f : RegFld) : Nat :=
  let m := 2 ^ f.width
  let o := old / 2 ^ f.lo % m
  let v := val / 2 ^ f.lo % m
  let e := ev / 2 ^ f.lo % m
  match f.acc with
  | .rw | .rws => v
  | .rwl => if rwl then v else o
  | .w1c => o &&& (m - 1 - (v &&& (m - 1 - e)))
  | _ => o

/-- A word after a write. -/
def writeWord (rwl : Bool) (old val ev : Nat) : List RegFld → Nat
  | [] => 0
  | f :: t => writeField rwl old val ev f * 2 ^ f.lo + writeWord rwl old val ev t

/-- A write changes some RWL field of its register. (DEDUCED, assumption log 33) -/
def rwlChange (old val : Nat) (flds : List RegFld) : Bool :=
  flds.any (fun f => f.acc == .rwl && old / 2 ^ f.lo % 2 ^ f.width != val / 2 ^ f.lo % 2 ^ f.width)

/-- A register has a field that host software writes and that holds what is written. (DEDUCED, assumption log 34) -/
def writable (flds : List RegFld) : Bool := flds.any (fun f => f.acc == .rw || f.acc == .rws || f.acc == .rwl)

/-! ### RWL fields (R34, R47) -/

/-- The ranges of R34 for the RWL fields of a register. (DEDUCED, assumption log 33) -/
def State.rwlOk (s : State) (o val : Nat) : Bool :=
  if 0x320000 ≤ o ∧ o < 0x334000 then
    -- a match register of a ROM copy other than housekeeping's does not name word 0
    (if (o - 0x320000) % 0x4000 < 0x2000 then !(val.testBit 31) || decide (val % 2 ^ 15 ≠ 0) || decide ((o - 0x320000) / 0x4000 = 4) else true)
  else if 0x601000 ≤ o ∧ o < 0x601400 then
    let n := (o - 0x601000) / 0x40
    let v := val % 2 ^ 19
    let r := (o - 0x601000) % 0x40
    if r = 0xC then decide (v ≤ s.getF (BPM_POOL_WARN2_BEADS n))
    else if r = 0x10 then decide (s.getF (BPM_POOL_WARN1_BEADS n) ≤ v) && decide (v ≤ s.getF (BPM_POOL_FULL_BEADS n))
    else decide (s.getF (BPM_POOL_WARN2_BEADS n) ≤ v) && decide (v ≤ s.getF (BPM_POOL_BEADS_QUOTA n))
  else if 0x700000 ≤ o ∧ o < 0x788000 then
    (if (o - 0x700000) % 0x20 = 0 then decide (64 ≤ val / 2 ^ 16 % 2 ^ 16) && decide (val / 2 ^ 16 % 2 ^ 16 ≤ 16383) else true)
  else if 0xB01000 ≤ o ∧ o < 0xB01600 then
    decide (val % 8 ≤ 4) && (decide (4 ≤ (o - 0xB01000) / 0x20) || val % 8 == 4) && decide (1 ≤ val / 2 ^ 8 % 2 ^ 17) &&
    decide (val / 2 ^ 8 % 2 ^ 17 ≤ 100000)
  else if 0xB02000 ≤ o ∧ o < 0xB039C0 then
    decide (1 ≤ val % 256) && decide (1 ≤ val / 256) && decide (val / 256 ≤ 10000000)
  else true

/-- The first accepted RWL write sets HOST_MODIFIED and writes a cairn with its BAR0 offset (R47, R508). -/
def State.hostModified (s : State) (o : Nat) : State :=
  if s.flag IMG_STATUS_HOST_MODIFIED then s
  else (s.setF IMG_STATUS_HOST_MODIFIED 1).cairn 0x46 1 ([0, 0] ++ leBytes 2 (s.getF IMG_RUN_EPOCH) ++ leBytes 4 o)

/-! ### A write as its fields take it -/

/-- A write to a register: RW, RWS, W1C and, where they may be written, RWL fields (R6, R47). -/
def State.writeFields (s : State) (o val ev : Nat) : State :=
  let flds := fldsAt .bar0 o
  let old := (s.rd o).toNat
  let change := rwlChange old val flds
  let take := change && !s.isSealed && s.rwlOk o val
  let t := s.wr o (BitVec.ofNat 32 (writeWord take old val ev flds))
  if change && s.isSealed then t.minor srcRwl
  else if take then t.hostModified o
  else t

/-- A held _LO write of the pair that `o` completes is applied (R9). -/
def State.completePair (s : State) (o : Nat) : State := if decide (4 ≤ o) && isPairLo (o - 4) then s.useLo (o - 4) else s

/-- The words of a versioned register are held from GO or DISCARD to its end (R192, R199), a write that stages ACTIVE of table k while a
command runs on it until the command ends (R236 and its coincidence). -/
def State.stageOrHold (s : State) (o val : Nat) : State :=
  if s.gens.op ≠ 0 then { s with gens := { s.gens with held := s.gens.held ++ [.reg o val] } }
  else
    match s.cmd with
    | some c => if o = rFWD_TBL_BANK c.table then { s with cmd := some { c with held := c.held ++ [.reg o val] } } else s.stageWrite o val
    | none => s.stageWrite o val

/-! ### Commands of a written word -/

/-- IMG_CTL (R57). -/
def State.ctlImg (s : State) (val : Nat) : State :=
  ((((s.on (val.testBit 0) State.doSeal).on (val.testBit 1) State.doImgPush).on (val.testBit 4) State.doLeap).on (val.testBit 5) State.doLeapAbort).on
    (val.testBit 6) State.doFloorRaise

/-- AON_MODE_REQ (R61, R86): a code that the table does not give is refused. (DEDUCED, assumption log 34) -/
def State.modeReq (s : State) (val : Nat) (i2c : Bool) : State :=
  let key := val / 65536 % 65536
  match val % 16 with
  | 1 => s.doReqPark key i2c
  | 2 => s.doReqHold key i2c
  | 3 => s.doReqWarm key i2c
  | 4 => s.doReqTest key i2c
  | 5 => s.doReqService key i2c
  | 6 => s.doReqResume key i2c
  | _ => s.request key (fun t => t.reqResult 2)

/-- MAC_CTL (R98, R103, R108, R124). -/
def State.ctlMac (s : State) (p val : Nat) : State :=
  let t := if !hasMac p then s
    else if val % 2 = 0 then s.shutdown p
    else if s.flag (MAC_CTL_EN p) then s else s.enable p
  let t := if p < 64 then t.pauseShow p else t
  t.on (val.testBit 6 && decide (p < 64)) (fun u => u.doWakeTx p)

/-- CLS_COMMIT (R192, R199): a write of both bits is ignored and counted. (DEDUCED, assumption log 32) -/
def State.ctlCommit (s : State) (val : Nat) : State :=
  if val % 4 = 3 then s.minor srcHostOther
  else (s.on (val.testBit 0) State.doCommitGo).on (val.testBit 1) State.doCommitDiscard

/-- TSY_DOMn_CMD: the commands of one write apply in the order SET, STEP, SLEW (R289). (DEDUCED, assumption log 32) -/
def State.ctlDom (s : State) (n val : Nat) : State :=
  ((s.on (val.testBit 1) (fun t => t.doDomainSet n)).on (val.testBit 0) (fun t => t.doDomainStep n)).on (val.testBit 2) (fun t => t.doDomainSlew n)

/-- A change of GATE_EN applies the list in the phase it has reached, or opens every gate (R312). -/
def State.enGate (s old : State) (g : GateId) : State :=
  if s.flag (GATE_GCTL_GATE_EN (gateBlock g)) = old.flag (GATE_GCTL_GATE_EN (gateBlock g)) then s else s.gateApply g

/-- A write of a port's burst size finds the credit of its shapers as it stood before (R309). -/
def State.burstWrite (s old : State) (o : Nat) : State :=
  if 0x700000 ≤ o ∧ o < 0x788000 ∧ 0x100 ≤ (o - 0x700000) % 0x2000 then { s with shapers := (old.cbsTouch ((o - 0x700000) / 0x2000)).shapers } else s

/-- GCTL (R317, R319): CHANGE and CANCEL of one write both act on the state before it. (DEDUCED, assumption log 32) -/
def State.ctlGate (s : State) (g : GateId) (val : Nat) : State :=
  if val.testBit 1 && val.testBit 2 then
    if s.flag (GATE_GSTATUS_PENDING (gateBlock g)) then (s.minor srcHostOther).doGateCancel g else s.doGateChange g
  else (s.on (val.testBit 1) (fun t => t.doGateChange g)).on (val.testBit 2) (fun t => t.doGateCancel g)

/-- HDM_DMAc_CTL (R432, R440). -/
def State.ctlDma (s : State) (c val : Nat) : State :=
  let t := if !val.testBit 2 then s.dmaShutdown c else if s.flag (HDM_DMA_CTL_EN c) then s else s.dmaEnable c
  (t.on (val.testBit 0) (fun u => u.dmaGo c)).on (val.testBit 1) (fun u => u.dmaStop c)

/-- HDM_RINGn_CFG.EN (R445). -/
def State.ctlRing (s : State) (n val : Nat) : State :=
  if val % 2 = 1 then s.ringEnable n else (s.setF (HDM_RING_STATUS_EN_PENDING n) 0).ringStop n

/-- FLT_GRPg_ACK (R459). -/
def State.ctlAck (s : State) (g val : Nat) : State :=
  if !val.testBit 0 then s
  else
    match val / 2 % 4 with
    | 1 => s.doFaultAckHandled g
    | 2 => s.doFaultAckReact g
    | _ => if s.getF (FLT_GRP_STATUS_STATE g) = 1 then s else s.minor srcHostOther

/-- PPS_OUT (R297): an enable, a change of domain or of offset gives no pulse of its own. -/
def State.ctlPps (s old : State) : State :=
  if (s.flag TSY_PPS_OUT_CFG_EN && !old.flag TSY_PPS_OUT_CFG_EN) || s.getF TSY_PPS_OUT_CFG_DOM != old.getF TSY_PPS_OUT_CFG_DOM ||
    s.getF TSY_PPS_OUT_OFS_OFFSET_NS != old.getF TSY_PPS_OUT_OFS_OFFSET_NS then s.ppsArm else s

/-- TLY_CTL and TLY_CFG (R525, R529, R531). -/
def State.ctlTly (s : State) (val : Nat) : State :=
  ((((s.on (val.testBit 0) State.clearPorts).on (val.testBit 1) State.clearEvt).on (val.testBit 2) State.clearStrm).on (val.testBit 3) State.snapStart).on
    (val.testBit 4) State.doSnapStop
def State.cfgTly (s old : State) : State :=
  let t := if s.getF TLY_CFG_SNAP_PERIOD_MS = old.getF TLY_CFG_SNAP_PERIOD_MS then s
    else { s with tly := { s.tly with periodAt := s.localNs } }
  if t.getF TLY_CFG_BW_WIN_US = old.getF TLY_CFG_BW_WIN_US then t
  else { t with tly := { t.tly with cut := true, winAt := t.localNs } }

/-- A cleared CARRY of a port tally: TLY_CARRY_PORTS names the ports that still have one set (R532). -/
def State.carryPorts (s : State) (p : Nat) : State :=
  if (List.range 200).any (fun i => (s.rd (tlyOff p i + 4)).getLsbD 31) then s else s.clrBit (TLY_CARRY_PORTS_PORTS (p / 32)) (p % 32)

/-- A write of SYNCED (R292, R508): a change is recorded. -/
def State.syncedWrite (s old : State) (n : Nat) : State :=
  if s.getF (TSY_DOM_CFG_SYNCED n) = old.getF (TSY_DOM_CFG_SYNCED n) then s
  else s.cairn 0x4A n [BitVec.ofNat 8 (s.getF (TSY_DOM_CFG_SYNCED n))]

/-- What a write of `val` at `o` commands, once its fields have been taken; `old` is the state before the
write, `ev` has the bits that events set in its cycle (R7). (DEDUCED, assumption log 32) -/
def State.commands (s old : State) (o val ev : Nat) : State :=
  if o < 0x200000 then
    if o = rIMG_CTL then s.ctlImg val
    else if o = rAON_MODE_REQ then s.modeReq val false
    else if 0x100000 ≤ o ∧ o % 0x1000 = 0 then s.on (val.testBit 2) (fun t => t.doLanRetrain ((o - 0x100000) / 0x1000))
    else s
  else if o < 0x400000 then
    if 0x200000 ≤ o ∧ o < 0x244000 ∧ o % 0x1000 = 0 then s.ctlMac ((o - 0x200000) / 0x1000) val
    else if 0x200000 ≤ o ∧ o < 0x240000 ∧ o % 0x1000 = 0xC then s.pauseShow ((o - 0x200000) / 0x1000)
    else s
  else if o < 0x600000 then
    if o = rCLS_COMMIT then s.ctlCommit val
    else if o = rFWD_INS_CTL then s.on (val.testBit 9) (fun t => t.cmdGo (val / 64 % 4) (val % 64) (val.testBit 8))
    else if o = rFWD_LRING_CFG then (if old.flag FWD_LRING_CFG_EN then s else s.on (val.testBit 0) (fun t => t.useLo rFWD_LRING_BASE_LO))
    else if 0x501000 ≤ o ∧ o < 0x501800 ∧ o % 0x20 = 8 then s.on (val.testBit 3) (fun t => t.doShadowClear ((o - 0x501000) / 0x20))
    else s
  else if o < 0x700000 then
    if 0x60100C ≤ o ∧ o < 0x601400 then s.poolEval ((o - 0x60100C) / 0x40)
    else if o = rTSY_SNAP_CTL then s.on (val.testBit 0) State.doTimeSnapshot
    else if o = rTSY_PPS_OUT_CFG ∨ o = rTSY_PPS_OUT_OFS then s.ctlPps old
    else if o = rTSY_RTC_CTL then s.on (val.testBit 0) State.doRtcLoad
    else if 0x680100 ≤ o ∧ o < 0x680180 then
      (let n := (o - 0x680100) / 0x40
       if (o - 0x680100) % 0x40 = 0 then s.syncedWrite old n else if (o - 0x680100) % 0x40 = 0xC then s.ctlDom n val else s)
    else s
  else if o < 0x900000 then
    match gateAt o with
    | some g => if o = rGATE_GCTL (gateBlock g) then (s.enGate old g).ctlGate g val else s
    | none =>
      if o < 0x800000 then s.burstWrite old o
      else if o = rTWN_CTL then (s.on (val.testBit 0) State.doRoleTake).on (val.testBit 1) (fun t => t.askSwap (val / 4 % 4)) else s
  else if o < 0xB00000 then
    if o = rDRC_CTL then
      ((s.on (val.testBit 0) (fun t => t.doRankRetire (val / 2 % 8) false)).on (val.testBit 4) State.doDramRetrain).on (val.testBit 5) State.doDescOtpBurn
    else if 0xA01000 ≤ o ∧ o < 0xA01800 ∧ o % 0x40 = 0x14 then s.ctlDma ((o - 0xA01000) / 0x40) val
    else if 0xA02000 ≤ o ∧ o < 0xA02400 ∧ o % 0x40 = 8 then s.ctlRing ((o - 0xA02000) / 0x40) val
    else s
  else if o < 0xC80000 then
    if o = rFLT_INJ then s.on (val.testBit 31) (fun t => t.doFaultInject (val % 512))
    else if 0xB01000 ≤ o ∧ o < 0xB01600 ∧ o % 0x20 = 8 then s.ctlAck ((o - 0xB01000) / 0x20) val
    else if o = rAGE_CTL then s.replanPending.on (val.testBit 1) State.replan
    else if o = rCRN_CTL then
      ((s.on (val.testBit 0) State.doCairnExport).on (val.testBit 1) State.doCairnExportStop).on (val.testBit 3) State.doCairnKeyBurn
    else s
  else
    if o = rTLY_CTL then s.ctlTly val
    else if o = rTLY_CFG then s.cfgTly old
    else if o = rTLY_STRM_SEL then s.selStrm (val % 65536)
    else if 0xC80048 ≤ o ∧ o < 0xC80078 ∧ o % 8 = 4 then
      s.on (val.testBit 31 && !ev.testBit 31) (fun t => { t with strmCarry := t.strmCarry.filter (· != 8 * t.getF TLY_STRM_SEL_HANDLE + (o - 0xC8004C) / 8) })
    else if 0xC81000 ≤ o ∧ o < 0xC85000 ∧ o % 0x1000 < 0x800 ∧ o % 0x40 = 4 then
      { s with evtCount := sdel s.evtCount (32 * ((o - 0xC81000) / 0x1000) + o % 0x1000 / 0x40) }
    else if 0xC90000 ≤ o ∧ o % 8 = 4 then s.on (val.testBit 31) (fun t => t.carryPorts ((o - 0xC90000) / 0x1000))
    else s

/-! ### MACsec keys and channels (R117, R126) -/

/-- The SA that MAC_SEC_SEL selects is enabled. -/
def State.saEnabled (s : State) (p : Nat) : Bool :=
  if s.selSc p = 0 then (s.getF (MAC_SEC_TX_EN_EN p)).testBit (s.selAn p)
  else decide (s.selSc p ≤ 8) && (s.getF (MAC_SEC_RX_EN_EN p)).testBit (4 * (s.selSc p - 1) + s.selAn p)

/-- The packet number of the selected SA; a transmit SA with a new number is no longer exhausted (R118). (DEDUCED, assumption log 35) -/
def State.setPn (s : State) (p pn : Nat) : State :=
  let t := s.putSa { s.selSa p with pn := pn }
  if s.selSc p = 0 then t.clrBit (MAC_SEC_TX_EN_EXHAUSTED p) (s.selAn p) else t

/-- Take a held _LO word. -/
def State.takeLo (s : State) (o : Nat) : Option Nat × State :=
  ((s.heldLo.lookup o).map (·.toNat), { s with heldLo := s.heldLo.filter (fun e => e.1 != o) })

/-- A held low half of the packet number is applied before an SA is enabled (R9). -/
def State.usePn (s : State) (p : Nat) : State :=
  match s.takeLo (rMAC_SEC_PN_LO p) with
  | (some lo, t) => if t.saEnabled p then t.minor srcHostOther else t.setPn p ((t.selSa p).pn / 2 ^ 32 * 2 ^ 32 + lo)
  | (none, _) => s

/-- A write at offset `k`, 058h–098h, of a port's MAC block. (DEDUCED, assumption log 34) -/
def State.secWrite (s : State) (p k val : Nat) : State :=
  let o := 0x200000 + 0x1000 * p + k
  let sa := s.selSa p
  let sc := s.sc p (s.selSc p)
  if k < 0x84 ∧ s.saEnabled p = true then s.minor srcHostOther
  else if k < 0x78 then s.putSa { sa with key := sa.key.set ((k - 0x58) / 4) val }
  else if k < 0x84 then s.putSa { sa with salt := sa.salt.set ((k - 0x78) / 4) val }
  else if k = 0x84 then s.putSa { sa with ssci := val }
  else if k = 0x88 then
    if s.saEnabled p then s.minor srcHostOther else { s with heldLo := sput s.heldLo o (BitVec.ofNat 32 val) }
  else if k = 0x8C then
    if s.saEnabled p then s.minor srcHostOther
    else (let h := s.takeLo (o - 4); h.2.setPn p (val * 2 ^ 32 + h.1.getD (sa.pn % 2 ^ 32)))
  else if k = 0x90 then { s with heldLo := sput s.heldLo o (BitVec.ofNat 32 val) }
  else if k = 0x94 then (let h := s.takeLo (o - 4); h.2.putSc { sc with sci := val * 2 ^ 32 + h.1.getD (sc.sci % 2 ^ 32) })
  else s.putSc { sc with replay := val % 2 ^ 30 + val / 2 ^ 31 % 2 * 2 ^ 31 }

/-! ### Registers that take a write otherwise -/

/-- How a register takes a write: whether it takes it at all, whether a minor event counts what it refuses, and the word it takes. -/
structure Taking where
  take : Bool
  minor : Bool
  val : Nat
  deriving DecidableEq, Repr

/-- Replace bits `lo` to `lo + w − 1` of a word by those of another. (DEDUCED, assumption log 33) -/
def keepBits (lo w old val : Nat) : Nat := val / 2 ^ (lo + w) * 2 ^ (lo + w) + old / 2 ^ lo % 2 ^ w * 2 ^ lo + val % 2 ^ lo

/-- A MAC register (R126).  EN stands as it is here: State.ctlMac acts on it. -/
def takeMac (p k old val : Nat) : Taking :=
  if k = 0 then
    if p = 64 ∨ p = 66 ∨ p = 67 then ⟨true, false, keepBits 0 6 old val⟩
    else if p = 65 then ⟨true, false, keepBits 0 6 old val⟩
    else ⟨true, false, keepBits 0 1 old val⟩
  else if (p = 64 ∨ p = 66 ∨ p = 67) ∧ 0x14 ≤ k then ⟨false, false, val⟩
  else if p = 65 ∧ (k = 0xC ∨ k = 0x10 ∨ k = 0x14 ∨ 0x40 ≤ k) then ⟨false, false, val⟩
  else if k = 0x40 ∧ val / 8 % 4 = 3 then ⟨true, true, keepBits 3 2 old val⟩
  else ⟨true, false, val⟩

/-- A gate control block (R319): while a change is pending the admin registers take no write. (DEDUCED, assumption log 33) -/
def State.takeGate (s : State) (g : GateId) (o old val : Nat) : Taking :=
  let b := gateBlock g
  if !s.flag (GATE_GSTATUS_PENDING b) then ⟨true, false, val⟩
  else if o = rGATE_GCTL b then ⟨true, old / 2 ^ 8 % 2 ^ 11 != val / 2 ^ 8 % 2 ^ 11, keepBits 8 11 old val⟩
  else if o = rGATE_ADMIN_BASE_NS b ∨ o = rGATE_ADMIN_BASE_SEC_LO b ∨ o = rGATE_ADMIN_BASE_SEC_HI b ∨ o = rGATE_ADMIN_CYCLE_NS b
  then ⟨false, true, val⟩
  else ⟨true, false, val⟩

/-- How a register takes a write of `val`. -/
def State.taking (s : State) (o val : Nat) : Taking :=
  let old := (s.rd o).toNat
  if 0x110000 ≤ o ∧ o < 0x118000 ∧ s.otp.is2416 = true then ⟨false, false, val⟩
  else if 0x140000 ≤ o ∧ o < 0x145000 ∧ o % 0x1000 = 0 then ⟨true, false, keepBits 0 1 old val⟩
  else if 0x200000 ≤ o ∧ o < 0x244000 then takeMac ((o - 0x200000) / 0x1000) (o % 0x1000) old val
  else if 0x501000 ≤ o ∧ o < 0x501800 ∧ (o % 0x20 = 0xC ∨ o % 0x20 = 0x10) then
    (let k := (o - 0x501000) / 0x20
     if s.tblKind k = 1 then
       (if s.bankUsed k (if o % 0x20 = 0xC then 0 else 1) then ⟨false, true, val⟩ else ⟨true, false, val⟩)
     else ⟨s.tblKind k != 2 && s.tblKind k != 3, false, val⟩)
  else if 0x700000 ≤ o ∧ o < 0x78D000 then
    (match gateAt o with | some g => s.takeGate g o old val | none => ⟨true, false, val⟩)
  else if 0xA01000 ≤ o ∧ o < 0xA01800 then
    (if o % 0x40 = 0x14 then ⟨true, false, keepBits 2 1 old val⟩
     else if 13 ≤ (o - 0xA01000) / 0x40 ∧ o % 0x40 < 0x14 then ⟨false, true, val⟩ else ⟨true, false, val⟩)
  else if 0xA02000 ≤ o ∧ o < 0xA02400 ∧ o % 0x40 = 8 then ⟨true, false, keepBits 0 1 old val⟩
  else if o = rCRN_CURSOR then ⟨true, false, val / 64 * 64⟩
  else ⟨true, false, val⟩

/-- A write that a register takes: its fields, then its commands. -/
def State.writeTaken (s : State) (o val cmdVal ev : Nat) : State :=
  if 0xC00040 ≤ o ∧ o < 0xC00060 then s.wr o (BitVec.ofNat 32 val)
  else if 0x680100 ≤ o ∧ o < 0x680180 ∧ (o - 0x680100) % 0x40 = 4 then s.setRate ((o - 0x680100) / 0x40) val
  else if descRegs.contains o then (if s.modeCode = mTest then (s.completePair o).wr o (BitVec.ofNat 32 (mergeFields (fun _ => true) 0 val (fldsAt .bar0 o))) else s)
  else
    let s := if 0x20009C ≤ o ∧ o < 0x244000 ∧ (o % 0x1000 = 0x9C ∨ o % 0x1000 = 0xA0) then s.usePn ((o - 0x200000) / 0x1000) else s
    let t := s.completePair o
    let t := if hasRwg o then t.stageOrHold o val else t
    (t.writeFields o val ev).commands s o cmdVal ev

/-- A write of 4 bytes at an aligned offset of BAR0 (R5, R9, R202, R554). -/
def State.writeReg (s : State) (o val ev : Nat) : State :=
  if !inSpan o then s.minor srcAccess
  else if fldsAt .bar0 o = [] then s
  else if 0x408000 ≤ o ∧ o < 0x409000 then s.stageOrHold o val
  else
    let k := s.taking o val
    let t := if k.minor then s.minor srcHostOther else s
    if !k.take then t
    else if 0x200000 ≤ o ∧ o < 0x240000 ∧ 0x58 ≤ o % 0x1000 ∧ o % 0x1000 < 0x9C then t.secWrite ((o - 0x200000) / 0x1000) (o % 0x1000) k.val
    else if isPairLo o && (writable (fldsAt .bar0 o) || (descRegs.contains o && s.modeCode == mTest)) then
      { t with heldLo := sput t.heldLo o (BitVec.ofNat 32 k.val) }
    else t.writeTaken o k.val val ev

/-! ### BAR4 (R424, R426, R450, R451) -/

/-- A word of the MSI-X table: message address, data, and the mask bit. (PRESUMED, assumption log 29) -/
def State.msixWrite (s : State) (o val : Nat) : State :=
  let v := (o - 0x2000) / 16
  if o % 16 = 12 then (if val.testBit 0 then s.wr4 o 1 else s.unmask v)
  else s.wr4 o (BitVec.ofNat 32 (if o % 16 = 0 then val / 4 * 4 else val))

/-- A write of 4 bytes at an aligned offset of BAR4. -/
def State.writeReg4 (s : State) (o val ev : Nat) : State :=
  if o < 0x80 ∧ o % 8 = 0 then s.doorbell (o / 8) (val % 65536)
  else if 0x1000 ≤ o ∧ o < 0x1400 then s.wr4 o (BitVec.ofNat 32 val)
  else if o = rHDM_MB_DOORBELL then s.on (val.testBit 0) State.mbRing
  else if o = rHDM_MB_STATUS then s.wr4 o (BitVec.ofNat 32 (writeWord false (s.rd4 o).toNat val ev (fldsAt .bar4 o)))
  else if 0x2000 ≤ o ∧ o < 0x3000 then s.msixWrite o val
  else s

/-! ### The meanings -/

/-- A host write to BAR0 or BAR4. -/
def State.write (s : State) (bar : Bar) (o size val ev : Nat) : State :=
  if size ≠ 4 ∨ o % 4 ≠ 0 then s.minor srcAccess
  else
    match bar with
    | .bar0 => s.writeReg o (val % 2 ^ 32) (ev % 2 ^ 32)
    | .bar4 => s.writeReg4 o (val % 2 ^ 32) (ev % 2 ^ 32)

/-- REGISTER_WRITE (R5–R9, R47); `ev` has the W1C bits that events set in its cycle. -/
def execRegisterWrite (bar : Bar) (off size val ev : Nat) (s : State) : Host.Outcome State Fault Refusal := .next (s.write bar off size val ev)

/-- BAR2_WRITE (R422, R423): an access through the DRAM window goes to the mapped address that DRC_WIN_BASE gives (R398). -/
def execBar2Write (addr size data : Nat) (s : State) : Host.Outcome State Fault Refusal :=
  .next (if 0x04000000 ≤ addr ∧ addr < 0x0C000000 then
      (if addr + size ≤ 0x0C000000 then
        s.dramWrite (s.getF DRC_WIN_BASE_MIB * 1048576 + (addr - 0x04000000)) (leBytes size data) (2 ^ size - 1)
       else s.minor srcHostOther)
    else s.bar2Write addr size data)

/-- METER_RECORD_WRITE (R323). -/
def execMeterRecordWrite (addr data : Nat) (s : State) : Host.Outcome State Fault Refusal :=
  .next (if 0x0F100000 ≤ addr ∧ addr < 0x0F200000 then s.bar2Write addr 4 data else s)

/-- RECOVERY_RECORD_WRITE (R389). -/
def execRecoveryRecordWrite (addr data : Nat) (s : State) : Host.Outcome State Fault Refusal :=
  .next (if 0x0F800000 ≤ addr ∧ addr < 0x0FA00000 then s.bar2Write addr 4 data else s)

/-- DRAM_WINDOW_WRITE (R398, R400): `addr` is the BAR2 offset, `enables` the byte enables of `data`. -/
def execDramWindowWrite (addr : Nat) (data : List Byte) (enables : Nat) (s : State) : Host.Outcome State Fault Refusal :=
  .next (if 0x04000000 ≤ addr ∧ addr + data.length ≤ 0x0C000000 then
      s.dramWrite (s.getF DRC_WIN_BASE_MIB * 1048576 + (addr - 0x04000000)) data enables
    else s)

end Sys2Proof.Machine
end

