-- ==== Sys2Proof/Machine/I2c.lean ====
section
/-!
DEFINITION. Machine/I2c.lean: the meanings of the management port (R557–R559).
-/

namespace Sys2Proof.Machine

/-- The register of a pointer that is read (R558), and whether it is served in Bivouac. -/
def i2cReg : Nat → Option (Nat × Bool)
  | 0x00 => some (rGLB_ID_LO, true)
  | 0x01 => some (rGLB_ID_HI, true)
  | 0x02 => some (rGLB_MODE, true)
  | 0x03 => some (rAON_MODE_INFO, true)
  | 0x05 => some (rFLT_STATUS, false)
  | 0x06 => some (rFLT_C4_CAUSE, true)
  | 0x07 => some (rTWN_STATUS, false)
  | 0x08 => some (rAON_PCYCLE, true)
  | 0x09 => some (rAON_OPSEC_LO, true)
  | 0x0A => some (rAON_OPSEC_HI, true)
  | 0x0B => some (rCRN_STATUS, false)
  | _ => none

/-- The word of a pointer as the port latches it; AON_OPSEC has a latch of its own here (R558, R559). -/
def State.i2cWord (s : State) (ptr : Nat) : Word :=
  match i2cReg ptr with
  | none => 0
  | some (o, aon) =>
    if s.modeCode = mBivouac ∧ aon = false then 0
    else if s.modeCode = mBivouac ∧ o = rGLB_MODE then withB 0 GLB_MODE_SENIOR s.mode.senior
    else if o = rAON_OPSEC_HI then (s.latchI2c.lookup o).getD (s.view o)
    else s.view o

/-- The state after a pointer's word has been latched: a read of AON_OPSEC_LO latches AON_OPSEC_HI (R559). -/
def State.i2cLatch (s : State) (ptr : Nat) : State :=
  if ptr = 0x09 then { s with latchI2c := sput s.latchI2c rAON_OPSEC_HI (s.view rAON_OPSEC_HI) } else s

/-- The bytes of a read transaction of `n` bytes from a pointer on, which advances after every fourth byte (R557). -/
def State.i2cBytes : Nat → State → Nat → List Byte × State
  | 0, s, _ => ([], s)
  | n + 1, s, ptr =>
    let b := leBytes 4 (s.i2cWord ptr).toNat
    let r := State.i2cBytes n (s.i2cLatch ptr) (ptr + 1)
    (b ++ r.1, r.2)

/-- I2C_READ (R557–R559). -/
def execI2cRead (ptr count : Nat) (s : State) : Host.Outcome State Fault Refusal :=
  .next (let r := State.i2cBytes ((count + 3) / 4) s ptr
    r.2.emit (.i2c (r.1.take count)))

/-- A write of four bytes at a pointer: AON_MODE_REQ under R61, and the wake register (R558). -/
def State.i2cTake (s : State) (ptr : Nat) (b : List Byte) : State :=
  if ptr = 0x04 then (if s.modeCode = mBivouac then s else s.modeReq (leNat b) true)
  else if ptr = 0x0C then s.i2cWake (b.getD 0 0).toNat
  else s

/-- I2C_WRITE (R557, R558): it takes effect on its fourth data byte, and not before. -/
def execI2cWrite (ptr : Nat) (bytes : List Byte) (s : State) : Host.Outcome State Fault Refusal :=
  .next (if bytes.length < 4 then s else s.i2cTake ptr (bytes.take 4))

end Sys2Proof.Machine
end

