-- ==== Sys2Proof/Machine/Dispatch.lean ====
section
/-!
DEFINITION. Machine/Dispatch.lean: one arm for each command, each one direct call of its meaning.
-/

namespace Sys2Proof.Machine

/-- The effect of a command on everything but the queue of waiting commands. -/
def exec (i : Instr) (s : State) : Host.Outcome State Fault Refusal :=
  match i with
  | .registerWrite bar off size val ev => Sys2Proof.Machine.execRegisterWrite bar off size val ev s
  | .pairLoRead off => Sys2Proof.Machine.execPairLoRead off s
  | .readClear bar off size ev => Sys2Proof.Machine.execReadClear bar off size ev s
  | .bar2Write addr size data => Sys2Proof.Machine.execBar2Write addr size data s
  | .tcamRowWrite addr data => Sys2Proof.Machine.execTcamRowWrite addr data s
  | .meterRecordWrite addr data => Sys2Proof.Machine.execMeterRecordWrite addr data s
  | .recoveryRecordWrite addr data => Sys2Proof.Machine.execRecoveryRecordWrite addr data s
  | .dramWindowWrite addr data enables => Sys2Proof.Machine.execDramWindowWrite addr data enables s
  | .frameArrival fid port preempt writer vhdr => Sys2Proof.Machine.execFrameArrival fid port preempt writer vhdr s
  | .parseThreadStart fid slot => Sys2Proof.Machine.execParseThreadStart fid slot s
  | .parseSlotTimeout fid => Sys2Proof.Machine.execParseSlotTimeout fid s
  | .keySetHandover fid => Sys2Proof.Machine.execKeySetHandover fid s
  | .stationLookup t => Sys2Proof.Machine.execStationLookup t s
  | .lookupResultReturn t confirmFail => Sys2Proof.Machine.execLookupResultReturn t confirmFail s
  | .actionResolution fid => Sys2Proof.Machine.execActionResolution fid s
  | .enqueue fid => Sys2Proof.Machine.execEnqueue fid s
  | .frameDataBeadRequest fid data => Sys2Proof.Machine.execFrameDataBeadRequest fid data s
  | .beadWaitServed slot => Sys2Proof.Machine.execBeadWaitServed slot s
  | .beadQuarantineEnd bead => Sys2Proof.Machine.execBeadQuarantineEnd bead s
  | .beadFree addr requester who => Sys2Proof.Machine.execBeadFree addr requester who s
  | .frameEnd fid e => Sys2Proof.Machine.execFrameEnd fid e s
  | .cutThroughStart fid port => Sys2Proof.Machine.execCutThroughStart fid port s
  | .schedulerSelect port => Sys2Proof.Machine.execSchedulerSelect port s
  | .dequeueEgressPass fid port => Sys2Proof.Machine.execDequeueEgressPass fid port s
  | .egressResolution fid port => Sys2Proof.Machine.execEgressResolution fid port s
  | .rewriteThreadStart fid port slot => Sys2Proof.Machine.execRewriteThreadStart fid port slot s
  | .copyTransmitEnd fid port => Sys2Proof.Machine.execCopyTransmitEnd fid port s
  | .recirculateEntry fid newFid => Sys2Proof.Machine.execRecirculateEntry fid newFid s
  | .nop e sl => Sys2Proof.Machine.execNop e sl s
  | .add e sl d a b => Sys2Proof.Machine.execAdd e sl d a b s
  | .sub e sl d a b => Sys2Proof.Machine.execSub e sl d a b s
  | .andW e sl d a b => Sys2Proof.Machine.execAndW e sl d a b s
  | .orW e sl d a b => Sys2Proof.Machine.execOrW e sl d a b s
  | .xor e sl d a b => Sys2Proof.Machine.execXor e sl d a b s
  | .shf e sl d a sub => Sys2Proof.Machine.execShf e sl d a sub s
  | .addi e sl d a imm => Sys2Proof.Machine.execAddi e sl d a imm s
  | .andi e sl d a imm => Sys2Proof.Machine.execAndi e sl d a imm s
  | .cmp e sl a b => Sys2Proof.Machine.execCmp e sl a b s
  | .cmpi e sl a imm => Sys2Proof.Machine.execCmpi e sl a imm s
  | .movi e sl d imm => Sys2Proof.Machine.execMovi e sl d imm s
  | .orh e sl d imm => Sys2Proof.Machine.execOrh e sl d imm s
  | .exr e sl d off len => Sys2Proof.Machine.execExr e sl d off len s
  | .exk e sl off len kpos => Sys2Proof.Machine.execExk e sl off len kpos s
  | .keyr e sl a kpos => Sys2Proof.Machine.execKeyr e sl a kpos s
  | .keyi e sl imm kpos => Sys2Proof.Machine.execKeyi e sl imm kpos s
  | .advh e sl a imm => Sys2Proof.Machine.execAdvh e sl a imm s
  | .setl e sl imm => Sys2Proof.Machine.execSetl e sl imm s
  | .setf e sl flag value => Sys2Proof.Machine.execSetf e sl flag value s
  | .stamp e sl => Sys2Proof.Machine.execStamp e sl s
  | .lkp e sl table keySel slot => Sys2Proof.Machine.execLkp e sl table keySel slot s
  | .ldt e sl d word slot => Sys2Proof.Machine.execLdt e sl d word slot s
  | .ldm e sl table => Sys2Proof.Machine.execLdm e sl table s
  | .stm e sl table => Sys2Proof.Machine.execStm e sl table s
  | .br e sl cond target => Sys2Proof.Machine.execBr e sl cond target s
  | .call e sl target => Sys2Proof.Machine.execCall e sl target s
  | .ret e sl => Sys2Proof.Machine.execRet e sl s
  | .jx e sl addr => Sys2Proof.Machine.execJx e sl addr s
  | .btab e sl a imm => Sys2Proof.Machine.execBtab e sl a imm s
  | .wait e sl wc arg tsel tf => Sys2Proof.Machine.execWait e sl wc arg tsel tf s
  | .waitSatisfied e sl => Sys2Proof.Machine.execWaitSatisfied e sl s
  | .waitTimeout e sl => Sys2Proof.Machine.execWaitTimeout e sl s
  | .push e sl off len kpos => Sys2Proof.Machine.execPush e sl off len kpos s
  | .pop e sl off len kpos => Sys2Proof.Machine.execPop e sl off len kpos s
  | .repl e sl off len kpos => Sys2Proof.Machine.execRepl e sl off len kpos s
  | .csum e sl off len kpos => Sys2Proof.Machine.execCsum e sl off len kpos s
  | .done e sl => Sys2Proof.Machine.execDone e sl s
  | .drop e sl reason => Sys2Proof.Machine.execDrop e sl reason s
  | .trap e sl reason => Sys2Proof.Machine.execTrap e sl reason s
  | .sampleRecord e sl => Sys2Proof.Machine.execSampleRecord e sl s
  | .housekeepingTaskStart kind slot entry => Sys2Proof.Machine.execHousekeepingTaskStart kind slot entry s
  | .patchRamScrub copy word errors => Sys2Proof.Machine.execPatchRamScrub copy word errors s
  | .patchWordRewrite copy word => Sys2Proof.Machine.execPatchWordRewrite copy word s
  | .romSignatureRecheck copy ok => Sys2Proof.Machine.execRomSignatureRecheck copy ok s
  | .commitGo => Sys2Proof.Machine.execCommitGo s
  | .stroke => Sys2Proof.Machine.execStroke s
  | .commitDiscard => Sys2Proof.Machine.execCommitDiscard s
  | .discardComplete => Sys2Proof.Machine.execDiscardComplete s
  | .generationDrained gen => Sys2Proof.Machine.execGenerationDrained gen s
  | .drainTimeout gen => Sys2Proof.Machine.execDrainTimeout gen s
  | .generationRetired gen => Sys2Proof.Machine.execGenerationRetired gen s
  | .tcamRowCheck q block row fault => Sys2Proof.Machine.execTcamRowCheck q block row fault s
  | .tableInsert table shadow => Sys2Proof.Machine.execTableInsert table shadow s
  | .tableDelete table shadow => Sys2Proof.Machine.execTableDelete table shadow s
  | .tableFind table shadow => Sys2Proof.Machine.execTableFind table shadow s
  | .tableCommandComplete => Sys2Proof.Machine.execTableCommandComplete s
  | .shadowClear table => Sys2Proof.Machine.execShadowClear table s
  | .shadowClearDone table => Sys2Proof.Machine.execShadowClearDone table s
  | .learnHoldExpiry entry => Sys2Proof.Machine.execLearnHoldExpiry entry s
  | .ageingVisit table slot => Sys2Proof.Machine.execAgeingVisit table slot s
  | .dqxSpill port tc => Sys2Proof.Machine.execDqxSpill port tc s
  | .dqxRefill port tc uncorrectable => Sys2Proof.Machine.execDqxRefill port tc uncorrectable s
  | .linkFaultDetect port lane kind => Sys2Proof.Machine.execLinkFaultDetect port lane kind s
  | .portDown port => Sys2Proof.Machine.execPortDown port s
  | .portHoldExpiry port => Sys2Proof.Machine.execPortHoldExpiry port s
  | .holdFlushComplete port => Sys2Proof.Machine.execHoldFlushComplete port s
  | .laneBringupStart lane => Sys2Proof.Machine.execLaneBringupStart lane s
  | .laneLock lane step seen => Sys2Proof.Machine.execLaneLock lane step seen s
  | .laneTrainLimitExpiry lane => Sys2Proof.Machine.execLaneTrainLimitExpiry lane s
  | .laneRetry lane => Sys2Proof.Machine.execLaneRetry lane s
  | .anRestart lane => Sys2Proof.Machine.execAnRestart lane s
  | .lanRetrain lane => Sys2Proof.Machine.execLanRetrain lane s
  | .portUp port => Sys2Proof.Machine.execPortUp port s
  | .portShutdown port => Sys2Proof.Machine.execPortShutdown port s
  | .portShutdownComplete port => Sys2Proof.Machine.execPortShutdownComplete port s
  | .pauseFrameRx port op badFcs prios => Sys2Proof.Machine.execPauseFrameRx port op badFcs prios s
  | .pauseTimerExpiry port tc => Sys2Proof.Machine.execPauseTimerExpiry port tc s
  | .pauseFrameTx port => Sys2Proof.Machine.execPauseFrameTx port s
  | .pauseRefresh port => Sys2Proof.Machine.execPauseRefresh port s
  | .verifyResponse port => Sys2Proof.Machine.execVerifyResponse port s
  | .verifyTimeout port => Sys2Proof.Machine.execVerifyTimeout port s
  | .wakeTx port => Sys2Proof.Machine.execWakeTx port s
  | .wakeBurstEnd port => Sys2Proof.Machine.execWakeBurstEnd port s
  | .reqPark key i2c => Sys2Proof.Machine.execReqPark key i2c s
  | .parkSendTimeout => Sys2Proof.Machine.execParkSendTimeout s
  | .parkDrained => Sys2Proof.Machine.execParkDrained s
  | .reqHold key i2c => Sys2Proof.Machine.execReqHold key i2c s
  | .holdPendingExecute => Sys2Proof.Machine.execHoldPendingExecute s
  | .reqWarm key i2c => Sys2Proof.Machine.execReqWarm key i2c s
  | .reqTest key i2c => Sys2Proof.Machine.execReqTest key i2c s
  | .reqService key i2c => Sys2Proof.Machine.execReqService key i2c s
  | .reqResume key i2c => Sys2Proof.Machine.execReqResume key i2c s
  | .wakePin pins levels heldMs => Sys2Proof.Machine.execWakePin pins levels heldMs s
  | .wakeDetector heard => Sys2Proof.Machine.execWakeDetector heard s
  | .wakeAlarm => Sys2Proof.Machine.execWakeAlarm s
  | .wakeI2c value => Sys2Proof.Machine.execWakeI2c value s
  | .shortAscentPwrgood => Sys2Proof.Machine.execShortAscentPwrgood s
  | .shortAscentDramReady copyOk => Sys2Proof.Machine.execShortAscentDramReady copyOk s
  | .snapshotRestored digestOk => Sys2Proof.Machine.execSnapshotRestored digestOk s
  | .railRetry => Sys2Proof.Machine.execRailRetry s
  | .aonPowerOn strap => Sys2Proof.Machine.execAonPowerOn strap s
  | .xtalStable => Sys2Proof.Machine.execXtalStable s
  | .coldReset vcoreLow => Sys2Proof.Machine.execColdReset vcoreLow s
  | .pwrgoodFall => Sys2Proof.Machine.execPwrgoodFall s
  | .porstRelease senior => Sys2Proof.Machine.execPorstRelease senior s
  | .ascentPllLock => Sys2Proof.Machine.execAscentPllLock s
  | .ascentSelfCheckPass => Sys2Proof.Machine.execAscentSelfCheckPass s
  | .arrayInitDone => Sys2Proof.Machine.execArrayInitDone s
  | .pcieLinkUp gen width => Sys2Proof.Machine.execPcieLinkUp gen width s
  | .dramTrainingDone failed => Sys2Proof.Machine.execDramTrainingDone failed s
  | .dramTrainingRetry failed => Sys2Proof.Machine.execDramTrainingRetry failed s
  | .slotVerifyDone slotB file => Sys2Proof.Machine.execSlotVerifyDone slotB file s
  | .seal => Sys2Proof.Machine.execSeal s
  | .sealTimeout => Sys2Proof.Machine.execSealTimeout s
  | .ascentLanesSettled => Sys2Proof.Machine.execAscentLanesSettled s
  | .imgPush => Sys2Proof.Machine.execImgPush s
  | .pushVerifyDone file other => Sys2Proof.Machine.execPushVerifyDone file other s
  | .slotProgramDone file => Sys2Proof.Machine.execSlotProgramDone file s
  | .floorRaise => Sys2Proof.Machine.execFloorRaise s
  | .leap => Sys2Proof.Machine.execLeap s
  | .leapAbort => Sys2Proof.Machine.execLeapAbort s
  | .leapQueuesEmpty => Sys2Proof.Machine.execLeapQueuesEmpty s
  | .leapDrainMaxExpiry => Sys2Proof.Machine.execLeapDrainMaxExpiry s
  | .domainStep n => Sys2Proof.Machine.execDomainStep n s
  | .domainSet n => Sys2Proof.Machine.execDomainSet n s
  | .domainSlew n => Sys2Proof.Machine.execDomainSlew n s
  | .slewDone n => Sys2Proof.Machine.execSlewDone n s
  | .timeSnapshot => Sys2Proof.Machine.execTimeSnapshot s
  | .ppsInCapture => Sys2Proof.Machine.execPpsInCapture s
  | .ppsOutRise => Sys2Proof.Machine.execPpsOutRise s
  | .ppsOutFall => Sys2Proof.Machine.execPpsOutFall s
  | .rtcLoad => Sys2Proof.Machine.execRtcLoad s
  | .rtcLoadApply => Sys2Proof.Machine.execRtcLoadApply s
  | .tsFifoPop port => Sys2Proof.Machine.execTsFifoPop port s
  | .gateChange g => Sys2Proof.Machine.execGateChange g s
  | .gateCancel g => Sys2Proof.Machine.execGateCancel g s
  | .gateSwitch g => Sys2Proof.Machine.execGateSwitch g s
  | .gateEntryAdvance g => Sys2Proof.Machine.execGateEntryAdvance g s
  | .heartbeatSend => Sys2Proof.Machine.execHeartbeatSend s
  | .heartbeatRx m => Sys2Proof.Machine.execHeartbeatRx m s
  | .ropeLost => Sys2Proof.Machine.execRopeLost s
  | .helloSend => Sys2Proof.Machine.execHelloSend s
  | .helloRx m => Sys2Proof.Machine.execHelloRx m s
  | .seqResumeRx m => Sys2Proof.Machine.execSeqResumeRx m s
  | .parkMsgRx ver => Sys2Proof.Machine.execParkMsgRx ver s
  | .serviceMsgRx ver fwd => Sys2Proof.Machine.execServiceMsgRx ver fwd s
  | .leapMsgRx ver => Sys2Proof.Machine.execLeapMsgRx ver s
  | .leapAbortMsgRx ver => Sys2Proof.Machine.execLeapAbortMsgRx ver s
  | .safetyMsgRx m => Sys2Proof.Machine.execSafetyMsgRx m s
  | .timeMsgSend => Sys2Proof.Machine.execTimeMsgSend s
  | .timeMsgRx m => Sys2Proof.Machine.execTimeMsgRx m s
  | .ropeFcSend => Sys2Proof.Machine.execRopeFcSend s
  | .ropeFcRx mask => Sys2Proof.Machine.execRopeFcRx mask s
  | .ropeFcRelease tc => Sys2Proof.Machine.execRopeFcRelease tc s
  | .ropeLaneLoss log => Sys2Proof.Machine.execRopeLaneLoss log s
  | .ropeReformDone => Sys2Proof.Machine.execRopeReformDone s
  | .twnSwap lane worn => Sys2Proof.Machine.execTwnSwap lane worn s
  | .swapReqRx ver lane => Sys2Proof.Machine.execSwapReqRx ver lane s
  | .swapAtApply lane => Sys2Proof.Machine.execSwapAtApply lane s
  | .roleTake => Sys2Proof.Machine.execRoleTake s
  | .frerResetTimeout handle => Sys2Proof.Machine.execFrerResetTimeout handle s
  | .rankRetire rank ue => Sys2Proof.Machine.execRankRetire rank ue s
  | .migrationDone poisoned => Sys2Proof.Machine.execMigrationDone poisoned s
  | .dramRetrain => Sys2Proof.Machine.execDramRetrain s
  | .descOtpBurn => Sys2Proof.Machine.execDescOtpBurn s
  | .refreshDue ch rank busy => Sys2Proof.Machine.execRefreshDue ch rank busy s
  | .refreshReadout ch rank code hot => Sys2Proof.Machine.execRefreshReadout ch rank code hot s
  | .refreshCatchup ch rank => Sys2Proof.Machine.execRefreshCatchup ch rank s
  | .wckOscRead ch => Sys2Proof.Machine.execWckOscRead ch s
  | .dramRequestComplete r => Sys2Proof.Machine.execDramRequestComplete r s
  | .dramRequestTimeout r => Sys2Proof.Machine.execDramRequestTimeout r s
  | .patrolScrub r => Sys2Proof.Machine.execPatrolScrub r s
  | .mbHello => Sys2Proof.Machine.execMbHello s
  | .mbEcho => Sys2Proof.Machine.execMbEcho s
  | .mbCairnClear => Sys2Proof.Machine.execMbCairnClear s
  | .mbJtagChallenge => Sys2Proof.Machine.execMbJtagChallenge s
  | .mbJtagUnlock => Sys2Proof.Machine.execMbJtagUnlock s
  | .mbOtpKey => Sys2Proof.Machine.execMbOtpKey s
  | .mbOtpRevoke => Sys2Proof.Machine.execMbOtpRevoke s
  | .dmaGo c => Sys2Proof.Machine.execDmaGo c s
  | .dmaStop c => Sys2Proof.Machine.execDmaStop c s
  | .dmaShutdown c => Sys2Proof.Machine.execDmaShutdown c s
  | .dmaBurstDone c data bad => Sys2Proof.Machine.execDmaBurstDone c data bad s
  | .dmaTransferDone c => Sys2Proof.Machine.execDmaTransferDone c s
  | .dmaRequestError c kind => Sys2Proof.Machine.execDmaRequestError c kind s
  | .ringDoorbell n val => Sys2Proof.Machine.execRingDoorbell n val s
  | .txDescriptorProcess r fid desc data => Sys2Proof.Machine.execTxDescriptorProcess r fid desc data s
  | .rxCompletion fid desc poison => Sys2Proof.Machine.execRxCompletion fid desc poison s
  | .ringShutdown n => Sys2Proof.Machine.execRingShutdown n s
  | .ringCoalTimeout n => Sys2Proof.Machine.execRingCoalTimeout n s
  | .pcieLinkChange gen width => Sys2Proof.Machine.execPcieLinkChange gen width s
  | .hostInterfaceReset perst => Sys2Proof.Machine.execHostInterfaceReset perst s
  | .msixUnmask vector => Sys2Proof.Machine.execMsixUnmask vector s
  | .faultEvent source found => Sys2Proof.Machine.execFaultEvent source found s
  | .faultAckHandled g => Sys2Proof.Machine.execFaultAckHandled g s
  | .faultAckReact g => Sys2Proof.Machine.execFaultAckReact g s
  | .belayExpiry g => Sys2Proof.Machine.execBelayExpiry g s
  | .reactionComplete g => Sys2Proof.Machine.execReactionComplete g s
  | .reactionTimeout g => Sys2Proof.Machine.execReactionTimeout g s
  | .shadowEnd g => Sys2Proof.Machine.execShadowEnd g s
  | .faultInject source => Sys2Proof.Machine.execFaultInject source s
  | .probeSend => Sys2Proof.Machine.execProbeSend s
  | .quadrantHeartbeatTimeout q => Sys2Proof.Machine.execQuadrantHeartbeatTimeout q s
  | .rwlCrcCheck bad => Sys2Proof.Machine.execRwlCrcCheck bad s
  | .holdSafetyRepeat => Sys2Proof.Machine.execHoldSafetyRepeat s
  | .replanInterval => Sys2Proof.Machine.execReplanInterval s
  | .tempExcursion sensor temp => Sys2Proof.Machine.execTempExcursion sensor temp s
  | .excursionRecovered => Sys2Proof.Machine.execExcursionRecovered s
  | .replanAfterEntry => Sys2Proof.Machine.execReplanAfterEntry s
  | .ageRun => Sys2Proof.Machine.execAgeRun s
  | .replanDone m => Sys2Proof.Machine.execReplanDone m s
  | .avsStep ack readMv fault => Sys2Proof.Machine.execAvsStep ack readMv fault s
  | .pmbusNackRetry ack readMv fault => Sys2Proof.Machine.execPmbusNackRetry ack readMv fault s
  | .roRead l => Sys2Proof.Machine.execRoRead l s
  | .eyeRead lane height width => Sys2Proof.Machine.execEyeRead lane height width s
  | .pmbusAlert rail fault => Sys2Proof.Machine.execPmbusAlert rail fault s
  | .cairnWrite writeFails => Sys2Proof.Machine.execCairnWrite writeFails s
  | .cairnIntervalEnd => Sys2Proof.Machine.execCairnIntervalEnd s
  | .cairnSampleTick sensor temp => Sys2Proof.Machine.execCairnSampleTick sensor temp s
  | .cairnExport => Sys2Proof.Machine.execCairnExport s
  | .cairnExportStop => Sys2Proof.Machine.execCairnExportStop s
  | .cairnExportDone => Sys2Proof.Machine.execCairnExportDone s
  | .cairnKeyBurn => Sys2Proof.Machine.execCairnKeyBurn s
  | .cairnClearDone => Sys2Proof.Machine.execCairnClearDone s
  | .cairnWindowRead off => Sys2Proof.Machine.execCairnWindowRead off s
  | .clearPorts => Sys2Proof.Machine.execClearPorts s
  | .clearEvt => Sys2Proof.Machine.execClearEvt s
  | .clearStrm => Sys2Proof.Machine.execClearStrm s
  | .snapGo => Sys2Proof.Machine.execSnapGo s
  | .snapStop => Sys2Proof.Machine.execSnapStop s
  | .snapPeriodic => Sys2Proof.Machine.execSnapPeriodic s
  | .snapDone => Sys2Proof.Machine.execSnapDone s
  | .bwWindowEnd => Sys2Proof.Machine.execBwWindowEnd s
  | .strmSel handle => Sys2Proof.Machine.execStrmSel handle s
  | .i2cWrite ptr bytes => Sys2Proof.Machine.execI2cWrite ptr bytes s
  | .i2cRead ptr count => Sys2Proof.Machine.execI2cRead ptr count s
  | .dramRetrainDone eyes => Sys2Proof.Machine.execDramRetrainDone eyes s
  | .lockRegained port => Sys2Proof.Machine.execLockRegained port s

end Sys2Proof.Machine
end

