-- ==== Sys2Proof/Safety.lean ====
section
/-!
DEFINITION. Safety.lean: the terms of the statements: the parts of the state and what it means that a step changed only some of them, the
canonical form of every sparse map of the state, and the register words outside a list.
-/

namespace Sys2Proof.Machine

/-- The parts of the state, one for each field of `State`. -/
inductive Part where
  | pending | now | regs | bar4 | mem | dram | readData | latch | latchI2c | heldLo | freeCtr | out | img | isSealed | otp | mode
  | flt | crn | time | gens | threads | samples | evtCount | tasks | frames | copies | buf | ports | lanes | sas | scs | patchBad
  | gates | shapers | scheds | meters | strm | strmCarry | frerAt | genUsed | mirror | lost | asmRem | trees | bw | lpm | filt | cmd
  | load | rope | dramc | dma | rings | snap | age | tly | fwd
  deriving DecidableEq, Repr

/-- A part is the same in two states. -/
def Part.same (s t : State) : Part → Prop
  | .pending => t.pending = s.pending
  | .now => t.now = s.now
  | .regs => t.regs = s.regs
  | .bar4 => t.bar4 = s.bar4
  | .mem => t.mem = s.mem
  | .dram => t.dram = s.dram
  | .readData => t.readData = s.readData
  | .latch => t.latch = s.latch
  | .latchI2c => t.latchI2c = s.latchI2c
  | .heldLo => t.heldLo = s.heldLo
  | .freeCtr => t.freeCtr = s.freeCtr
  | .out => t.out = s.out
  | .img => t.img = s.img
  | .isSealed => t.isSealed = s.isSealed
  | .otp => t.otp = s.otp
  | .mode => t.mode = s.mode
  | .flt => t.flt = s.flt
  | .crn => t.crn = s.crn
  | .time => t.time = s.time
  | .gens => t.gens = s.gens
  | .threads => t.threads = s.threads
  | .samples => t.samples = s.samples
  | .evtCount => t.evtCount = s.evtCount
  | .tasks => t.tasks = s.tasks
  | .frames => t.frames = s.frames
  | .copies => t.copies = s.copies
  | .buf => t.buf = s.buf
  | .ports => t.ports = s.ports
  | .lanes => t.lanes = s.lanes
  | .sas => t.sas = s.sas
  | .scs => t.scs = s.scs
  | .patchBad => t.patchBad = s.patchBad
  | .gates => t.gates = s.gates
  | .shapers => t.shapers = s.shapers
  | .scheds => t.scheds = s.scheds
  | .meters => t.meters = s.meters
  | .strm => t.strm = s.strm
  | .strmCarry => t.strmCarry = s.strmCarry
  | .frerAt => t.frerAt = s.frerAt
  | .genUsed => t.genUsed = s.genUsed
  | .mirror => t.mirror = s.mirror
  | .lost => t.lost = s.lost
  | .asmRem => t.asmRem = s.asmRem
  | .trees => t.trees = s.trees
  | .bw => t.bw = s.bw
  | .lpm => t.lpm = s.lpm
  | .filt => t.filt = s.filt
  | .cmd => t.cmd = s.cmd
  | .load => t.load = s.load
  | .rope => t.rope = s.rope
  | .dramc => t.dramc = s.dramc
  | .dma => t.dma = s.dma
  | .rings => t.rings = s.rings
  | .snap => t.snap = s.snap
  | .age => t.age = s.age
  | .tly => t.tly = s.tly
  | .fwd => t.fwd = s.fwd

/-- Nothing changed but the parts of a list. -/
def SameBut (l : List Part) (s t : State) : Prop := ∀ p, p ∉ l → p.same s t

/-! ### What each command may change -/

/-- Every part. -/
def allParts : List Part := [
  .pending, .now, .regs, .bar4, .mem, .dram, .readData, .latch, .latchI2c, .heldLo, .freeCtr, .out, .img, .isSealed, .otp, .mode, .flt, .crn,
  .time, .gens, .threads, .samples, .evtCount, .tasks, .frames, .copies, .buf, .ports, .lanes, .sas, .scs, .patchBad, .gates, .shapers,
  .scheds, .meters, .strm, .strmCarry, .frerAt, .genUsed, .mirror, .lost, .asmRem, .trees, .bw, .lpm, .filt, .cmd, .load, .rope, .dramc,
  .dma, .rings, .snap, .age, .tly, .fwd]

/-- The parts that an event at a fault source may reach: its reaction may drain, restart or isolate a unit, or enter Hold. -/
def eventParts : List Part := [
  .regs, .bar4, .latch, .heldLo, .freeCtr, .out, .mode, .flt, .crn, .threads, .samples, .frames, .copies, .buf, .ports, .lanes, .patchBad,
  .shapers, .scheds, .meters, .trees, .bw, .rope, .dramc, .dma, .rings, .age, .tly]

/-- The parts of the state that a command may change. -/
def mayChange : Instr → List Part
  | .registerWrite .. =>
    allParts.filter (fun p => !([Part.pending, Part.now].contains p))
  | .pairLoRead .. | .readClear .. =>
    eventParts ++ [.readData, .time]
  | .bar2Write .. | .tcamRowWrite .. | .meterRecordWrite .. | .recoveryRecordWrite .. | .dmaBurstDone .. | .dmaTransferDone .. =>
    eventParts ++ [.mem, .dram, .gens, .mirror, .lost, .cmd]
  | .dramWindowWrite .. =>
    eventParts ++ [.mem, .dram, .gens, .cmd]
  | .frameArrival .. =>
    [.frames]
  | .parseThreadStart .. =>
    [.regs, .threads, .frames]
  | .parseSlotTimeout .. | .keySetHandover .. | .beadWaitServed .. =>
    [.regs, .bar4, .out, .threads, .samples, .frames, .copies, .buf, .tly]
  | .stationLookup .. =>
    [.regs, .frames, .copies, .tly]
  | .lookupResultReturn .. =>
    eventParts ++ [.mem, .asmRem]
  | .actionResolution .. =>
    [.regs, .bar4, .mem, .out, .frames, .buf, .meters, .strm, .strmCarry, .frerAt, .genUsed, .filt, .tly]
  | .enqueue .. =>
    [.regs, .bar4, .out, .frames, .copies, .buf, .shapers, .tly]
  | .frameDataBeadRequest .. =>
    [.regs, .bar4, .mem, .out, .threads, .samples, .frames, .copies, .buf, .strm, .strmCarry, .tly]
  | .beadQuarantineEnd .. =>
    [.regs, .bar4, .out, .buf]
  | .beadFree .. | .schedulerSelect .. | .patchRamScrub .. | .romSignatureRecheck .. | .drainTimeout .. | .leapAbortMsgRx .. | .swapReqRx .. |
  .refreshReadout .. | .dramRequestComplete .. | .dramRequestTimeout .. | .patrolScrub .. | .dmaGo .. | .dmaRequestError .. |
  .ringDoorbell .. | .faultAckHandled .. | .faultAckReact .. | .belayExpiry .. | .reactionTimeout .. | .faultInject .. |
  .quadrantHeartbeatTimeout .. | .rwlCrcCheck .. | .replanDone .. | .avsStep .. | .pmbusNackRetry .. | .roRead .. | .pmbusAlert .. |
  .cairnWrite .. =>
    eventParts
  | .frameEnd .. =>
    [.regs, .bar4, .mem, .out, .threads, .samples, .frames, .copies, .buf, .ports, .sas, .meters, .strm, .strmCarry, .bw, .filt, .tly]
  | .cutThroughStart .. =>
    [.regs, .copies]
  | .dequeueEgressPass .. =>
    [.copies]
  | .egressResolution .. | .dqxRefill .. | .holdFlushComplete .. =>
    [.regs, .bar4, .out, .threads, .samples, .frames, .copies, .buf]
  | .rewriteThreadStart .. =>
    [.regs, .bar4, .out, .threads, .samples, .frames, .copies, .buf, .sas]
  | .copyTransmitEnd .. | .recirculateEntry .. | .domainStep .. | .domainSet .. | .rxCompletion .. =>
    eventParts ++ [.time]
  | .nop .. | .add .. | .sub .. | .andW .. | .orW .. | .xor .. | .shf .. | .addi .. | .andi .. | .cmp .. | .cmpi .. | .movi .. | .orh .. |
  .exr .. | .exk .. | .keyr .. | .keyi .. | .advh .. | .setl .. | .setf .. | .stamp .. | .lkp .. | .ldt .. | .ldm .. | .br .. | .call .. |
  .ret .. | .jx .. | .btab .. | .wait .. | .waitTimeout .. | .push .. | .pop .. | .repl .. | .csum .. | .drop .. | .trap .. =>
    eventParts ++ [.evtCount, .tasks]
  | .stm .. =>
    eventParts ++ [.mem, .evtCount, .tasks]
  | .waitSatisfied .. =>
    [.regs, .bar4, .out, .threads, .samples, .evtCount, .frames, .copies, .buf, .sas]
  | .done .. =>
    eventParts ++ [.evtCount, .tasks, .sas]
  | .sampleRecord .. =>
    [.regs, .samples]
  | .housekeepingTaskStart .. =>
    [.regs, .threads, .tasks]
  | .patchWordRewrite .. =>
    [.regs, .patchBad]
  | .commitGo .. | .generationDrained .. =>
    [.regs, .bar4, .out, .gens]
  | .stroke .. | .tableCommandComplete .. =>
    eventParts ++ [.mem, .dram, .gens, .mirror, .lost, .lpm, .cmd, .fwd]
  | .commitDiscard .. =>
    [.regs, .gens]
  | .discardComplete .. =>
    eventParts ++ [.mem, .dram, .gens, .mirror, .lost, .lpm, .cmd]
  | .generationRetired .. =>
    [.regs, .bar4, .mem, .dram, .out, .gens, .lpm, .dramc]
  | .tcamRowCheck .. | .reactionComplete .. =>
    eventParts ++ [.mem, .mirror, .lost]
  | .tableInsert .. | .tableDelete .. | .tableFind .. =>
    [.regs, .mem, .dram, .gens, .lpm, .cmd, .dramc]
  | .shadowClear .. =>
    [.regs, .fwd]
  | .shadowClearDone .. =>
    [.regs, .mem, .fwd]
  | .learnHoldExpiry .. =>
    [.regs, .bar4, .out, .filt, .fwd]
  | .ageingVisit .. =>
    [.regs, .bar4, .mem, .dram, .out, .gens, .dramc, .fwd]
  | .dqxSpill .. =>
    [.regs, .bar4, .out, .copies, .buf]
  | .linkFaultDetect .. | .ropeLaneLoss .. =>
    [.regs, .bar4, .out, .crn, .threads, .samples, .frames, .copies, .buf, .ports, .shapers, .meters, .bw, .rope, .tly]
  | .portDown .. =>
    [.regs, .bar4, .out, .threads, .samples, .frames, .copies, .buf, .ports, .meters, .bw, .rope, .tly]
  | .portHoldExpiry .. =>
    [.regs, .bar4, .out, .threads, .samples, .frames, .copies, .buf, .ports]
  | .laneBringupStart .. | .laneRetry .. | .anRestart .. =>
    [.regs, .lanes]
  | .laneLock .. =>
    [.regs, .bar4, .out, .crn, .threads, .samples, .frames, .copies, .buf, .ports, .lanes, .shapers, .rope]
  | .laneTrainLimitExpiry .. =>
    [.regs, .bar4, .out, .threads, .samples, .frames, .copies, .buf, .ports, .lanes, .meters, .bw, .rope, .tly]
  | .lanRetrain .. =>
    [.regs, .bar4, .out, .crn, .threads, .samples, .frames, .copies, .buf, .ports, .lanes, .shapers, .meters, .bw, .rope, .tly]
  | .portUp .. | .lockRegained .. =>
    [.regs, .bar4, .out, .crn, .threads, .samples, .frames, .copies, .buf, .ports, .rope]
  | .portShutdown .. | .verifyResponse .. | .timeSnapshot .. | .ringShutdown .. | .ageRun .. | .eyeRead .. | .clearPorts .. | .clearEvt .. |
  .strmSel .. =>
    [.regs]
  | .portShutdownComplete .. =>
    [.regs, .bar4, .out, .crn, .threads, .samples, .frames, .copies, .buf, .ports, .meters, .bw, .rope, .tly]
  | .pauseFrameRx .. =>
    [.regs, .bar4, .out, .ports, .bw]
  | .pauseTimerExpiry .. | .wakeBurstEnd .. =>
    [.regs, .ports]
  | .pauseFrameTx .. | .pauseRefresh .. | .wakeTx .. =>
    [.regs, .bar4, .out, .ports]
  | .verifyTimeout .. =>
    [.regs, .out, .ports]
  | .reqPark .. =>
    [.regs, .out, .mode]
  | .parkSendTimeout .. =>
    [.regs, .bar4, .out, .mode, .threads, .samples, .frames, .copies, .buf]
  | .parkDrained .. | .i2cWrite .. =>
    allParts.filter (fun p => !([Part.pending, Part.now, Part.otp].contains p))
  | .reqHold .. | .holdPendingExecute .. =>
    [.regs, .bar4, .freeCtr, .out, .mode, .flt, .threads, .samples, .frames, .copies, .buf, .dramc, .age, .tly]
  | .reqWarm .. | .aonPowerOn .. | .coldReset .. | .pwrgoodFall .. =>
    allParts.filter (fun p => !([Part.pending, Part.now, Part.freeCtr, Part.otp].contains p))
  | .reqTest .. | .leapQueuesEmpty .. =>
    [.regs, .bar4, .out, .mode, .load, .dramc, .age]
  | .reqService .. =>
    [.regs, .bar4, .out, .mode, .dramc, .age]
  | .reqResume .. | .ascentLanesSettled .. =>
    [.regs, .bar4, .out, .mode, .crn, .rope, .dramc, .age]
  | .wakePin .. | .wakeDetector .. | .wakeAlarm .. | .wakeI2c .. =>
    [.regs, .bar4, .out, .mode, .rope, .dramc, .age]
  | .shortAscentPwrgood .. | .ascentPllLock .. =>
    [.mode, .time]
  | .shortAscentDramReady .. =>
    [.regs, .bar4, .mem, .dram, .out, .img, .isSealed, .mode, .crn, .gens, .threads, .samples, .frames, .copies, .buf, .ports, .lanes, .meters,
      .frerAt, .genUsed, .bw, .load, .rope, .dramc, .snap, .tly]
  | .snapshotRestored .. =>
    [.regs, .bar4, .mem, .dram, .out, .mode, .crn, .time, .gens, .sas, .scs, .gates, .strm, .strmCarry, .mirror, .lost, .bw, .lpm, .snap]
  | .railRetry .. =>
    [.out, .mode]
  | .xtalStable .. =>
    [.mode]
  | .porstRelease .. =>
    [.regs, .mode, .rope]
  | .ascentSelfCheckPass .. =>
    [.regs, .bar4, .out, .mode, .crn, .load]
  | .arrayInitDone .. =>
    [.regs, .bar4, .mem, .dram, .out, .img, .isSealed, .mode, .crn, .gens, .threads, .samples, .frames, .copies, .buf, .ports, .lanes, .meters,
      .frerAt, .genUsed, .bw, .load, .rope, .tly]
  | .pcieLinkUp .. =>
    [.regs, .bar4, .out, .mode, .crn, .shapers]
  | .dramTrainingDone .. | .dramTrainingRetry .. =>
    [.regs, .bar4, .mem, .dram, .out, .img, .isSealed, .mode, .crn, .gens, .threads, .samples, .frames, .copies, .buf, .ports, .lanes, .meters,
      .frerAt, .genUsed, .bw, .load, .rope, .dramc, .tly]
  | .slotVerifyDone .. | .pushVerifyDone .. =>
    [.regs, .bar4, .mem, .dram, .heldLo, .out, .img, .isSealed, .mode, .flt, .crn, .gens, .threads, .samples, .frames, .copies, .buf, .ports, .lanes,
      .meters, .strm, .strmCarry, .frerAt, .genUsed, .mirror, .lost, .asmRem, .trees, .bw, .lpm, .filt, .cmd, .load, .rope, .dramc, .age, .tly,
      .fwd]
  | .seal .. | .sealTimeout .. =>
    [.regs, .bar4, .out, .isSealed, .mode, .lanes, .load]
  | .imgPush .. =>
    [.regs, .heldLo, .mode, .load]
  | .slotProgramDone .. =>
    [.regs, .load]
  | .floorRaise .. | .descOtpBurn .. | .cairnKeyBurn .. =>
    [.regs, .bar4, .out, .otp, .crn]
  | .leap .. | .leapAbort .. =>
    [.regs, .bar4, .out, .mode, .load, .rope]
  | .leapDrainMaxExpiry .. =>
    [.regs, .bar4, .out, .mode, .threads, .samples, .frames, .copies, .buf, .load, .dramc, .age, .tly]
  | .domainSlew .. =>
    [.regs, .time]
  | .slewDone .. =>
    [.regs, .bar4, .out, .time]
  | .ppsInCapture .. | .cairnExportStop .. =>
    [.regs, .bar4, .out]
  | .ppsOutRise .. | .ppsOutFall .. =>
    [.out, .time]
  | .rtcLoad .. | .rtcLoadApply .. =>
    [.time]
  | .tsFifoPop .. =>
    [.regs, .readData, .time]
  | .gateChange .. =>
    eventParts ++ [.gates]
  | .gateCancel .. =>
    [.regs, .gates]
  | .gateSwitch .. =>
    [.regs, .bar4, .mem, .out, .copies, .gates, .shapers, .scheds]
  | .gateEntryAdvance .. =>
    [.regs, .bar4, .out, .copies, .shapers, .scheds]
  | .heartbeatSend .. | .timeMsgSend .. =>
    [.out, .rope]
  | .heartbeatRx .. | .ropeLost .. | .helloRx .. | .parkMsgRx .. | .serviceMsgRx .. =>
    eventParts ++ [.load]
  | .helloSend .. | .wckOscRead .. | .holdSafetyRepeat .. =>
    [.out]
  | .seqResumeRx .. =>
    eventParts ++ [.mem]
  | .leapMsgRx .. =>
    eventParts ++ [.mem, .load]
  | .safetyMsgRx .. =>
    [.regs, .bar4, .out, .mode, .crn, .load, .rope, .dramc, .age]
  | .timeMsgRx .. =>
    [.regs, .freeCtr, .rope]
  | .ropeFcSend .. =>
    [.regs, .out]
  | .ropeFcRx .. | .ropeFcRelease .. | .roleTake .. =>
    [.regs, .rope]
  | .ropeReformDone .. | .swapAtApply .. =>
    [.regs, .bar4, .out, .crn, .threads, .samples, .frames, .copies, .buf, .ports, .shapers, .rope]
  | .twnSwap .. =>
    [.regs, .bar4, .freeCtr, .out, .crn, .threads, .samples, .frames, .copies, .buf, .ports, .shapers, .meters, .bw, .rope, .tly]
  | .frerResetTimeout .. =>
    [.mem, .frerAt]
  | .rankRetire .. =>
    [.regs, .bar4, .out, .crn, .dramc]
  | .migrationDone .. =>
    [.regs, .bar4, .out, .crn, .dramc, .age]
  | .dramRetrain .. =>
    [.dramc]
  | .refreshDue .. | .refreshCatchup .. =>
    [.regs, .out, .dramc]
  | .mbHello .. | .mbEcho .. | .mbCairnClear .. | .mbJtagChallenge .. | .mbJtagUnlock .. | .mbOtpKey .. | .mbOtpRevoke .. =>
    eventParts ++ [.otp, .load]
  | .dmaStop .. =>
    [.dma]
  | .dmaShutdown .. =>
    [.regs, .dma]
  | .txDescriptorProcess .. =>
    [.regs, .bar4, .out, .frames, .rings]
  | .ringCoalTimeout .. =>
    [.bar4, .out, .rings]
  | .pcieLinkChange .. =>
    [.regs, .bar4, .out, .crn, .shapers]
  | .hostInterfaceReset .. =>
    [.regs, .bar4, .latch, .heldLo, .out, .crn, .threads, .samples, .frames, .copies, .buf, .shapers, .dma, .rings, .tly]
  | .msixUnmask .. =>
    [.bar4, .out]
  | .faultEvent .. =>
    eventParts ++ [.tasks]
  | .shadowEnd .. =>
    [.regs, .flt]
  | .probeSend .. =>
    [.flt]
  | .replanInterval .. | .excursionRecovered .. | .replanAfterEntry .. =>
    [.regs, .age]
  | .tempExcursion .. =>
    [.regs, .bar4, .out, .crn, .age]
  | .cairnIntervalEnd .. =>
    [.regs, .bar4, .out, .flt, .crn]
  | .cairnSampleTick .. =>
    [.crn]
  | .cairnExport .. =>
    [.regs, .heldLo, .crn]
  | .cairnExportDone .. | .cairnClearDone .. =>
    [.regs, .bar4, .out, .crn]
  | .cairnWindowRead .. =>
    [.regs, .readData, .latch]
  | .clearStrm .. =>
    [.regs, .strm, .strmCarry]
  | .snapGo .. | .snapPeriodic .. =>
    [.regs, .bar4, .heldLo, .out, .tly]
  | .snapStop .. =>
    [.regs, .tly]
  | .snapDone .. =>
    [.regs, .bar4, .out, .tly]
  | .bwWindowEnd .. =>
    [.regs, .bw, .tly]
  | .i2cRead .. =>
    [.latchI2c, .out]
  | .dramRetrainDone .. =>
    [.regs, .bar4, .out, .dramc]

/-! ### Terms of the statements -/

/-- No register word of BAR0 changed but those of a list. -/
def RegsBut (l : List Nat) (s t : State) : Prop := ∀ o, o ∉ l → t.rd o = s.rd o

/-- No byte of BAR2 memory changed but `n` bytes from address `a` on. -/
def MemBut (a n : Nat) (s t : State) : Prop := ∀ x, (x < a ∨ a + n ≤ x) → sget zeroByte t.mem x = sget zeroByte s.mem x

/-- No byte of mapped DRAM changed but `n` bytes from address `a` on. -/
def DramBut (a n : Nat) (s t : State) : Prop := ∀ x, (x < a ∨ a + n ≤ x) → sget zeroByte t.dram x = sget zeroByte s.dram x

/-- A command that waits at the front takes its effect: `exec` answers a next state, of which `P` holds. -/
def Runs (c : Instr) (s : State) (P : State → Prop) : Prop := ∃ t, exec c s = .next t ∧ P t

/-- The credit registers of the shapers that an entry of a gate list moves (R309). -/
def gateCredits : GateId → List Nat
  | .port p => (List.range 8).map (rSCH_PORT_QCREDIT p)
  | .stream _ => []

/-- The key that FWD_INS_KEY0 to FWD_INS_KEY4 hold (R233). -/
def State.insKey (s : State) : List Byte := (List.range 5).flatMap (fun n => leBytes 4 (s.getF (FWD_INS_KEY_KEY n)))

/-- The words of the programmable event tallies of a quadrant. -/
def evtWords (q : Nat) : List Nat := (List.range 32).flatMap (fun n => [rTLY_Q_EVT_LO q n, rTLY_Q_EVT_LO q n + 4])

/-- A saturating counter field has counted `n` events. -/
def CountedBy (f : Fld) (n : Nat) (s t : State) : Prop := t.getF f = min (2 ^ f.width - 1) (s.getF f + n)

/-- The frames sent out so far, newest first. -/
def State.framesOut (s : State) : List Out := s.out.filter (fun o => match o with | .frame _ _ _ => true | _ => false)

/-- The registers that issuing a word may change: the event tallies of the engine's quadrant and the engine's sample (R147, R528). -/
def wordRegs (e : Nat) : List Nat :=
  evtWords (e / 4) ++ [rHSQ_SAMPLE e, rHSQ_SAMPLE_LOST e, rTLY_Q_SAMPLE_SRC (e / 4), rTLY_INT_STATUS] ++
  (List.range 32).map (fun n => rTLY_Q_EVT_SAMPLES (e / 4) n)

/-- The thread in slot `sl` of engine `e` can issue a word next, which it fetches at `a`: it does not wait, the word is in the address space
and passes its check, a word of the patch RAM is the one that stands there, and the engine is of a kind that executes it (R127, R133, R134,
R135, R146). -/
abbrev State.fetches (s : State) (e sl : Nat) (own : Instr) (kinds : List Nat) (th : Thread) (a : Nat) : Prop :=
  s.thread e sl = some th ∧ th.wait = none ∧ (s.fetchAddr th).1 = a ∧ a < 0x8800 ∧ engKind e ∈ kinds ∧
  s.patchBad.find? (fun x => x.1 == romCopy e && x.2.1 + 0x8000 == a) = none ∧
  (0x8000 ≤ a → decodeMicro e sl (s.getF (HSQ_PATCH_WORD_WORD (romCopy e) (a - 0x8000))) = some own)

/-- An event at a source would be severe: no reaction shadows the source, and its window, which begins anew where it has run out,
reaches N (R455). -/
abbrev State.severeNow (s : State) (src : Nat) : Prop :=
  s.shadowOf src = none ∧ s.getF (FLT_SRC_CFG_N src) ≤ (if s.getF (FLT_SRC_STATE_WIN_COUNT src) = 0 ∨
    (s.flt.winStart.lookup src).getD 0 + tUs (s.getF (FLT_SRC_CFG_W_US src)) ≤ s.now then 1 else s.getF (FLT_SRC_STATE_WIN_COUNT src) + 1)

/-- A detector's event reaches the collector (R65, R455): not in Bivouac, not in reset, and its monitor is armed. -/
abbrev State.detects (s : State) (src : Nat) : Prop := s.modeCode ≠ mBivouac ∧ s.mode.porst = false ∧ src < 412 ∧ s.unarmed src = false

/-- An event that the collector takes, of a unit that has power (R24), where no frame, copy or thread is lost to it (R143, R254, R458). -/
abbrev State.reaches (s : State) (src : Nat) (u : FUnit) (v : Option Look) : Prop :=
  s.detects src ∧ s.gatedSource src u = false ∧ (losesVictim src = false ∨ v = none) ∧ s.romVictim src v = none

/-- No rule defines a register at an offset of BAR0 (R554). -/
abbrev undefinedAt (o : Nat) : Prop :=
  o % 4 = 0 ∧ fldsAt .bar0 o = [] ∧ isPairLo o = false ∧ latched o = false ∧ ¬(0xC01000 ≤ o ∧ o < 0xC02000) ∧ ¬(0x681000 ≤ o ∧ o < 0x681440)

/-- One to four generations are outstanding, and at most three while a commit waits for its stroke (R194, R198). -/
def GenBlock.bounded (g : GenBlock) : Prop := 1 ≤ g.outs.length ∧ g.outs.length ≤ 4 ∧ (g.op = 1 → g.outs.length ≤ 3)

/-- An event at a source would be minor: no reaction shadows the source, and its window does not reach N (R455, R466). -/
abbrev State.quiet (s : State) (src : Nat) : Prop :=
  s.shadowOf src = none ∧ s.getF (FLT_SRC_STATE_WIN_COUNT src) + 1 < s.getF (FLT_SRC_CFG_N src)

/-- No thread changed but the one in slot `sl` of engine `e`; every thread that works for a target ended, and no other changed; the sample
points that waited for one of them have it ended (R147), and no other sample changed. -/
def ThreadsBut (e sl : Nat) (s t : State) : Prop := ∀ e' sl', ¬(e' = e ∧ sl' = sl) → t.thread e' sl' = s.thread e' sl'
def ThreadsEnd (tg : Target) (s t : State) : Prop := t.threads = s.threads.filter (fun x => x.target != tg)
def SamplesEnd (tg : Target) (s t : State) : Prop :=
  t.samples = s.samples.map (fun x => if s.threads.any (fun th => th.target == tg && th.eng == x.eng && th.slot == x.slot) then { x with ended := true } else x)

/-- No frame changed but one; no copy changed but one. -/
def FramesBut (fid : Nat) (s t : State) : Prop := ∀ i, i ≠ fid → t.frame i = s.frame i
def CopiesBut (fid p : Nat) (s t : State) : Prop := ∀ i q, ¬(i = fid ∧ q = p) → t.copy i q = s.copy i q

/-- No port's record changed but one; no lane's but one. -/
def PortsBut (p : Nat) (s t : State) : Prop := ∀ q, q ≠ p → t.port q = s.port q
def LanesBut (c : Nat) (s t : State) : Prop := ∀ d, d ≠ c → t.lane d = s.lane d

/-- The words of some tallies of a port, with what reports a wrap of them (R521, R532). -/
def tallyWords (p : Nat) (l : List Nat) : List Nat :=
  l.flatMap (fun i => [tlyOff p i, tlyOff p i + 4]) ++ [rTLY_CARRY_PORTS (p / 32), rTLY_INT_STATUS]

/-- A port's tally has counted `n` (R521). -/
def TalliedBy (p i n : Nat) (s t : State) : Prop := t.tally (tlyOff p i) = (s.tally (tlyOff p i) + n) % 2 ^ 48

/-- The DRAM registers that follow the mode (R402, R404), and every register that a change of the mode may write. -/
def dramModeRegs : List Nat :=
  rDRC_STATUS :: (List.range 4).flatMap (fun c => [rDRC_CH_STATE c, rDRC_CH_REFRESH c, rDRC_CH_POSTPONE c])
def modeRegs : List Nat := [rGLB_MODE, rGLB_INT_STATUS, rAON_MODE_INFO, rAGE_STATUS] ++ dramModeRegs

/-- A mode is entered (R60, R87): its code, the code before and the cause are reported, and no transition is under way. -/
def EntersMode (m cause : Nat) (s t : State) : Prop :=
  t.modeCode = m ∧ t.getF AON_MODE_INFO_PREV = s.modeCode ∧ t.getF AON_MODE_INFO_CAUSE = cause ∧ t.inTransition = false

/-- A request can be taken now (R61, R62): its key is right, the device is neither in Bivouac nor held in reset, and no transition is
under way. -/
abbrev State.asks (s : State) : Prop := s.modeCode ≠ mBivouac ∧ s.mode.porst = false ∧ s.moving = false

/-- A wake event starts a short Ascent (R73, R77): the cause is wake, the first rail is commanded on, a new session begins. -/
def Wakes (s t : State) : Prop :=
  EntersMode mAscent 2 s t ∧ t.mode.ascent = .short ∧ t.mode.step = 1 ∧ t.mode.wakeAt = s.now ∧ t.mode.pwrgood = false ∧
  t.flag AON_RESET_CAUSE_WAKE = true ∧ Out.pmbus 0 0x01 0x80 ∈ t.out ∧
  t.rope = { s.rope with session := (s.rope.session + 1) % 65536, counter := 0 } ∧
  RegsBut (modeRegs ++ [rAON_WAKE_CAUSE, rAON_RESET_CAUSE, rCRN_STATUS]) s t ∧
  SameBut [.regs, .bar4, .out, .mode, .rope, .dramc, .age] s t

/-- The registers that isolate units. -/
def isoRegs : List Nat := [rFLT_ISO, rFLT_ISO_PORTS_LO, rFLT_ISO_PORTS_HI, rFLT_ISO_BANKS, rFLT_ISO_ENG]

/-- The memory descriptor names no other register than those that report it (R391). -/
abbrev Otp.descGood (o : Otp) : Prop := ∀ e ∈ o.desc, e.1 ∈ descRegs

/-- No word of BAR4 changed but those of a list. -/
def Bar4But (l : List Nat) (s t : State) : Prop := ∀ o, o ∉ l → t.rd4 o = s.rd4 o

/-- The device has answered mailbox request `q` (R426, R427): the response stands in HDM_MB_RSP, DONE is set and BUSY clear, MB_DONE is
raised, and nothing else of BAR4 and of the registers has changed but those of two lists. -/
def Answers (q : MbReq) (status : Nat) (pay : List Byte) (regs : List Nat) (parts : List Part) (s t : State) : Prop :=
  (t.bar4Bytes 0x1400 256).take (16 + pay.length) = mbResponse q status pay ∧
  HDM_MB_STATUS_DONE.get (t.rd4 rHDM_MB_STATUS) = 1 ∧ HDM_MB_STATUS_BUSY.get (t.rd4 rHDM_MB_STATUS) = 0 ∧ t.flag HDM_INT_STATUS_MB_DONE = true ∧
  RegsBut (rHDM_INT_STATUS :: regs) s t ∧ Bar4But (rHDM_MB_STATUS :: rMSIX_PBA 8 :: (List.range 256).map rHDM_MB_RSP) s t ∧
  SameBut ([.regs, .bar4, .out] ++ parts) s t

/-- The mailbox takes a request of an opcode (R426–R429): the device is not busy, the version is the one in force (1 for HELLO), the mode
allows it, LEN fits the buffer, and in version 2 the CRC holds. -/
abbrev State.mbTakes (s : State) (op : Nat) : Prop :=
  HDM_MB_STATUS_BUSY.get (s.rd4 rHDM_MB_STATUS) = 0 ∧ s.mbReq.op = op ∧ (s.mbReq.ver = if op = 0 then 1 else s.mbVer) ∧ s.mbReq.ver ≠ 0 ∧
  s.mbModeOk op = true ∧ s.mbReq.len ≤ (if s.mbReq.ver = 2 then 1008 else 240) ∧ (s.mbReq.ver = 2 → s.mbReq.crc = crc32c s.mbReq.payload)

/-- An event at a source has been counted and recorded as minor (R455, R466): nothing else of the registers but those of a list. -/
def Minor (src : Nat) (regs : List Nat) (s t : State) : Prop :=
  CountedBy (FLT_SRC_CNT_EVENTS src) 1 s t ∧
  RegsBut ([(FLT_SRC_CNT_EVENTS src).off, (FLT_SRC_STATE_WIN_COUNT src).off] ++ regs) s t

/-- No byte of BAR2 memory changed but `n` bytes from each address of a list on. -/
def MemButAll (l : List Nat) (n : Nat) (s t : State) : Prop :=
  ∀ x, (∀ a ∈ l, x < a ∨ a + n ≤ x) → sget zeroByte t.mem x = sget zeroByte s.mem x

/-- The addresses of the copies of slot `i` of bank `b` of an FDB, one in each quadrant that a write reaches (R224). -/
def State.slotCopies (s : State) (k b i : Nat) : List Nat :=
  s.liveQuads.map (fun r => s.slotAddr k b i + 0xC00000 * r - 0xC00000 * s.liveQuads.headD 0)

/-- The interrupt registers of the blocks (R425): status register, enable register, number of bits of each. -/
def intRegs : List (Nat × Nat × Nat) := [
  (rTWN_INT_STATUS, rTWN_INT_EN, 8), (rCLS_INT_STATUS, rCLS_INT_EN, 6), (rFWD_INT_STATUS, rFWD_INT_EN, 5),
  (rBPM_INT_STATUS, rBPM_INT_EN, 6), (rSCH_INT_STATUS, rSCH_INT_EN, 4), (rTSY_INT_STATUS, rTSY_INT_EN, 3),
  (rDRC_INT_STATUS, rDRC_INT_EN, 5), (rHDM_INT_STATUS, rHDM_INT_EN, 4), (rGLB_INT_STATUS, rGLB_INT_EN, 2),
  (rAGE_INT_STATUS, rAGE_INT_EN, 3), (rCRN_INT_STATUS, rCRN_INT_EN, 5), (rTLY_INT_STATUS, rTLY_INT_EN, 4)]

/-- Counters of 32 bits that a read clears (access code RC), one register of each. -/
def clearedByRead : List Nat := [
  rCLS_WREF_CNT, rBPM_BADPTR_CNT, rBPM_DFREE_CNT, rBPM_FFREE_CNT, rSWC_DQX_ERR, rSWC_DQX_FULL_CNT, rSCH_BROKEN_CNT,
  rTWN_HB_MISSED, rTWN_CREV_CNT, rHDM_ERR_CNT, rFLT_CONSEQ_CNT, rFLT_ESCAL_CNT, rAGE_REPLANS, rCRN_DROPPED, rCRN_SKIPPED,
  rTLY_SNAP_SKIP, rFWD_LEARN_POSTED, rFWD_LEARN_SUPPR]

/-- The canonical form of a park snapshot. -/
def Snap.canon (x : Snap) : Prop :=
  swf resetWord x.regs = true ∧ Memory.wf x.mem = true ∧ Memory.wf x.mirror = true

/-- The canonical form of every sparse map of the state: register words, BAR4 words, BAR2 memory, DRAM, the MRAM of the cairn store, the
TCAM mirrors, and the snapshot's copies of them. -/
def State.canon (s : State) : Prop :=
  swf resetWord s.regs = true ∧ swf resetWord4 s.bar4 = true ∧ Memory.wf s.mem = true ∧ Memory.wf s.dram = true ∧
  Memory.wf s.crn.mram = true ∧ Memory.wf s.mirror = true ∧ ∀ x ∈ s.snap, x.canon

end Sys2Proof.Machine
end

