-- ==== Sys2Proof/WellFormed.lean ====
section
/-!
DEFINITION. WellFormed.lean: the operand values that each command admits.  A command outside these ranges names nothing that
the block has; its meaning is total all the same and leaves the state as it is, or treats the access as the spec treats it.
-/

namespace Sys2Proof

/-- Ports P0–P67 (R18–R20). -/
def portIx (p : Nat) : Bool := decide (p < 68)
/-- Ports with an Ethernet MAC. -/
def macIx (p : Nat) : Bool := decide (p < 64)
/-- Lanes L0–L23. -/
def laneIx (c : Nat) : Bool := decide (c < 24)
/-- Rope lanes, with the spare (R357). -/
def ropeIx (n : Nat) : Bool := decide (n < 5)
/-- Traffic classes. -/
def tcIx (t : Nat) : Bool := decide (t < 8)
/-- Quadrants. -/
def quadIx (q : Nat) : Bool := decide (q < 4)
/-- A thread slot of an engine (R127, R128). -/
def slotIx (e sl : Nat) : Bool := decide (e < 17) && decide (sl < 64)
/-- General registers (R132). -/
def regIx (d : Nat) : Bool := decide (d < 16)
/-- The tables of FWD_TBLk. -/
def tblIx (t : Nat) : Bool := decide (t < 64)
/-- DRAM channels and logical ranks of a channel (R390). -/
def rankIx (ch r : Nat) : Bool := decide (ch < 4) && decide (r < 2)
/-- Fault groups and sources (R452). -/
def groupIx (g : Nat) : Bool := decide (g < 48)
def sourceIx (n : Nat) : Bool := decide (n < 412)
/-- General DMA channels, rings, domains, MSI-X vectors. -/
def chanIx (c : Nat) : Bool := decide (c < 32)
def ringIx (r : Nat) : Bool := decide (r < 16)
def domIx (n : Nat) : Bool := decide (n < 2)
def vecIx (v : Nat) : Bool := decide (v < 256)
/-- ROM copies (R127). -/
def copyIx (c : Nat) : Bool := decide (c < 5)
/-- A gate control block (R331). -/
def GateId.ok : GateId → Bool
  | .port p => portIx p
  | .stream g => decide (g < 256)

/-- The operands of a microword fit their fields (R134). -/
def Instr.wordWf : Instr → Bool
  | .add _ _ d a b | .sub _ _ d a b | .andW _ _ d a b | .orW _ _ d a b | .xor _ _ d a b => regIx d && regIx a && regIx b
  | .shf _ _ d a amt => regIx d && regIx a && decide (amt < 64)
  | .addi _ _ d a imm | .andi _ _ d a imm => regIx d && regIx a && decide (imm < 1024)
  | .cmp _ _ a b => regIx a && regIx b
  | .cmpi _ _ a imm | .advh _ _ a imm | .btab _ _ a imm => regIx a && decide (imm < 1024)
  | .movi _ _ d imm => regIx d && decide (imm < 16384)
  | .orh _ _ d imm => regIx d && decide (imm < 256)
  | .exr _ _ d off len => regIx d && decide (off < 256) && decide (1 ≤ len) && decide (len ≤ 16)
  | .exk _ _ off len kpos | .push _ _ off len kpos | .pop _ _ off len kpos | .repl _ _ off len kpos | .csum _ _ off len kpos =>
    decide (off < 256) && decide (1 ≤ len) && decide (len ≤ 16) && decide (kpos < 64)
  | .keyr _ _ a kpos => regIx a && decide (kpos < 64)
  | .keyi _ _ imm kpos => decide (imm < 256) && decide (kpos < 64)
  | .setl _ _ imm => decide (imm < 1024)
  | .setf _ _ flag _ => decide (flag < 64)
  | .lkp _ _ table keySel slot => decide (table < 64) && decide (keySel < 8) && decide (slot < 4)
  | .ldt _ _ d w slot => regIx d && decide (w < 8) && decide (slot < 4)
  | .ldm _ _ table | .stm _ _ table => decide (table < 64)
  | .br _ _ cond target => decide (cond < 8) && decide (target < 32768)
  | .call _ _ target => decide (target < 32768)
  | .jx _ _ addr => decide (addr < 65536)
  | .wait _ _ wc arg _ _ => decide (wc < 4) && decide (arg < 256)
  | .drop _ _ reason | .trap _ _ reason => decide (reason < 256)
  | _ => true

/-- The thread that a word, a wait or a sample command names. -/
def Instr.threadOf : Instr → Option (Nat × Nat)
  | .nop e sl | .add e sl _ _ _ | .sub e sl _ _ _ | .andW e sl _ _ _ | .orW e sl _ _ _ | .xor e sl _ _ _ | .shf e sl _ _ _
  | .addi e sl _ _ _ | .andi e sl _ _ _ | .cmp e sl _ _ | .cmpi e sl _ _ | .movi e sl _ _ | .orh e sl _ _ | .exr e sl _ _ _
  | .exk e sl _ _ _ | .keyr e sl _ _ | .keyi e sl _ _ | .advh e sl _ _ | .setl e sl _ | .setf e sl _ _ | .stamp e sl
  | .lkp e sl _ _ _ | .ldt e sl _ _ _ | .ldm e sl _ | .stm e sl _ | .br e sl _ _ | .call e sl _ | .ret e sl | .jx e sl _
  | .btab e sl _ _ | .wait e sl _ _ _ _ | .waitSatisfied e sl | .waitTimeout e sl | .push e sl _ _ _ | .pop e sl _ _ _
  | .repl e sl _ _ _ | .csum e sl _ _ _ | .done e sl | .drop e sl _ | .trap e sl _ | .sampleRecord e sl => some (e, sl)
  | _ => none

/-- A lookup's owner. -/
def Look.ok : Look → Bool
  | .frame _ => true
  | .copy _ p => portIx p
  | .thread e s slot => slotIx e s && decide (slot < 4)

/-- The operands of every other command lie in the ranges of what they name. -/
def Instr.operandsWf : Instr → Bool
  | .registerWrite _ off size val ev => decide (off < 2 ^ 24) && decide (size ≤ 8) && decide (val < 2 ^ 64) && decide (ev < 2 ^ 32)
  | .readClear _ off size ev => decide (off < 2 ^ 24) && decide (size ≤ 8) && decide (ev < 2 ^ 32)
  | .pairLoRead off => decide (off < 2 ^ 24) && off % 4 == 0
  | .bar2Write addr size data => decide (addr < 2 ^ 28) && decide (data < 2 ^ (8 * size))
  | .tcamRowWrite addr data | .meterRecordWrite addr data | .recoveryRecordWrite addr data =>
    decide (addr < 2 ^ 28) && addr % 4 == 0 && decide (data < 2 ^ 32)
  | .dramWindowWrite addr data enables => decide (addr < 2 ^ 28) && decide (enables < 2 ^ data.length)
  | .frameArrival _ port _ writer vhdr => portIx port && decide (writer < 3) && (vhdr.isEmpty || port == 65)
  | .parseThreadStart _ slot | .rewriteThreadStart _ _ slot => decide (slot < 64)
  | .stationLookup t | .lookupResultReturn t _ => t.ok
  | .beadWaitServed slot => decide (12 ≤ slot) && decide (slot < 16)
  | .beadFree _ _ who => who.ok
  | .cutThroughStart _ port | .schedulerSelect port | .dequeueEgressPass _ port | .egressResolution _ port
  | .copyTransmitEnd _ port | .portDown port | .portHoldExpiry port | .holdFlushComplete port | .portUp port | .portShutdown port
  | .portShutdownComplete port | .tsFifoPop port | .lockRegained port => portIx port
  | .linkFaultDetect port _ kind => portIx port && decide (kind < 6)
  | .pauseFrameRx port _ _ prios => macIx port && prios.all (fun e => tcIx e.1 && decide (e.2 < 65536))
  | .pauseTimerExpiry port tc => macIx port && tcIx tc
  | .pauseFrameTx port | .pauseRefresh port | .verifyResponse port | .verifyTimeout port | .wakeTx port | .wakeBurstEnd port => macIx port
  | .housekeepingTaskStart kind slot entry => decide (kind < 5) && decide (slot < 64) && decide (entry < 65536)
  | .patchRamScrub copy w _ | .patchWordRewrite copy w => copyIx copy && decide (w < 2048)
  | .romSignatureRecheck copy _ => copyIx copy
  | .tcamRowCheck q block row _ => quadIx q && decide (block < 24) && decide (row < 512)
  | .tableInsert t _ | .tableDelete t _ | .tableFind t _ | .shadowClear t | .shadowClearDone t | .ageingVisit t _ => tblIx t
  | .dqxSpill port tc | .dqxRefill port tc _ => portIx port && tcIx tc
  | .laneBringupStart c | .laneLock c _ _ | .laneTrainLimitExpiry c | .laneRetry c | .anRestart c | .lanRetrain c | .eyeRead c _ _ => laneIx c
  | .reqPark key _ | .reqHold key _ | .reqWarm key _ | .reqTest key _ | .reqService key _ | .reqResume key _ => decide (key < 65536)
  | .domainStep n | .domainSet n | .domainSlew n | .slewDone n => domIx n
  | .gateChange g | .gateCancel g | .gateSwitch g | .gateEntryAdvance g => g.ok
  | .ropeFcRelease tc => tcIx tc
  | .ropeLaneLoss n => ropeIx n
  | .twnSwap n _ | .swapReqRx _ n | .swapAtApply n => decide (n < 4)
  | .rankRetire r _ => decide (r < 8)
  | .refreshDue ch r _ | .refreshReadout ch r _ _ | .refreshCatchup ch r => rankIx ch r
  | .wckOscRead ch => decide (ch < 4)
  | .dmaGo c | .dmaStop c | .dmaShutdown c | .dmaBurstDone c _ _ | .dmaTransferDone c | .dmaRequestError c _ => chanIx c
  | .ringDoorbell n v => ringIx n && decide (v < 65536)
  | .txDescriptorProcess r _ desc _ => ringIx r && desc.length == 32
  | .rxCompletion _ desc _ => desc.length == 32
  | .ringShutdown n | .ringCoalTimeout n => ringIx n
  | .msixUnmask v => vecIx v
  | .faultEvent n _ | .faultInject n => sourceIx n
  | .faultAckHandled g | .faultAckReact g | .belayExpiry g | .reactionComplete g | .reactionTimeout g | .shadowEnd g => groupIx g
  | .quadrantHeartbeatTimeout q => quadIx q
  | .rwlCrcCheck bad => decide (bad < 16)
  | .pmbusAlert rail _ => decide (rail < 4)
  | .cairnWindowRead off => decide (off < 4096) && off % 4 == 0
  | .strmSel h => decide (h < 65536)
  | .i2cWrite ptr bytes => decide (ptr < 256) && decide (bytes.length < 2 ^ 16)
  | .i2cRead ptr _ => decide (ptr < 256)
  | _ => true

/-- A well-formed command. -/
def Instr.wf (i : Instr) : Bool :=
  i.wordWf && i.operandsWf && (match i.threadOf with | some t => slotIx t.1 t.2 | none => true)

end Sys2Proof
end

