-- ==== Sys2Proof/Certificates/Slice0/Obligations.lean ====
section
/-!
DEFINITION. Certificates/Slice0/Obligations.lean: the statements about the model.
-/

open Sys2Proof Sys2Proof.Machine

/-! ### The machine -/

/-- A step with a command at the front of its queue is exec of that command on the state with the queue's rest (assumption log 1,
the model's choice of a queue); on an empty queue a core cycle passes, in which the events of a cycle are counted (assumption logs 1 and 107,
the model's choices; R527). -/
def Obligations.AStepRunsTheFrontCommand : Prop :=
  (∀ (c : Instr) (rest : List Instr) (s : State), step { s with pending := c :: rest } = exec c { s with pending := rest }) ∧
  (∀ s : State, s.pending = [] → ∃ t, step s = .next t ∧ t.now = s.now + 20 ∧ SameBut [.now, .regs] s t ∧
    RegsBut ((List.range 4).flatMap evtWords) s t ∧
    (∀ q n, q < 4 → n < 32 → t.tally (rTLY_Q_EVT_LO q n) = (s.tally (rTLY_Q_EVT_LO q n) + (if s.quadPowered q then
      (if s.evtOn q n 0 0 0 then 1 else 0) + (if decide (256 ≤ s.fetchCount q) && s.evtOn q n 6 0 0 then 1 else 0) +
      ((List.range 14).filter (fun p => s.waitsAt q p && s.evtOn q n 7 0 p)).length else 0)) % 2 ^ 48))

/-- No meaning faults or refuses: whatever the state and the operands, exec answers a next state. -/
def Obligations.EveryCommandAnswersANextState : Prop :=
  ∀ (c : Instr) (s : State), ∃ t, exec c s = .next t

/-- The frame of every command: a part of the state that `mayChange c` does not list is the same after `c`.  No command changes the queue of waiting
commands or the time. -/
def Obligations.CommandsChangeOnlyTheirParts : Prop :=
  (∀ (c : Instr) (s t : State), exec c s = .next t → SameBut (mayChange c) s t) ∧
  (∀ c : Instr, Part.pending ∉ mayChange c ∧ Part.now ∉ mayChange c)

/-- Every sparse map of the state after reset is sorted, without repeats, and lists no value that an unlisted key reads as. -/
def Obligations.ResetIsCanonical : Prop :=
  State.reset.canon

/-- Equal memories are equal data: from every state in canonical form, a step gives a state in canonical form. -/
def Obligations.StepsKeepTheCanonicalForm : Prop :=
  ∀ s t : State, s.canon → step s = .next t → t.canon

/-- What a step has sent out stays sent; an open value once taken is never taken again (assumption log 5,
9: the output list and the counter are the model's own fields). -/
def Obligations.OutputsAreNeverTakenBack : Prop :=
  ∀ s t : State, step s = .next t → s.out <:+ t.out ∧ s.freeCtr ≤ t.freeCtr

/-- From every state with one to four generations outstanding, and at most three while a commit waits for its stroke,
a step gives such a state (R198); the state after reset is one. -/
def Obligations.AtMostFourGenerationsAreOutstanding : Prop :=
  (∀ s t : State, s.gens.bounded → step s = .next t → t.gens.bounded) ∧ State.reset.gens.bounded

/-- For every word of the Hiostac with every operand at every value its field admits: its encoding has 24 bits,
and the decoder reads the word back as the same command of the same thread. -/
def Obligations.MicrowordsDecodeToThemselves : Prop :=
  ∀ (i : Instr) (e sl w : Nat), i.wf = true → i.threadOf = some (e, sl) → encodeMicro i = some w → w < 2 ^ 24 ∧ decodeMicro e sl w = some i

/-- One word or more of each format of R134, written out from its fields. -/
def Obligations.WorkedWordsDecode : Prop :=
  decodeMicro 0 1 0x40C304 = some (.exr 0 1 3 12 2) ∧ decodeMicro 0 1 0x2D00B5 = some (.movi 0 1 4 0xB5) ∧
  decodeMicro 0 1 0x310088 = some (.orh 0 1 4 0x88) ∧ decodeMicro 0 1 0x240D00 = some (.cmp 0 1 3 4) ∧
  decodeMicro 0 1 0x810007 = some (.br 0 1 2 7) ∧ decodeMicro 0 1 0x580070 = some (.setf 0 1 48 true) ∧
  decodeMicro 2 5 0xC00000 = some (.done 2 5) ∧ decodeMicro 16 0 0x8C0401 = some (.jx 16 0 0x401) ∧ decodeMicro 0 1 0xFFFFFF = none

/-- The one operation by which every status bit of a block is raised, over every status bit of every block. -/
def Obligations.InterruptsSendOneMessage : Prop :=
  ∀ (s : State) (st en n i v : Nat), (st, en, n) ∈ intRegs → i < n → v < 256 →
    (s.flag ⟨st, i, 1⟩ = true → s.raise ⟨st, i, 1⟩ en v = s) ∧
    (s.flag ⟨st, i, 1⟩ = false →
      (s.raise ⟨st, i, 1⟩ en v).flag ⟨st, i, 1⟩ = true ∧ RegsBut [st] s (s.raise ⟨st, i, 1⟩ en v) ∧
      SameBut [.regs, .bar4, .out] s (s.raise ⟨st, i, 1⟩ en v) ∧
      (∀ j, j < 32 → j ≠ i → ((s.raise ⟨st, i, 1⟩ en v).rd st).getLsbD j = (s.rd st).getLsbD j) ∧
      ((s.rd en).getLsbD i = false → (s.raise ⟨st, i, 1⟩ en v).out = s.out ∧ (s.raise ⟨st, i, 1⟩ en v).bar4 = s.bar4) ∧
      ((s.rd en).getLsbD i = true → (s.rd4 (rMSIX_CTL v)).getLsbD 0 = false →
        (s.raise ⟨st, i, 1⟩ en v).out = (if s.out.contains (.msix v s.now) then s.out else .msix v s.now :: s.out) ∧ (s.raise ⟨st, i, 1⟩ en v).bar4 = s.bar4) ∧
      ((s.rd en).getLsbD i = true → (s.rd4 (rMSIX_CTL v)).getLsbD 0 = true →
        (s.raise ⟨st, i, 1⟩ en v).out = s.out ∧ ((s.raise ⟨st, i, 1⟩ en v).rd4 (rMSIX_PBA v)).getLsbD (v % 32) = true ∧
        Bar4But [rMSIX_PBA v] s (s.raise ⟨st, i, 1⟩ en v)))

/-- For every word of the Hiostac, issued by a thread of the housekeeping engine or another that works for a task and fetches outside the 16-bit address
space of R133.  An unpatched thread, or one no match register redirects, fetches at its pc. -/
def Obligations.FetchesOutsideTheAddressSpaceAbort : Prop :=
  (∀ (i : Instr) (e sl w k : Nat) (th : Thread) (s : State), encodeMicro i = some w → i.threadOf = some (e, sl) → e < 17 → sl < 64 →
    s.thread e sl = some th → th.wait = none → th.target = .task k → 0x8800 ≤ th.pc → th.pc < 0x10000 → s.patchBad = [] → s.quiet (101 + e) →
    s.gatedSource (101 + e) (.engine e) = false →
    Runs i s (fun t => t.thread e sl = none ∧ t.tasks = s.tasks ++ [k] ∧ CountedBy (HSQ_ABORT_CNT_COUNT e) 1 s t ∧
      t.getF (HSQ_ABORT_INFO_ADDR e) = th.pc ∧ t.getF (HSQ_ABORT_INFO_CAUSE e) = 3 ∧ t.getF (HSQ_ABORT_INFO_THREAD e) = sl ∧
      t.flag (HSQ_ABORT_INFO_VALID e) = true)) ∧
  (∀ (s : State) (th : Thread), (0x8000 ≤ th.pc ∨ th.patched = false ∨ s.matchOf (romCopy th.eng) th.pc = none) → s.fetchAddr th = (th.pc, false)) ∧
  (∀ (s : State) (th : Thread) (n : Nat), th.pc < 0x8000 → th.patched = true → s.matchOf (romCopy th.eng) th.pc = some n →
    s.fetchAddr th = (0x8000 + s.getF (HSQ_MATCH_PATCH_IDX (romCopy th.eng) n), true))

/-- Values that the register tables state for reset, read through the model's own accessors.  Memory that lists nothing is the model's choice (assumption
log 4). -/
def Obligations.TheStateAfterReset : Prop :=
  State.reset.pending = [] ∧ State.reset.out = [] ∧ State.reset.mem = [] ∧ State.reset.dram = [] ∧
  State.reset.getF CLS_GEN_CURRENT = 1 ∧ State.reset.getF CLS_GEN_NEXT = 2 ∧ State.reset.getF CLS_OUTSTANDING_COUNT = 1 ∧
  State.reset.getF CLS_OUTSTANDING_TAGS = 2 ∧ (∀ x ∈ intRegs, State.reset.rd x.1 = 0 ∧ State.reset.rd x.2.1 = 0) ∧
  (∀ g, g < 48 → State.reset.getF (FLT_GRP_CFG_CLASS g) = defaultClass g ∧ State.reset.getF (FLT_GRP_STATUS_STATE g) = 0) ∧
  (∀ n, n < 412 → State.reset.getF (FLT_SRC_CFG_N n) = (defaultNW n).1 ∧ State.reset.getF (FLT_SRC_CFG_W_US n) = (defaultNW n).2) ∧
  (∀ p i, p < 68 → i < 200 → State.reset.tally (tlyOff p i) = 0)

/-! ### Host accesses -/

/-- Host accesses to registers, BAR2 and the DRAM window: what each stores, what each returns, and what each leaves alone. -/
def Obligations.HostAccessesTakeEffect : Prop :=
  -- REGISTER_WRITE of an interrupt enable: RW bits take the word written, reserved bits read 0
  (∀ (s : State) (st en n val ev : Nat), (st, en, n) ∈ intRegs →
    Runs (.registerWrite .bar0 en 4 val ev) s (fun t => t.rd en = BitVec.ofNat 32 (val % 2 ^ n) ∧ RegsBut [en] s t ∧ SameBut [.regs] s t)) ∧
  -- REGISTER_WRITE of an interrupt status: a 1 clears its bit, but not one that an event sets in the same cycle
  (∀ (s : State) (st en n val ev : Nat), (st, en, n) ∈ intRegs →
    Runs (.registerWrite .bar0 st 4 val ev) s (fun t => (∀ i,
    (t.rd st).getLsbD i = (decide (i < n) && (s.rd st).getLsbD i && !(val.testBit i && !ev.testBit i))) ∧
      RegsBut [st] s t ∧ SameBut [.regs] s t)) ∧
  -- READ_CLEAR: the value is returned, and what the events of the cycle left stays
  (∀ (s : State) (o ev : Nat), o ∈ clearedByRead →
    Runs (.readClear .bar0 o 4 ev) s (fun t => t.readData = (s.rd o).toNat ∧ t.rd o = BitVec.ofNat 32 ev ∧ RegsBut [o] s t ∧
    SameBut [.regs, .readData] s t)) ∧
  -- PAIR_LO_READ: the high half is latched
  (∀ (s : State) (o : Nat), o % 4 = 0 → isPairLo o = true → inSpan o = true → ¬ (0x681000 ≤ o ∧ o < 0x681440) → ¬ (0xC01000 ≤ o ∧ o < 0xC02000) →
    latched o = false →
    Runs (.pairLoRead o) s (fun t => t.latch.lookup (o + 4) = some (s.view (o + 4)) ∧ t.readData = readable (fldsAt .bar0 o) (s.view o) ∧
    SameBut [.regs, .readData, .latch] s t)) ∧
  -- READ_CLEAR of a high half: what the read of the low half latched
  (∀ (s : State) (o ev : Nat) (w : Word), o % 4 = 0 → isPairLo o = true → inSpan (o + 4) = true → ¬ (0x681000 ≤ o + 4 ∧ o + 4 < 0x681440) →
    ¬ (0xC01000 ≤ o + 4 ∧ o + 4 < 0xC02000) → s.latch.lookup (o + 4) = some w →
    Runs (.readClear .bar0 (o + 4) 4 ev) s (fun t => t.readData = w.toNat ∧ SameBut [.readData] s t)) ∧
  -- BAR2_WRITE of a plain record: 4 bytes
  (∀ (s : State) (a d : Nat), a % 4 = 0 → (0x0F600000 ≤ a ∧ a < 0x0F618000) ∨ (0x0FA00000 ≤ a ∧ a < 0x0FA40000) →
    Runs (.bar2Write a 4 d) s (fun t => t.rdMem a 4 = leBytes 4 d ∧ MemBut a 4 s t ∧ SameBut [.mem] s t)) ∧
  -- BAR2_WRITE of 8 bytes: two writes of 4, the lower first
  (∀ (s : State) (a d : Nat), a % 8 = 0 → (0x0F600000 ≤ a ∧ a < 0x0F618000) ∨ (0x0FA00000 ≤ a ∧ a < 0x0FA40000) →
    Runs (.bar2Write a 8 d) s (fun t => t.rdMem a 8 = leBytes 8 d ∧ MemBut a 8 s t ∧ SameBut [.mem] s t)) ∧
  -- METER_RECORD_WRITE: the word at bytes 12–15 resets both buckets to full
  (∀ (s : State) (m d : Nat), 1 ≤ m → m < 65536 →
    Runs (.meterRecordWrite (0x0F100000 + 16 * m + 12) d) s (fun t => t.rdMem (0x0F100000 + 16 * m + 12) 4 = leBytes 4 d ∧
    MemBut (0x0F100000 + 16 * m + 12) 4 s t ∧
      t.meters = s.meters.filter (fun x => x.meter != m) ∧ SameBut [.mem, .meters] s t)) ∧
  -- METER_RECORD_WRITE of another word: the buckets stand as the old rates have filled them
  (∀ (s : State) (m w d : Nat), 1 ≤ m → m < 65536 → w < 3 →
    Runs (.meterRecordWrite (0x0F100000 + 16 * m + 4 * w) d) s (fun t => t.rdMem (0x0F100000 + 16 * m + 4 * w) 4 = leBytes 4 d ∧
    MemBut (0x0F100000 + 16 * m + 4 * w) 4 s t ∧
      t.meters.find? (fun x => x.meter == m) = some { meter := m, c := (s.buckets m).1, e := (s.buckets m).2, at_ := s.now } ∧
      t.meters.filter (fun x => x.meter != m) = s.meters.filter (fun x => x.meter != m) ∧ SameBut [.mem, .meters] s t)) ∧
  -- RECOVERY_RECORD_WRITE of a replicated stream: bit 0 of the word at bytes 12–15 sets TAKE_ANY
  (∀ (s : State) (h d : Nat), h < 65536 → s.replicated h = true → d % 2 = 1 →
    Runs (.recoveryRecordWrite (0x0F800000 + 32 * h + 12) d) s (fun t => t.frerFlag h 0 = true ∧ MemBut (0x0F800000 + 32 * h + 12) 1 s t ∧
    SameBut [.mem] s t)) ∧
  -- DRAM_WINDOW_WRITE to host staging: every enabled byte
  (∀ (s : State) (a : Nat) (b0 b1 b2 b3 : Byte), 0x04000000 ≤ a → a + 4 ≤ 0x0C000000 → a % 4 = 0 →
    s.getF DRC_WIN_BASE_MIB * 1048576 + (a - 0x04000000) + 4 ≤ s.mapped → s.region (s.getF DRC_WIN_BASE_MIB * 1048576 + (a - 0x04000000)) = .staging →
    Runs (.dramWindowWrite a [b0, b1, b2, b3] 15) s (fun t => t.rdDram (s.getF DRC_WIN_BASE_MIB * 1048576 + (a - 0x04000000)) 4 = [b0, b1, b2, b3] ∧
      DramBut (s.getF DRC_WIN_BASE_MIB * 1048576 + (a - 0x04000000)) 4 s t ∧ SameBut [.dram, .dramc] s t)) ∧
  -- TCAM_ROW_WRITE of a compare word of a free or staged row in an even block of a local table: memory and mirror
  (∀ (s : State) (q b r w d : Nat), q < 4 → b < 24 → r < 512 → w < 11 → s.flag (ASM_Q_BLK_USED q b) = true → s.flag (ASM_Q_BLK_ODD q b) = false →
    s.flag (ASM_TBL_CFG_GLOBAL (s.getF (ASM_Q_BLK_TABLE q b))) = false → s.gens.op = 0 → openObj (s.memLe (rowAddr q b r + 48) 2) s.nextTag = true →
    Runs (.tcamRowWrite (rowAddr q b r + 4 * w) d) s (fun t => t.rdMem (rowAddr q b r + 4 * w) 4 = leBytes 4 d ∧
    MemBut (rowAddr q b r + 4 * w) 4 s t ∧
      readBytes t.mirror (rowAddr q b r + 4 * w) 4 = leBytes 4 d ∧ t.lost = s.lost.filter (· != rowAddr q b r) ∧ SameBut [.mem, .mirror, .lost] s t)) ∧
  -- TCAM_ROW_WRITE of a compare word of a free or staged row of a global table: memory and mirror of every quadrant in service
  (∀ (s : State) (q b r w d : Nat), q ∈ s.liveQuads → b < 24 → r < 512 → w < 11 → s.flag (ASM_Q_BLK_USED q b) = true →
    s.flag (ASM_Q_BLK_ODD q b) = false → s.flag (ASM_TBL_CFG_GLOBAL (s.getF (ASM_Q_BLK_TABLE q b))) = true → s.gens.op = 0 →
    openObj (s.memLe (rowAddr q b r + 48) 2) s.nextTag = true →
    Runs (.tcamRowWrite (rowAddr q b r + 4 * w) d) s (fun t => (∀ x ∈ s.liveQuads, t.rdMem (rowAddr x b r + 4 * w) 4 = leBytes 4 d ∧
    readBytes t.mirror (rowAddr x b r + 4 * w) 4 = leBytes 4 d) ∧
      MemButAll (s.liveQuads.map (fun x => rowAddr x b r + 4 * w)) 4 s t ∧
      t.lost = s.lost.filter (fun e => !(s.liveQuads.map (fun x => rowAddr x b r)).contains e) ∧ SameBut [.mem, .mirror, .lost] s t))

/-! ### The frame path -/

/-- The front of the ingress pass: arrival, the start of a parse thread, the slot timeout, the hand-over of the key set, data beads, the frame's end. -/
def Obligations.ArrivingFramesAreParsed : Prop :=
  -- FRAME_ARRIVAL at a port that admits frames
  (∀ (s : State) (fid port wr : Nat) (pre : Bool) (vhdr : List Byte) (x : PortSt), s.frame fid = none → s.port port = some x → x.mode ≠ 0 →
    s.notAdmitted port = none → wr < 3 →
    Runs (.frameArrival fid port pre wr vhdr) s (fun t => (t.frame fid).map (fun f => (f.port, f.phase, f.arriveAt, f.ts, f.bytes, f.preempt,
    f.macsec, f.ended)) =
        some (port, .waiting, s.now, s.ingressTs port, [], pre, false, false) ∧
      (t.frame fid).map (·.writer) = some (0x300 + 3 * s.quadOf port + wr) ∧
      FramesBut fid s t ∧ SameBut [.frames] s t)) ∧
  -- FRAME_ARRIVAL at a port that admits none: dropped for the port's reason
  (∀ (s : State) (fid port why wr : Nat) (pre : Bool) (vhdr : List Byte) (x : PortSt), s.frame fid = none → s.port port = some x → x.mode ≠ 0 →
    s.notAdmitted port = some why → wr < 3 →
    Runs (.frameArrival fid port pre wr vhdr) s (fun t => (t.frame fid).map (fun f => (f.port, f.phase, f.why)) = some (port, .dropped, some why) ∧
      FramesBut fid s t ∧ SameBut [.frames] s t)) ∧
  -- PARSE_THREAD_START
  (∀ (s : State) (fid slot e : Nat) (f : Frame), s.frame fid = some f → f.phase = .waiting → f.known = true → f.macControl = false →
    s.pickEngine (4 * s.quadOf f.port) (4 * s.quadOf f.port + 1) = some e → slot ∈ s.freeSlots e →
    Runs (.parseThreadStart fid slot) s (fun t => (t.frame fid).map (fun g => (g.phase, g.gen)) = some (.parsing, s.curGen) ∧
      (t.thread e slot).map (fun th => (th.target, th.pc, th.g, th.wait)) =
        some (.frame fid, ((s.node 0).map (·.entry)).getD 0, List.replicate 16 0, none) ∧
      FramesBut fid s t ∧ ThreadsBut e slot s t ∧ SameBut [.regs, .threads, .frames] s t)) ∧
  -- PARSE_SLOT_TIMEOUT
  (∀ (s : State) (fid : Nat) (f : Frame), s.frame fid = some f → f.phase = .waiting → f.ended = false → f.beads = [] → f.macControl = false →
    f.arriveAt + tCyc 64 ≤ s.now → s.pickEngine (4 * s.quadOf f.port) (4 * s.quadOf f.port + 1) = none → (∀ c ∈ s.copies, c.fid ≠ fid) →
    Runs (.parseSlotTimeout fid) s (fun t => (t.frame fid).map (fun g => (g.phase, g.why)) = some (.dropped, some (f.why.getD tRX_CONGESTION)) ∧
      CountedBy (HSQ_NOSLOT_CNT_COUNT (4 * s.quadOf f.port)) 1 s t ∧ RegsBut [(HSQ_NOSLOT_CNT_COUNT (4 * s.quadOf f.port)).off] s t ∧
      FramesBut fid s t ∧ ThreadsEnd (.frame fid) s t ∧ SamplesEnd (.frame fid) s t ∧ SameBut [.regs, .threads, .samples, .frames] s t)) ∧
  -- KEY_SET_HANDOVER of a frame whose bytes have their beads
  (∀ (s : State) (fid : Nat) (f : Frame), s.frame fid = some f → f.phase = .parsed → s.earlierHeld f = false →
    (f.bytes.length + 255) / 256 ≤ f.beads.length →
    Runs (.keySetHandover fid) s (fun t => (t.frame fid).map (fun g => (g.phase, g.pos, g.res.tc, g.pool)) = some (.station, 0, s.ingressClass f,
    s.poolOf (s.ingressClass f)) ∧
      RegsBut [(PRS_Q_PEAK_NS_NS (s.quadOf f.port)).off] s t ∧ FramesBut fid s t ∧ SameBut [.regs, .frames] s t)) ∧
  -- KEY_SET_HANDOVER of a frame whose first bytes take their first bead
  (∀ (s : State) (fid b : Nat) (f : Frame), s.frame fid = some f → f.phase = .parsed → s.earlierHeld f = false → s.quadOf f.port < 4 → f.beads = [] →
    0 < f.bytes.length → f.bytes.length ≤ 256 → s.freeHead = some b → (f.byHost && s.buf.waits.any (fun w => w.slot == 14)) = false →
    s.getF (BPM_POOL_OCC_BEADS (s.poolOf (s.ingressClass f))) + (s.buf.waits.filter (fun w => w.pool == s.poolOf (s.ingressClass f))).length < s.getF
    (BPM_POOL_BEADS_QUOTA (s.poolOf (s.ingressClass f))) → s.getF (BPM_POOL_OCC_BEADS (s.poolOf (s.ingressClass f))) < s.thr (s.poolOf
    (s.ingressClass f)) (s.getF (BPM_POOL_FULL_BEADS (s.poolOf (s.ingressClass f)))) →
    Runs (.keySetHandover fid) s (fun t => (t.frame fid).map (fun g => (g.phase, g.pos, g.beads)) = some (.station, 0, [b]) ∧
      (t.buf.held.lookup b).map (fun r => (r.owner, r.refs)) = some (f.writer, 0) ∧ FramesBut fid s t ∧
    SameBut [.regs, .bar4, .out, .frames, .buf] s t)) ∧
  -- FRAME_DATA_BEAD_REQUEST before the hand-over, at a port with a MAC and without a SecY: the bytes are kept, up to MAX_FRAME
  (∀ (s : State) (fid : Nat) (data : List Byte) (f : Frame), s.frame fid = some f → f.phase = .waiting ∨ f.phase = .parsing ∨ f.phase = .parsed →
    f.ended = false → f.filtered = false → f.port < 64 ∨ f.port = 65 → s.hasSecY f.port = false → f.sec = none →
    Runs (.frameDataBeadRequest fid data) s (fun t => (t.frame fid).map (fun g => (g.bytes, g.raw)) =
        some ((f.raw ++ data).take (s.maxFrame f.port), (f.raw ++ data).take (s.maxFrame f.port)) ∧ FramesBut fid s t ∧ SameBut [.frames] s t)) ∧
  -- at a port without a MAC: all of them
  (∀ (s : State) (fid : Nat) (data : List Byte) (f : Frame), s.frame fid = some f → f.phase = .waiting ∨ f.phase = .parsing ∨ f.phase = .parsed →
    f.ended = false → f.filtered = false → 64 ≤ f.port → f.port ≠ 65 →
    Runs (.frameDataBeadRequest fid data) s (fun t => (t.frame fid).map (·.bytes) = some (f.bytes ++ data) ∧ FramesBut fid s t ∧
    SameBut [.frames] s t)) ∧
  -- at a port with a SecY, VALIDATE on and a SecTAG read: the parser sees the plaintext
  (∀ (s : State) (fid : Nat) (data : List Byte) (f : Frame) (x : SecRx), s.frame fid = some f → f.phase = .waiting ∨ f.phase = .parsing ∨
    f.phase = .parsed → f.ended = false → f.filtered = false → f.port < 64 ∨ f.port = 65 → f.sec = some x →
    Runs (.frameDataBeadRequest fid data) s (fun t => (t.frame fid).map (fun g => (g.bytes,
    g.macsec)) = some (x.plain ((f.raw ++ data).take (s.maxFrame f.port)), true) ∧
      FramesBut fid s t ∧ SameBut [.frames] s t)) ∧
  -- FRAME_DATA_BEAD_REQUEST after it: a bead for the next 256 bytes
  (∀ (s : State) (fid b : Nat) (data : List Byte) (f : Frame), s.frame fid = some f → f.phase = .station → f.ended = false → f.filtered = false →
    f.beads ≠ [] → f.beads.length * 256 < (s.addBytes f data (s.maxFrame f.port)).bytes.length →
    (s.addBytes f data (s.maxFrame f.port)).bytes.length ≤ f.beads.length * 256 + 256 →
    (f.byHost && s.buf.waits.any (fun w => w.slot == 14)) = false →
    s.getF (BPM_POOL_OCC_BEADS f.pool) + (s.buf.waits.filter (fun w => w.pool == f.pool)).length < s.getF (BPM_POOL_BEADS_QUOTA f.pool) →
    s.freeHead = some b →
    Runs (.frameDataBeadRequest fid data) s (fun t => (t.frame fid).map (fun g => (g.bytes,
    g.beads)) = some ((s.addBytes f data (s.maxFrame f.port)).bytes, f.beads ++ [b]) ∧
      (t.buf.held.lookup b).map (fun r => (r.owner, r.refs)) = some (f.writer, 0) ∧ FramesBut fid s t ∧
    SameBut [.regs, .bar4, .out, .frames, .buf] s t)) ∧
  -- FRAME_END of a frame that is being parsed, with good checks
  (∀ (s : State) (fid : Nat) (e : FrameEndInfo) (f : Frame), s.frame fid = some f → f.phase = .parsing → f.ended = false → f.why = none →
    f.meters = [] → f.filtered = false → (s.addBytes f e.data (s.maxFrame f.port)).macControl = false → (∀ x ∈ e.codewords, x.1 < 24) →
    e.fcsBad = false → e.tailMarked = false → e.assyErr = false → 64 ≤ e.wire → e.wire ≤ s.maxFrame f.port → s.hasSecY f.port = false →
    Runs (.frameEnd fid e) s (fun t => (t.frame fid).map (fun g => (g.ended, g.wire, g.phase, g.why, g.bytes)) =
        some (true, e.wire, .parsing, none, (s.addBytes f e.data (s.maxFrame f.port)).bytes) ∧
      FramesBut fid s t ∧ SameBut [.regs, .bar4, .out, .frames, .bw] s t)) ∧
  -- FRAME_END with a bad FCS of a frame that has no copy: it leaves the device
  (∀ (s : State) (fid : Nat) (e : FrameEndInfo) (f : Frame), s.frame fid = some f → f.phase = .parsing → f.ended = false → f.why = none →
    f.meters = [] → f.beads = [] → f.filtered = false → (s.addBytes f e.data (s.maxFrame f.port)).macControl = false →
    (∀ x ∈ e.codewords, x.1 < 24) → e.fcsBad = true → e.tailMarked = false → (∀ c ∈ s.copies, c.fid ≠ fid) →
    Runs (.frameEnd fid e) s (fun t => t.frame fid = none ∧ FramesBut fid s t ∧ ThreadsEnd (.frame fid) s t ∧ SamplesEnd (.frame fid) s t ∧
    SameBut [.regs, .bar4, .out, .threads, .samples, .frames, .bw] s t))

/-- The stations, the resolution, the enqueue, and the beads. -/
def Obligations.FramesPassTheirStations : Prop :=
  -- STATION_LOOKUP of a frame
  (∀ (s : State) (fid : Nat) (f : Frame), s.frame fid = some f → f.phase = .station → f.looking = false → f.pos < 10 →
    s.fetchFull (s.quadOf f.port) f.pos = false →
    Runs (.stationLookup (.frame fid)) s (fun t => (t.frame fid).map (fun g => (g.looking, g.lookAt, g.pos)) = some (true, s.now, f.pos) ∧
    RegsBut (evtWords (s.quadOf f.port)) s t ∧
      FramesBut fid s t ∧ SameBut [.regs, .frames, .tly] s t)) ∧
  -- STATION_LOOKUP of a copy
  (∀ (s : State) (fid port : Nat) (c : Copy), s.copy fid port = some c → c.phase = .station → c.looking = false → c.pos < 14 →
    s.fetchFull (s.quadOf port) c.pos = false →
    Runs (.stationLookup (.copy fid port)) s (fun t => (t.copy fid port).map (fun d => (d.looking, d.pos)) = some (true, c.pos) ∧
    RegsBut (evtWords (s.quadOf port)) s t ∧ CopiesBut fid port s t ∧ SameBut [.regs, .copies, .tly] s t)) ∧
  -- LOOKUP_RESULT_RETURN of a hit in an exact flow table
  (∀ (s : State) (fid w : Nat) (cf : Bool) (f : Frame), s.frame fid = some f → f.phase = .station → f.looking = true → s.earlierBehind f = false →
    f.pos < 9 → s.getF (CLS_Q_POS_KIND (s.quadOf f.port) f.pos) = 1 ∨ s.getF (CLS_Q_POS_KIND (s.quadOf f.port) f.pos) = 2 →
    s.tblKind (s.getF (CLS_Q_POS_TABLE (s.quadOf f.port) f.pos)) = 3 →
    s.flowChip (s.getF (CLS_Q_POS_TABLE (s.quadOf f.port) f.pos)) (s.quadOf f.port) (f.gen % 8) (padTo 22 (s.keyWin f.keys (s.getF (CLS_Q_POS_KEYSEL
    (s.quadOf f.port) f.pos)))) = some w →
    Runs (.lookupResultReturn (.frame fid) cf) s (fun t => (t.frame fid).map (fun g => (g.pos, g.looking, g.phase, g.res, g.keys)) =
        some (f.pos + 1, false, .station, f.res.combine (Action.ofNat w) false, metaWrite f.keys (Action.ofNat w)) ∧ FramesBut fid s t ∧
    SameBut [.regs, .frames, .tly] s t)) ∧
  -- LOOKUP_RESULT_RETURN of a miss in it: the miss action word
  (∀ (s : State) (fid : Nat) (cf : Bool) (f : Frame), s.frame fid = some f → f.phase = .station → f.looking = true → s.earlierBehind f = false →
    f.pos < 9 → s.getF (CLS_Q_POS_KIND (s.quadOf f.port) f.pos) = 1 ∨ s.getF (CLS_Q_POS_KIND (s.quadOf f.port) f.pos) = 2 →
    s.tblKind (s.getF (CLS_Q_POS_TABLE (s.quadOf f.port) f.pos)) = 3 →
    s.flowChip (s.getF (CLS_Q_POS_TABLE (s.quadOf f.port) f.pos)) (s.quadOf f.port) (f.gen % 8) (padTo 22 (s.keyWin f.keys (s.getF (CLS_Q_POS_KEYSEL
    (s.quadOf f.port) f.pos)))) = none → s.flowDram (s.getF (CLS_Q_POS_TABLE (s.quadOf f.port) f.pos)) (f.gen % 8) (padTo 22 (s.keyWin f.keys (s.getF
    (CLS_Q_POS_KEYSEL (s.quadOf f.port) f.pos)))) = none →
    Runs (.lookupResultReturn (.frame fid) cf) s (fun t => (t.frame fid).map (fun g => (g.pos, g.looking, g.res)) =
        some (f.pos + 1, false, f.res.combine (Action.ofNat (s.missWord (s.quadOf f.port) f.pos f.gen)) false) ∧ FramesBut fid s t ∧
    SameBut [.regs, .frames, .tly] s t)) ∧
  -- LOOKUP_RESULT_RETURN of a thread's LKP
  (∀ (s : State) (e sl slot k sel since w fid : Nat) (cf : Bool) (th : Thread) (f : Frame), s.thread e sl = some th → e < 16 → th.target = .frame fid →
    s.frame fid = some f → th.results.getD slot .empty = .issued k sel since → s.tblKind k = 3 →
    s.flowChip k (e / 4) (f.gen % 8) (padTo 22 (s.keyWin f.keys sel)) = some w →
    Runs (.lookupResultReturn (.thread e sl slot) cf) s (fun t => (t.thread e sl).map (fun y => y.results.getD slot .empty) =
        some (.returned [w % 65536, w / 2 ^ 16 % 65536, w / 2 ^ 32 % 65536, w / 2 ^ 48]) ∧ RegsBut (evtWords (e / 4)) s t ∧ ThreadsBut e sl s t ∧
    SameBut [.regs, .threads] s t)) ∧
  -- ACTION_RESOLUTION of a frame forwarded to one port
  (∀ (s : State) (fid : Nat) (f : Frame), s.frame fid = some f → f.phase = .resolving → f.ended = false → f.stream = none → f.res.fwdOp = 1 →
    f.res.dest < 68 → f.res.dp < 2 → f.res.copyHost = false → f.res.mirror = false → f.port ≠ 65 →
    Runs (.actionResolution fid) s (fun t => (t.frame fid).map (fun g => (g.phase, g.list)) =
        some (.listed, [{ port := f.res.dest, why := 0, reason := 0, replica := false }]) ∧ FramesBut fid s t ∧ SameBut [.frames] s t)) ∧
  -- ACTION_RESOLUTION of a frame that a rule drops
  (∀ (s : State) (fid : Nat) (f : Frame), s.frame fid = some f → f.phase = .resolving → f.ended = false → f.stream = none → f.why = none →
    f.res.fwdOp = 3 → f.res.dp < 2 → f.res.copyHost = false → f.res.mirror = false → f.beads.Nodup → f.writer ≠ 0xFFE →
    (∀ b ∈ f.beads, (s.buf.held.lookup b).map (·.owner) = some f.writer) →
    Runs (.actionResolution fid) s (fun t => (t.frame fid).map (fun g => (g.phase, g.list, g.beads, g.why)) = some (.enqueued, [], [],
    some tRX_RULE_DROP) ∧
      t.buf.quar = s.buf.quar ++ f.beads.map (fun b =>
    { bead := b, pool := ((s.buf.held.lookup b).map (·.pool)).getD 0, readyAt := s.now + tCyc 64 }) ∧
      FramesBut fid s t ∧ SameBut [.frames, .buf] s t)) ∧
  -- ENQUEUE of one admitted copy
  (∀ (s : State) (fid : Nat) (f : Frame) (r : CopyReq), s.frame fid = some f → f.phase = .listed → f.list = [r] → s.admitCheck f r.port 0 = none →
    s.copy fid r.port = none →
    Runs (.enqueue fid) s (fun t => (t.copy fid r.port).map (fun c => (c.phase, c.tc, c.why, c.reason, c.replica, c.beads, c.started)) =
        some (.queued, f.res.tc, r.why, r.reason, r.replica, f.beads.length, false) ∧
      (t.frame fid).map (fun g => (g.phase, g.admitted, g.list)) = some (.enqueued, 1, []) ∧
      FramesBut fid s t ∧ CopiesBut fid r.port s t ∧ SameBut [.regs, .bar4, .out, .frames, .copies, .buf, .shapers] s t)) ∧
  -- BEAD_WAIT_SERVED
  (∀ (s : State) (slot b : Nat) (w : BeadWait) (f : Frame), s.buf.waits.find? (fun x => x.slot == slot) = some w →
    s.buf.waits.find? (fun x => x.pool == w.pool) = some w → slot ≠ 12 → slot ≠ 13 →
    s.getF (BPM_POOL_OCC_BEADS w.pool) < s.getF (BPM_POOL_BEADS_QUOTA w.pool) → s.freeHead = some b → s.frame w.fid = some f →
    (f.bytes.length + 255) / 256 ≤ f.beads.length + 1 → f.ended = false ∨ f.phase ≠ .enqueued → (∀ g ∈ s.frames, g.fid ≠ w.fid → g.byHost = true →
    s.frame g.fid = some g ∧ (g.bytes.length + 255) / 256 ≤ g.beads.length) →
    Runs (.beadWaitServed slot) s (fun t => (t.frame w.fid).map (·.beads) = some (f.beads ++ [b]) ∧
    (t.buf.held.lookup b).map (·.owner) = some w.owner ∧
      t.buf.waits = s.buf.waits.filter (fun x => x.slot != slot) ∧ FramesBut w.fid s t ∧ SameBut [.regs, .bar4, .out, .frames, .buf] s t)) ∧
  -- BEAD_FREE by the owner
  (∀ (s : State) (b rq : Nat) (who : Look) (r : Bead), b < 262144 → s.bankOk b = true → s.buf.held.lookup b = some r → r.owner = rq → r.owner ≠ 0xFFE →
    s.buf.badFrees = [] →
    Runs (.beadFree (256 * b) rq who) s (fun t => t.buf.held.lookup b = none ∧
    t.buf.quar = s.buf.quar ++ [{ bead := b, pool := r.pool, readyAt := s.now + tCyc 64 }] ∧
      t.copies = (s.copyFrees who rq b).copies ∧ SameBut [.copies, .buf] s t)) ∧
  -- BEAD_FREE of a shared bead: one reference fewer
  (∀ (s : State) (b rq : Nat) (who : Look) (r : Bead), b < 262144 → s.bankOk b = true → s.buf.held.lookup b = some r → r.owner = 0xFFE → rq ≤ 0x21F →
    1 < r.refs → s.buf.badFrees = [] →
    Runs (.beadFree (256 * b) rq who) s (fun t => t.buf.held.lookup b = some { r with refs := r.refs - 1 } ∧ t.buf.quar = s.buf.quar ∧
    t.copies = (s.copyFrees who rq b).copies ∧ SameBut [.regs, .bar4, .out, .copies, .buf] s t)) ∧
  -- BEAD_QUARANTINE_END
  (∀ (s : State) (b : Nat) (x : Quar), s.buf.quar.find? (fun y => y.bead == b) = some x → x.readyAt ≤ s.now →
    Runs (.beadQuarantineEnd b) s (fun t => t.buf.freed = s.buf.freed ++ [b] ∧ t.buf.quar = s.buf.quar.filter (fun y => y.bead != b) ∧
    t.buf.held = s.buf.held ∧
      SameBut [.regs, .bar4, .out, .buf] s t)) ∧
  -- CUT_THROUGH_START
  (∀ (s : State) (fid port : Nat) (f : Frame) (c : Copy), s.frame fid = some f → s.copy fid port = some c → s.cutOk f c = true → s.cutLenOk f c = true →
    Runs (.cutThroughStart fid port) s (fun t => (t.copy fid port).map (·.cut) = some true ∧ CopiesBut fid port s t ∧ SameBut [.copies] s t)) ∧
  -- CUT_THROUGH_START of a copy that R344 keeps: it is stored and counted
  (∀ (s : State) (fid port : Nat) (f : Frame) (c : Copy), s.frame fid = some f → s.copy fid port = some c → s.cutOk f c = true →
    s.cutLenOk f c = false →
    Runs (.cutThroughStart fid port) s (fun t => (t.copy fid port).map (fun d => (d.cut, d.kept)) = some (false, true) ∧
    CountedBy (EGR_Q_STORED_COUNT (s.quadOf port)) 1 s t ∧
      RegsBut [(EGR_Q_STORED_COUNT (s.quadOf port)).off] s t ∧ CopiesBut fid port s t ∧ SameBut [.regs, .copies] s t))

/-- The egress pass of a copy from its selection to its last byte, the analyser path, and the deep queue extension. -/
def Obligations.CopiesLeaveTheDevice : Prop :=
  -- SCHEDULER_SELECT: the highest eligible strict queue of the express MAC; u is the state with every head and shaper of the port brought up to date
  (∀ (s u : State) (port tc : Nat) (f : Frame) (c : Copy), s.macReady port = true → u = ((s.headsOf port (List.range 8)).cbsAll port).raiseFrees →
    u.macBusy port (fun x => !u.onPmac port x) = false → tc < 8 → 8 ≤ tc + u.getF (SCH_PORT_CFG_STRICT port) → u.onPmac port tc = false →
    u.eligible port tc = true → (∀ x, x < 8 → tc < x → u.onPmac port x = true ∨ u.eligible port x = false) → (∀ d ∈ u.copies, d.port = port →
    d.phase = .sending → u.onPmac port d.tc = false) → port ≠ 64 → u.head port tc = some c → u.copy c.fid port = some c → u.frame c.fid = some f →
    u.dequeueCheck f c = none → u.readOk c = true →
    Runs (.schedulerSelect port) s (fun t => (t.copy c.fid port).map (fun d => (d.phase, d.gen, d.dequeuedAt)) = some (.dequeued, u.curGen, s.now) ∧
      (∀ i, i ≠ c.fid → t.copy i port = u.copy i port) ∧ t.frames = u.frames ∧ t.buf = u.buf)) ∧
  -- DEQUEUE_EGRESS_PASS
  (∀ (s : State) (fid port : Nat) (f : Frame) (c : Copy), s.frame fid = some f → s.copy fid port = some c → c.phase = .dequeued →
    Runs (.dequeueEgressPass fid port) s (fun t => (t.copy fid port).map (fun d => (d.phase, d.pos, d.keys)) = some (.station, 10,
        [BitVec.ofNat 8 port, BitVec.ofNat 8 (c.gen % 8 + 8 * f.layers.length)] ++ (f.keys.drop 2).take 10 ++
        [BitVec.ofNat 8 f.port, BitVec.ofNat 8 (c.res.tc % 8 + 8 * (c.res.dp % 4)), 0, 0] ++ f.keys.drop 16) ∧
      CopiesBut fid port s t ∧ SameBut [.copies] s t)) ∧
  -- EGRESS_RESOLUTION of a copy that proceeds
  (∀ (s : State) (fid port : Nat) (f : Frame) (c : Copy), s.frame fid = some f → s.copy fid port = some c → c.phase = .station → c.pos = 14 →
    c.looking = false → c.res.copyHost = false → c.res.mirror = false → c.res.dp < 2 → c.egDrop = false →
    Runs (.egressResolution fid port) s (fun t => (t.copy fid port).map (fun d => (d.phase, d.profile)) =
        some (.resolved, if port = 67 then s.rwgF c.gen EGR_MIRROR_CFG_PROFILE else c.res.profile) ∧ CopiesBut fid port s t ∧ SameBut [.copies] s t)) ∧
  -- EGRESS_RESOLUTION of a copy that a rule drops
  (∀ (s : State) (fid port : Nat) (f : Frame) (c : Copy), s.frame fid = some f → s.copy fid port = some c → c.phase = .station → c.pos = 14 →
    c.looking = false → c.res.copyHost = false → c.res.mirror = false → c.res.dp < 2 → c.egDrop = true →
    Runs (.egressResolution fid port) s (fun t => t.copy fid port = none ∧ FramesBut fid s t ∧ CopiesBut fid port s t ∧
    ThreadsEnd (.copy fid port) s t ∧ SamplesEnd (.copy fid port) s t ∧
      SameBut [.regs, .bar4, .out, .threads, .samples, .frames, .copies, .buf] s t)) ∧
  -- REWRITE_THREAD_START without edits and without a routine: the copy can be sent at once
  (∀ (s : State) (fid port slot e : Nat) (f : Frame) (c : Copy), s.frame fid = some f → s.copy fid port = some c → c.phase = .resolved →
    c.profile = 0 → f.ended = true → s.hasSecY port = false → s.quadOf port < 4 → (∀ d ∈ s.copies, d.port = port → d.fid ≠ fid → d.phase = .queued ∨
    d.phase = .rewriting ∨ d.phase = .sending) → (∀ th ∈ s.threads, th.target ≠ .copy fid port) →
    s.pickEngine (4 * s.quadOf port + 2) (4 * s.quadOf port + 3) = some e → slot ∈ s.freeSlots e →
    Runs (.rewriteThreadStart fid port slot) s (fun t => (t.copy fid port).map (fun d => (d.phase, d.started, d.sentAt, d.fragAt,
    d.sec)) = some (.sending, true, s.now, some s.now, none) ∧
      t.threads = s.threads ∧ CopiesBut fid port s t ∧ SameBut [.regs, .samples, .copies] s t)) ∧
  -- REWRITE_THREAD_START with an image routine and no standard edit: the thread stands at its entry
  (∀ (s : State) (fid port slot e : Nat) (f : Frame) (c : Copy), s.frame fid = some f → s.copy fid port = some c → c.phase = .resolved →
    s.profW c 0 = 0 → s.profW c 3 % 65536 ≠ 0 → c.profile < 1024 → f.ended = true → s.quadOf port < 4 → (∀ d ∈ s.copies, d.port = port →
    d.fid ≠ fid → d.phase = .queued ∨ d.phase = .rewriting ∨ d.phase = .sending) → (∀ th ∈ s.threads, th.target ≠ .copy fid port) →
    s.pickEngine (4 * s.quadOf port + 2) (4 * s.quadOf port + 3) = some e → slot ∈ s.freeSlots e →
    Runs (.rewriteThreadStart fid port slot) s (fun t => (t.thread e slot).map (fun th => (th.target, th.pc)) = some (.copy fid port,
    s.profW c 3 % 65536) ∧
      (t.copy fid port).map (fun d => (d.phase, d.window)) = some (.rewriting, f.txBytes.take (c.keys.getD 11 0).toNat) ∧
      CopiesBut fid port s t ∧ ThreadsBut e slot s t ∧ SameBut [.regs, .copies, .threads] s t)) ∧
  -- REWRITE_THREAD_START without edits at a port whose SecY protects: the copy takes the packet number of the SA in TX_AN
  (∀ (s : State) (fid port slot e : Nat) (f : Frame) (c : Copy), s.frame fid = some f → s.copy fid port = some c → c.phase = .resolved →
    c.profile = 0 → f.ended = true → f.l4full = false → port < 64 → s.quadOf port < 4 → (∀ d ∈ s.copies, d.port = port → d.fid ≠ fid →
    d.phase = .queued ∨ d.phase = .rewriting ∨ d.phase = .sending) → (∀ th ∈ s.threads, th.target ≠ .copy fid port) →
    s.pickEngine (4 * s.quadOf port + 2) (4 * s.quadOf port + 3) = some e → slot ∈ s.freeSlots e → s.hasSecY port = true →
    s.flag (MAC_SEC_CTL_PROTECT port) = true → be16 f.bytes 12 ≠ 0x888E →
    (s.getF (MAC_SEC_TX_EN_EN port)).testBit (s.getF (MAC_SEC_CTL_TX_AN port)) = true →
    (s.getF (MAC_SEC_TX_EN_EXHAUSTED port)).testBit (s.getF (MAC_SEC_CTL_TX_AN port)) = false →
    Runs (.rewriteThreadStart fid port slot) s (fun t => (t.copy fid port).map (fun d => (d.phase, d.started, d.sec.map (fun x => (x.an, x.pn,
    x.enc)))) =
        some (.sending, true, some (s.getF (MAC_SEC_CTL_TX_AN port), (s.sa port 0 (s.getF (MAC_SEC_CTL_TX_AN port))).pn,
    s.flag (MAC_SEC_CTL_ENCRYPT port))) ∧
      (t.sa port 0 (s.getF (MAC_SEC_CTL_TX_AN port))).pn = (s.sa port 0 (s.getF (MAC_SEC_CTL_TX_AN port))).pn + 1 ∧ t.threads = s.threads ∧
      CopiesBut fid port s t ∧ SameBut [.regs, .samples, .copies, .sas] s t)) ∧
  -- REWRITE_THREAD_START where no transmit SA can protect the frame: nothing is output and the copy is gone
  (∀ (s : State) (fid port slot e : Nat) (f : Frame) (c : Copy), s.frame fid = some f → s.copy fid port = some c → c.phase = .resolved →
    c.profile = 0 → f.ended = true → f.l4full = false → port < 64 → s.quadOf port < 4 → (∀ d ∈ s.copies, d.port = port → d.fid ≠ fid →
    d.phase = .queued ∨ d.phase = .rewriting ∨ d.phase = .sending) → (∀ th ∈ s.threads, th.target ≠ .copy fid port) →
    s.pickEngine (4 * s.quadOf port + 2) (4 * s.quadOf port + 3) = some e → slot ∈ s.freeSlots e → s.hasSecY port = true →
    s.flag (MAC_SEC_CTL_PROTECT port) = true → be16 f.bytes 12 ≠ 0x888E →
    (s.getF (MAC_SEC_TX_EN_EN port)).testBit (s.getF (MAC_SEC_CTL_TX_AN port)) = false →
    Runs (.rewriteThreadStart fid port slot) s (fun t => t.copy fid port = none ∧ t.framesOut = s.framesOut ∧ t.threads = s.threads ∧
      FramesBut fid s t ∧ CopiesBut fid port s t ∧ SameBut [.regs, .bar4, .out, .samples, .frames, .copies, .buf] s t)) ∧
  -- COPY_TRANSMIT_END of a stored copy: its bytes on the wire, protected where an SA was taken, with their FCS
  (∀ (s : State) (fid port : Nat) (f : Frame) (c : Copy), s.frame fid = some f → s.copy fid port = some c → c.phase = .sending → f.ended = true →
    port < 64 → (∀ d ∈ s.copies, d.port = port → d.phase = .sending → d.fragAt.isSome = true) → s.readOk c = true → c.cut = false →
    c.tailMark = false → s.buf.badFrees = [] → c.tc < 8 → c.seg ≠ 1 → (s.copyBeads c).Nodup →
    Runs (.copyTransmitEnd fid port) s (fun t => t.framesOut = .frame port (c.onWire (s.copyBytes f c).1 ++ fcsOf false (c.onWire (s.copyBytes f
    c).1)) false :: s.framesOut ∧ t.copy fid port = none ∧
      FramesBut fid s t ∧ CopiesBut fid port s t ∧ ThreadsEnd (.copy fid port) s t ∧ SamplesEnd (.copy fid port) s t ∧
    SameBut [.regs, .bar4, .out, .crn, .time, .threads, .samples, .frames, .copies, .buf, .shapers, .bw] s t)) ∧
  -- COPY_TRANSMIT_END of an express copy: a preempted copy of the port goes on once no express copy is under way
  (∀ (s : State) (fid gid port : Nat) (f : Frame) (c d : Copy), s.frame fid = some f → s.copy fid port = some c → c.phase = .sending →
    c.fragAt.isSome = true → f.ended = true → port < 64 → s.copies = [c, d] → d.fid = gid → gid ≠ fid → d.port = port → d.phase = .sending →
    d.fragAt = none → s.onPmac port d.tc = true → s.readOk c = true → c.cut = false → c.tailMark = false → s.buf.badFrees = [] → c.tc < 8 →
    c.seg ≠ 1 → (s.copyBeads c).Nodup → (s.schSt port).hold = false →
    Runs (.copyTransmitEnd fid port) s (fun t => t.copy fid port = none ∧ t.copy gid port = some { d with fragAt := some s.now })) ∧
  -- RECIRCULATE_ENTRY
  (∀ (s : State) (fid newFid : Nat) (f : Frame) (c : Copy), s.frame fid = some f → s.copy fid 67 = some c → c.phase = .sending → f.ended = true →
    s.frame newFid = none → c.tailMark = false → s.readOk c = true → s.notAdmitted 66 = none → s.quadOf 67 < 4 → s.buf.badFrees = [] → c.tc < 8 →
    c.seg ≠ 1 → (s.copyBeads c).Nodup →
    Runs (.recirculateEntry fid newFid) s (fun t => (t.frame newFid).map (fun g => (g.port, g.phase, g.recirc, g.ended, g.bytes, g.wire, g.inTc,
    g.ts)) =
        some (66, .waiting, true, true, (s.copyBytes f c).1, (s.copyBytes f c).1.length + 4, c.tc, s.localNs) ∧
      t.copy fid 67 = none ∧ (∀ i, i ≠ fid → i ≠ newFid → t.frame i = s.frame i) ∧ CopiesBut fid 67 s t ∧ ThreadsEnd (.copy fid 67) s t ∧
    SamplesEnd (.copy fid 67) s t ∧ SameBut [.regs, .bar4, .out, .freeCtr, .crn, .threads, .samples, .frames, .copies, .buf, .shapers, .bw] s t)) ∧
  -- DQX_SPILL
  (∀ (s : State) (port tc : Nat) (c : Copy), s.spillable port tc = some c → s.deeperFirst port tc = false → s.copy c.fid port = some c →
    s.getF SWC_DQX_USED_SLOTS + c.beads ≤ s.getF SWC_DQX_CFG_SIZE_MIB * 4096 →
    Runs (.dqxSpill port tc) s (fun t => (t.copy c.fid port).map (fun d => (d.seg, d.own)) = some (1, []) ∧
    SameBut [.regs, .bar4, .out, .copies, .buf] s t)) ∧
  -- DQX_REFILL of a frame of one bead
  (∀ (s : State) (port tc b : Nat) (c : Copy), (s.segment port tc 1).head? = some c → s.copy c.fid port = some c →
    ((s.segment port tc 0).map (·.beads)).sum < s.getF SWC_DQX_THR_REFILL → c.beads = 1 → c.own = [] → (∀ w ∈ s.buf.waits, w.slot ≠ 12 ∧
    w.slot ≠ 13) → s.getF (BPM_POOL_OCC_BEADS (s.poolOf c.tc)) + (s.buf.waits.filter (fun w => w.pool == s.poolOf c.tc)).length < s.getF
    (BPM_POOL_BEADS_QUOTA (s.poolOf c.tc)) → s.freeHead = some b →
    Runs (.dqxRefill port tc false) s (fun t => (t.copy c.fid port).map (fun d => (d.seg, d.own)) = some (0, [b]) ∧
      (t.buf.held.lookup b).map (·.owner) = some (8 * port + c.tc) ∧ SameBut [.regs, .bar4, .out, .copies, .buf] s t))

/-! ### Microwords -/

/-- NOP, ADD, ADDI, SUB, AND, OR, XOR, SHF, ANDI, CMP, CMPI, MOVI,
ORH: the whole thread after the word; a carry that R135 does not state is open (assumption log 5). -/
def Obligations.ArithmeticWords : Prop :=
  -- NOP
  (∀ (s : State) (e sl  a : Nat) (th : Thread), s.fetches e sl (.nop e sl) kPEH th a →
    Runs (.nop e sl) s (fun t => t.thread e sl = some { th.fetched (s.fetchAddr th) s.now with pc := a + 1 } ∧ RegsBut (wordRegs e) s t ∧
    ThreadsBut e sl s t ∧ SameBut [.regs, .bar4, .out, .threads, .samples, .evtCount] s t)) ∧
  -- ADD
  (∀ (s : State) (e sl d ga gb a : Nat) (th : Thread), s.fetches e sl (.add e sl d ga gb) kPEH th a →
    Runs (.add e sl d ga gb) s (fun t => t.thread e sl = some
    { th.fetched (s.fetchAddr th) s.now with g := th.g.set d ((th.reg ga + th.reg gb) % 65536), z := ((th.reg ga + th.reg gb) % 65536 == 0), n := ((th.reg ga + th.reg gb) % 65536).testBit 15, c := decide (65536 ≤ th.reg ga + th.reg gb), pc := a + 1 } ∧ RegsBut (wordRegs e) s t ∧ ThreadsBut e sl s t ∧ SameBut [.regs, .bar4, .out, .threads, .samples, .evtCount] s t)) ∧
  -- ADDI
  (∀ (s : State) (e sl d ga imm a : Nat) (th : Thread), s.fetches e sl (.addi e sl d ga imm) kPEH th a →
    Runs (.addi e sl d ga imm) s (fun t => t.thread e sl = some
    { th.fetched (s.fetchAddr th) s.now with g := th.g.set d ((th.reg ga + imm) % 65536), z := ((th.reg ga + imm) % 65536 == 0), n := ((th.reg ga + imm) % 65536).testBit 15, c := decide (65536 ≤ th.reg ga + imm), pc := a + 1 } ∧ RegsBut (wordRegs e) s t ∧ ThreadsBut e sl s t ∧ SameBut [.regs, .bar4, .out, .threads, .samples, .evtCount] s t)) ∧
  -- SUB
  (∀ (s : State) (e sl d ga gb a : Nat) (th : Thread), s.fetches e sl (.sub e sl d ga gb) kPEH th a →
    Runs (.sub e sl d ga gb) s (fun t => (t.thread e sl).map (fun y => { y with c := th.c }) = some
    { th.fetched (s.fetchAddr th) s.now with g := th.g.set d ((sub16 (th.reg ga) (th.reg gb)) % 65536), z := ((sub16 (th.reg ga) (th.reg gb)) % 65536 == 0), n := (sub16 (th.reg ga) (th.reg gb)).testBit 15, pc := a + 1 } ∧ RegsBut (wordRegs e) s t ∧ ThreadsBut e sl s t ∧ SameBut [.regs, .bar4, .out, .freeCtr, .threads, .samples, .evtCount] s t)) ∧
  -- AND
  (∀ (s : State) (e sl d ga gb a : Nat) (th : Thread), s.fetches e sl (.andW e sl d ga gb) kPEH th a →
    Runs (.andW e sl d ga gb) s (fun t => (t.thread e sl).map (fun y => { y with c := th.c }) = some
    { th.fetched (s.fetchAddr th) s.now with g := th.g.set d ((th.reg ga &&& th.reg gb) % 65536), z := ((th.reg ga &&& th.reg gb) % 65536 == 0), n := (th.reg ga &&& th.reg gb).testBit 15, pc := a + 1 } ∧ RegsBut (wordRegs e) s t ∧ ThreadsBut e sl s t ∧ SameBut [.regs, .bar4, .out, .freeCtr, .threads, .samples, .evtCount] s t)) ∧
  -- OR
  (∀ (s : State) (e sl d ga gb a : Nat) (th : Thread), s.fetches e sl (.orW e sl d ga gb) kPEH th a →
    Runs (.orW e sl d ga gb) s (fun t => (t.thread e sl).map (fun y => { y with c := th.c }) = some
    { th.fetched (s.fetchAddr th) s.now with g := th.g.set d ((th.reg ga ||| th.reg gb) % 65536), z := ((th.reg ga ||| th.reg gb) % 65536 == 0), n := (th.reg ga ||| th.reg gb).testBit 15, pc := a + 1 } ∧ RegsBut (wordRegs e) s t ∧ ThreadsBut e sl s t ∧ SameBut [.regs, .bar4, .out, .freeCtr, .threads, .samples, .evtCount] s t)) ∧
  -- XOR
  (∀ (s : State) (e sl d ga gb a : Nat) (th : Thread), s.fetches e sl (.xor e sl d ga gb) kPEH th a →
    Runs (.xor e sl d ga gb) s (fun t => (t.thread e sl).map (fun y => { y with c := th.c }) = some
    { th.fetched (s.fetchAddr th) s.now with g := th.g.set d ((th.reg ga ^^^ th.reg gb) % 65536), z := ((th.reg ga ^^^ th.reg gb) % 65536 == 0), n := (th.reg ga ^^^ th.reg gb).testBit 15, pc := a + 1 } ∧ RegsBut (wordRegs e) s t ∧ ThreadsBut e sl s t ∧ SameBut [.regs, .bar4, .out, .freeCtr, .threads, .samples, .evtCount] s t)) ∧
  -- SHF: left, or right where bit 5 of SUB is set
  (∀ (s : State) (e sl d ga k a : Nat) (th : Thread), s.fetches e sl (.shf e sl d ga k) kPEH th a →
    Runs (.shf e sl d ga k) s (fun t => (t.thread e sl).map (fun y => { y with c := th.c }) = some
    { th.fetched (s.fetchAddr th) s.now with g := th.g.set d (((if k.testBit 5 then th.reg ga / 2 ^ (k % 16) else th.reg ga * 2 ^ (k % 16) % 65536)) % 65536), z := (((if k.testBit 5 then th.reg ga / 2 ^ (k % 16) else th.reg ga * 2 ^ (k % 16) % 65536)) % 65536 == 0), n := ((if k.testBit 5 then th.reg ga / 2 ^ (k % 16) else th.reg ga * 2 ^ (k % 16) % 65536)).testBit 15, pc := a + 1 } ∧ RegsBut (wordRegs e) s t ∧ ThreadsBut e sl s t ∧ SameBut [.regs, .bar4, .out, .freeCtr, .threads, .samples, .evtCount] s t)) ∧
  -- ANDI
  (∀ (s : State) (e sl d ga imm a : Nat) (th : Thread), s.fetches e sl (.andi e sl d ga imm) kPEH th a →
    Runs (.andi e sl d ga imm) s (fun t => (t.thread e sl).map (fun y => { y with c := th.c }) = some
    { th.fetched (s.fetchAddr th) s.now with g := th.g.set d ((th.reg ga &&& imm) % 65536), z := ((th.reg ga &&& imm) % 65536 == 0), n := (th.reg ga &&& imm).testBit 15, pc := a + 1 } ∧ RegsBut (wordRegs e) s t ∧ ThreadsBut e sl s t ∧ SameBut [.regs, .bar4, .out, .freeCtr, .threads, .samples, .evtCount] s t)) ∧
  -- CMP
  (∀ (s : State) (e sl ga gb a : Nat) (th : Thread), s.fetches e sl (.cmp e sl ga gb) kPEH th a →
    Runs (.cmp e sl ga gb) s (fun t => (t.thread e sl).map (fun y => { y with c := th.c }) = some
    { th.fetched (s.fetchAddr th) s.now with z := ((sub16 (th.reg ga) (th.reg gb)) % 65536 == 0), n := (sub16 (th.reg ga) (th.reg gb)).testBit 15, pc := a + 1 } ∧ RegsBut (wordRegs e) s t ∧ ThreadsBut e sl s t ∧ SameBut [.regs, .bar4, .out, .freeCtr, .threads, .samples, .evtCount] s t)) ∧
  -- CMPI
  (∀ (s : State) (e sl ga imm a : Nat) (th : Thread), s.fetches e sl (.cmpi e sl ga imm) kPEH th a →
    Runs (.cmpi e sl ga imm) s (fun t => (t.thread e sl).map (fun y => { y with c := th.c }) = some
    { th.fetched (s.fetchAddr th) s.now with z := ((sub16 (th.reg ga) imm) % 65536 == 0), n := (sub16 (th.reg ga) imm).testBit 15, pc := a + 1 } ∧
    RegsBut (wordRegs e) s t ∧ ThreadsBut e sl s t ∧ SameBut [.regs, .bar4, .out, .freeCtr, .threads, .samples, .evtCount] s t)) ∧
  -- MOVI
  (∀ (s : State) (e sl d imm a : Nat) (th : Thread), s.fetches e sl (.movi e sl d imm) kPEH th a →
    Runs (.movi e sl d imm) s (fun t => t.thread e sl = some { th.fetched (s.fetchAddr th) s.now with g := th.g.set d (imm % 65536), pc := a + 1 } ∧
    RegsBut (wordRegs e) s t ∧ ThreadsBut e sl s t ∧ SameBut [.regs, .bar4, .out, .threads, .samples, .evtCount] s t)) ∧
  -- ORH
  (∀ (s : State) (e sl d imm a : Nat) (th : Thread), s.fetches e sl (.orh e sl d imm) kPEH th a →
    Runs (.orh e sl d imm) s (fun t => t.thread e sl = some
    { th.fetched (s.fetchAddr th) s.now with g := th.g.set d ((th.reg d ||| imm * 256) % 65536), pc := a + 1 } ∧ RegsBut (wordRegs e) s t ∧
    ThreadsBut e sl s t ∧ SameBut [.regs, .bar4, .out, .threads, .samples, .evtCount] s t))

/-- EXR, EXK, KEYR, KEYI, ADVH, SETL, SETF, STAMP, LKP, LDT, LDM, STM. -/
def Obligations.HeaderAndKeyWords : Prop :=
  -- EXR: one byte
  (∀ (s : State) (e sl d off fid a : Nat) (th : Thread) (f : Frame), s.fetches e sl (.exr e sl d off 1) kPE th a → th.target = .frame fid →
    s.frame fid = some f → th.hp + off + 1 ≤ f.bytes.length → th.hp + off + 1 ≤ s.reach →
    Runs (.exr e sl d off 1) s (fun t => t.thread e sl = some
    { th.fetched (s.fetchAddr th) s.now with g := th.g.set d ((f.bytes.getD (th.hp + off) 0).toNat), pc := a + 1 } ∧ RegsBut (wordRegs e) s t ∧
    ThreadsBut e sl s t ∧ SameBut [.regs, .bar4, .out, .threads, .samples, .evtCount] s t)) ∧
  -- EXR: two bytes, big-endian
  (∀ (s : State) (e sl d off fid a : Nat) (th : Thread) (f : Frame), s.fetches e sl (.exr e sl d off 2) kPE th a → th.target = .frame fid →
    s.frame fid = some f → th.hp + off + 2 ≤ f.bytes.length → th.hp + off + 2 ≤ s.reach →
    Runs (.exr e sl d off 2) s (fun t => t.thread e sl = some
    { th.fetched (s.fetchAddr th) s.now with g := th.g.set d ((f.bytes.getD (th.hp + off) 0).toNat * 256 + (f.bytes.getD (th.hp + off + 1) 0).toNat), pc := a + 1 } ∧ RegsBut (wordRegs e) s t ∧ ThreadsBut e sl s t ∧ SameBut [.regs, .bar4, .out, .threads, .samples, .evtCount] s t)) ∧
  -- EXR: a byte that has not come stalls the thread at the word
  (∀ (s : State) (e sl d off fid a : Nat) (th : Thread) (f : Frame), s.fetches e sl (.exr e sl d off 1) kPE th a → th.target = .frame fid →
    s.frame fid = some f → f.bytes.length ≤ th.hp + off → f.ended = false → th.hp + off < s.reach →
    Runs (.exr e sl d off 1) s (fun t => (t.thread e sl).map (fun y => (y.pc, y.g, y.wait.map (fun w => (w.wc, w.arg, w.implied)))) = some (th.pc,
    th.g, some (0, th.hp + off, true)) ∧ RegsBut (wordRegs e) s t ∧ ThreadsBut e sl s t ∧
    SameBut [.regs, .bar4, .out, .threads, .samples, .evtCount] s t)) ∧
  -- EXK: at KPOS
  (∀ (s : State) (e sl off len kpos fid a : Nat) (th : Thread) (f : Frame), s.fetches e sl (.exk e sl off len kpos) kPE th a → th.target = .frame fid →
    s.frame fid = some f → th.hp + off + len ≤ f.bytes.length → th.hp + off + len ≤ s.reach → kpos ≠ 0 → 2 * kpos + len ≤ 128 →
    Runs (.exk e sl off len kpos) s (fun t => t.thread e sl = some
    { th.fetched (s.fetchAddr th) s.now with kc := (2 * kpos + len + 1) / 2, pc := a + 1 } ∧
    (t.frame fid).map (·.keys) = some (setBytes f.keys (2 * kpos) ((f.bytes.drop (th.hp + off)).take len)) ∧ RegsBut (wordRegs e) s t ∧
    FramesBut fid s t ∧ ThreadsBut e sl s t ∧ SameBut [.regs, .bar4, .out, .threads, .samples, .evtCount, .frames] s t)) ∧
  -- KEYR: at KPOS
  (∀ (s : State) (e sl ga kpos fid a : Nat) (th : Thread) (f : Frame), s.fetches e sl (.keyr e sl ga kpos) kPE th a → th.target = .frame fid →
    s.frame fid = some f → kpos ≠ 0 → kpos < 64 →
    Runs (.keyr e sl ga kpos) s (fun t => t.thread e sl = some { th.fetched (s.fetchAddr th) s.now with kc := kpos + 1, pc := a + 1 } ∧
    (t.frame fid).map (·.keys) = some (setBytes f.keys (2 * kpos) (beBytes 2 (th.reg ga))) ∧ RegsBut (wordRegs e) s t ∧ FramesBut fid s t ∧
    ThreadsBut e sl s t ∧ SameBut [.regs, .bar4, .out, .threads, .samples, .evtCount, .frames] s t)) ∧
  -- KEYR: at KC where KPOS = 0
  (∀ (s : State) (e sl ga fid a : Nat) (th : Thread) (f : Frame), s.fetches e sl (.keyr e sl ga 0) kPE th a → th.target = .frame fid →
    s.frame fid = some f → th.kc < 64 →
    Runs (.keyr e sl ga 0) s (fun t => t.thread e sl = some { th.fetched (s.fetchAddr th) s.now with kc := th.kc + 1, pc := a + 1 } ∧
    (t.frame fid).map (·.keys) = some (setBytes f.keys (2 * th.kc) (beBytes 2 (th.reg ga))) ∧ RegsBut (wordRegs e) s t ∧ FramesBut fid s t ∧
    ThreadsBut e sl s t ∧ SameBut [.regs, .bar4, .out, .threads, .samples, .evtCount, .frames] s t)) ∧
  -- KEYI
  (∀ (s : State) (e sl imm kpos fid a : Nat) (th : Thread) (f : Frame), s.fetches e sl (.keyi e sl imm kpos) kPE th a → th.target = .frame fid →
    s.frame fid = some f → kpos ≠ 0 → kpos < 64 →
    Runs (.keyi e sl imm kpos) s (fun t => t.thread e sl = some { th.fetched (s.fetchAddr th) s.now with kc := kpos + 1, pc := a + 1 } ∧
    (t.frame fid).map (·.keys) = some (setBytes f.keys (2 * kpos) [BitVec.ofNat 8 imm]) ∧ RegsBut (wordRegs e) s t ∧ FramesBut fid s t ∧
    ThreadsBut e sl s t ∧ SameBut [.regs, .bar4, .out, .threads, .samples, .evtCount, .frames] s t)) ∧
  -- ADVH: up to 255
  (∀ (s : State) (e sl ga imm a : Nat) (th : Thread), s.fetches e sl (.advh e sl ga imm) kP th a → th.hp + th.reg ga + imm ≤ 255 →
    Runs (.advh e sl ga imm) s (fun t => t.thread e sl = some { th.fetched (s.fetchAddr th) s.now with hp := th.hp + th.reg ga + imm, pc := a + 1 } ∧
    RegsBut (wordRegs e) s t ∧ ThreadsBut e sl s t ∧ SameBut [.regs, .bar4, .out, .threads, .samples, .evtCount] s t)) ∧
  -- ADVH: past 255
  (∀ (s : State) (e sl ga imm a : Nat) (th : Thread), s.fetches e sl (.advh e sl ga imm) kP th a → 255 < th.hp + th.reg ga + imm →
    Runs (.advh e sl ga imm) s (fun t => t.thread e sl = some { th.fetched (s.fetchAddr th) s.now with hp := 255, rx := true, pc := a + 1 } ∧
    RegsBut (wordRegs e) s t ∧ ThreadsBut e sl s t ∧ SameBut [.regs, .bar4, .out, .threads, .samples, .evtCount] s t)) ∧
  -- SETL: below the reach and the layer limit
  (∀ (s : State) (e sl k fid a : Nat) (th : Thread) (f : Frame), s.fetches e sl (.setl e sl k) kP th a → th.target = .frame fid →
    s.frame fid = some f → th.hp < s.reach → s.layerLimit f k = false →
    Runs (.setl e sl k) s (fun t => t.thread e sl = some { th.fetched (s.fetchAddr th) s.now with pc := a + 1 } ∧
    (t.frame fid).map (·.layers) = some (f.layers ++ [{ kind := k, off := th.hp }]) ∧ RegsBut (wordRegs e) s t ∧ FramesBut fid s t ∧
    ThreadsBut e sl s t ∧ SameBut [.regs, .bar4, .out, .threads, .samples, .evtCount, .frames] s t)) ∧
  -- SETF: set
  (∀ (s : State) (e sl i fid a : Nat) (th : Thread) (f : Frame), s.fetches e sl (.setf e sl i true) kPE th a → th.target = .frame fid →
    s.frame fid = some f →
    Runs (.setf e sl i true) s (fun t => t.thread e sl = some { th.fetched (s.fetchAddr th) s.now with pc := a + 1 } ∧
    (t.frame fid).map (·.flags) = some (f.flags ||| 2 ^ i) ∧ RegsBut (wordRegs e) s t ∧ FramesBut fid s t ∧ ThreadsBut e sl s t ∧
    SameBut [.regs, .bar4, .out, .threads, .samples, .evtCount, .frames] s t)) ∧
  -- SETF: clear
  (∀ (s : State) (e sl i fid a : Nat) (th : Thread) (f : Frame), s.fetches e sl (.setf e sl i false) kPE th a → th.target = .frame fid →
    s.frame fid = some f →
    Runs (.setf e sl i false) s (fun t => t.thread e sl = some { th.fetched (s.fetchAddr th) s.now with pc := a + 1 } ∧
    (t.frame fid).map (fun g => g.flags.testBit i) = some false ∧ RegsBut (wordRegs e) s t ∧ FramesBut fid s t ∧ ThreadsBut e sl s t ∧
    SameBut [.regs, .bar4, .out, .threads, .samples, .evtCount, .frames] s t)) ∧
  -- STAMP: before the first LKP
  (∀ (s : State) (e sl fid a : Nat) (th : Thread) (f : Frame), s.fetches e sl (.stamp e sl) kP th a → th.target = .frame fid → s.frame fid = some f →
    th.looked = false →
    Runs (.stamp e sl) s (fun t => t.thread e sl = some { th.fetched (s.fetchAddr th) s.now with pc := a + 1 } ∧
    (t.frame fid).map (·.gen) = some (s.getF CLS_GEN_CURRENT) ∧ RegsBut (wordRegs e) s t ∧ FramesBut fid s t ∧ ThreadsBut e sl s t ∧
    SameBut [.regs, .bar4, .out, .threads, .samples, .evtCount, .frames] s t)) ∧
  -- STAMP: after it
  (∀ (s : State) (e sl fid a : Nat) (th : Thread) (f : Frame), s.fetches e sl (.stamp e sl) kP th a → th.target = .frame fid → s.frame fid = some f →
    th.looked = true →
    Runs (.stamp e sl) s (fun t => t.thread e sl = some { th.fetched (s.fetchAddr th) s.now with pc := a + 1 } ∧
    (t.frame fid).map (·.gen) = some f.gen ∧ RegsBut (wordRegs e) s t ∧ ThreadsBut e sl s t ∧
    SameBut [.regs, .bar4, .out, .threads, .samples, .evtCount] s t)) ∧
  -- LKP
  (∀ (s : State) (e sl k sel slot a : Nat) (th : Thread), s.fetches e sl (.lkp e sl k sel slot) kPEH th a →
    Runs (.lkp e sl k sel slot) s (fun t => t.thread e sl = some
    { th.fetched (s.fetchAddr th) s.now with results := th.results.set (slot % 4) (.issued k sel s.now), looked := true, pc := a + 1 } ∧
    RegsBut (wordRegs e) s t ∧ ThreadsBut e sl s t ∧ SameBut [.regs, .bar4, .out, .threads, .samples, .evtCount] s t)) ∧
  -- LDT: of a returned result
  (∀ (s : State) (e sl d w slot v a : Nat) (th : Thread) (ws : List Nat), s.fetches e sl (.ldt e sl d w slot) kPEH th a →
    th.results.getD (slot % 4) .empty = .returned ws → ws[w]? = some v →
    Runs (.ldt e sl d w slot) s (fun t => t.thread e sl = some { th.fetched (s.fetchAddr th) s.now with g := th.g.set d (v % 65536), pc := a + 1 } ∧
    RegsBut (wordRegs e) s t ∧ ThreadsBut e sl s t ∧ SameBut [.regs, .bar4, .out, .threads, .samples, .evtCount] s t)) ∧
  -- LDT: of a result that has not returned waits for it
  (∀ (s : State) (e sl d w slot k sel since a : Nat) (th : Thread), s.fetches e sl (.ldt e sl d w slot) kPEH th a →
    th.results.getD (slot % 4) .empty = .issued k sel since →
    Runs (.ldt e sl d w slot) s (fun t => (t.thread e sl).map (fun y => (y.pc, y.g, y.wait.map (fun x => (x.wc, x.arg, x.implied)))) = some (th.pc,
    th.g, some (1, slot % 4, true)) ∧ RegsBut (wordRegs e) s t ∧ ThreadsBut e sl s t ∧
    SameBut [.regs, .bar4, .out, .threads, .samples, .evtCount] s t)) ∧
  -- LDM
  (∀ (s : State) (e sl k a : Nat) (th : Thread), s.fetches e sl (.ldm e sl k) kH th a →
    Runs (.ldm e sl k) s (fun t => t.thread e sl = some
    { th.fetched (s.fetchAddr th) s.now with g := (th.g.set 2 (s.memLe (Config.tileWordAddr k (th.reg 0) (th.reg 1)) 4 % 65536)).set 3 (s.memLe (Config.tileWordAddr k (th.reg 0) (th.reg 1)) 4 / 65536 % 65536), pc := a + 1 } ∧ RegsBut (wordRegs e) s t ∧ ThreadsBut e sl s t ∧ SameBut [.regs, .bar4, .out, .threads, .samples, .evtCount] s t)) ∧
  -- STM: that compares equal
  (∀ (s : State) (e sl k a : Nat) (th : Thread), s.fetches e sl (.stm e sl k) kH th a →
    s.memLe (Config.tileWordAddr k (th.reg 0) (th.reg 1)) 4 = th.reg 4 + 65536 * th.reg 5 →
    Runs (.stm e sl k) s (fun t => t.thread e sl = some { th.fetched (s.fetchAddr th) s.now with pc := a + 1 } ∧
    t.rdMem (Config.tileWordAddr k (th.reg 0) (th.reg 1)) 4 = leBytes 4 (th.reg 2 + 65536 * th.reg 3) ∧
    MemBut (Config.tileWordAddr k (th.reg 0) (th.reg 1)) 4 s t ∧ RegsBut (wordRegs e) s t ∧ ThreadsBut e sl s t ∧
    SameBut [.regs, .bar4, .out, .mem, .threads, .samples, .evtCount] s t)) ∧
  -- STM: that does not
  (∀ (s : State) (e sl k a : Nat) (th : Thread), s.fetches e sl (.stm e sl k) kH th a →
    s.memLe (Config.tileWordAddr k (th.reg 0) (th.reg 1)) 4 ≠ th.reg 4 + 65536 * th.reg 5 →
    Runs (.stm e sl k) s (fun t => t.thread e sl = some { th.fetched (s.fetchAddr th) s.now with z := false, pc := a + 1 } ∧
    RegsBut (wordRegs e) s t ∧ ThreadsBut e sl s t ∧ SameBut [.regs, .bar4, .out, .threads, .samples, .evtCount] s t))

/-- BR, CALL, RET, JX, BTAB, WAIT, WAIT_SATISFIED, WAIT_TIMEOUT. -/
def Obligations.ControlWords : Prop :=
  -- BR
  (∀ (s : State) (e sl k tgt a : Nat) (th : Thread), s.fetches e sl (.br e sl k tgt) kPEH th a →
    Runs (.br e sl k tgt) s (fun t => t.thread e sl = some
    { th.fetched (s.fetchAddr th) s.now with pc := if th.cond k then (if 0x8000 ≤ a then 0x8000 + tgt else tgt) else a + 1 } ∧
    RegsBut (wordRegs e) s t ∧ ThreadsBut e sl s t ∧ SameBut [.regs, .bar4, .out, .threads, .samples, .evtCount] s t)) ∧
  -- CALL
  (∀ (s : State) (e sl tgt a : Nat) (th : Thread), s.fetches e sl (.call e sl tgt) kPEH th a → th.stack.length < 4 →
    Runs (.call e sl tgt) s (fun t => t.thread e sl = some
    { th.fetched (s.fetchAddr th) s.now with stack := (a + 1) :: th.stack, pc := if 0x8000 ≤ a then 0x8000 + tgt else tgt } ∧
    RegsBut (wordRegs e) s t ∧ ThreadsBut e sl s t ∧ SameBut [.regs, .bar4, .out, .threads, .samples, .evtCount] s t)) ∧
  -- CALL on a full stack: the thread is aborted
  (∀ (s : State) (e sl tgt a : Nat) (th : Thread), s.fetches e sl (.call e sl tgt) kPEH th a → 4 ≤ th.stack.length →
    Runs (.call e sl tgt) s (fun t => t.thread e sl = none)) ∧
  -- RET
  (∀ (s : State) (e sl r a : Nat) (th : Thread) (st : List Nat), s.fetches e sl (.ret e sl) kPEH th a → th.stack = r :: st →
    Runs (.ret e sl) s (fun t => t.thread e sl = some { th.fetched (s.fetchAddr th) s.now with stack := st, pc := r } ∧ RegsBut (wordRegs e) s t ∧
    ThreadsBut e sl s t ∧ SameBut [.regs, .bar4, .out, .threads, .samples, .evtCount] s t)) ∧
  -- RET on an empty stack: the thread is aborted
  (∀ (s : State) (e sl a : Nat) (th : Thread), s.fetches e sl (.ret e sl) kPEH th a → th.stack = [] →
    Runs (.ret e sl) s (fun t => t.thread e sl = none)) ∧
  -- JX
  (∀ (s : State) (e sl x a : Nat) (th : Thread), s.fetches e sl (.jx e sl x) kPEH th a → x ≠ 0 ∨ s.threadFrame th = none →
    Runs (.jx e sl x) s (fun t => t.thread e sl = some { th.fetched (s.fetchAddr th) s.now with pc := x } ∧ RegsBut (wordRegs e) s t ∧
    ThreadsBut e sl s t ∧ SameBut [.regs, .bar4, .out, .threads, .samples, .evtCount] s t)) ∧
  -- JX: to 0000h: node dispatch along the first edge that matches g3
  (∀ (s : State) (e sl fid a : Nat) (th : Thread) (f : Frame) (nd nx : Node) (ed : Edge), s.fetches e sl (.jx e sl 0) kPEH th a →
    th.target = .frame fid → s.frame fid = some f → e < 17 → s.node th.node = some nd →
    nd.edges.find? (fun x => th.reg 3 &&& x.mask == x.value) = some ed → th.hp + ed.adv < s.reach → th.hp + ed.adv ≤ 255 → s.node ed.next = some nx →
    nx.record = true → s.layerLimit f nx.kind = false →
    Runs (.jx e sl 0) s (fun t => t.thread e sl = some
    { th.fetched (s.fetchAddr th) s.now with hp := th.hp + ed.adv, node := ed.next, pc := nx.entry } ∧
    (t.frame fid).map (·.layers) = some (f.layers ++ [{ kind := nx.kind, off := th.hp + ed.adv }]) ∧ RegsBut (wordRegs e) s t ∧ FramesBut fid s t ∧
    ThreadsBut e sl s t ∧ SameBut [.regs, .bar4, .out, .threads, .samples, .evtCount, .frames] s t)) ∧
  -- BTAB
  (∀ (s : State) (e sl ga imm a : Nat) (th : Thread), s.fetches e sl (.btab e sl ga imm) kPEH th a →
    Runs (.btab e sl ga imm) s (fun t => t.thread e sl = some
    { th.fetched (s.fetchAddr th) s.now with pc := if 0x8000 ≤ a then 0x8000 + (imm * 16 + th.reg ga % 16) else imm * 16 + th.reg ga % 16 } ∧
    RegsBut (wordRegs e) s t ∧ ThreadsBut e sl s t ∧ SameBut [.regs, .bar4, .out, .threads, .samples, .evtCount] s t)) ∧
  -- WAIT: for a byte that has come
  (∀ (s : State) (e sl n fid a : Nat) (th : Thread) (f : Frame), s.fetches e sl (.wait e sl 0 n false false) kPEH th a → th.target = .frame fid →
    s.frame fid = some f → e < 17 → n < s.reach → n < f.bytes.length →
    Runs (.wait e sl 0 n false false) s (fun t => t.thread e sl = some { th.fetched (s.fetchAddr th) s.now with pc := a + 1 } ∧
    RegsBut (wordRegs e) s t ∧ ThreadsBut e sl s t ∧ SameBut [.regs, .bar4, .out, .threads, .samples, .evtCount] s t)) ∧
  -- WAIT: for a byte at or beyond the reach
  (∀ (s : State) (e sl n a : Nat) (th : Thread) (ts tf : Bool), s.fetches e sl (.wait e sl 0 n ts tf) kPEH th a → e < 17 → s.reach ≤ n →
    Runs (.wait e sl 0 n ts tf) s (fun t => t.thread e sl = some { th.fetched (s.fetchAddr th) s.now with rx := true, pc := a + 1 } ∧
    RegsBut (wordRegs e) s t ∧ ThreadsBut e sl s t ∧ SameBut [.regs, .bar4, .out, .threads, .samples, .evtCount] s t)) ∧
  -- WAIT: for a result that has not returned, until the short or long timeout
  (∀ (s : State) (e sl n k sel since a : Nat) (th : Thread) (ts tf : Bool), s.fetches e sl (.wait e sl 1 n ts tf) kPEH th a →
    th.results.getD (n % 4) .empty = .issued k sel since →
    Runs (.wait e sl 1 n ts tf) s (fun t => (t.thread e sl).map (fun y => (y.pc, y.g, y.wait.map (fun x => (x.wc, x.arg, x.tf, x.implied,
    x.deadline)))) = some (a + 1, th.g, some (1, n % 4, tf, false, s.now + tNs (s.waitNs e ts))) ∧ RegsBut (wordRegs e) s t ∧ ThreadsBut e sl s t ∧
    SameBut [.regs, .bar4, .out, .threads, .samples, .evtCount] s t)) ∧
  -- WAIT with WC = 11b: the thread is aborted
  (∀ (s : State) (e sl n a : Nat) (ts tf : Bool) (th : Thread), s.fetches e sl (.wait e sl 3 n ts tf) kPEH th a →
    Runs (.wait e sl 3 n ts tf) s (fun t => t.thread e sl = none)) ∧
  -- WAIT_SATISFIED of a WAIT
  (∀ (s : State) (e sl fid : Nat) (th : Thread) (w : WaitSt) (eof : Bool), s.thread e sl = some th → th.wait = some w → w.implied = false →
    th.target = .frame fid → s.waitMet th w = some eof →
    Runs (.waitSatisfied e sl) s (fun t => t.thread e sl = some { th with wait := none, eof := th.eof || eof } ∧ ThreadsBut e sl s t ∧
    SameBut [.threads] s t)) ∧
  -- WAIT_TIMEOUT with TF = 1
  (∀ (s : State) (e sl : Nat) (th : Thread) (w : WaitSt), s.thread e sl = some th → th.wait = some w → w.tf = true → w.deadline ≤ s.now →
    s.waitMet th w = none →
    Runs (.waitTimeout e sl) s (fun t => t.thread e sl = some { th with wait := none, tmo := true } ∧ RegsBut (wordRegs e) s t ∧
    ThreadsBut e sl s t ∧ SameBut [.regs, .bar4, .out, .threads, .samples, .evtCount] s t)) ∧
  -- WAIT_TIMEOUT with TF = 0: the thread is aborted
  (∀ (s : State) (e sl : Nat) (th : Thread) (w : WaitSt), s.thread e sl = some th → th.wait = some w → w.tf = false → w.deadline ≤ s.now →
    s.waitMet th w = none →
    Runs (.waitTimeout e sl) s (fun t => t.thread e sl = none))

/-- PUSH, POP, REPL, CSUM, DONE, DROP, TRAP, SAMPLE_RECORD, HOUSEKEEPING_TASK_START, PATCH_RAM_SCRUB, PATCH_WORD_REWRITE, ROM_SIGNATURE_RECHECK. -/
def Obligations.EditAndEndWords : Prop :=
  -- PUSH
  (∀ (s : State) (e sl off len kpos fid p a : Nat) (th : Thread) (c : Copy), s.fetches e sl (.push e sl off len kpos) kE th a →
    th.target = .copy fid p → s.copy fid p = some c → 2 * kpos + len ≤ c.keys.length → c.window.length + len ≤ 384 →
    Runs (.push e sl off len kpos) s (fun t => (t.copy fid p).map (·.window) = some (c.window.take (th.hp + off) ++ (c.keys.drop (2 * kpos)).take len
    ++ c.window.drop (th.hp + off)) ∧ t.thread e sl = some { th.fetched (s.fetchAddr th) s.now with pc := a + 1 } ∧ RegsBut (wordRegs e) s t ∧
    CopiesBut fid p s t ∧ ThreadsBut e sl s t ∧ SameBut [.regs, .bar4, .out, .threads, .samples, .evtCount, .copies] s t)) ∧
  -- POP
  (∀ (s : State) (e sl off len fid p a : Nat) (th : Thread) (c : Copy), s.fetches e sl (.pop e sl off len 0) kE th a → th.target = .copy fid p →
    s.copy fid p = some c → c.window.length ≤ 384 →
    Runs (.pop e sl off len 0) s (fun t => (t.copy fid p).map (·.window) = some (c.window.take (th.hp + off) ++ c.window.drop (th.hp + off + len)) ∧
    t.thread e sl = some { th.fetched (s.fetchAddr th) s.now with pc := a + 1 } ∧ RegsBut (wordRegs e) s t ∧ CopiesBut fid p s t ∧
    ThreadsBut e sl s t ∧ SameBut [.regs, .bar4, .out, .threads, .samples, .evtCount, .copies] s t)) ∧
  -- REPL
  (∀ (s : State) (e sl off len kpos fid p a : Nat) (th : Thread) (c : Copy), s.fetches e sl (.repl e sl off len kpos) kE th a →
    th.target = .copy fid p → s.copy fid p = some c → 2 * kpos + len ≤ c.keys.length → c.window.length ≤ 384 → th.hp + off + len ≤ c.window.length →
    Runs (.repl e sl off len kpos) s (fun t => (t.copy fid p).map (·.window) = some (setBytes c.window (th.hp + off) ((c.keys.drop (2 * kpos)).take
    len)) ∧ t.thread e sl = some { th.fetched (s.fetchAddr th) s.now with pc := a + 1 } ∧ RegsBut (wordRegs e) s t ∧ CopiesBut fid p s t ∧
    ThreadsBut e sl s t ∧ SameBut [.regs, .bar4, .out, .threads, .samples, .evtCount, .copies] s t)) ∧
  -- CSUM: with LEN − 1 = 0
  (∀ (s : State) (e sl off kpos fid p a : Nat) (th : Thread) (c : Copy), s.fetches e sl (.csum e sl off 1 kpos) kE th a → th.target = .copy fid p →
    s.copy fid p = some c → c.window.length ≤ 384 → th.hp + off + 2 ≤ c.window.length →
    Runs (.csum e sl off 1 kpos) s (fun t => (t.copy fid p).map (·.window) = some (applyDelta c.window c.layers (th.hp + off) c.delta) ∧
    t.thread e sl = some { th.fetched (s.fetchAddr th) s.now with pc := a + 1 } ∧ RegsBut (wordRegs e) s t ∧ CopiesBut fid p s t ∧
    ThreadsBut e sl s t ∧ SameBut [.regs, .bar4, .out, .threads, .samples, .evtCount, .copies] s t)) ∧
  -- DONE: of a parse thread: the key set is complete
  (∀ (s : State) (e sl fid a : Nat) (th : Thread) (f : Frame), s.fetches e sl (.done e sl) kPEH th a → th.target = .frame fid → s.frame fid = some f →
    f.ended = false →
    Runs (.done e sl) s (fun t => (t.frame fid).map (·.phase) = some .parsed ∧ ThreadsEnd th.target s t ∧ FramesBut fid s t ∧
    SameBut [.regs, .bar4, .out, .freeCtr, .threads, .samples, .evtCount, .frames] s t)) ∧
  -- DONE: of a rewrite thread: the copy can be sent
  (∀ (s : State) (e sl fid p a : Nat) (th : Thread) (c : Copy) (f : Frame), s.fetches e sl (.done e sl) kPEH th a → th.target = .copy fid p →
    s.copy fid p = some c → s.frame fid = some f → s.hasSecY p = false →
    Runs (.done e sl) s (fun t => (t.copy fid p).map (fun d => (d.phase, d.started, d.sentAt, d.sec)) = some (.sending, true, s.now, none) ∧
    ThreadsEnd th.target s t ∧ RegsBut ((EGR_Q_PEAK_NS_NS (s.quadOf c.port)).off :: wordRegs e) s t ∧ CopiesBut fid p s t ∧
    SameBut [.regs, .bar4, .out, .threads, .samples, .evtCount, .copies] s t)) ∧
  -- DONE: of a task
  (∀ (s : State) (e sl k a : Nat) (th : Thread), s.fetches e sl (.done e sl) kPEH th a → th.target = .task k →
    Runs (.done e sl) s (fun t => t.thread e sl = none ∧ RegsBut (wordRegs e) s t ∧ ThreadsBut e sl s t ∧
    SameBut [.regs, .bar4, .out, .threads, .samples, .evtCount] s t)) ∧
  -- DROP: of a frame that has not ended
  (∀ (s : State) (e sl r fid a : Nat) (th : Thread) (f : Frame), s.fetches e sl (.drop e sl r) kPE th a → th.target = .frame fid →
    s.frame fid = some f → f.ended = false → f.beads = [] → (∀ c ∈ s.copies, c.fid ≠ fid) →
    Runs (.drop e sl r) s (fun t => (t.frame fid).map (fun g => (g.phase, g.why)) = some (.dropped, some (f.why.getD tRX_RULE_DROP)) ∧
    ThreadsEnd th.target s t ∧ FramesBut fid s t ∧ SameBut [.regs, .bar4, .out, .threads, .samples, .evtCount, .frames] s t)) ∧
  -- DROP: of a copy
  (∀ (s : State) (e sl r fid p a : Nat) (th : Thread) (c : Copy), s.fetches e sl (.drop e sl r) kPE th a → th.target = .copy fid p →
    s.copy fid p = some c → c.started = false →
    Runs (.drop e sl r) s (fun t => t.copy fid p = none ∧ ThreadsEnd th.target s t ∧ FramesBut fid s t ∧ CopiesBut fid p s t ∧
    SameBut [.regs, .bar4, .out, .threads, .samples, .evtCount, .frames, .copies, .buf] s t)) ∧
  -- TRAP: of a frame whose bytes have their beads
  (∀ (s : State) (e sl r fid a : Nat) (th : Thread) (f : Frame), s.fetches e sl (.trap e sl r) kPE th a → th.target = .frame fid →
    s.frame fid = some f → f.ended = false → (f.bytes.length + 255) / 256 ≤ f.beads.length →
    Runs (.trap e sl r) s (fun t => (t.frame fid).map (fun g => (g.phase, g.list)) = some (.listed,
    [{ port := 64, why := 1, reason := r, replica := false }]) ∧ ThreadsEnd th.target s t ∧ FramesBut fid s t ∧
    SameBut [.regs, .bar4, .out, .threads, .samples, .evtCount, .frames] s t)) ∧
  -- SAMPLE_RECORD
  (∀ (s : State) (e sl : Nat) (x : Sample), s.samples.find? (fun y => y.eng == e && y.slot == sl) = some x →
    Runs (.sampleRecord e sl) s (fun t => t.getF (HSQ_SAMPLE_ADDR e) = x.addr % 65536 ∧ t.getF (HSQ_SAMPLE_THREAD e) = sl % 64 ∧
    t.getF (HSQ_SAMPLE_SKID e) = x.skid % 16 ∧ t.flag (HSQ_SAMPLE_ENDED e) = x.ended ∧ t.flag (HSQ_SAMPLE_VALID e) = true ∧
    t.samples = s.samples.filter (· != x) ∧ RegsBut [rHSQ_SAMPLE e] s t ∧ SameBut [.regs, .samples] s t)) ∧
  -- HOUSEKEEPING_TASK_START in a reserved slot
  (∀ (s : State) (k slot entry : Nat), s.engineOk 16 = true → slot ∈ s.freeSlots 16 →
    (s.threads.filter (fun th => th.eng == 16 && th.target == .task k)).length < taskReserve k →
    Runs (.housekeepingTaskStart k slot entry) s (fun t => (t.thread 16 slot).map (fun th => (th.target, th.pc)) = some (.task k, entry) ∧
    t.tasks = s.tasks.erase k ∧ RegsBut [(HSQ_ENG_STATUS_PEAK 16).off] s t ∧ ThreadsBut 16 slot s t ∧ SameBut [.regs, .threads, .tasks] s t)) ∧
  -- PATCH_RAM_SCRUB of a single-bit error: corrected and counted, a minor event of its source
  (∀ (s : State) (c w : Nat), c < 5 → w < 2048 → s.quiet (118 + c) → s.gatedSource (118 + c) (copyUnit c) = false →
    Runs (.patchRamScrub c w 1) s (fun t => CountedBy (HSQ_PATCH_ECC_CORR c) 1 s t ∧ CountedBy (FLT_SRC_CNT_EVENTS (118 + c)) 1 s t ∧
    RegsBut [(HSQ_PATCH_ECC_CORR c).off, (FLT_SRC_CNT_EVENTS (118 + c)).off, (FLT_SRC_STATE_WIN_COUNT (118 + c)).off] s t ∧
    SameBut [.regs, .flt] s t)) ∧
  -- PATCH_RAM_SCRUB of a worse error: the word is marked
  (∀ (s : State) (c w n : Nat), c < 5 → w < 2048 → 2 ≤ n → s.quiet (123 + c) → s.gatedSource (123 + c) (copyUnit c) = false →
    Runs (.patchRamScrub c w n) s (fun t => t.patchBad = (c, w, false) :: s.patchBad.filter (fun x => !(x.1 == c && x.2.1 == w)) ∧
      CountedBy (HSQ_PATCH_ECC_UNCORR c) 1 s t ∧ CountedBy (FLT_SRC_CNT_EVENTS (123 + c)) 1 s t ∧
      RegsBut [(HSQ_PATCH_ECC_UNCORR c).off, (FLT_SRC_CNT_EVENTS (123 + c)).off, (FLT_SRC_STATE_WIN_COUNT (123 + c)).off] s t ∧
    SameBut [.regs, .flt, .patchBad] s t)) ∧
  -- a word of the patch RAM that is no opcode aborts its thread
  (∀ (s : State) (e sl a : Nat) (th : Thread), s.thread e sl = some th → th.wait = none → (s.fetchAddr th).1 = a → 0x8000 ≤ a → a < 0x8800 →
    s.patchBad.find? (fun x => x.1 == romCopy e && x.2.1 + 0x8000 == a) = none →
    decodeMicro e sl (s.getF (HSQ_PATCH_WORD_WORD (romCopy e) (a - 0x8000))) = none →
    Runs (.nop e sl) s (fun t => t.thread e sl = none)) ∧
  -- PATCH_WORD_REWRITE
  (∀ (s : State) (c w : Nat) (b : Bool), (c, w, b) ∈ s.patchBad →
    Runs (.patchWordRewrite c w) s (fun t => t.getF (HSQ_PATCH_WORD_WORD c w) = s.patchImage c w % 2 ^ (HSQ_PATCH_WORD_WORD c w).width ∧
    t.patchBad = s.patchBad.filter (fun x => !(x.1 == c && x.2.1 == w)) ∧ RegsBut [(HSQ_PATCH_WORD_WORD c w).off] s t ∧
    SameBut [.regs, .patchBad] s t)) ∧
  -- ROM_SIGNATURE_RECHECK of a copy that matches
  (∀ (s : State) (c : Nat), c < 5 →
    Runs (.romSignatureRecheck c true) s (fun t => t.flag (HSQ_ROM_STATUS_SIG_OK c) = true ∧ RegsBut [(HSQ_ROM_STATUS_SIG_OK c).off] s t ∧
    SameBut [.regs] s t))

/-! ### Versioned commits and tables -/

/-- COMMIT_GO, STROKE, COMMIT_DISCARD, DISCARD_COMPLETE, GENERATION_DRAINED, DRAIN_TIMEOUT, GENERATION_RETIRED. -/
def Obligations.CommitsAndGenerations : Prop :=
  -- COMMIT_GO accepted
  (∀ (s : State), s.gens.op = 0 → s.gens.outs.length < 4 → s.rootClash = false →
    Runs (.commitGo) s (fun t => t.getF CLS_COMMIT_STATUS_RESULT = 2 ∧ t.gens = { s.gens with op := 1 } ∧ RegsBut [rCLS_COMMIT_STATUS] s t ∧
    SameBut [.regs, .gens] s t)) ∧
  -- COMMIT_GO during a commit or a discard: busy
  (∀ (s : State), s.gens.op ≠ 0 →
    Runs (.commitGo) s (fun t => t.getF CLS_COMMIT_STATUS_RESULT = 4 ∧ t.flag CLS_INT_STATUS_REFUSED = true ∧
    RegsBut [rCLS_COMMIT_STATUS, rCLS_INT_STATUS] s t ∧ SameBut [.regs, .bar4, .out] s t)) ∧
  -- COMMIT_GO with four generations outstanding
  (∀ (s : State), s.gens.op = 0 → 4 ≤ s.gens.outs.length →
    Runs (.commitGo) s (fun t => t.getF CLS_COMMIT_STATUS_RESULT = 3 ∧ t.flag CLS_INT_STATUS_REFUSED = true ∧
    RegsBut [rCLS_COMMIT_STATUS, rCLS_INT_STATUS] s t ∧ SameBut [.regs, .bar4, .out] s t)) ∧
  -- COMMIT_GO with two roots of a tree live for NEXT
  (∀ (s : State), s.gens.op = 0 → s.gens.outs.length < 4 → s.rootClash = true →
    Runs (.commitGo) s (fun t => t.getF CLS_COMMIT_STATUS_RESULT = 5 ∧ t.flag CLS_INT_STATUS_REFUSED = true ∧
    RegsBut [rCLS_COMMIT_STATUS, rCLS_INT_STATUS] s t ∧ SameBut [.regs, .bar4, .out] s t)) ∧
  -- STROKE with no write held
  (∀ (s : State), s.gens.op = 1 → s.gens.held = [] → s.heldLo = [] →
    Runs (.stroke) s (fun t => t.getF CLS_GEN_CURRENT = s.getF CLS_GEN_NEXT ∧ t.getF CLS_GEN_NEXT = (s.getF CLS_GEN_NEXT + 1) % 65536 ∧
      t.getF CLS_COMMIT_STATUS_RESULT = 1 ∧ t.getF CLS_COMMIT_STATUS_GEN = s.getF CLS_GEN_NEXT ∧ t.flag CLS_INT_STATUS_DONE = true ∧
      t.getF CLS_JOURNAL_STAGED = 0 ∧ t.gens.op = 0 ∧ t.gens.journal = [] ∧ t.gens.strokeAt = s.now ∧
      t.gens.outs.head? = some
    { gen := s.getF CLS_GEN_NEXT, rwg := s.stagedWords, journal := s.gens.journal, superAt := none, drained := false, settled := false } ∧
      (∀ x ∈ t.gens.outs.tail, x.gen = s.getF CLS_GEN_CURRENT → x.superAt = some s.now) ∧ SameBut [.regs, .bar4, .out, .gens, .fwd] s t)) ∧
  -- COMMIT_DISCARD
  (∀ (s : State), s.gens.op = 0 →
    Runs (.commitDiscard) s (fun t => t.getF CLS_COMMIT_STATUS_RESULT = 2 ∧ t.gens = { s.gens with op := 2 } ∧ RegsBut [rCLS_COMMIT_STATUS] s t ∧
    SameBut [.regs, .gens] s t)) ∧
  -- COMMIT_DISCARD during a commit or a discard
  (∀ (s : State), s.gens.op ≠ 0 →
    Runs (.commitDiscard) s (fun t => t.getF CLS_COMMIT_STATUS_RESULT = 4 ∧ RegsBut [rCLS_COMMIT_STATUS] s t ∧ SameBut [.regs] s t)) ∧
  -- DISCARD_COMPLETE with a staged birth in the journal: the birth is withdrawn
  (∀ (s : State) (a : Nat), s.gens.op = 2 → s.gens.held = [] → s.gens.journal = [.mem a] → s.recCopies a = [a] →
    stagedBirth (s.memLe a 2) s.nextTag = true →
    Runs (.discardComplete) s (fun t => t.memLe a 2 = 0 ∧ MemBut a 2 s t ∧ t.getF CLS_COMMIT_STATUS_RESULT = 6 ∧ t.getF CLS_JOURNAL_STAGED = 0 ∧
    t.gens = { s.gens with op := 0, journal := [] } ∧
      SameBut [.regs, .mem, .gens, .heldLo] s t)) ∧
  -- GENERATION_DRAINED
  (∀ (s : State) (gen at_ : Nat) (g : GenSt), s.gen gen = some g → g.superAt = some at_ → g.drained = false → s.drainCount gen = 0 →
    Runs (.generationDrained gen) s (fun t => (t.gen gen).map (·.drained) = some true ∧ t.flag (CLS_DRAIN_DRAINED (gen % 8)) = true ∧
    t.flag CLS_INT_STATUS_DRAINED = true ∧
      RegsBut [rCLS_DRAIN (gen % 8), rCLS_DRAIN_PEAK_NS, rCLS_INT_STATUS] s t ∧ SameBut [.regs, .bar4, .out, .gens] s t)) ∧
  -- DRAIN_TIMEOUT with one station that holds a frame or copy of the generation
  (∀ (s : State) (gen at_ q i : Nat) (g : GenSt), s.gen gen = some g → g.superAt = some at_ → g.drained = false → at_ + tUs 20 ≤ s.now →
    s.holders gen = [(q, i)] → q < 4 → i < 16 → s.quiet (183 + 16 * q + i) → s.quiet 180 → s.gatedSource (183 + 16 * q + i) (.station q i) = false →
    s.gatedSource 180 .trafficMgr = false →
    Runs (.drainTimeout gen) s (fun t => t.flag CLS_INT_STATUS_DRAIN_TMO = true ∧ CountedBy (FLT_SRC_CNT_EVENTS (183 + 16 * q + i)) 1 s t ∧
    CountedBy (FLT_SRC_CNT_EVENTS 180) 1 s t ∧ t.gens = s.gens ∧
      RegsBut [rCLS_INT_STATUS, (FLT_SRC_CNT_EVENTS (183 + 16 * q + i)).off, (FLT_SRC_STATE_WIN_COUNT (183 + 16 * q + i)).off,
        (FLT_SRC_CNT_EVENTS 180).off, (FLT_SRC_STATE_WIN_COUNT 180).off] s t ∧
      SameBut [.regs, .bar4, .out, .flt] s t)) ∧
  -- GENERATION_RETIRED with one record in the journal of the next generation
  (∀ (s : State) (gen a : Nat) (g n : GenSt), s.gens.outs.getLast? = some g → g.gen = gen → g.drained = true → s.gen ((gen + 1) % 65536) = some n →
    n.gen ≠ gen → n.journal = [.mem a] → s.recCopies a = [a] →
    Runs (.generationRetired gen) s (fun t => t.memLe a 2 = settleLife (n.gen % 8) (s.memLe a 2) ∧ MemBut a 2 s t ∧ (∀ x ∈ t.gens.outs, x.gen ≠ gen) ∧
      (t.gen n.gen).map (fun x => (x.settled, x.journal)) = some (true, []) ∧
      t.flag (CLS_DRAIN_SETTLED (gen % 8)) = true ∧ t.flag (CLS_DRAIN_RETIRED (gen % 8)) = true ∧ t.flag (CLS_DRAIN_OUTSTANDING (gen % 8)) = false ∧
      t.flag CLS_INT_STATUS_RETIRED = true ∧ RegsBut [rCLS_DRAIN (gen % 8), rCLS_OUTSTANDING, rCLS_INT_STATUS] s t ∧
    SameBut [.regs, .bar4, .out, .mem, .gens] s t))

/-- BAR2_WRITE of a life word, TABLE_INSERT, TABLE_DELETE, TABLE_FIND, TABLE_COMMAND_COMPLETE, SHADOW_CLEAR, SHADOW_CLEAR_DONE, LEARN_HOLD_EXPIRY,
AGEING_VISIT, TCAM_ROW_CHECK. -/
def Obligations.VersionedWritesAndTableCommands : Prop :=
  -- BAR2_WRITE of a staged birth of an exact-flow record
  (∀ (s : State) (q j a v d : Nat) (r : TileRec), q < 4 → j < 96 → a = 0xC00000 * q + 0x20000 * j + v → v < 0x20000 → v % 32 = 20 →
    s.tileOwner q j = some r → r.kind = .exactFlow → r.glob = false → s.gens.op = 0 → s.cmd = none → s.memLe (a + 2) 2 = 0 →
    d = s.memLe a 2 + 65536 * (3 + 4 * s.nextTag) → s.journalFull = false →
    Runs (.bar2Write a 4 d) s (fun t => t.memLe (a + 2) 2 = 3 + 4 * s.nextTag ∧ MemBut (a + 2) 2 s t ∧
    t.gens = { s.gens with journal := s.gens.journal ++ [.mem (a + 2)] } ∧
      RegsBut [rCLS_JOURNAL] s t ∧ SameBut [.regs, .mem, .gens] s t)) ∧
  -- BAR2_WRITE of a birth that names another generation: refused with cause 3
  (∀ (s : State) (q j a v d n : Nat) (r : TileRec), q < 4 → j < 96 → a = 0xC00000 * q + 0x20000 * j + v → v < 0x20000 → v % 32 = 20 →
    s.tileOwner q j = some r → r.kind = .exactFlow → r.glob = false → s.gens.op = 0 → s.cmd = none → s.memLe (a + 2) 2 = 0 → n < 8 → n ≠ s.nextTag →
    d = s.memLe a 2 + 65536 * (3 + 4 * n) → s.quiet srcRefusedWrite →
    Runs (.bar2Write a 4 d) s (fun t => CountedBy CLS_WREF_CNT_COUNT 1 s t ∧ t.getF CLS_WREF_CAUSE_CAUSE = 3 ∧ t.getF CLS_WREF_ADDR_LO_ADDR = a ∧
    t.flag CLS_INT_STATUS_WRITE_REFUSED = true ∧
      CountedBy (FLT_SRC_CNT_EVENTS srcRefusedWrite) 1 s t ∧ SameBut [.regs, .bar4, .out, .flt] s t)) ∧
  -- TABLE_FIND of an entry that is present
  (∀ (s : State) (k i b : Nat) (key : List Byte), k < 64 → s.tblKind k = 1 → s.getF FWD_INS_STATUS_RESULT ≠ 2 → s.gens.op = 0 → s.journalFull = false →
    b = s.getF (FWD_TBL_BANK_ACTIVE k) → key = fdbKey s.insKey → s.present k b key = some i →
    Runs (.tableFind k false) s (fun t => t.cmd = some { table := k, key := s.insKey, result := 1, moves := 0, slot := some (i, b), held := [] } ∧
    t.getF FWD_INS_STATUS_RESULT = 2 ∧
      RegsBut [rFWD_INS_CTL, rFWD_INS_STATUS] s t ∧ SameBut [.regs, .cmd] s t)) ∧
  -- TABLE_FIND of an entry that is absent
  (∀ (s : State) (k b : Nat) (key : List Byte), k < 64 → s.tblKind k = 1 → s.getF FWD_INS_STATUS_RESULT ≠ 2 → s.gens.op = 0 → s.journalFull = false →
    b = s.getF (FWD_TBL_BANK_ACTIVE k) → key = fdbKey s.insKey → s.present k b key = none →
    Runs (.tableFind k false) s (fun t => t.cmd = some { table := k, key := s.insKey, result := 5, moves := 0, slot := none, held := [] } ∧
    t.getF FWD_INS_STATUS_RESULT = 2 ∧
      RegsBut [rFWD_INS_CTL, rFWD_INS_STATUS] s t ∧ SameBut [.regs, .cmd] s t)) ∧
  -- TABLE_INSERT into a free slot
  (∀ (s : State) (k i b : Nat) (key : List Byte), k < 64 → s.tblKind k = 1 → s.getF FWD_INS_STATUS_RESULT ≠ 2 → s.gens.op = 0 → s.journalFull = false →
    b = s.getF (FWD_TBL_BANK_ACTIVE k) → key = fdbKey s.insKey → s.present k b key = none → s.freeSlot k b key [] = some i →
    Runs (.tableInsert k false) s (fun t => (∀ a ∈ s.slotCopies k b i, t.rdMem a 16 = key ++ leBytes 2 (3 + 4 * s.nextTag) ++
        [BitVec.ofNat 8 (s.getF FWD_INS_DATA_LO_DATA / 65536 % 256 / 2 * 2 + 1), 0] ++ leBytes 2 (s.getF FWD_INS_DATA_LO_DATA) ++ [0, 0]) ∧
      MemButAll (s.slotCopies k b i) 16 s t ∧ t.gens = { s.gens with journal := s.gens.journal ++ [.mem (s.slotAddr k b i + 8)] } ∧
      t.cmd = some { table := k, key := s.insKey, result := 1, moves := 0, slot := some (i, b), held := [] } ∧ t.getF FWD_INS_STATUS_RESULT = 2 ∧
      RegsBut [rFWD_INS_CTL, rFWD_INS_STATUS, rCLS_JOURNAL] s t ∧ SameBut [.regs, .mem, .gens, .cmd] s t)) ∧
  -- TABLE_DELETE of a settled entry: its death is staged
  (∀ (s : State) (k i b : Nat) (key : List Byte), k < 64 → s.tblKind k = 1 → s.getF FWD_INS_STATUS_RESULT ≠ 2 → s.gens.op = 0 → s.journalFull = false →
    b = s.getF (FWD_TBL_BANK_ACTIVE k) → key = fdbKey s.insKey → s.present k b key = some i → stagedBirth (s.slotLife k b i) s.nextTag = false →
    Runs (.tableDelete k false) s (fun t => (∀ a ∈ s.slotCopies k b i, t.memLe (a + 8) 2 = s.slotLife k b i % 64 + 32 + 64 * s.nextTag) ∧
      MemButAll ((s.slotCopies k b i).map (· + 8)) 2 s t ∧ t.gens = { s.gens with journal := s.gens.journal ++ [.mem (s.slotAddr k b i + 8)] } ∧
      t.cmd = some { table := k, key := s.insKey, result := 1, moves := 0, slot := some (i, b), held := [] } ∧ t.getF FWD_INS_STATUS_RESULT = 2 ∧
      RegsBut [rFWD_INS_CTL, rFWD_INS_STATUS, rCLS_JOURNAL] s t ∧ SameBut [.regs, .mem, .gens, .cmd] s t)) ∧
  -- TABLE_COMMAND_COMPLETE with no write held
  (∀ (s : State) (c : CmdSt) (i b : Nat), s.cmd = some c → c.held = [] → c.result ≠ 3 → c.result < 8 → c.moves < 64 → c.slot = some (i, b) →
    i < 2 ^ 18 → b < 2 →
    Runs (.tableCommandComplete) s (fun t => t.cmd = none ∧ t.getF FWD_INS_STATUS_RESULT = c.result ∧ t.getF FWD_INS_STATUS_MOVES = c.moves ∧
    t.getF FWD_INS_SLOT_INDEX = i ∧
      t.getF FWD_INS_SLOT_BANK = b ∧ t.flag FWD_INS_SLOT_VALID = true ∧ t.flag FWD_INT_STATUS_INS_DONE = true ∧
      RegsBut [rFWD_INS_STATUS, rFWD_INS_SLOT, rFWD_INT_STATUS] s t ∧ SameBut [.regs, .bar4, .out, .cmd] s t)) ∧
  -- SHADOW_CLEAR
  (∀ (s : State) (k b : Nat), k < 64 → s.tblKind k = 1 → s.shadowFree k = true → s.cmdBank k true = some b →
    Runs (.shadowClear k) s (fun t => t.flag (FWD_TBL_BANK_CLEARING k) = true ∧ t.fwd.clearing.lookup k = some b ∧ RegsBut [rFWD_TBL_BANK k] s t ∧
    SameBut [.regs, .fwd] s t)) ∧
  -- SHADOW_CLEAR_DONE
  (∀ (s : State) (k b : Nat), k < 64 → s.flag (FWD_TBL_BANK_CLEARING k) = true → s.fwd.clearing.lookup k = some b →
    Runs (.shadowClearDone k) s (fun t => t.flag (FWD_TBL_BANK_CLEARING k) = false ∧ (∀ a, s.bankLife k b a = true → sget zeroByte t.mem a = 0) ∧
      (∀ a, s.bankLife k b a = false → sget zeroByte t.mem a = sget zeroByte s.mem a) ∧ t.fwd.clearing.lookup k = none ∧
      RegsBut [rFWD_TBL_BANK k] s t ∧ SameBut [.regs, .mem, .fwd] s t)) ∧
  -- LEARN_HOLD_EXPIRY: the record is posted at HEAD
  (∀ (s : State) (i h : Nat) (x : FiltEnt), s.filt[i]? = some x → x.expires ≤ s.now → s.flag FWD_LRING_CFG_EN = true →
    s.flag (HDM_DMA_CTL_EN 13) = true → s.flag (HDM_DMA_STATUS_SHUTDOWN 13) = false → s.fwd.learnQ = [] → s.getF FWD_LRING_HEAD_INDEX = h →
    (h + 1) % 65536 ≠ s.getF FWD_LRING_TAIL_INDEX →
    Runs (.learnHoldExpiry i) s (fun t => Out.hostWrite (s.pair rFWD_LRING_BASE_LO + 32 * h) (setBytes (s.learnRec x.key (if x.portB.isSome then 3
    else if x.old.isSome then 2 else 1)
        x.portA (x.portB.getD 0xFF) (x.old.getD 0xFFFF) x.extra x.tsA x.tsB) 9 [BitVec.ofNat 8 (s.getF FWD_LRING_HEAD_PHASE)]) ∈ t.out ∧
    t.filt = s.filt.eraseIdx i ∧
      t.getF FWD_LRING_HEAD_INDEX = (h + 1) % 65536 ∧ CountedBy FWD_LEARN_POSTED_COUNT 1 s t ∧ SameBut [.regs, .bar4, .out, .filt] s t)) ∧
  -- LEARN_HOLD_EXPIRY while the ring is disabled: the record is dropped and counted
  (∀ (s : State) (i : Nat) (x : FiltEnt), s.filt[i]? = some x → x.expires ≤ s.now → s.flag FWD_LRING_CFG_EN = false →
    Runs (.learnHoldExpiry i) s (fun t => t.filt = s.filt.eraseIdx i ∧ CountedBy FWD_LEARN_RING_FULL_COUNT 1 s t ∧
    t.flag FWD_INT_STATUS_RING_FULL = true ∧
      RegsBut [rFWD_FILTER_USED, rFWD_LEARN_RING_FULL, rFWD_INT_STATUS] s t ∧ SameBut [.regs, .bar4, .out, .filt] s t)) ∧
  -- AGEING_VISIT of a dynamic entry with AGE = 1: AGE is cleared in its home copy
  (∀ (s : State) (k i b a home : Nat), k < 64 → s.tblKind k = 1 → 0 < s.getF (FWD_TBL_AGE_AGE_S k) → s.gens.op ≠ 1 → s.cmd = none →
    i < 16 * s.tblBuckets k → s.sweepAt k i = true → b = s.rwgF s.curGen (FWD_TBL_BANK_ACTIVE k) → a = s.slotAddr k b i →
    liveFor (s.memLe (a + 8) 2) (s.curGen % 8) = true → lifeB (s.memLe (a + 8) 2) = false → lifeD (s.memLe (a + 8) 2) = false →
    (s.memLe (a + 10) 1).testBit 1 = false → (s.memLe (a + 10) 1).testBit 2 = false → home = s.fdbCopies.at (s.quadOf (s.memLe (a + 12) 2)) a →
    (s.memLe (home + 10) 1).testBit 0 = true →
    Runs (.ageingVisit k i) s (fun t => t.memLe (home + 10) 1 = s.memLe (home + 10) 1 - 1 ∧ MemBut (home + 10) 1 s t ∧
    (t.sweep k).next = (i + 1) % (16 * s.tblBuckets k) ∧ SameBut [.mem, .fwd] s t)) ∧
  -- AGEING_VISIT of one with AGE = 0: its death is staged and counted
  (∀ (s : State) (k i b a home : Nat), k < 64 → s.tblKind k = 1 → 0 < s.getF (FWD_TBL_AGE_AGE_S k) → s.gens.op ≠ 1 → s.cmd = none →
    i < 16 * s.tblBuckets k → s.sweepAt k i = true → b = s.rwgF s.curGen (FWD_TBL_BANK_ACTIVE k) → a = s.slotAddr k b i →
    liveFor (s.memLe (a + 8) 2) (s.curGen % 8) = true → lifeB (s.memLe (a + 8) 2) = false → lifeD (s.memLe (a + 8) 2) = false →
    (s.memLe (a + 10) 1).testBit 1 = false → (s.memLe (a + 10) 1).testBit 2 = false → home = s.fdbCopies.at (s.quadOf (s.memLe (a + 12) 2)) a →
    (s.memLe (home + 10) 1).testBit 0 = false → s.journalFull = false →
    Runs (.ageingVisit k i) s (fun t => (∀ x ∈ s.slotCopies k b i, t.memLe (x + 8) 2 = s.memLe (a + 8) 2 % 64 + 32 + 64 * s.nextTag) ∧
    MemButAll ((s.slotCopies k b i).map (· + 8)) 2 s t ∧
      t.gens = { s.gens with journal := s.gens.journal ++ [.mem (a + 8)] } ∧ CountedBy (FWD_TBL_AGED_COUNT k) 1 s t ∧
      (t.sweep k).next = (i + 1) % (16 * s.tblBuckets k) ∧ SameBut [.regs, .bar4, .out, .mem, .gens, .fwd] s t)) ∧
  -- TCAM_ROW_CHECK of a row that differs from its mirror: repaired and counted, a minor event of its source
  (∀ (s : State) (q b r : Nat), q < 4 → b < 24 → r < 512 → s.flag (ASM_Q_BLK_POWERED q b) = true → s.quiet (155 + 4 * q) →
    s.gatedSource (155 + 4 * q) (.tile q) = false →
    Runs (.tcamRowCheck q b r 1) s (fun t => t.rdMem (rowAddr q b r) 45 = readBytes s.mirror (rowAddr q b r) 45 ∧ MemBut (rowAddr q b r) 45 s t ∧
    CountedBy (ASM_Q_REPAIR_COUNT q) 1 s t ∧
      CountedBy (FLT_SRC_CNT_EVENTS (155 + 4 * q)) 1 s t ∧
      RegsBut [(ASM_Q_REPAIR_COUNT q).off, (FLT_SRC_CNT_EVENTS (155 + 4 * q)).off, (FLT_SRC_STATE_WIN_COUNT (155 + 4 * q)).off] s t ∧
      SameBut [.regs, .mem, .flt] s t)) ∧
  -- TCAM_ROW_CHECK of a row that is as its mirror
  (∀ (s : State) (q b r : Nat), q < 4 → b < 24 → r < 512 →
    Runs (.tcamRowCheck q b r 0) s (fun t => SameBut [] s t))

/-! ### Lanes, ports and the MAC -/

/-- Bring-up of the lanes: start, lock, the training limit, retries, negotiation restarts, retraining, and link faults. -/
def Obligations.LanesComeUpAndAreLost : Prop :=
  -- LANE_BRINGUP_START of a lane without link training
  (∀ (s : State) (c : Nat) (l : LaneSt), c < 24 → s.lane c = some l → s.isSealed = true → l.began = none → l.retryAt = none →
    s.flag (LAN_STATUS_LOCKED c) = false → l.rate < 2 ∨ s.flag (LAN_CTL_LT_EN c) = false →
    Runs (.laneBringupStart c) s (fun t => t.rd (rLAN_STATUS c) = 0 ∧ t.lane c = some { l with began := some s.now, retryAt := none } ∧
      RegsBut [rLAN_STATUS c] s t ∧ LanesBut c s t ∧ SameBut [.regs, .lanes] s t)) ∧
  -- LANE_BRINGUP_START of a lane that trains: the record's preset outside a short Ascent
  (∀ (s : State) (c : Nat) (l : LaneSt), c < 24 → s.lane c = some l → s.isSealed = true → l.began = none → l.retryAt = none →
    s.flag (LAN_STATUS_LOCKED c) = false → 2 ≤ l.rate → s.flag (LAN_CTL_LT_EN c) = true → s.mode.ascent ≠ .short →
    Runs (.laneBringupStart c) s (fun t => t.rd (rLAN_STATUS c) = BitVec.ofNat 32 (l.eqPreset % 16 * 256) ∧
    t.lane c = some { l with began := some s.now, retryAt := none, taps := [] } ∧
      RegsBut [rLAN_STATUS c] s t ∧ LanesBut c s t ∧ SameBut [.regs, .lanes] s t)) ∧
  -- LANE_LOCK of the one lane of a port that is down: its rise begins
  (∀ (s : State) (c p t0 fec skew : Nat) (modes : List Nat) (l : LaneSt) (x : PortSt), c < 24 → p < 64 → s.lane c = some l → s.port p = some x →
    l.began = some t0 → s.now ≤ t0 + s.trainLimit c → s.negotiates l = false → s.flag (LAN_STATUS_AN_MISMATCH c) = false →
    s.flag (LAN_STATUS_DOWN_DECLARED c) = false → x.ctlDown = false → s.flag (LAN_CTL_LT_EN c) = false → s.portsOfLane l = [p] →
    s.lanes.filter (fun y => y.port ≤ p && p < y.port + 4 && (y.port == p || x.mode == 9)) = [l] → s.flag (MAC_STATUS_LOCAL_FAULT p) = false →
    s.flag (MAC_STATUS_REMOTE_FAULT p) = false → s.flag (MAC_STATUS_LINK p) = false → s.mayRise p = true → s.modeCode ≠ mAscent →
    Runs (.laneLock c 6 ⟨modes, fec, skew⟩) s (fun t => t.flag (LAN_STATUS_SIGNAL c) = true ∧ t.flag (LAN_STATUS_CDR_LOCK c) = true ∧
    t.flag (LAN_STATUS_LOCKED c) = true ∧
      t.lane c = some { l with began := none, retryAt := none, skew := skew } ∧ t.port p = some { x with faultAt := none, lockAt := some s.now } ∧
      RegsBut [rLAN_STATUS c] s t ∧ LanesBut c s t ∧ PortsBut p s t ∧ SameBut [.regs, .lanes, .ports] s t)) ∧
  -- LANE_LOCK that has come as far as clock and data recovery: the two steps show, the bring-up goes on
  (∀ (s : State) (c t0 fec skew : Nat) (modes : List Nat) (l : LaneSt), c < 24 → s.lane c = some l → l.began = some t0 → s.now ≤ t0 + s.trainLimit c →
    s.flag (LAN_STATUS_AN_MISMATCH c) = false →
    Runs (.laneLock c 1 ⟨modes, fec, skew⟩) s (fun t => t.flag (LAN_STATUS_SIGNAL c) = true ∧ t.flag (LAN_STATUS_CDR_LOCK c) = true ∧
    t.flag (LAN_STATUS_LOCKED c) = s.flag (LAN_STATUS_LOCKED c) ∧
      RegsBut [rLAN_STATUS c] s t ∧ SameBut [.regs] s t)) ∧
  -- LANE_LOCK with a mismatch: the lane stays down until negotiation restarts
  (∀ (s : State) (c t0 step fec skew : Nat) (modes : List Nat) (l : LaneSt), c < 24 → s.lane c = some l → l.began = some t0 →
    s.now ≤ t0 + s.trainLimit c → s.negotiates l = true → s.flag (LAN_STATUS_AN_MISMATCH c) = false → 2 ≤ step → s.mismatch l modes fec = true →
    Runs (.laneLock c step ⟨modes, fec, skew⟩) s (fun t => t.flag (LAN_STATUS_AN_MISMATCH c) = true ∧
    t.flag (LAN_STATUS_LOCKED c) = s.flag (LAN_STATUS_LOCKED c) ∧
      t.lane c = some { l with retryAt := some (s.now + tSec 1) } ∧ RegsBut [rLAN_STATUS c] s t ∧ LanesBut c s t ∧ SameBut [.regs, .lanes] s t)) ∧
  -- LANE_TRAIN_LIMIT_EXPIRY of a rope lane while others are active
  (∀ (s : State) (c t0 : Nat) (l : LaneSt), 0x40 ≤ c → c < 0x45 → s.lane c = some l → l.began = some t0 → t0 + s.trainLimit c ≤ s.now →
    s.getF TWN_LANE_MAP_ACTIVE ≠ 0 →
    Runs (.laneTrainLimitExpiry c) s (fun t => t.flag (LAN_STATUS_DOWN_DECLARED c) = true ∧
    t.lane c = some { l with began := none, retryAt := some (l.retryAt.getD (s.now + tSec 1)) } ∧
      RegsBut [rLAN_STATUS c] s t ∧ LanesBut c s t ∧ SameBut [.regs, .lanes] s t)) ∧
  -- LANE_RETRY one second after the lane was declared down
  (∀ (s : State) (c at_ : Nat) (l : LaneSt), c < 24 → s.lane c = some l → s.flag (LAN_STATUS_DOWN_DECLARED c) = true → l.retryAt = some at_ →
    at_ ≤ s.now → l.rate < 2 ∨ s.flag (LAN_CTL_LT_EN c) = false →
    Runs (.laneRetry c) s (fun t => t.rd (rLAN_STATUS c) = 0 ∧ t.lane c = some { l with began := some s.now, retryAt := none } ∧
      RegsBut [rLAN_STATUS c] s t ∧ LanesBut c s t ∧ SameBut [.regs, .lanes] s t)) ∧
  -- AN_RESTART one second after a mismatch
  (∀ (s : State) (c at_ : Nat) (l : LaneSt), c < 24 → s.lane c = some l → s.flag (LAN_STATUS_AN_MISMATCH c) = true → l.retryAt = some at_ →
    at_ ≤ s.now → l.rate < 2 ∨ s.flag (LAN_CTL_LT_EN c) = false →
    Runs (.anRestart c) s (fun t => t.rd (rLAN_STATUS c) = 0 ∧ t.lane c = some { l with began := some s.now, retryAt := none } ∧
      RegsBut [rLAN_STATUS c] s t ∧ LanesBut c s t ∧ SameBut [.regs, .lanes] s t)) ∧
  -- LAN_RETRAIN of the lane of a port: the port is down at once, the lane begins again
  (∀ (s : State) (c p : Nat) (l : LaneSt) (x : PortSt), c < 24 → p < 64 → s.lane c = some l → s.port p = some x → s.isSealed = true →
    s.portsOfLane l = [p] → l.rate < 2 ∨ s.flag (LAN_CTL_LT_EN c) = false → (∀ f ∈ s.frames, f.port ≠ p) → (∀ k ∈ s.copies, k.port ≠ p) →
    s.getF (SWC_PORT_HOLD_STATE p) = 0 → 1 ≤ s.getF (SWC_PORT_HOLD_HOLD_MS p) → s.getF (SWC_PORT_HOLD_HOLD_MS p) ≤ 1000 →
    Runs (.lanRetrain c) s (fun t => t.flag (MAC_STATUS_LINK p) = false ∧ t.getF (SWC_PORT_HOLD_STATE p) = 1 ∧
      (t.port p).map (fun y => (y.holdEnd, y.lockAt)) = some (some (s.now + tMs (s.getF (SWC_PORT_HOLD_HOLD_MS p))), none) ∧
      t.rd (rLAN_STATUS c) = 0 ∧ t.lane c = some { l with began := some s.now, retryAt := none } ∧
      RegsBut [rLAN_STATUS c, rMAC_STATUS p, rSWC_PORT_HOLD p] s t ∧ LanesBut c s t ∧ PortsBut p s t ∧
      SameBut [.regs, .bar4, .out, .ports, .lanes] s t)) ∧
  -- LINK_FAULT_DETECT: signal lost on the lane of one port
  (∀ (s : State) (c p : Nat) (l : LaneSt) (x : PortSt), c < 24 → p < 64 → s.lane c = some l → s.port p = some x → x.mode ≠ 0 → s.portsOfLane l = [p] →
    Runs (.linkFaultDetect p c 0) s (fun t => t.flag (LAN_STATUS_SIGNAL c) = false ∧ t.flag (LAN_STATUS_CDR_LOCK c) = false ∧
    t.flag (LAN_STATUS_LOCKED c) = false ∧
      t.port p = some { x with faultAt := some (x.faultAt.getD s.now), lockAt := none } ∧ t.flag (MAC_STATUS_LINK p) = s.flag (MAC_STATUS_LINK p) ∧
      RegsBut [rLAN_STATUS c] s t ∧ PortsBut p s t ∧ SameBut [.regs, .ports] s t)) ∧
  -- LINK_FAULT_DETECT: remote fault received
  (∀ (s : State) (c p : Nat) (x : PortSt), p < 64 → s.port p = some x → x.mode ≠ 0 →
    Runs (.linkFaultDetect p c 4) s (fun t => t.flag (MAC_STATUS_REMOTE_FAULT p) = true ∧
    t.port p = some { x with faultAt := some (x.faultAt.getD s.now), lockAt := none } ∧
      RegsBut [rMAC_STATUS p] s t ∧ PortsBut p s t ∧ SameBut [.regs, .ports] s t)) ∧
  -- LINK_FAULT_DETECT: the receiver reports local fault: remote fault is sent
  (∀ (s : State) (c p : Nat) (x : PortSt), p < 64 → s.port p = some x → x.mode ≠ 0 → s.flag (MAC_STATUS_LOCAL_FAULT p) = false → s.modeCode ≠ mHold →
    Runs (.linkFaultDetect p c 3) s (fun t => t.flag (MAC_STATUS_LOCAL_FAULT p) = true ∧ t.out = .mac p 4 1 :: s.out ∧
    t.port p = some { x with faultAt := some (x.faultAt.getD s.now), lockAt := none } ∧
      RegsBut [rMAC_STATUS p] s t ∧ PortsBut p s t ∧ SameBut [.regs, .out, .ports] s t)) ∧
  -- LOCK_REGAINED on a port whose debounce runs: it ends
  (∀ (s : State) (p : Nat) (x : PortSt) (l : LaneSt), p < 64 → l.lane < 24 → s.port p = some x → x.mode ≠ 0 → s.lanesOf p = [l] → l.began = none →
    s.flag (LAN_STATUS_DOWN_DECLARED l.lane) = false → s.flag (MAC_STATUS_LINK p) = true →
    Runs (.lockRegained p) s (fun t => t.port p = some { x with faultAt := none, ctlDown := false } ∧ t.flag (MAC_STATUS_LINK p) = true ∧
    t.flag (MAC_STATUS_LOCAL_FAULT p) = false ∧
      t.flag (MAC_STATUS_REMOTE_FAULT p) = false ∧ t.flag (LAN_STATUS_LOCKED l.lane) = true ∧
      RegsBut [rLAN_STATUS l.lane, rMAC_STATUS p] s t ∧ PortsBut p s t ∧ SameBut [.regs, .out, .ports] s t))

/-- Ports declared down and up, the port hold, the shutdown of a MAC, the verify exchange and wake bursts. -/
def Obligations.PortsGoDownRiseAndShutDown : Prop :=
  -- PORT_DOWN of a port with nothing under way
  (∀ (s : State) (p t0 : Nat) (x : PortSt), p < 64 → s.port p = some x → x.faultAt = some t0 → s.flag (MAC_STATUS_LINK p) = true →
    t0 + tUs (min 1000 (s.getF (MAC_LINK_CFG_DOWN_US p))) ≤ s.now → s.withLane p = [p] → (∀ f ∈ s.frames, f.port ≠ p) →
    (∀ k ∈ s.copies, k.port ≠ p) → s.getF (SWC_PORT_HOLD_STATE p) = 0 → 1 ≤ s.getF (SWC_PORT_HOLD_HOLD_MS p) →
    s.getF (SWC_PORT_HOLD_HOLD_MS p) ≤ 1000 →
    Runs (.portDown p) s (fun t => t.flag (MAC_STATUS_LINK p) = false ∧ t.flag (MAC_STATUS_LINK_CHG p) = true ∧ t.getF (MAC_STATUS_PAUSED p) = 0 ∧
      t.getF (SWC_PORT_HOLD_STATE p) = 1 ∧
      t.port p = some
    { x with faultAt := none, lockAt := none, pauseEnd := [], genPause := 0, refreshAt := 0, holdEnd := some (s.now + tMs (s.getF (SWC_PORT_HOLD_HOLD_MS p))) } ∧
      RegsBut [rMAC_STATUS p, rSWC_PORT_HOLD p] s t ∧ PortsBut p s t ∧ SameBut [.regs, .bar4, .out, .ports] s t)) ∧
  -- PORT_UP after UP_MS, without preemption
  (∀ (s : State) (p t0 : Nat) (x : PortSt), p < 64 → s.port p = some x → x.lockAt = some t0 → s.flag (MAC_STATUS_LINK p) = false → s.mayRise p = true →
    t0 + tMs (min 100 (s.getF (MAC_LINK_CFG_UP_MS p))) ≤ s.now → s.flag (MAC_CTL_PREEMPT_EN p) = false → s.getF (SWC_PORT_HOLD_STATE p) ≠ 3 →
    Runs (.portUp p) s (fun t => t.flag (MAC_STATUS_LINK p) = true ∧ t.flag (MAC_STATUS_LINK_CHG p) = true ∧ t.getF (MAC_STATUS_VERIFY p) = 0 ∧
      t.getF (SWC_PORT_HOLD_STATE p) = 0 ∧ t.port p = some { x with faultAt := none, lockAt := none, holdEnd := none } ∧
      RegsBut [rMAC_STATUS p, rSWC_PORT_HOLD p] s t ∧ PortsBut p s t ∧ SameBut [.regs, .bar4, .out, .ports] s t)) ∧
  -- PORT_UP with preemption: the verify exchange starts
  (∀ (s : State) (p t0 : Nat) (x : PortSt), p < 64 → s.port p = some x → x.lockAt = some t0 → s.flag (MAC_STATUS_LINK p) = false → s.mayRise p = true →
    t0 + tMs (min 100 (s.getF (MAC_LINK_CFG_UP_MS p))) ≤ s.now → s.flag (MAC_CTL_PREEMPT_EN p) = true → s.flag (MAC_CTL_VERIFY_DIS p) = false →
    s.getF (SWC_PORT_HOLD_STATE p) ≠ 3 → s.modeCode ≠ mHold →
    Runs (.portUp p) s (fun t => t.flag (MAC_STATUS_LINK p) = true ∧ t.getF (MAC_STATUS_VERIFY p) = 1 ∧ Out.mac p 2 0 ∈ t.out ∧
      t.port p = some
    { x with faultAt := none, lockAt := none, holdEnd := none, verifyLeft := 2, verifyAt := s.now + tMs (s.getF (MAC_PREEMPT_VERIFY_MS p)) } ∧
      RegsBut [rMAC_STATUS p, rSWC_PORT_HOLD p] s t ∧ PortsBut p s t ∧ SameBut [.regs, .bar4, .out, .ports] s t)) ∧
  -- PORT_HOLD_EXPIRY of a port with empty queues: the flush begins
  (∀ (s : State) (p e : Nat) (x : PortSt), p < 68 → s.port p = some x → x.holdEnd = some e → e ≤ s.now → s.getF (SWC_PORT_HOLD_STATE p) = 1 →
    (∀ k ∈ s.copies, k.port ≠ p) →
    Runs (.portHoldExpiry p) s (fun t => t.getF (SWC_PORT_HOLD_STATE p) = 3 ∧ t.port p = some { x with holdEnd := none } ∧
      RegsBut [rSWC_PORT_HOLD p] s t ∧ PortsBut p s t ∧ SameBut [.regs, .ports] s t)) ∧
  -- HOLD_FLUSH_COMPLETE of a port with empty queues: expired
  (∀ (s : State) (p : Nat), p < 68 → s.getF (SWC_PORT_HOLD_STATE p) = 3 → (∀ k ∈ s.copies, k.port ≠ p) →
    Runs (.holdFlushComplete p) s (fun t => t.getF (SWC_PORT_HOLD_STATE p) = 2 ∧ RegsBut [rSWC_PORT_HOLD p] s t ∧ SameBut [.regs] s t)) ∧
  -- PORT_SHUTDOWN
  (∀ (s : State) (p : Nat), p < 64 ∨ p = 65 → s.flag (MAC_CTL_EN p) = true →
    Runs (.portShutdown p) s (fun t => t.flag (MAC_CTL_EN p) = false ∧ t.flag (MAC_STATUS_SHUTDOWN p) = true ∧
    t.flag (MAC_STATUS_EN_PENDING p) = false ∧
      RegsBut [rMAC_CTL p, rMAC_STATUS p] s t ∧ SameBut [.regs] s t)) ∧
  -- PORT_SHUTDOWN_COMPLETE
  (∀ (s : State) (p : Nat) (x : PortSt), p < 64 → s.port p = some x → s.flag (MAC_STATUS_SHUTDOWN p) = true →
    s.flag (MAC_STATUS_EN_PENDING p) = false → (∀ f ∈ s.frames, f.port ≠ p) → (∀ k ∈ s.copies, k.port ≠ p) →
    Runs (.portShutdownComplete p) s (fun t => t.flag (MAC_STATUS_SHUTDOWN p) = false ∧ t.flag (MAC_STATUS_LINK p) = false ∧
    t.getF (SWC_PORT_HOLD_STATE p) = 2 ∧
      (t.port p).map (fun y => (y.holdEnd, y.pauseEnd)) = some (none, []) ∧
      RegsBut [rMAC_STATUS p, rSWC_PORT_HOLD p] s t ∧ PortsBut p s t ∧ SameBut [.regs, .bar4, .out, .ports] s t)) ∧
  -- VERIFY_RESPONSE
  (∀ (s : State) (p : Nat), p < 66 → s.getF (MAC_STATUS_VERIFY p) = 1 →
    Runs (.verifyResponse p) s (fun t => t.getF (MAC_STATUS_VERIFY p) = 2 ∧ RegsBut [rMAC_STATUS p] s t ∧ SameBut [.regs] s t)) ∧
  -- VERIFY_TIMEOUT with attempts left: another packet
  (∀ (s : State) (p n : Nat) (x : PortSt), p < 64 → s.port p = some x → s.getF (MAC_STATUS_VERIFY p) = 1 → x.verifyAt ≤ s.now → x.verifyLeft = n + 1 →
    s.modeCode ≠ mHold →
    Runs (.verifyTimeout p) s (fun t => t.out = .mac p 2 0 :: s.out ∧
    t.port p = some { x with verifyLeft := n, verifyAt := s.now + tMs (s.getF (MAC_PREEMPT_VERIFY_MS p)) } ∧
      PortsBut p s t ∧ SameBut [.out, .ports] s t)) ∧
  -- VERIFY_TIMEOUT of the last attempt: failed
  (∀ (s : State) (p : Nat) (x : PortSt), p < 64 → s.port p = some x → s.getF (MAC_STATUS_VERIFY p) = 1 → x.verifyAt ≤ s.now → x.verifyLeft = 0 →
    Runs (.verifyTimeout p) s (fun t => t.getF (MAC_STATUS_VERIFY p) = 3 ∧ t.port p = some { x with verifyFails := x.verifyFails + 1 } ∧
    RegsBut [rMAC_STATUS p] s t ∧
      PortsBut p s t ∧ SameBut [.regs, .ports] s t)) ∧
  -- WAKE_TX of a port of 1 or 10 Gbit/s: the port sends for 200 µs
  (∀ (s : State) (p : Nat) (x : PortSt), p < 64 → s.port p = some x → x.mode = 1 ∨ x.mode = 2 → s.modeCode ≠ mHold →
    Runs (.wakeTx p) s (fun t => t.flag (MAC_STATUS_WAKE_TX_BUSY p) = true ∧ t.port p = some { x with wakeEnd := some (s.now + tUs 200) } ∧
    Out.mac p 3 0 ∈ t.out ∧
      TalliedBy p tTX_WAKE_BURSTS 1 s t ∧ RegsBut (rMAC_STATUS p :: tallyWords p [tTX_WAKE_BURSTS]) s t ∧ PortsBut p s t ∧
    SameBut [.regs, .bar4, .out, .ports] s t)) ∧
  -- WAKE_BURST_END
  (∀ (s : State) (p e : Nat) (x : PortSt), p < 64 → s.port p = some x → x.wakeEnd = some e → e ≤ s.now →
    Runs (.wakeBurstEnd p) s (fun t => t.flag (MAC_STATUS_WAKE_TX_BUSY p) = false ∧ t.port p = some { x with wakeEnd := none } ∧
    RegsBut [rMAC_STATUS p] s t ∧
      PortsBut p s t ∧ SameBut [.regs, .ports] s t))

/-- Flow control: pause frames received, the end of a timer, and pause frames sent while back-pressure lasts. -/
def Obligations.PauseHoldsClasses : Prop :=
  -- PAUSE_FRAME_RX: a link-level pause
  (∀ (s : State) (p q : Nat) (x : PortSt), p < 64 → s.port p = some x → x.mode ≠ 0 → s.flag (MAC_STATUS_LINK p) = true →
    s.getF (MAC_CTL_FC_MODE p) = 0 → s.flag (MAC_CTL_RX_PAUSE_EN p) = true → 0 < q → q < 65536 →
    Runs (.pauseFrameRx p 0 false [(0, q)]) s (fun t => (t.port p).map (·.pauseEnd) = some (sput x.pauseEnd 8 (s.now + s.quanta p q)) ∧
    t.getF (MAC_STATUS_PAUSED p) = t.pausedMask p ∧
      TalliedBy p tRX_PAUSE 1 s t ∧ TalliedBy p tRX_FRAMES 1 s t ∧ PortsBut p s t ∧ SameBut [.regs, .bar4, .out, .ports, .bw] s t)) ∧
  -- PAUSE_FRAME_RX: a time of 0 ends the timer
  (∀ (s : State) (p : Nat) (x : PortSt), p < 64 → s.port p = some x → x.mode ≠ 0 → s.flag (MAC_STATUS_LINK p) = true → s.getF (MAC_CTL_FC_MODE p) = 0 →
    s.flag (MAC_CTL_RX_PAUSE_EN p) = true →
    Runs (.pauseFrameRx p 0 false [(0, 0)]) s (fun t => (t.port p).map (·.pauseEnd) = some (sdel x.pauseEnd 8) ∧
    t.getF (MAC_STATUS_PAUSED p) = t.pausedMask p ∧
      PortsBut p s t ∧ SameBut [.regs, .bar4, .out, .ports, .bw] s t)) ∧
  -- PAUSE_FRAME_RX: a PFC frame that names one priority
  (∀ (s : State) (p i q : Nat) (x : PortSt), p < 64 → i < 8 → s.port p = some x → x.mode ≠ 0 → s.flag (MAC_STATUS_LINK p) = true →
    s.getF (MAC_CTL_FC_MODE p) = 1 → s.flag (MAC_CTL_RX_PAUSE_EN p) = true → 0 < q → q < 65536 →
    Runs (.pauseFrameRx p 1 false [(i, q)]) s (fun t => (t.port p).map (·.pauseEnd) = some (sput x.pauseEnd i (s.now + s.quanta p q)) ∧
    t.getF (MAC_STATUS_PAUSED p) = t.pausedMask p ∧
      TalliedBy p tRX_PFC 1 s t ∧ TalliedBy p (tTc (s.pfcTc p i) 4) 1 s t ∧ PortsBut p s t ∧ SameBut [.regs, .bar4, .out, .ports, .bw] s t)) ∧
  -- PAUSE_FRAME_RX of a kind that the port does not take: discarded and counted
  (∀ (s : State) (p op : Nat) (l : List (Nat × Nat)) (x : PortSt), p < 64 → s.port p = some x → x.mode ≠ 0 → s.flag (MAC_STATUS_LINK p) = true →
    op ≠ s.getF (MAC_CTL_FC_MODE p) →
    Runs (.pauseFrameRx p op false l) s (fun t => TalliedBy p tRX_MACCTL_DISCARD 1 s t ∧ t.ports = s.ports ∧ SameBut [.regs, .bar4, .out, .bw] s t)) ∧
  -- PAUSE_TIMER_EXPIRY of a priority's timer
  (∀ (s : State) (p i e : Nat) (x : PortSt), p < 64 → i < 8 → s.port p = some x → x.pauseEnd = [(i, e)] → e ≤ s.now →
    Runs (.pauseTimerExpiry p (s.pfcTc p i)) s (fun t => t.port p = some { x with pauseEnd := [] } ∧ t.getF (MAC_STATUS_PAUSED p) = 0 ∧
    RegsBut [rMAC_STATUS p] s t ∧ PortsBut p s t ∧ SameBut [.regs, .ports] s t)) ∧
  -- PAUSE_FRAME_TX: back-pressure begins, link-level
  (∀ (s : State) (p : Nat) (x : PortSt), s.port p = some x → s.pauseReady p = true → x.genPause = 0 → s.bpPrios p ≠ 0 → s.getF (MAC_CTL_FC_MODE p) = 0 →
    Runs (.pauseFrameTx p) s (fun t => Out.mac p 0 (s.getF (MAC_PAUSE_TX_QUANTA p)) ∈ t.out ∧
      t.port p = some { x with genPause := s.bpPrios p, refreshAt := s.now + s.quanta p (s.getF (MAC_PAUSE_TX_REFRESH p)) } ∧
      TalliedBy p tTX_PAUSE 1 s t ∧ RegsBut (tallyWords p [tTX_PAUSE]) s t ∧ PortsBut p s t ∧ SameBut [.regs, .bar4, .out, .ports] s t)) ∧
  -- PAUSE_FRAME_TX: back-pressure ends, link-level: a frame with time 0
  (∀ (s : State) (p : Nat) (x : PortSt), s.port p = some x → s.pauseReady p = true → x.genPause ≠ 0 → s.bpPrios p = 0 → s.getF (MAC_CTL_FC_MODE p) = 0 →
    Runs (.pauseFrameTx p) s (fun t => Out.mac p 0 0 ∈ t.out ∧ (t.port p).map (·.genPause) = some 0 ∧ TalliedBy p tTX_PAUSE 1 s t ∧
    RegsBut (tallyWords p [tTX_PAUSE]) s t ∧
      PortsBut p s t ∧ SameBut [.regs, .bar4, .out, .ports] s t)) ∧
  -- PAUSE_REFRESH: the frame is sent again
  (∀ (s : State) (p : Nat) (x : PortSt), s.port p = some x → s.pauseReady p = true → x.genPause ≠ 0 → x.refreshAt ≤ s.now → s.bpPrios p = x.genPause →
    s.getF (MAC_CTL_FC_MODE p) = 0 →
    Runs (.pauseRefresh p) s (fun t => Out.mac p 0 (s.getF (MAC_PAUSE_TX_QUANTA p)) ∈ t.out ∧
      t.port p = some { x with refreshAt := s.now + s.quanta p (s.getF (MAC_PAUSE_TX_REFRESH p)) } ∧ TalliedBy p tTX_PAUSE 1 s t ∧
      RegsBut (tallyWords p [tTX_PAUSE]) s t ∧ PortsBut p s t ∧ SameBut [.regs, .bar4, .out, .ports] s t))

/-! ### Modes, resets and the image -/

/-- Requests of the host: park, hold, warm reset, test, service and resume; what a wrong key, a wrong mode or a transition under way gives. -/
def Obligations.ModeRequestsAreCarriedOut : Prop :=
  -- REQ_PARK from Paired, Solo or Abseil
  (∀ (s : State) (i2c : Bool), s.asks → s.running = true → s.flt.reactions.any (fun r => r.done.isNone) = false →
    Runs (.reqPark 0xA5C3 i2c) s (fun t => t.getF AON_MODE_INFO_REQ_RESULT = 1 ∧ t.inTransition = true ∧ t.modeCode = s.modeCode ∧
      t.mode = { s.mode with park := 1, parkEnd := s.now + tMs 10, parkWaits := false, admitStop := true } ∧
      (s.modeCode = mPaired → s.getF TWN_STATUS_LANES ≠ 0 → Out.rope (stateMsg 2 (s.getF TWN_STATUS_VIRAM) [] []) ∈ t.out) ∧
      RegsBut [rAON_MODE_INFO, rGLB_MODE, rAGE_STATUS] s t ∧ SameBut [.regs, .out, .mode] s t)) ∧
  -- REQ_PARK from another mode is refused
  (∀ (s : State) (i2c : Bool), s.asks → s.running = false →
    Runs (.reqPark 0xA5C3 i2c) s (fun t => t.getF AON_MODE_INFO_REQ_RESULT = 2 ∧ t.modeCode = s.modeCode ∧ RegsBut [rAON_MODE_INFO] s t ∧
    SameBut [.regs] s t)) ∧
  -- REQ_PARK during a transition is busy
  (∀ (s : State) (i2c : Bool), s.modeCode ≠ mBivouac → s.mode.porst = false → s.moving = true →
    Runs (.reqPark 0xA5C3 i2c) s (fun t => t.getF AON_MODE_INFO_REQ_RESULT = 3 ∧ RegsBut [rAON_MODE_INFO] s t ∧ SameBut [.regs] s t)) ∧
  -- REQ_PARK with any other key is ignored
  (∀ (s : State) (key : Nat) (i2c : Bool), key ≠ 0xA5C3 →
    Runs (.reqPark key i2c) s (fun t => t = s)) ∧
  -- REQ_HOLD from a mode that may hold, with no frame in the device
  (∀ (s : State) (i2c : Bool), s.asks → s.mayHold = true → s.frames = [] → s.copies = [] →
    Runs (.reqHold 0xA5C3 i2c) s (fun t => EntersMode mHold 3 s t ∧ t.getF AON_MODE_INFO_REQ_RESULT = 1 ∧ t.flag AON_MODE_INFO_HOLD_PENDING = false ∧
    t.mode.admitStop = true ∧
      t.mode.ascent = .none ∧ t.mode.park = 0 ∧ t.anyIso = false ∧
      (s.getF TWN_STATUS_LANES ≠ 0 → Out.rope (t.safetyMsg (s.free.1 % 48) 4 false true (s.free.1 / 48 % 412) .noUnit t.localNs) ∈ t.out) ∧
      RegsBut (modeRegs ++ isoRegs) s t ∧ SameBut [.regs, .bar4, .freeCtr, .out, .mode, .flt, .dramc, .age] s t)) ∧
  -- REQ_HOLD during a transition is kept pending
  (∀ (s : State) (i2c : Bool), s.modeCode ≠ mBivouac → s.mode.porst = false → s.moving = true →
    Runs (.reqHold 0xA5C3 i2c) s (fun t => t.getF AON_MODE_INFO_REQ_RESULT = 1 ∧ t.flag AON_MODE_INFO_HOLD_PENDING = true ∧ t.modeCode = s.modeCode ∧
    RegsBut [rAON_MODE_INFO] s t ∧ SameBut [.regs] s t)) ∧
  -- HOLD_PENDING_EXECUTE once the transition has ended
  (∀ (s : State), s.flag AON_MODE_INFO_HOLD_PENDING = true → s.moving = false → s.mode.porst = false → s.mayHold = true → s.frames = [] →
    s.copies = [] →
    Runs (.holdPendingExecute) s (fun t => EntersMode mHold 3 s t ∧ t.flag AON_MODE_INFO_HOLD_PENDING = false ∧ t.mode.admitStop = true ∧
    t.anyIso = false ∧
      RegsBut (modeRegs ++ isoRegs) s t ∧ SameBut [.regs, .bar4, .freeCtr, .out, .mode, .flt, .dramc, .age] s t)) ∧
  -- REQ_WARM: Ascent from step 3, volatile state at reset; what R79 keeps stays
  (∀ (s : State) (i2c : Bool), s.asks → s.flag AON_MODE_INFO_C4_LATCH = false → s.otp.descGood →
    Runs (.reqWarm 0xA5C3 i2c) s (fun t => t.modeCode = mAscent ∧ t.mode.ascent = .cold ∧ t.mode.step = 2 ∧ t.mode.porst = false ∧
    t.getF AON_MODE_INFO_REQ_RESULT = 1 ∧
      t.getF AON_MODE_INFO_PREV = s.modeCode ∧ t.getF AON_MODE_INFO_CAUSE = 1 ∧ t.flag AON_RESET_CAUSE_WARM = true ∧
      t.rd rGLB_SCRATCH = s.rd rGLB_SCRATCH ∧ t.getF CRN_CFG_INTERVAL_H = s.getF CRN_CFG_INTERVAL_H ∧
    t.getF FLT_C4_CAUSE_SOURCE = s.getF FLT_C4_CAUSE_SOURCE ∧
      t.flag FLT_C4_CAUSE_VALID = s.flag FLT_C4_CAUSE_VALID ∧ t.getF CRN_LOST_COUNT = s.getF CRN_LOST_COUNT ∧ t.crn.mram = s.crn.mram ∧
    t.frames = [] ∧ t.copies = [] ∧ t.threads = [] ∧ t.gens = genFirst ∧ t.img = none ∧ t.isSealed = false ∧
      t.pending = s.pending ∧ t.now = s.now ∧ t.otp = s.otp ∧ t.out = s.out ∧ t.freeCtr = s.freeCtr)) ∧
  -- REQ_TEST before the seal
  (∀ (s : State) (i2c : Bool), s.asks → s.modeCode = mAscent → s.isSealed = false →
    Runs (.reqTest 0xA5C3 i2c) s (fun t => EntersMode mTest 3 s t ∧ t.getF AON_MODE_INFO_REQ_RESULT = 1 ∧ t.mode.admitStop = true ∧
    t.mode.ascent = .none ∧ t.load = { s.load with reading := 0, push := none } ∧
      RegsBut modeRegs s t ∧ SameBut [.regs, .bar4, .out, .mode, .load, .dramc, .age] s t)) ∧
  -- REQ_SERVICE from Paired, Solo or Abseil
  (∀ (s : State) (i2c : Bool), s.asks → s.running = true →
    Runs (.reqService 0xA5C3 i2c) s (fun t => EntersMode mService 3 s t ∧ t.getF AON_MODE_INFO_REQ_RESULT = 1 ∧ t.mode.resume = s.modeCode ∧
    t.mode.admitStop = !s.svcFwd ∧
      (s.twin = twPaired → s.getF TWN_STATUS_LANES ≠ 0 → Out.rope (stateMsg 3 (s.getF TWN_STATUS_VIRAM) [BitVec.ofNat 8 (b2n s.svcFwd)] []) ∈ t.out) ∧
      RegsBut modeRegs s t ∧ SameBut [.regs, .bar4, .out, .mode, .dramc, .age] s t)) ∧
  -- REQ_RESUME of a device whose units are all in service
  (∀ (s : State) (i2c : Bool), s.asks → s.modeCode = mService → s.load.reimage = false → s.mode.resume < 8 → s.mode.abseilDue = false →
    s.anyIso = false → ¬(s.twin = twPaired ∧ s.svcFwd = false) →
    Runs (.reqResume 0xA5C3 i2c) s (fun t => EntersMode s.mode.resume 3 s t ∧ t.getF AON_MODE_INFO_REQ_RESULT = 1 ∧ t.mode.admitStop = false ∧
      RegsBut modeRegs s t ∧ SameBut [.regs, .bar4, .out, .mode, .dramc, .age] s t))

/-- The end of a park, and the wake events. -/
def Obligations.ParkingAndWaking : Prop :=
  -- PARK_SEND_TIMEOUT with nothing in a queue
  (∀ (s : State), s.mode.park = 1 → s.mode.parkEnd ≤ s.now → (∀ c ∈ s.copies, c.started = true) →
    Runs (.parkSendTimeout) s (fun t => t.mode = { s.mode with park := 2 } ∧ SameBut [.mode] s t)) ∧
  -- PARK_SEND_TIMEOUT: no copy that has not started remains
  (∀ (s : State), s.mode.park = 1 → s.mode.parkEnd ≤ s.now →
    Runs (.parkSendTimeout) s (fun t => t.mode = { s.mode with park := 2 } ∧ (∀ c ∈ t.copies, c.started = true) ∧ t.ports = s.ports ∧ t.img = s.img)) ∧
  -- PARK_DRAINED without a wake: Bivouac
  (∀ (s : State), s.mode.park ≠ 0 → s.parkIdle = true → s.mode.wakeLatched = false →
    Runs (.parkDrained) s (fun t => t.modeCode = mBivouac ∧ t.getF AON_MODE_INFO_PREV = s.modeCode ∧ t.mode.retValid = true ∧ t.mode.wrapKey = true ∧
    t.mode.pwrgood = false ∧
      t.mode.park = 0 ∧ t.mode.retGen = s.curGen ∧ t.snap.map (·.gen) = some s.curGen ∧ t.dramc.selfRefresh = true ∧
      (s.gens.journal = [] → (∀ g ∈ s.gens.outs, g.journal = []) → t.dram = s.dram) ∧
      Out.pmbus 0 0x01 0 ∈ t.out ∧ Out.pmbus 1 0x01 0 ∈ t.out ∧ t.crn.mram = s.crn.mram ∧ t.otp = s.otp ∧ t.now = s.now ∧ t.load.copy = s.load.copy ∧
      t.isSealed = false ∧ t.img = none ∧ t.frames = [] ∧ t.mem = [])) ∧
  -- WAKE_PIN in Bivouac
  (∀ (s : State) (pins levels ms : Nat), s.modeCode = mBivouac → s.mode.porst = false → s.pinsActive pins levels ≠ 0 →
    s.getF AON_WAKE_CFG_DEBOUNCE ≤ ms →
    Runs (.wakePin pins levels ms) s (fun t => Wakes s t ∧ t.getF AON_WAKE_CAUSE_PIN = s.getF AON_WAKE_CAUSE_PIN ||| s.pinsActive pins levels)) ∧
  -- WAKE_PIN during a park: latched
  (∀ (s : State) (pins levels ms : Nat), s.modeCode ≠ mBivouac → s.mode.porst = false → s.mode.park ≠ 0 → s.pinsActive pins levels ≠ 0 →
    s.getF AON_WAKE_CFG_DEBOUNCE ≤ ms →
    Runs (.wakePin pins levels ms) s (fun t => t.mode = { s.mode with wakeLatched := true } ∧
    t.getF AON_WAKE_CAUSE_PIN = s.getF AON_WAKE_CAUSE_PIN ||| s.pinsActive pins levels ∧
      RegsBut [rAON_WAKE_CAUSE] s t ∧ SameBut [.regs, .mode] s t)) ∧
  -- WAKE_DETECTOR: sixteen wake ordered sets with no gap longer than 1 µs
  (∀ (s : State) (d : Nat) (sets : List (Nat × List Nat)), s.modeCode = mBivouac → s.mode.porst = false → d < 8 →
    s.flag (AON_WAKE_DET_ARMED d) = true → s.mode.park = 0 → wakeRun (wakeSet ((s.mode.detRates.lookup d).getD 0)) sets 0 0 = true →
    Runs (.wakeDetector ⟨d, sets⟩) s (fun t => Wakes s t ∧ t.getF AON_WAKE_CAUSE_DET = s.getF AON_WAKE_CAUSE_DET ||| 2 ^ d)) ∧
  -- WAKE_DETECTOR while the port of the lane runs: the ordered sets are counted
  (∀ (s : State) (d : Nat) (l : LaneSt) (sets : List (Nat × List Nat)), d < 8 → s.flag (AON_WAKE_DET_ARMED d) = false →
    s.lane (s.getF (AON_WAKE_DET_LANE d)) = some l → l.rate < 2 → l.port < 64 → sets.length < 2 ^ 48 →
    Runs (.wakeDetector ⟨d, sets⟩) s (fun t => TalliedBy l.port tRX_WAKE_OS (sets.filter (fun x => x.2 == wakeSet l.rate)).length s t ∧
    RegsBut (tallyWords l.port [tRX_WAKE_OS]) s t ∧
      SameBut [.regs, .bar4, .out] s t)) ∧
  -- WAKE_ALARM
  (∀ (s : State), s.modeCode = mBivouac → s.mode.porst = false → s.flag AON_WAKE_CFG_ALARM_EN = true →
    s.rtc / 32768 % 2 ^ 32 = s.getF AON_ALARM_SECONDS →
    Runs (.wakeAlarm) s (fun t => Wakes s t ∧ t.flag AON_WAKE_CAUSE_ALARM = true)) ∧
  -- WAKE_I2C
  (∀ (s : State), s.modeCode = mBivouac → s.mode.porst = false → s.flag AON_WAKE_CFG_I2C_EN = true →
    Runs (.wakeI2c 0xA5) s (fun t => Wakes s t ∧ t.flag AON_WAKE_CAUSE_I2C = true)) ∧
  -- SHORT_ASCENT_PWRGOOD: the PLLs start, local time is loaded from the real-time counter
  (∀ (s : State), s.mode.ascent = .short → s.mode.step = 1 →
    Runs (.shortAscentPwrgood) s (fun t => t.mode = { s.mode with step := 2, pwrgood := true } ∧
      t.localNs = s.rtc / 32768 * 1000000000 + s.rtc % 32768 * 30517578125 / 1000000 ∧
      t.time.doms.map (·.base) = [(t.localNs : Int) * 2 ^ 32, (t.localNs : Int) * 2 ^ 32] ∧ SameBut [.mode, .time] s t)) ∧
  -- RAIL_RETRY
  (∀ (s : State), s.mode.ascent = .short → s.mode.step = 1 → s.mode.railRetryAt ≤ s.now →
    Runs (.railRetry) s (fun t => t.mode = { s.mode with railRetryAt := s.now + tMs 100 } ∧ Out.pmbus 1 0x01 0 ∈ t.out ∧
    Out.pmbus 1 0x01 0x80 ∈ t.out ∧ SameBut [.out, .mode] s t)) ∧
  -- SHORT_ASCENT_DRAM_READY where the copy fails: on as in a cold Ascent from image loading
  (∀ (s : State), s.mode.ascent = .short → s.mode.step = 3 → s.mode.arrays = true → s.dramc.resume = none →
    Runs (.shortAscentDramReady false) s (fun t => t.mode.ascent = .cold ∧ t.mode.step = 6 ∧ t.mode.wrapKey = false ∧ t.mode.dramOpen = true ∧
    t.snap = none ∧ t.load.reading = 1 ∧
      t.getF IMG_STATUS_STATE = 1 ∧ t.flag DRC_STATUS_TRAINED = true ∧ t.dramc.selfRefresh = false ∧
      RegsBut (rIMG_STATUS :: dramModeRegs) s t ∧ SameBut [.regs, .out, .mode, .load, .dramc, .snap] s t)) ∧
  -- SHORT_ASCENT_DRAM_READY: the image copy is loaded and sealed
  (∀ (s : State) (i : Image), s.mode.ascent = .short → s.mode.step = 3 → s.mode.arrays = true → s.mode.retValid = true → s.load.copy = some i →
    i.digest = s.mode.retImage → s.load.programming = 0 → s.dramc.resume = none →
    Runs (.shortAscentDramReady true) s (fun t => t.img = some i ∧ t.isSealed = true ∧ t.getF IMG_STATUS_STATE = 4 ∧ t.mode.step = 5 ∧
    t.load.copy = some i ∧ t.mode.retImage = i.digest ∧
      t.now = s.now ∧ t.otp = s.otp ∧ t.snap = s.snap)) ∧
  -- SNAPSHOT_RESTORED
  (∀ (s : State) (n : Snap), s.mode.ascent = .short → s.mode.step = 5 → s.snap = some n → n.gen < 65536 → n.digest = s.mode.retSnap →
    Runs (.snapshotRestored true) s (fun t => t.snap = none ∧ t.mode = { s.mode with step := 6, wrapKey := false } ∧
    t.gens.outs.map (·.gen) = [n.gen] ∧ t.getF CLS_GEN_CURRENT = n.gen ∧
      t.lpm = n.lpm ∧ t.mirror = n.mirror ∧ t.gates = n.gates ∧ t.strm = n.strm ∧ t.sas = n.sas ∧ t.scs = n.scs ∧ t.lost = n.lost ∧
      SameBut [.regs, .mem, .mode, .time, .gens, .sas, .scs, .gates, .strm, .strmCarry, .mirror, .lost, .lpm, .snap] s t)) ∧
  -- SNAPSHOT_RESTORED where the digest differs: the loss is recorded, the tallies start from 0
  (∀ (s : State), s.mode.ascent = .short → s.mode.step = 5 →
    Runs (.snapshotRestored false) s (fun t => t.flag AON_MODE_INFO_SNAP_LOST = true ∧ t.snap = none ∧
    t.mode = { s.mode with step := 6, wrapKey := false } ∧ t.strm = [] ∧
      (∀ p i, p < 68 → i < 200 → t.tally (tlyOff p i) = 0) ∧ t.gens = s.gens ∧ t.mem = s.mem))

/-- AON power-on, the crystal check, cold resets, PWRGOOD, the release of PORST_N and the steps of an Ascent. -/
def Obligations.ResetsAndAscentSteps : Prop :=
  -- AON_POWER_ON
  (∀ (s : State) (strap : Bool), s.otp.descGood →
    Runs (.aonPowerOn strap) s (fun t => t.mode = { ModeSt.reset with strap := strap, opSince := some s.now, aonAt := s.now } ∧ t.modeCode = mAscent ∧
      t.crn = { CairnSt.blank with mram := s.crn.mram } ∧ t.otp = s.otp ∧ t.now = s.now ∧ t.pending = s.pending ∧ t.out = s.out ∧
      RegsBut ([rGLB_ID_LO, rGLB_ID_HI, rIMG_CAP, rIMG_OTP_KEYS, rAGE_CORE, rCRN_STATUS, rTWN_STATUS,
    rDRC_MAPPED] ++ descRegs ++ dramModeRegs) State.reset t ∧
      SameBut [.pending, .now, .freeCtr, .out, .otp, .mode, .time, .crn, .regs] State.reset t)) ∧
  -- XTAL_STABLE
  (∀ (s : State), s.mode.aonAt + tSec 2 ≤ s.now →
    Runs (.xtalStable) s (fun t => t.mode = { s.mode with xtal := true } ∧ SameBut [.mode] s t)) ∧
  -- COLD_RESET of a device that is not latched
  (∀ (s : State), s.mode.porst = false → s.flag AON_MODE_INFO_C4_LATCH = false → s.otp.descGood →
    Runs (.coldReset false) s (fun t => t.modeCode = mAscent ∧ t.mode.porst = true ∧ t.mode.step = 0 ∧ t.flag AON_RESET_CAUSE_PORST = true ∧
    t.getF AON_MODE_INFO_PREV = s.modeCode ∧
      t.getF AON_MODE_INFO_CAUSE = 0 ∧ t.flag AON_MODE_INFO_HOLD_PENDING = s.flag AON_MODE_INFO_HOLD_PENDING ∧ t.rd rAON_PCYCLE = s.rd rAON_PCYCLE ∧
      t.rd rFLT_C4_CAUSE = s.rd rFLT_C4_CAUSE ∧ t.rd rCRN_LOST = s.rd rCRN_LOST ∧ t.crn.mram = s.crn.mram ∧
      t.pending = s.pending ∧ t.now = s.now ∧ t.out = s.out ∧ t.otp = s.otp ∧
      SameBut [.pending, .now, .freeCtr, .out, .otp, .mode, .time, .crn, .regs, .rope] State.reset t)) ∧
  -- COLD_RESET without a power cycle while C4_LATCH is set: the mode is Hold, the latch stays
  (∀ (s : State), s.mode.porst = false → s.flag AON_MODE_INFO_C4_LATCH = true → s.otp.descGood →
    Runs (.coldReset false) s (fun t => t.modeCode = mHold ∧ t.flag AON_MODE_INFO_C4_LATCH = true ∧ t.mode.porst = true ∧
    t.flag AON_RESET_CAUSE_C4_CYCLE = false ∧ t.frames = [] ∧ t.mem = [])) ∧
  -- COLD_RESET with a power cycle: the latch is cleared
  (∀ (s : State), s.flag AON_MODE_INFO_C4_LATCH = true → s.otp.descGood →
    Runs (.coldReset true) s (fun t => t.modeCode = mAscent ∧ t.flag AON_MODE_INFO_C4_LATCH = false ∧ t.mode.porst = true ∧
    t.flag AON_RESET_CAUSE_C4_CYCLE = true ∧ t.frames = [] ∧ t.mem = [])) ∧
  -- PWRGOOD_FALL outside Bivouac
  (∀ (s : State), s.modeCode ≠ mBivouac → s.mode.pwrgood = true → s.flag AON_MODE_INFO_C4_LATCH = false → s.otp.descGood →
    Runs (.pwrgoodFall) s (fun t => t.modeCode = mAscent ∧ t.mode.porst = true ∧ t.mode.pwrgood = false ∧ t.flag AON_RESET_CAUSE_PORST = true ∧
    t.crn.mram = s.crn.mram ∧ t.otp = s.otp ∧
      SameBut [.pending, .now, .freeCtr, .out, .otp, .mode, .time, .crn, .regs, .rope] State.reset t)) ∧
  -- PWRGOOD_FALL in Bivouac is ignored
  (∀ (s : State), s.modeCode = mBivouac →
    Runs (.pwrgoodFall) s (fun t => t = s)) ∧
  -- PORST_RELEASE: the cold Ascent starts
  (∀ (s : State) (senior : Bool), s.mode.porst = true → s.modeCode = mAscent →
    Runs (.porstRelease senior) s (fun t => t.mode =
    { s.mode with porst := false, pwrgood := true, senior := senior, strap := senior, ascent := .cold, step := 1 } ∧
      t.flag TWN_STATUS_SENIOR = senior ∧ CountedBy AON_PCYCLE_COUNT 1 s t ∧
    t.rope = { s.rope with session := (s.rope.session + 1) % 65536, counter := 0 } ∧
      RegsBut [rTWN_STATUS, rAON_PCYCLE, rCRN_STATUS] s t ∧ SameBut [.regs, .mode, .rope] s t)) ∧
  -- ASCENT_PLL_LOCK of a cold Ascent
  (∀ (s : State), s.mode.ascent = .cold → s.mode.step = 1 →
    Runs (.ascentPllLock) s (fun t => t.mode = { s.mode with step := 2, clkMon := true } ∧
    t.localNs = s.rtc / 32768 * 1000000000 + s.rtc % 32768 * 30517578125 / 1000000 ∧
      SameBut [.mode, .time] s t)) ∧
  -- ASCENT_PLL_LOCK of a short Ascent
  (∀ (s : State), s.mode.ascent = .short → s.mode.step = 2 →
    Runs (.ascentPllLock) s (fun t => t.mode = { s.mode with step := 3, clkMon := true } ∧ SameBut [.mode] s t)) ∧
  -- ASCENT_SELF_CHECK_PASS of a cold Ascent: slot A is read
  (∀ (s : State), s.mode.ascent = .cold → s.mode.step = 2 → s.modeCode = mAscent → s.mode.c4Hold = none →
    Runs (.ascentSelfCheckPass) s (fun t => t.mode = { s.mode with step := 3, romOk := true } ∧ t.load = { s.load with reading := 1 } ∧
    t.getF IMG_STATUS_STATE = 1 ∧
      (∀ c, c < 5 → t.flag (HSQ_ROM_STATUS_SIG_OK c) = true) ∧ RegsBut (rIMG_STATUS :: (List.range 5).map rHSQ_ROM_STATUS) s t ∧
      SameBut [.regs, .mode, .load] s t)) ∧
  -- ARRAY_INIT_DONE with no image that waits
  (∀ (s : State), s.mode.romOk = true → s.mode.arrays = false → s.load.ready = none →
    Runs (.arrayInitDone) s (fun t => t.mode = { s.mode with arrays := true } ∧ SameBut [.mode] s t)) ∧
  -- ARRAY_INIT_DONE with a verified image that waits for the arrays: it is loaded
  (∀ (s : State) (i : Image), s.mode.romOk = true → s.mode.arrays = false → s.mode.dramOpen = true → s.mode.ascent = .cold → s.modeCode = mAscent →
    s.load.ready = some (1, i) → i.hostSeal = true →
    Runs (.arrayInitDone) s (fun t => t.img = some i ∧ t.getF IMG_STATUS_STATE = 3 ∧ t.flag IMG_STATUS_SLOT = true ∧
    t.flag IMG_STATUS_PUSHED = false ∧ t.mode.step = 9 ∧
      t.load.ready = none ∧ t.load.sealAt = s.now + tMs 50 ∧ t.isSealed = s.isSealed ∧ t.now = s.now ∧ t.otp = s.otp)) ∧
  -- PCIE_LINK_UP
  (∀ (s : State) (g w : Nat), 3 ≤ s.mode.step → s.mode.pcieUp = false → s.mode.porst = false → s.modeCode ≠ mBivouac → g = 3 ∨ g = 4 ∨ g = 5 → w = 1 ∨
    w = 2 ∨ w = 4 ∨ w = 8 → s.reservations 64 = [] →
    Runs (.pcieLinkUp g w) s (fun t => t.mode = { s.mode with pcieUp := true } ∧ t.getF HDM_LINK_GEN = g ∧ t.getF HDM_LINK_WIDTH = w ∧
      t.getF (SCH_PORT_RATE_AVAIL_MBPS 64) = pcieMbps g w ∧ RegsBut [rHDM_LINK, rHDM_INT_STATUS, rSCH_PORT_RATE 64] s t ∧
    SameBut [.regs, .bar4, .out, .mode] s t)) ∧
  -- DRAM_TRAINING_DONE with a good descriptor and no rank failed
  (∀ (s : State), s.mode.ascent = .cold → s.mode.romOk = true → s.modeCode = mAscent → s.mode.dramOpen = false → s.flag DRC_STATUS_TRAIN_FAIL = false →
    s.flag DRC_STATUS_DESC_BAD = false → s.descOk = true → s.load.ready = none →
    Runs (.dramTrainingDone []) s (fun t => t.flag DRC_STATUS_TRAINED = true ∧ t.flag DRC_STATUS_TRAIN_FAIL = false ∧
    t.mode = { s.mode with dramOpen := true } ∧
      RegsBut [rDRC_STATUS] s t ∧ SameBut [.regs, .mode] s t)) ∧
  -- DRAM_TRAINING_DONE with a bad descriptor
  (∀ (s : State) (failed : List Nat), s.mode.ascent = .cold → s.mode.romOk = true → s.modeCode = mAscent → s.mode.dramOpen = false →
    s.flag DRC_STATUS_TRAIN_FAIL = false → s.flag DRC_STATUS_DESC_BAD = false → s.descOk = false →
    Runs (.dramTrainingDone failed) s (fun t => t.flag DRC_STATUS_DESC_BAD = true ∧ t.mode.dramOpen = false ∧ RegsBut [rDRC_STATUS] s t ∧
    SameBut [.regs] s t)) ∧
  -- DRAM_TRAINING_DONE: a rank in service fails, and it has no spare
  (∀ (s : State) (f : Nat), s.mode.ascent = .cold → s.mode.romOk = true → s.modeCode = mAscent → s.mode.dramOpen = false →
    s.flag DRC_STATUS_TRAIN_FAIL = false → s.flag DRC_STATUS_DESC_BAD = false → s.descOk = true → f < 8 → s.flag DRC_GEOM_SPARE_EN = false →
    s.fitted f = true → s.getF (rkF f) = 0 →
    Runs (.dramTrainingDone [f]) s (fun t => t.flag DRC_STATUS_TRAIN_FAIL = true ∧ t.mode = s.mode ∧
    t.dramc = { s.dramc with retryAt := s.now + tSec 1 } ∧ RegsBut [rDRC_STATUS] s t ∧ SameBut [.regs, .dramc] s t)) ∧
  -- DRAM_TRAINING_RETRY that succeeds
  (∀ (s : State), s.modeCode = mAscent → s.flag DRC_STATUS_TRAIN_FAIL = true → s.dramc.retryAt ≤ s.now → s.descOk = true → s.load.ready = none →
    Runs (.dramTrainingRetry []) s (fun t => t.flag DRC_STATUS_TRAINED = true ∧ t.flag DRC_STATUS_TRAIN_FAIL = false ∧
    t.mode = { s.mode with dramOpen := true } ∧
      RegsBut [rDRC_STATUS] s t ∧ SameBut [.regs, .mode] s t)) ∧
  -- ASCENT_LANES_SETTLED without a pair: Solo
  (∀ (s : State) (i : Image), s.modeCode = mAscent → s.isSealed = true → s.rope.started = false → s.lanesSettled = true → s.mode.ascent = .cold →
    s.img = some i → i.pair = false → s.mode.abseilDue = false → s.anyIso = false →
    Runs (.ascentLanesSettled) s (fun t => EntersMode mSolo (s.getF AON_MODE_INFO_CAUSE) s t ∧
    t.rope = { s.rope with started := true, ceded := false } ∧ t.mode.step = 11 ∧ t.mode.ascent = .none ∧
      t.mode.admitStop = false ∧ RegsBut modeRegs s t ∧ SameBut [.regs, .bar4, .out, .mode, .rope, .dramc, .age] s t))

/-- The image loader: slot reads, pushes, programming, the seal,
the floor and the leapfrog.  The signature check of R40 is uninterpreted (assumption log 6): what an image that passes does is stated under that
result. -/
def Obligations.ImagesAreLoadedAndSealed : Prop :=
  -- SLOT_VERIFY_DONE of slot A that passes, before the arrays are written
  (∀ (s : State) (img : ImageFile), s.load.reading = 1 → s.modeCode ≠ mService → s.mode.arrays = false →
    Runs (.slotVerifyDone false img) s (fun t => s.verify (imageOf img) none = 0 →
    t.load = { s.load with chkA := some true, reading := 0, ready := some (0, imageOf img), leap := 0 } ∧
      t.getF IMG_STATUS_STATE = 2 ∧ t.getF IMG_SLOT_INFO_EPOCH_A = (imageOf img).epoch % 65536 ∧ RegsBut [rIMG_SLOT_INFO, rIMG_STATUS] s t ∧
    SameBut [.regs, .load] s t)) ∧
  -- SLOT_VERIFY_DONE of slot A that fails: slot B is read
  (∀ (s : State) (img : ImageFile) (code : Nat), s.load.reading = 1 → s.verify (imageOf img) none = code → code ≠ 0 →
    Runs (.slotVerifyDone false img) s (fun t => t.getF IMG_STATUS_FAIL_A = code ∧ t.flag IMG_STATUS_FALLBACK = true ∧ t.getF IMG_STATUS_STATE = 1 ∧
    t.getF IMG_SLOT_INFO_EPOCH_A = 0xFFFF ∧
      t.load = { s.load with chkA := some false, reading := 2 } ∧ RegsBut [rIMG_STATUS, rIMG_SLOT_INFO, rCRN_DROPPED, rCRN_INT_STATUS] s t ∧
      SameBut [.regs, .bar4, .out, .crn, .load] s t)) ∧
  -- SLOT_VERIFY_DONE of slot B that fails: image wait
  (∀ (s : State) (img : ImageFile) (code : Nat), s.load.reading = 2 → s.verify (imageOf img) none = code → code ≠ 0 → s.modeCode ≠ mService →
    s.load.programming = 0 →
    Runs (.slotVerifyDone true img) s (fun t => t.getF IMG_STATUS_FAIL_B = code ∧ t.getF IMG_STATUS_STATE = 5 ∧
    t.getF IMG_SLOT_INFO_EPOCH_B = 0xFFFF ∧
      t.load = { s.load with chkB := some false, reading := 0 } ∧ RegsBut [rIMG_STATUS, rIMG_SLOT_INFO, rGLB_INT_STATUS] s t ∧
    SameBut [.regs, .bar4, .out, .mode, .load] s t)) ∧
  -- SEAL
  (∀ (s : State) (i : Image), s.getF IMG_STATUS_STATE = 3 → s.isSealed = false → s.img = some i → s.lanes = [] → s.load.programming = 0 →
    Runs (.seal) s (fun t => t.isSealed = true ∧ t.getF IMG_STATUS_STATE = 4 ∧ t.flag GLB_INT_STATUS_IMG_EVENT = true ∧ t.img = some i ∧
    t.load = { s.load with copy := some i, ready := none } ∧
      t.mode.retImage = i.digest ∧ t.mode.retValid = true ∧ SameBut [.regs, .bar4, .out, .isSealed, .mode, .load] s t)) ∧
  -- SEAL_TIMEOUT
  (∀ (s : State) (i : Image), s.modeCode = mAscent → s.getF IMG_STATUS_STATE = 3 → s.isSealed = false → s.load.sealAt ≤ s.now → s.img = some i →
    s.lanes = [] → s.load.programming = 0 →
    Runs (.sealTimeout) s (fun t => t.isSealed = true ∧ t.getF IMG_STATUS_STATE = 4 ∧ t.flag GLB_INT_STATUS_IMG_EVENT = true ∧
    t.load = { s.load with copy := some i, ready := none } ∧
      SameBut [.regs, .bar4, .out, .isSealed, .mode, .load] s t)) ∧
  -- IMG_PUSH to a slot: the fetch starts
  (∀ (s : State) (d n : Nat), s.heldLo = [] → s.getF IMG_CTL_DEST = d → s.getF IMG_PUSH_LEN_LEN = n → d = 1 ∨ d = 2 → s.pushOk d = true →
    s.load.push = none → s.load.programming = 0 → s.getF IMG_PUSH_ADDR_LO_ADDR % 64 = 0 → 512 ≤ n → n ≤ 4194304 → n % 64 = 0 →
    Runs (.imgPush) s (fun t => t.load = { s.load with push := some (d, n) } ∧ SameBut [.load] s t)) ∧
  -- IMG_PUSH to run, in Service: the fetch starts, forwarding stops, and the slots are left to the load
  (∀ (s : State) (n : Nat), s.heldLo = [] → s.getF IMG_CTL_DEST = 0 → s.getF IMG_PUSH_LEN_LEN = n → s.modeCode = mService → s.load.push = none →
    s.load.programming = 0 → s.getF IMG_PUSH_ADDR_LO_ADDR % 64 = 0 → 512 ≤ n → n ≤ 4194304 → n % 64 = 0 →
    Runs (.imgPush) s (fun t => t.load = { s.load with push := some (0, n), reimage := true, reading := 0 } ∧
    t.mode = { s.mode with admitStop := true } ∧ SameBut [.load, .mode] s t)) ∧
  -- IMG_PUSH that the mode does not allow: refused
  (∀ (s : State), s.heldLo = [] → s.pushOk (s.getF IMG_CTL_DEST) = false →
    Runs (.imgPush) s (fun t => t.getF IMG_STATUS_FAIL_PUSH = 0x0E ∧ RegsBut [rIMG_STATUS] s t ∧ SameBut [.regs] s t)) ∧
  -- PUSH_VERIFY_DONE of an image for slot A that passes, with slot B good: programming begins
  (∀ (s : State) (img : ImageFile) (o : Option ImageFile) (n : Nat), s.load.push = some (1, n) → s.load.chkB = some true →
    ¬(1 ≤ s.getF IMG_STATUS_STATE ∧ s.getF IMG_STATUS_STATE ≤ 3) →
    Runs (.pushVerifyDone img o) s (fun t => s.verify (imageOf img) (some n) = 0 →
    t.load = { s.load with push := none, programming := 1, saved := s.getF IMG_STATUS_STATE, chkA := none } ∧ t.getF IMG_STATUS_STATE = 6 ∧
      RegsBut [rIMG_STATUS] s t ∧ SameBut [.regs, .load] s t)) ∧
  -- PUSH_VERIFY_DONE of an image for a slot that fails
  (∀ (s : State) (img : ImageFile) (o : Option ImageFile) (d n code : Nat), s.load.push = some (d, n) → d ≠ 0 →
    s.verify (imageOf img) (some n) = code → code ≠ 0 →
    Runs (.pushVerifyDone img o) s (fun t => t.load = { s.load with push := none } ∧ t.getF IMG_STATUS_FAIL_PUSH = code ∧ RegsBut [rIMG_STATUS] s t ∧
    SameBut [.regs, .load] s t)) ∧
  -- SLOT_PROGRAM_DONE of slot A
  (∀ (s : State) (img : ImageFile) (code : Nat), s.load.programming = 1 → s.verify (imageOf img) none = code → code ≠ 0 → s.getF IMG_STATUS_STATE = 6 →
    s.load.saved < 16 →
    Runs (.slotProgramDone img) s (fun t => t.load = { s.load with programming := 0, chkA := some false } ∧ t.getF IMG_STATUS_STATE = s.load.saved ∧
    t.getF IMG_STATUS_FAIL_A = code ∧
      t.getF IMG_STATUS_FAIL_PUSH = code ∧ t.getF IMG_SLOT_INFO_EPOCH_A = 0xFFFF ∧ RegsBut [rIMG_STATUS, rIMG_SLOT_INFO] s t ∧
    SameBut [.regs, .load] s t)) ∧
  -- SLOT_PROGRAM_DONE of slot B that reads back good
  (∀ (s : State) (img : ImageFile), s.load.programming = 2 → s.getF IMG_STATUS_STATE = 6 → s.load.saved < 16 →
    Runs (.slotProgramDone img) s (fun t => s.verify (imageOf img) none = 0 → t.load = { s.load with programming := 0, chkB := some true } ∧
    t.getF IMG_STATUS_STATE = s.load.saved ∧ t.getF IMG_STATUS_FAIL_PUSH = 0 ∧
      t.getF IMG_SLOT_INFO_EPOCH_B = (imageOf img).epoch % 65536 ∧ RegsBut [rIMG_STATUS, rIMG_SLOT_INFO] s t ∧ SameBut [.regs, .load] s t)) ∧
  -- FLOOR_RAISE
  (∀ (s : State), s.modeCode = mService → s.otp.floor < s.getF IMG_RUN_EPOCH → s.otp.raises < 63 →
    Runs (.floorRaise) s (fun t => t.otp = { s.otp with floor := s.getF IMG_RUN_EPOCH, raises := s.otp.raises + 1 } ∧
    t.getF IMG_CAP_FLOOR = s.getF IMG_RUN_EPOCH ∧
      t.getF IMG_OTP_KEYS_RAISES = s.otp.raises + 1 ∧ RegsBut [rIMG_CAP, rIMG_OTP_KEYS] s t ∧ SameBut [.regs, .otp] s t)) ∧
  -- LEAP where both twins are Paired
  (∀ (s : State) (i : Image), s.modeCode = mPaired → s.twin = twPaired → s.getF TWN_STATUS_PARTNER_MODE = mPaired → s.rope.peerTwin = twPaired →
    s.anyIso = false → s.rope.peerIso = 0 → s.load.leap = 0 → s.moving = false → s.load.programming = 0 → s.img = some i →
    Runs (.leap) s (fun t => t.load = { s.load with leap := 1, leapEnd := s.now + tMs i.drainMs } ∧ t.rope = { s.rope with ceded := true } ∧
    t.getF IMG_STATUS_STATE = 7 ∧
      t.getF IMG_STATUS_FAIL_PUSH = 0 ∧ (s.getF TWN_STATUS_LANES ≠ 0 → Out.rope (stateMsg 4 (s.getF TWN_STATUS_VIRAM) [] []) ∈ t.out) ∧
      RegsBut [rIMG_STATUS] s t ∧ SameBut [.regs, .out, .load, .rope] s t)) ∧
  -- LEAP while not Paired: refused
  (∀ (s : State), s.modeCode ≠ mPaired →
    Runs (.leap) s (fun t => t.getF IMG_STATUS_FAIL_PUSH = 0x10 ∧ t.load = s.load ∧ RegsBut [rIMG_STATUS] s t ∧ SameBut [.regs] s t)) ∧
  -- LEAP_ABORT in step 2 or 3
  (∀ (s : State), s.load.leap = 1 → s.load.programming = 0 → s.modeCode ≠ mHold →
    Runs (.leapAbort) s (fun t => t.load = { s.load with leap := 0 } ∧ t.getF IMG_STATUS_STATE = 4 ∧ t.getF IMG_STATUS_FAIL_PUSH = 0 ∧
      (s.getF TWN_STATUS_LANES ≠ 0 → Out.rope (stateMsg 5 (s.getF TWN_STATUS_VIRAM) [1] []) ∈ t.out) ∧
      RegsBut [rIMG_STATUS, rGLB_INT_STATUS] s t ∧ SameBut [.regs, .bar4, .out, .load, .rope] s t)) ∧
  -- LEAP_QUEUES_EMPTY: Service is entered and slot A is read
  (∀ (s : State), s.load.leap = 1 → s.copies = [] → s.frames = [] →
    Runs (.leapQueuesEmpty) s (fun t => EntersMode mService 7 s t ∧ t.mode.resume = s.modeCode ∧ t.mode.admitStop = true ∧
    t.load = { s.load with leap := 2, reimage := true, reading := 1 } ∧
      t.getF IMG_STATUS_STATE = 1 ∧ RegsBut (rIMG_STATUS :: modeRegs) s t ∧ SameBut [.regs, .bar4, .out, .mode, .load, .dramc, .age] s t)) ∧
  -- LEAP_DRAIN_MAX_EXPIRY with what remains outside the pipelines
  (∀ (s : State), s.load.leap = 1 → s.load.leapEnd ≤ s.now → s.copies = [] → (∀ f ∈ s.frames, f.inIngress = false) →
    Runs (.leapDrainMaxExpiry) s (fun t => EntersMode mService 7 s t ∧ t.mode.admitStop = true ∧
    t.load = { s.load with leap := 2, reimage := true, reading := 1 } ∧ t.frames = s.frames ∧
      t.getF IMG_STATUS_STATE = 1 ∧ RegsBut (rIMG_STATUS :: modeRegs) s t ∧ SameBut [.regs, .bar4, .out, .mode, .load, .dramc, .age] s t))

/-! ### Time and gates -/

/-- The time family. -/
def Obligations.TimeCommandsAct : Prop :=
  -- DOMAIN_STEP
  (∀ (s : State) (n : Nat), n < 2 → s.time.doms.length = 2 → -999999999 ≤ signedOf 32 (s.getF (TSY_DOM_ADJ_ADJ n)) →
    signedOf 32 (s.getF (TSY_DOM_ADJ_ADJ n)) ≤ 999999999 →
    Runs (.domainStep n) s (fun t => t.domFx n = s.domFx n + signedOf 32 (s.getF (TSY_DOM_ADJ_ADJ n)) * 2 ^ 32 ∧ t.domFx (1 - n) = s.domFx (1 - n) ∧
      CountedBy (TSY_DOM_STATUS_JUMPS n) 1 s t ∧ t.flag (TSY_DOM_STATUS_SLEWING n) = false ∧ RegsBut [rTSY_DOM_STATUS n] s t ∧
    SameBut [.regs, .time] s t)) ∧
  -- DOMAIN_STEP with an ADJ out of range: ignored, a minor event
  (∀ (s : State) (n : Nat), n < 2 → 999999999 < signedOf 32 (s.getF (TSY_DOM_ADJ_ADJ n)) → s.quiet srcHostOther →
    Runs (.domainStep n) s (fun t => t.time = s.time ∧ CountedBy (FLT_SRC_CNT_EVENTS srcHostOther) 1 s t ∧
      RegsBut [(FLT_SRC_CNT_EVENTS srcHostOther).off, (FLT_SRC_STATE_WIN_COUNT srcHostOther).off] s t ∧ SameBut [.regs, .flt] s t)) ∧
  -- DOMAIN_SET
  (∀ (s : State) (n : Nat), n < 2 → s.time.doms.length = 2 → s.heldLo = [] → s.getF (TSY_DOM_SET_NS_NS n) ≤ 999999999 →
    Runs (.domainSet n) s (fun t => t.domFx n = (((s.getF (TSY_DOM_SET_SEC_LO_SEC n) + s.getF (TSY_DOM_SET_SEC_HI_SEC n) * 2 ^ 32) * 1000000000 +
    s.getF (TSY_DOM_SET_NS_NS n) : Nat) : Int) * 2 ^ 32 ∧
      t.domFx (1 - n) = s.domFx (1 - n) ∧ CountedBy (TSY_DOM_STATUS_JUMPS n) 1 s t ∧ t.flag (TSY_DOM_STATUS_SLEWING n) = false ∧
      RegsBut [rTSY_DOM_STATUS n] s t ∧ SameBut [.regs, .time] s t)) ∧
  -- DOMAIN_SLEW: it starts from the present time
  (∀ (s : State) (n : Nat), n < 2 → s.time.doms.length = 2 →
    Runs (.domainSlew n) s (fun t => t.domFx n = s.domFx n ∧ t.domFx (1 - n) = s.domFx (1 - n) ∧ t.flag (TSY_DOM_STATUS_SLEWING n) = true ∧
      (t.time.doms[n]?).map (fun d => (d.slewAdj, d.slewAt)) = some (signedOf 32 (s.getF (TSY_DOM_ADJ_ADJ n)), s.localNs) ∧
      RegsBut [rTSY_DOM_STATUS n] s t ∧ SameBut [.regs, .time] s t)) ∧
  -- SLEW_DONE
  (∀ (s : State) (n : Nat) (d : DomSt), s.time.doms[n]? = some d → n < 2 → s.flag (TSY_DOM_STATUS_SLEWING n) = true →
    d.slewAdj.natAbs * 10000 ≤ s.localNs - d.slewAt →
    Runs (.slewDone n) s (fun t => t.domFx n = s.domFx n ∧ t.flag (TSY_DOM_STATUS_SLEWING n) = false ∧ t.flag TSY_INT_STATUS_SLEW_DONE = true ∧
      RegsBut [rTSY_DOM_STATUS n, rTSY_INT_STATUS] s t ∧ SameBut [.regs, .bar4, .out, .time] s t)) ∧
  -- TIME_SNAPSHOT
  (∀ (s : State), 
    Runs (.timeSnapshot) s (fun t => t.getF TSY_SNAP_LOCAL_NS_NS = s.localNs % 1000000000 ∧
    t.getF TSY_SNAP_LOCAL_SEC_LO_SEC = s.localNs / 1000000000 % 2 ^ 32 ∧
      t.getF TSY_SNAP_LOCAL_SEC_HI_SEC = s.localNs / 1000000000 / 2 ^ 32 % 2 ^ 16 ∧
      t.getF (TSY_SNAP_DOM_NS_NS 0) = nsPart (s.domNs 0) ∧ t.getF (TSY_SNAP_DOM_SEC_LO_SEC 0) = secPart (s.domNs 0) % 2 ^ 32 ∧
      t.getF (TSY_SNAP_DOM_NS_NS 1) = nsPart (s.domNs 1) ∧ t.getF (TSY_SNAP_DOM_SEC_LO_SEC 1) = secPart (s.domNs 1) % 2 ^ 32 ∧
      RegsBut [rTSY_SNAP_LOCAL_NS, rTSY_SNAP_LOCAL_SEC_LO, rTSY_SNAP_LOCAL_SEC_HI, rTSY_SNAP_DOM_NS 0, rTSY_SNAP_DOM_SEC_LO 0,
    rTSY_SNAP_DOM_SEC_HI 0, rTSY_SNAP_DOM_NS 1, rTSY_SNAP_DOM_SEC_LO 1, rTSY_SNAP_DOM_SEC_HI 1] s t ∧
      SameBut [.regs] s t)) ∧
  -- PPS_IN_CAPTURE
  (∀ (s : State), 
    Runs (.ppsInCapture) s (fun t => t.getF TSY_PPS_IN_NS_NS = s.localNs % 1000000000 ∧ t.getF TSY_PPS_IN_SEC_SEC = s.localNs / 1000000000 % 2 ^ 32 ∧
      t.getF TSY_PPS_IN_STAT_COUNT = (s.getF TSY_PPS_IN_STAT_COUNT + 1) % 65536 ∧ t.flag TSY_PPS_IN_STAT_VALID = true ∧
      (s.flag TSY_PPS_IN_STAT_VALID = true → t.flag TSY_PPS_IN_STAT_OVERRUN = true) ∧ t.flag TSY_INT_STATUS_PPS_IN = true ∧
      RegsBut [rTSY_PPS_IN_NS, rTSY_PPS_IN_SEC, rTSY_PPS_IN_STAT, rTSY_INT_STATUS] s t ∧ SameBut [.regs, .bar4, .out] s t)) ∧
  -- PPS_OUT_RISE
  (∀ (s : State) (d : Int), s.time.ppsDone = some d → s.flag TSY_PPS_OUT_CFG_EN = true → d < s.ppsIndex → s.time.ppsHigh = false →
    Runs (.ppsOutRise) s (fun t => t.out = .pps true :: s.out ∧
      t.time = { s.time with ppsDone := some s.ppsIndex, ppsHigh := true, ppsFall := s.now + tUs (max 1 (min 500000 (s.getF TSY_PPS_OUT_CFG_WIDTH_US))) } ∧
      SameBut [.out, .time] s t)) ∧
  -- PPS_OUT_FALL
  (∀ (s : State), s.time.ppsHigh = true → s.time.ppsFall ≤ s.now →
    Runs (.ppsOutFall) s (fun t => t.out = .pps false :: s.out ∧ t.time = { s.time with ppsHigh := false } ∧ SameBut [.out, .time] s t)) ∧
  -- RTC_LOAD
  (∀ (s : State), 
    Runs (.rtcLoad) s (fun t => t.time = { s.time with rtcLoad := some (s.workNs / 1000000000) } ∧ SameBut [.time] s t)) ∧
  -- RTC_LOAD_APPLY at a new second of working time, or with AUTO: the counter stands at that second with subseconds 0
  (∀ (s : State), (∃ k, s.time.rtcLoad = some k ∧ s.workNs / 1000000000 ≠ k) ∨ s.flag TSY_RTC_CTL_AUTO = true →
    Runs (.rtcLoadApply) s (fun t => t.time =
    { s.time with rtcBase := secPart s.workNs * 32768, rtcAt := s.now - 27 * nsPart s.workNs, rtcLoad := none } ∧
      (nsPart s.workNs = 0 → t.rtc = secPart s.workNs * 32768) ∧ SameBut [.time] s t)) ∧
  -- TS_FIFO_POP of a port with entries
  (∀ (s : State) (p : Nat) (e : TsEntry) (l : List TsEntry), p < 64 ∨ p = 65 → s.time.fifos.lookup p = some (e :: l) → l ≠ [] →
    Runs (.tsFifoPop p) s (fun t => t.readData = e.tag % 256 + (l.length + 1) % 8 * 2 ^ 8 + s.getF (TSY_PORT_TX_INFO_OVERFLOW p) * 2 ^ 16 + 2 ^ 31 ∧
      t.time = { s.time with fifos := sput s.time.fifos p l } ∧ t.getF (TSY_PORT_TX_INFO_OVERFLOW p) = 0 ∧
      RegsBut [rTSY_PORT_TX_INFO p] s t ∧ SameBut [.regs, .readData, .time] s t)) ∧
  -- TS_FIFO_POP of an empty FIFO
  (∀ (s : State) (p : Nat), p < 64 ∨ p = 65 → s.time.fifos.lookup p = none → s.getF (TSY_PORT_TX_INFO_OVERFLOW p) = 0 →
    Runs (.tsFifoPop p) s (fun t => t.readData = 0 ∧ (∀ q, t.time.fifos.lookup q = s.time.fifos.lookup q) ∧ RegsBut [] s t ∧
    SameBut [.regs, .readData, .time] s t))

/-- The gate family. -/
def Obligations.GateListsChange : Prop :=
  -- GATE_CHANGE with a good admin list
  (∀ (s : State) (g : GateId), gateExists g = true → s.heldLo = [] → s.flag (GATE_GSTATUS_PENDING (gateBlock g)) = false → s.gateCause g = 0 →
    Runs (.gateChange g) s (fun t => t.flag (GATE_GSTATUS_PENDING (gateBlock g)) = true ∧
      (t.gateSt g).switchAt = some (switchTime (s.adminBase g) (s.getF (GATE_ADMIN_CYCLE_NS_NS (gateBlock g))) s.workNs) ∧
      t.getF (GATE_CHANGE_NS_NS (gateBlock g)) = switchTime (s.adminBase g) (s.getF (GATE_ADMIN_CYCLE_NS_NS (gateBlock g))) s.workNs % 1000000000 ∧
      (∀ h : GateId, h ≠ g → t.gateSt h = s.gateSt h) ∧
      RegsBut [rGATE_GSTATUS (gateBlock g), rGATE_CHANGE_NS (gateBlock g), rGATE_CHANGE_SEC (gateBlock g)] s t ∧ SameBut [.regs, .gates] s t)) ∧
  -- GATE_CHANGE with a bad admin list: refused with its cause
  (∀ (s : State) (g : GateId), gateExists g = true → s.heldLo = [] → s.flag (GATE_GSTATUS_PENDING (gateBlock g)) = false → s.gateCause g ≠ 0 →
    Runs (.gateChange g) s (fun t => t.flag (GATE_GSTATUS_REFUSED (gateBlock g)) = true ∧ t.getF (GATE_GSTATUS_CAUSE (gateBlock g)) = s.gateCause g ∧
    t.flag SCH_INT_STATUS_GATE_REFUSED = true ∧
      t.flag (GATE_GSTATUS_PENDING (gateBlock g)) = false ∧ RegsBut [rGATE_GSTATUS (gateBlock g), rSCH_INT_STATUS] s t ∧
    SameBut [.regs, .bar4, .out] s t)) ∧
  -- GATE_CHANGE while a change is pending: a minor event
  (∀ (s : State) (g : GateId), gateExists g = true → s.flag (GATE_GSTATUS_PENDING (gateBlock g)) = true → s.quiet srcHostOther →
    Runs (.gateChange g) s (fun t => t.gates = s.gates ∧ CountedBy (FLT_SRC_CNT_EVENTS srcHostOther) 1 s t ∧
      RegsBut [(FLT_SRC_CNT_EVENTS srcHostOther).off, (FLT_SRC_STATE_WIN_COUNT srcHostOther).off] s t ∧ SameBut [.regs, .flt] s t)) ∧
  -- GATE_CANCEL
  (∀ (s : State) (g : GateId), gateExists g = true → s.flag (GATE_GSTATUS_PENDING (gateBlock g)) = true →
    Runs (.gateCancel g) s (fun t => t.flag (GATE_GSTATUS_PENDING (gateBlock g)) = false ∧ (t.gateSt g).switchAt = none ∧
    (t.gateSt g).base = (s.gateSt g).base ∧
      (∀ h : GateId, h ≠ g → t.gateSt h = s.gateSt h) ∧ RegsBut [rGATE_GSTATUS (gateBlock g)] s t ∧ SameBut [.regs, .gates] s t)) ∧
  -- GATE_SWITCH of a port without preemption: the admin copy becomes operational
  (∀ (s : State) (g : GateId) (at_ n : Nat), gateExists g = true → (s.gateSt g).switchAt = some at_ →
    s.flag (GATE_GSTATUS_PENDING (gateBlock g)) = true → (at_ : Int) ≤ s.workNs → n = s.getF (GATE_GCTL_ADMIN_LEN (gateBlock g)) → n ≤ maxList g →
    (match g with | .port p => s.preemptOn p | .stream _ => false) = false →
    Runs (.gateSwitch g) s (fun t => t.rdMem (operList g) (8 * n) = s.rdMem (adminList g) (8 * n) ∧ MemBut (operList g) (8 * n) s t ∧
      t.getF (GATE_OPER_LEN_LEN (gateBlock g)) = n ∧ t.getF (GATE_OPER_CYCLE_NS_NS (gateBlock g)) = s.getF (GATE_ADMIN_CYCLE_NS_NS (gateBlock g)) ∧
      t.gateSt g = { gate := g, base := s.adminBase g, switchAt := none } ∧ (∀ h : GateId, h ≠ g → t.gateSt h = s.gateSt h) ∧
      t.flag (GATE_GSTATUS_PENDING (gateBlock g)) = false ∧ t.getF (GATE_GSTATUS_ENTRY (gateBlock g)) = t.gateIndex g t.workNs % 1024 ∧
      t.flag SCH_INT_STATUS_GATE_SWITCHED = true ∧
      RegsBut ([rGATE_GSTATUS (gateBlock g), rGATE_OPER_CYCLE_NS (gateBlock g), rGATE_OPER_LEN (gateBlock g), rGATE_OPER_BASE_NS (gateBlock g),
    rGATE_OPER_BASE_SEC (gateBlock g), rSCH_INT_STATUS] ++ gateCredits g) s t ∧
      SameBut [.regs, .bar4, .out, .mem, .gates, .shapers] s t)) ∧
  -- GATE_ENTRY_ADVANCE of a gate without preemption
  (∀ (s : State) (g : GateId), gateExists g = true → (match g with | .port p => s.preemptOn p | .stream _ => false) = false →
    Runs (.gateEntryAdvance g) s (fun t => t.getF (GATE_GSTATUS_ENTRY (gateBlock g)) = s.gateIndex g s.workNs % 1024 ∧
      t.getF (GATE_GSTATUS_STATES (gateBlock g)) = s.gateStates g s.workNs % (match g with | .port _ => 256 | .stream _ => 32) ∧
      t.flag (GATE_GSTATUS_ACTIVE (gateBlock g)) = s.flag (GATE_GCTL_GATE_EN (gateBlock g)) ∧
    RegsBut (rGATE_GSTATUS (gateBlock g) :: gateCredits g) s t ∧ SameBut [.regs, .shapers] s t)) ∧
  -- GATE_ENTRY_ADVANCE of a port whose entry releases the preemptable MAC
  (∀ (s : State) (p : Nat), p < 68 → s.preemptOn p = true → s.flag (GATE_GCTL_GATE_EN (gateBlock (.port p))) = true → (s.operGate (.port p)).1 ≠ [] →
    s.gateWord (.port p) s.workNs / 256 % 8 = 2 →
    Runs (.gateEntryAdvance (.port p)) s (fun t => t.schSt p = { s.schSt p with hold := false, port := p } ∧ (∀ q, q ≠ p → t.schSt q = s.schSt q) ∧
    t.copies.map (fun c => { c with fragAt := none }) = s.copies.map (fun c => { c with fragAt := none }) ∧
      RegsBut (rGATE_GSTATUS (gateBlock (.port p)) :: gateCredits (.port p)) s t ∧ SameBut [.regs, .copies, .shapers, .scheds] s t))

/-! ### Twin pairing and the rope -/

/-- Heartbeats, the loss of the rope, pairing and the partner's messages. -/
def Obligations.TwinsPairAndPart : Prop :=
  -- HEARTBEAT_SEND
  (∀ (s : State), s.beats = true →
    Runs (.heartbeatSend) s (fun t => t.out = .rope s.heartbeat :: s.out ∧ t.rope = { s.rope with counter := (s.rope.counter + 1) % 2 ^ 32 } ∧
    SameBut [.out, .rope] s t)) ∧
  -- HEARTBEAT_RX of the first valid heartbeat
  (∀ (s : State) (m : Heartbeat), s.ropeUp = true → m.crcOk = true → s.rope.heard = none → s.twin ≠ twHandover → s.load.leap ≠ 1 →
    Runs (.heartbeatRx m) s (fun t => t.rope =
    { s.rope with heard := some (m.session, m.counter), heardAt := s.now, peerIso := m.isolated, peerTwin := m.twin } ∧
      t.getF TWN_STATUS_PARTNER_MODE = m.mode % 16 ∧ t.getF TWN_PEER_EPOCH = m.epoch % 65536 ∧ RegsBut [rTWN_STATUS, rTWN_PEER] s t ∧
    SameBut [.regs, .rope] s t)) ∧
  -- HEARTBEAT_RX of a newer one of the same session: the gap is measured
  (∀ (s : State) (m : Heartbeat) (c : Nat), s.ropeUp = true → m.crcOk = true → s.rope.heard = some (m.session, c) → m.counter = c + 1 →
    m.counter < 2 ^ 32 → s.twin ≠ twHandover → s.load.leap ≠ 1 →
    Runs (.heartbeatRx m) s (fun t => (t.rope.heard, t.rope.heardAt) = (some (m.session, m.counter), s.now) ∧
    t.getF TWN_HB_GAP_US_US = min (2 ^ TWN_HB_GAP_US_US.width - 1) (max (s.getF TWN_HB_GAP_US_US) ((s.now - s.rope.heardAt) / 27000)) ∧
      CountedBy TWN_HB_MISSED_COUNT ((s.now - s.rope.heardAt) / 27000 / 50 - 1) s t ∧
      RegsBut [rTWN_STATUS, rTWN_PEER, rTWN_HB_GAP_US, rTWN_HB_MISSED] s t ∧ SameBut [.regs, .rope] s t)) ∧
  -- HEARTBEAT_RX of an old one is ignored
  (∀ (s : State) (m : Heartbeat) (c : Nat), s.ropeUp = true → m.crcOk = true → s.rope.heard = some (m.session, c) → m.counter = c →
    Runs (.heartbeatRx m) s (fun t => t = s)) ∧
  -- ROPE_LOST: crevasse, and Solo
  (∀ (s : State), s.ropeUp = false → s.twin = twPaired → s.pairImage = true → s.rope.away = false → s.rope.heardAt + tUs 150 ≤ s.now → s.quiet 370 →
    s.replicas = [] → s.modeCode = mPaired → s.mode.park = 0 → s.load.leap = 0 →
    Runs (.ropeLost) s (fun t => t.twin = twCrevasse ∧ t.getF TWN_STATUS_LAST_CAUSE = 1 ∧ t.flag TWN_INT_STATUS_CREVASSE = true ∧
    CountedBy TWN_CREV_CNT_COUNT 1 s t ∧
      CountedBy TWN_HB_MISSED_COUNT 3 s t ∧ EntersMode mSolo 4 s t ∧ t.frames = s.frames ∧ t.load = s.load)) ∧
  -- ROPE_LOST of a twin that has said that it leaves: the port goes down
  (∀ (s : State), s.ropeUp = true → s.pairImage = true → s.rope.away = true → s.rope.heardAt + tUs 150 ≤ s.now → (∀ f ∈ s.frames, f.port ≠ 65) →
    (∀ c ∈ s.copies, c.port ≠ 65) →
    Runs (.ropeLost) s (fun t => t.flag (MAC_STATUS_LINK 65) = false ∧ t.twin = s.twin ∧ t.modeCode = s.modeCode ∧ t.rope.heard = none ∧
    t.rope.away = true ∧
      t.frames = s.frames ∧ t.copies = s.copies)) ∧
  -- HELLO_SEND
  (∀ (s : State), s.ropeUp = true → s.pairImage = true → s.rope.started = true → s.modeCode ≠ mHold → s.modeCode ≠ mTest → s.twin = twNegotiating →
    Runs (.helloSend) s (fun t => t.out = .rope s.hello :: s.out ∧ SameBut [.out] s t)) ∧
  -- HELLO_RX that the rules allow, without ACK
  (∀ (s : State) (m : Hello), s.ropeUp = true → m.kind = 1 → s.pairImage = true → s.rope.started = true → s.twin = twNegotiating → s.refusal m = 0 →
    m.ack = false →
    Runs (.helloRx m) s (fun t => t.rope = { s.rope with helloIn := true } ∧ t.viram = min s.vmax m.vmax ∧ t.twin = twNegotiating ∧
    t.getF TWN_PEER_EPOCH = m.epoch % 65536 ∧
      t.getF TWN_PEER_COMPAT_EPOCH = m.compat % 65536 ∧ RegsBut [rTWN_STATUS, rTWN_PEER] s t ∧ SameBut [.regs, .rope] s t)) ∧
  -- HELLO_RX with ACK under Viram 1: Paired
  (∀ (s : State) (m : Hello), s.ropeUp = true → m.kind = 1 → s.pairImage = true → s.rope.started = true → s.twin = twNegotiating → s.refusal m = 0 →
    m.ack = true → m.vmax = 1 → s.modeCode = mSolo → s.mode.park = 0 → s.rope.broken = false →
    Runs (.helloRx m) s (fun t => t.twin = twPaired ∧ t.viram = 1 ∧ EntersMode mPaired 4 s t ∧ t.flag TWN_INT_STATUS_REJOIN = true ∧
      RegsBut ([rTWN_STATUS, rTWN_PEER, rTWN_INT_STATUS] ++ modeRegs) s t ∧ SameBut [.regs, .bar4, .out, .mode, .rope, .dramc, .age] s t)) ∧
  -- HELLO_RX that the rules refuse
  (∀ (s : State) (m : Hello) (c : Nat), s.ropeUp = true → m.kind = 1 → s.pairImage = true → s.rope.started = true → s.twin = twNegotiating →
    s.refusal m = c → c ≠ 0 → s.modeCode = mSolo → s.load.leap = 0 →
    Runs (.helloRx m) s (fun t => t.twin = twRefused ∧ t.getF TWN_REFUSE_CAUSE = c ∧ t.viram = 0 ∧ t.flag TWN_INT_STATUS_PAIR_REFUSED = true ∧
    t.modeCode = mSolo ∧
      RegsBut [rTWN_STATUS, rTWN_PEER, rTWN_REFUSE, rTWN_INT_STATUS, rCRN_DROPPED, rCRN_INT_STATUS] s t ∧
    SameBut [.regs, .bar4, .out, .crn, .rope] s t)) ∧
  -- SEQ_RESUME_RX of one entry for a stream that this twin serves
  (∀ (s : State) (h n : Nat) (m : SeqResume) (r : StreamRec), s.ropeUp = true → m = ⟨s.viram, [(h, n)], false⟩ → s.viram ≠ 0 → n < 65536 → h < 65536 →
    s.streamRec h = some r → r.replicate = true → s.serves r = true → s.genUsed.contains h = false →
    Runs (.seqResumeRx m) s (fun t => t.frer h 0 2 = n ∧ MemBut (frerAddr h) 2 s t ∧ SameBut [.mem] s t)) ∧
  -- SEQ_RESUME_RX of the last message: it is complete
  (∀ (s : State) (m : SeqResume), s.ropeUp = true → m = ⟨s.viram, [], true⟩ → s.viram ≠ 0 → s.twin ≠ twNegotiating →
    Runs (.seqResumeRx m) s (fun t => t.rope = { s.rope with seqDone := true, ceded := false } ∧ SameBut [.rope] s t)) ∧
  -- PARK_MSG_RX: the partner is away, and the device in Solo
  (∀ (s : State), s.ropeUp = true → s.viram ≠ 0 → s.twin = twPaired → s.modeCode = mPaired → s.mode.park = 0 → s.replicas = [] → s.load.leap = 0 →
    Runs (.parkMsgRx s.viram) s (fun t => t.twin = twAway ∧ t.rope.away = true ∧ t.getF TWN_STATUS_LAST_CAUSE = 2 ∧ EntersMode mSolo 4 s t ∧
    t.flag AON_MODE_INFO_PARTNER_PARKED = true ∧ t.flag TWN_INT_STATUS_PARTNER_AWAY = true ∧
      RegsBut ([rTWN_STATUS, rTWN_INT_STATUS, rCRN_DROPPED, rCRN_INT_STATUS] ++ modeRegs) s t ∧
    SameBut [.regs, .bar4, .out, .mode, .crn, .rope, .dramc, .age] s t)) ∧
  -- SERVICE_MSG_RX with forwarding changes nothing
  (∀ (s : State), s.ropeUp = true → s.viram ≠ 0 → s.twin = twPaired →
    Runs (.serviceMsgRx s.viram true) s (fun t => t = s)) ∧
  -- SERVICE_MSG_RX without forwarding: away
  (∀ (s : State), s.ropeUp = true → s.viram ≠ 0 → s.twin = twPaired → s.modeCode = mPaired → s.mode.park = 0 → s.replicas = [] → s.load.leap = 0 →
    Runs (.serviceMsgRx s.viram false) s (fun t => t.twin = twAway ∧ t.rope.away = true ∧ t.getF TWN_STATUS_LAST_CAUSE = 4 ∧ EntersMode mSolo 4 s t ∧
    t.flag TWN_INT_STATUS_PARTNER_AWAY = true ∧
      RegsBut ([rTWN_STATUS, rTWN_INT_STATUS, rCRN_DROPPED, rCRN_INT_STATUS] ++ modeRegs) s t ∧
    SameBut [.regs, .bar4, .out, .mode, .crn, .rope, .dramc, .age] s t)) ∧
  -- LEAP_MSG_RX: handover
  (∀ (s : State), s.ropeUp = true → s.viram ≠ 0 → s.twin = twPaired → s.load.leap = 0 → s.replicas = [] →
    Runs (.leapMsgRx s.viram) s (fun t => t.twin = twHandover ∧ t.rope.away = true ∧ t.getF TWN_STATUS_LAST_CAUSE = 6 ∧
    t.flag TWN_INT_STATUS_PARTNER_AWAY = true ∧ t.modeCode = s.modeCode ∧
      RegsBut [rTWN_STATUS, rTWN_INT_STATUS, rCRN_DROPPED, rCRN_INT_STATUS] s t ∧ SameBut [.regs, .bar4, .out, .crn, .rope] s t)) ∧
  -- LEAP_ABORT_MSG_RX: Paired again
  (∀ (s : State), s.ropeUp = true → s.viram = 1 → s.twin = twHandover → s.modeCode = mPaired → s.rope.broken = false →
    Runs (.leapAbortMsgRx 1) s (fun t => t.twin = twPaired ∧ t.rope.away = false ∧ t.rope.ceded = false ∧ t.modeCode = mPaired ∧
    t.flag TWN_INT_STATUS_REJOIN = true ∧
      RegsBut [rTWN_STATUS, rTWN_INT_STATUS, rAON_MODE_INFO] s t ∧ SameBut [.regs, .bar4, .out, .rope] s t)) ∧
  -- SAFETY_MSG_RX without HOLD
  (∀ (s : State) (m : List Byte), s.ropeUp = true → (m.getD 3 0).toNat.testBit 4 = false →
    Runs (.safetyMsgRx m) s (fun t => t.getF TWN_PARTNER_FAULT_GROUP = (m.getD 2 0).toNat % 2 ^ TWN_PARTNER_FAULT_GROUP.width ∧
    t.getF TWN_PARTNER_FAULT_CLASS = (m.getD 3 0).toNat % 8 ∧
      t.flag TWN_PARTNER_FAULT_VALID = true ∧ t.flag TWN_INT_STATUS_PARTNER_FAULT = true ∧ RegsBut [rTWN_PARTNER_FAULT, rTWN_INT_STATUS] s t ∧
    SameBut [.regs, .bar4, .out] s t))

/-- Time and flow control over the rope, its lanes, the shared roles, and the timeout of a recovery function. -/
def Obligations.TheRopeCarriesTimeLanesAndRoles : Prop :=
  -- TIME_MSG_SEND
  (∀ (s : State), s.twin = twPaired → s.ropeUp = true → s.modeCode ≠ mHold →
    Runs (.timeMsgSend) s (fun t => t.out = .rope s.timeMsg :: s.out ∧ t.rope = { s.rope with timeTx := some (s.ropeTs (MAC_TS_ADJ_TX_ADJ 65)) } ∧
    SameBut [.out, .rope] s t)) ∧
  -- TIME_MSG_RX that completes no exchange
  (∀ (s : State) (m : List Byte), s.ropeUp = true → s.rope.timePend = none →
    Runs (.timeMsgRx m) s (fun t => t.getF TWN_PEER_TIME_WORK = (m.getD 2 0).toNat % 2 ∧ t.flag TWN_PEER_TIME_VALID = true ∧
    t.getF TWN_PEER_WORK_LO_OFS = leNat ((m.drop 28).take 4) ∧
      t.rope = { s.rope with timeRx := some (s.ropeTs (MAC_TS_ADJ_RX_ADJ 65)), timePend := if tsOf (m.drop 18) = 0 then none else s.rope.timeTx.map (fun t1 => (t1, tsOf (m.drop 18), s.ropeTs (MAC_TS_ADJ_RX_ADJ 65))) } ∧
      RegsBut [rTWN_PEER_TIME, rTWN_PEER_WORK_LO, rTWN_PEER_WORK_HI] s t ∧ SameBut [.regs, .rope] s t)) ∧
  -- TIME_MSG_RX that completes one with even sums: offset and delay
  (∀ (s : State) (m : List Byte) (t1 t2 t3 t4 : Nat), s.ropeUp = true → s.rope.timePend = some (t1, t2, t4) → tsOf (m.drop 8) = t3 → t3 ≠ 0 →
    (((t2 : Int) - t1) - ((t4 : Int) - t3)) % 2 = 0 → 0 ≤ ((t4 : Int) - t1) - ((t3 : Int) - t2) → ((t4 : Int) - t1) - ((t3 : Int) - t2) < 131072 →
    Runs (.timeMsgRx m) s (fun t => t.getF TWN_TIME_OFS_LO_OFS + t.getF TWN_TIME_OFS_HI_OFS * 2 ^ 32 = unsignedOf 64 ((((t2 : Int) - t1) - ((t4 :
    Int) - t3)) / 2) ∧
      (t.getF TWN_TIME_DELAY_NS : Int) = (((t4 : Int) - t1) - ((t3 : Int) - t2)) / 2 ∧
      RegsBut [rTWN_TIME_OFS_LO, rTWN_TIME_OFS_HI, rTWN_TIME_DELAY, rTWN_PEER_TIME, rTWN_PEER_WORK_LO, rTWN_PEER_WORK_HI] s t ∧
    SameBut [.regs, .freeCtr, .rope] s t)) ∧
  -- ROPE_FC_SEND
  (∀ (s : State), s.ropeUp = true → s.bpTcs ≠ 0 → s.ropeCarries 6 = true →
    Runs (.ropeFcSend) s (fun t => t.out = .rope ([0x06, BitVec.ofNat 8 s.viram, BitVec.ofNat 8 s.bpTcs] ++ List.replicate 61 0) :: s.out ∧
    t.getF TWN_FC_XOFF_TX = s.bpTcs % 256 ∧
      RegsBut [rTWN_FC] s t ∧ SameBut [.regs, .out] s t)) ∧
  -- ROPE_FC_RX
  (∀ (s : State) (mask : Nat), s.ropeUp = true →
    Runs (.ropeFcRx mask) s (fun t => (∀ i, i < 8 → (t.getF TWN_FC_XOFF_RX).testBit i = (mask.testBit i && !(s.getF (MAC_CTL_PFC_IGNORE 65)).testBit
    i)) ∧
      (∀ i, i < 8 → t.rope.fcAt.lookup i = if mask.testBit i && !(s.getF (MAC_CTL_PFC_IGNORE 65)).testBit i then some s.now else none) ∧
      RegsBut [rTWN_FC] s t ∧ SameBut [.regs, .rope] s t)) ∧
  -- ROPE_FC_RELEASE
  (∀ (s : State) (c at_ : Nat), c < 8 → s.rope.fcAt.lookup c = some at_ → at_ + tUs 300 ≤ s.now →
    Runs (.ropeFcRelease c) s (fun t => (t.getF TWN_FC_XOFF_RX).testBit c = false ∧ (∀ i, i ≠ c →
    (t.getF TWN_FC_XOFF_RX).testBit i = (s.getF TWN_FC_XOFF_RX).testBit i) ∧
      t.rope.fcAt.lookup c = none ∧ RegsBut [rTWN_FC] s t ∧ SameBut [.regs, .rope] s t)) ∧
  -- ROPE_LANE_LOSS while another lane remains
  (∀ (s : State) (k : Nat), k < 4 → (s.getF TWN_LANE_MAP_ACTIVE).testBit k = true → s.rope.reform = [] → (∃ j, j < 4 ∧ j ≠ k ∧
    (s.getF TWN_LANE_MAP_ACTIVE).testBit j = true) → (∀ f ∈ s.frames, f.port ≠ 65) →
    Runs (.ropeLaneLoss k) s (fun t => t.flag (LAN_STATUS_LOCKED (0x40 + s.physLane k)) = false ∧
    t.rope = { s.rope with reform := [k], swap := none } ∧
      t.getF TWN_LANE_MAP_ACTIVE = s.getF TWN_LANE_MAP_ACTIVE ∧ RegsBut [rLAN_STATUS (0x40 + s.physLane k)] s t ∧ SameBut [.regs, .rope] s t)) ∧
  -- ROPE_REFORM_DONE: the lost lane is taken out
  (∀ (s : State) (k : Nat), k < 4 → s.rope.reform = [k] → (s.getF TWN_LANE_MAP_ACTIVE).testBit k = true → s.getF TWN_LANE_MAP_ACTIVE ≠ 2 ^ k →
    s.reservations 65 = [] →
    Runs (.ropeReformDone) s (fun t => t.getF TWN_LANE_MAP_ACTIVE = s.getF TWN_LANE_MAP_ACTIVE - 2 ^ k ∧ t.flag TWN_INT_STATUS_LANE_LOST = true ∧
      t.getF TWN_STATUS_LANES = ((List.range 4).filter (fun j => (s.getF TWN_LANE_MAP_ACTIVE - 2 ^ k).testBit j)).length ∧
      t.getF (SCH_PORT_RATE_AVAIL_MBPS 65) = 100000 * t.getF TWN_STATUS_LANES - 2000 ∧
      RegsBut [rTWN_LANE_MAP, rTWN_STATUS, rTWN_INT_STATUS, rSCH_PORT_RATE 65] s t ∧ SameBut [.regs, .bar4, .out] s t)) ∧
  -- ROPE_REFORM_DONE: the spare joins in place of the lane
  (∀ (s : State) (k : Nat) (l : List Nat), k < 4 → s.rope.reform = k :: l → s.reforming = [] → s.flag TWN_STATUS_SPARE_READY = true →
    s.rope.retired.contains (s.physLane k) = false →
    Runs (.ropeReformDone) s (fun t => t.physLane k = s.getF TWN_LANE_MAP_SPARE ∧ t.getF TWN_LANE_MAP_SPARE = 7 ∧
    t.flag TWN_STATUS_SPARE_USED = true ∧ t.flag TWN_STATUS_SPARE_READY = false ∧
      (t.getF TWN_LANE_MAP_ACTIVE).testBit k = true ∧ t.rope.reform = l.filter (· != k) ∧ SameBut [.regs, .bar4, .out, .crn, .ports, .rope] s t)) ∧
  -- TWN_SWAP by the host at the senior under Viram 2: SWAP_AT names the lane
  (∀ (s : State) (k : Nat), s.ropeUp = true → s.viram = 2 → s.swappable k = true → s.flag TWN_STATUS_SPARE_READY = true →
    s.flag TWN_STATUS_SENIOR = true → s.modeCode ≠ mHold →
    Runs (.twnSwap k false) s (fun t => t.rope = { s.rope with swap := some (k, s.physLane k) } ∧ t.getF TWN_CTL_SWAP_LANE = k ∧
      (s.getF TWN_STATUS_LANES ≠ 0 → Out.rope (stateMsg 8 2 ([BitVec.ofNat 8 k,
    BitVec.ofNat 8 (s.getF TWN_LANE_MAP_SPARE)] ++ List.replicate 6 0 ++ leBytes 8 s.free.1) []) ∈ t.out) ∧
      RegsBut [rTWN_CTL] s t ∧ SameBut [.regs, .freeCtr, .out, .rope] s t)) ∧
  -- SWAP_REQ_RX at the senior
  (∀ (s : State) (k : Nat), s.ropeUp = true → s.viram = 2 → s.flag TWN_STATUS_SENIOR = true → s.swappable k = true →
    s.flag TWN_STATUS_SPARE_READY = true → s.modeCode ≠ mHold →
    Runs (.swapReqRx 2 k) s (fun t => t.rope = { s.rope with swap := some (k, s.physLane k) } ∧
      (s.getF TWN_STATUS_LANES ≠ 0 → Out.rope (stateMsg 8 2 ([BitVec.ofNat 8 k,
    BitVec.ofNat 8 (s.getF TWN_LANE_MAP_SPARE)] ++ List.replicate 6 0 ++ leBytes 8 s.free.1) []) ∈ t.out) ∧
      SameBut [.freeCtr, .out, .rope] s t)) ∧
  -- SWAP_AT_APPLY: the spare carries the lane, and the worn lane is retired
  (∀ (s : State) (k : Nat), s.ropeUp = true → s.viram = 2 → k < 4 → s.flag TWN_STATUS_SPARE_READY = true → s.rope.reform = [] →
    (s.getF TWN_LANE_MAP_ACTIVE).testBit k = true → s.rope.swap = some (k, s.physLane k) →
    Runs (.swapAtApply k) s (fun t => t.rope = { s.rope with retired := s.rope.retired ++ [s.physLane k], swap := none } ∧
    t.physLane k = s.getF TWN_LANE_MAP_SPARE ∧
      t.getF TWN_LANE_MAP_SPARE = 7 ∧ t.flag TWN_STATUS_SPARE_USED = true ∧ t.flag TWN_STATUS_SPARE_READY = false ∧
      t.getF TWN_LANE_MAP_ACTIVE = s.getF TWN_LANE_MAP_ACTIVE ∧ t.flag TWN_INT_STATUS_LANE_SWAP = true ∧
      RegsBut [rTWN_LANE_MAP, rTWN_STATUS, rTWN_INT_STATUS] s t ∧ SameBut [.regs, .bar4, .out, .rope] s t)) ∧
  -- ROLE_TAKE in crevasse or refused
  (∀ (s : State), s.twin = twCrevasse ∨ s.twin = twRefused →
    Runs (.roleTake) s (fun t => t.rope = { s.rope with taken := true } ∧ t.flag TWN_STATUS_ROLES = true ∧ RegsBut [rTWN_STATUS] s t ∧
    SameBut [.regs, .rope] s t)) ∧
  -- ROLE_TAKE in another twin state is ignored
  (∀ (s : State), s.twin ≠ twCrevasse → s.twin ≠ twRefused →
    Runs (.roleTake) s (fun t => t = s)) ∧
  -- FRER_RESET_TIMEOUT: any number is taken again, and the reset counts
  (∀ (s : State) (h at_ : Nat), h < 65536 → s.frerAt.lookup h = some at_ → at_ + tMs (max 1 (s.getF TWN_FRER_CFG_RESET_MS)) ≤ s.now →
    Runs (.frerResetTimeout h) s (fun t => t.frerFlag h 0 = true ∧ t.frer h 30 2 = min 65535 (s.frer h 30 2 + 1) ∧ 
      (∀ x, x ≠ frerAddr h + 12 → (x < frerAddr h + 30 ∨ frerAddr h + 32 ≤ x) → sget zeroByte t.mem x = sget zeroByte s.mem x) ∧
    t.frerAt = sdel s.frerAt h ∧ SameBut [.mem, .frerAt] s t))

/-! ### External DRAM and the host interface -/

/-- The DRAM family: refresh, readouts, retraining, the descriptor, retirement and migration of ranks, reads, timeouts and patrol. -/
def Obligations.DramKeepsItsRanks : Prop :=
  -- RANK_RETIRE by the host: the migration starts, and both channels of the pair turn strict
  (∀ (s : State) (r : Nat), r < 8 → s.fitted r = true → s.getF (rkF r) = 0 → s.spareFree (r / 4) = true → s.flag DRC_STATUS_MIGRATING = false →
    Runs (.rankRetire r false) s (fun t => t.flag DRC_STATUS_MIGRATING = true ∧ t.getF DRC_STATUS_MIG_RANK = r ∧ t.getF DRC_STATUS_MIG_PERMILLE = 0 ∧
    t.getF (rkF r) = 1 ∧ t.getF DRC_CTL_RANK = r ∧
      t.flag DRC_INT_STATUS_MIG_START = true ∧ t.flag (DRC_CH_STATE_STRICT (r / 4 * 2)) = true ∧ t.flag (DRC_CH_STATE_STRICT (r / 4 * 2 + 1)) = true ∧
      RegsBut ([rDRC_CTL, rDRC_INT_STATUS, rCRN_DROPPED, rCRN_INT_STATUS] ++ dramModeRegs) s t ∧ SameBut [.regs, .bar4, .out, .crn, .dramc] s t)) ∧
  -- RANK_RETIRE of a rank whose spare is used: nothing but the write
  (∀ (s : State) (r : Nat), r < 8 → s.spareFree (r / 4) = false →
    Runs (.rankRetire r false) s (fun t => t.getF DRC_CTL_RANK = r ∧ RegsBut [rDRC_CTL] s t ∧ SameBut [.regs] s t)) ∧
  -- MIGRATION_DONE with no rank that waits
  (∀ (s : State) (r : Nat), s.flag DRC_STATUS_MIGRATING = true → s.getF DRC_STATUS_MIG_RANK = r → s.dramc.selfRefresh = false →
    s.age.retrainLater = false → s.dramc.waits = [] →
    Runs (.migrationDone []) s (fun t => t.flag DRC_STATUS_MIGRATING = false ∧ t.getF DRC_STATUS_MIG_PERMILLE = 1000 ∧ t.getF (rkF r) = 2 ∧
    t.dramc.moved = s.dramc.moved ++ [r] ∧
      t.dramc.used = s.dramc.used ||| 2 ^ (r / 4) ∧ t.flag DRC_INT_STATUS_MIG_DONE = true ∧
      RegsBut ([rDRC_INT_STATUS, rCRN_DROPPED, rCRN_INT_STATUS] ++ dramModeRegs) s t ∧ SameBut [.regs, .bar4, .out, .crn, .dramc] s t)) ∧
  -- DRAM_RETRAIN
  (∀ (s : State), s.mode.dramOpen = true → s.dramc.selfRefresh = false →
    Runs (.dramRetrain) s (fun t => t.dramc = { s.dramc with retrain := true } ∧ SameBut [.dramc] s t)) ∧
  -- DRAM_RETRAIN_DONE: the eyes of every channel
  (∀ (s : State) (e0 e1 e2 e3 : Nat × Nat), s.dramc.retrain = true →
    Runs (.dramRetrainDone [e0, e1, e2, e3]) s (fun t => t.dramc = { s.dramc with retrain := false } ∧ t.getF (DRC_CH_EYE_RD_PS 0) = min 65535 e0.1 ∧
    t.getF (DRC_CH_EYE_WR_PS 0) = min 65535 e0.2 ∧
      t.getF (DRC_CH_EYE_RD_PS 3) = min 65535 e3.1 ∧ t.getF (DRC_CH_EYE_WR_PS 3) = min 65535 e3.2 ∧ t.flag DRC_INT_STATUS_RETRAINED = true ∧
      RegsBut [rDRC_CH_EYE 0, rDRC_CH_EYE 1, rDRC_CH_EYE 2, rDRC_CH_EYE 3, rDRC_INT_STATUS] s t ∧ SameBut [.regs, .bar4, .out, .dramc] s t)) ∧
  -- DESC_OTP_BURN in Test, the first time
  (∀ (s : State), s.modeCode = mTest → s.otp.descBurned = false →
    Runs (.descOtpBurn) s (fun t => t.otp = { s.otp with desc := descRegs.map (fun o => (o, s.rd o)), descBurned := true } ∧ SameBut [.otp] s t)) ∧
  -- REFRESH_DUE under strict rules: issued
  (∀ (s : State) (c k : Nat) (busy : Bool), c < 4 → k < 2 → s.fitted (2 * c + k) = true → s.mode.dramOpen = true → s.dramc.selfRefresh = false →
    s.strictOn c = true →
    Runs (.refreshDue c k busy) s (fun t => t.out = .dram c k 0 :: s.out ∧ SameBut [.out] s t)) ∧
  -- REFRESH_DUE under the running rules while a read waits: postponed
  (∀ (s : State) (c k : Nat), c < 4 → k < 2 → s.fitted (2 * c + k) = true → s.mode.dramOpen = true → s.dramc.selfRefresh = false →
    s.strictOn c = false → s.postponedOf (2 * c + k) < 8 →
    Runs (.refreshDue c k true) s (fun t => t.postponedOf (2 * c + k) = s.postponedOf (2 * c + k) + 1 ∧
    t.postponedOf (2 * c + 1 - k) = s.postponedOf (2 * c + 1 - k) ∧ t.out = s.out ∧ RegsBut [rDRC_CH_POSTPONE c] s t ∧ SameBut [.regs, .dramc] s t)) ∧
  -- REFRESH_DUE when 8 are postponed: urgent
  (∀ (s : State) (c k : Nat), c < 4 → k < 2 → s.fitted (2 * c + k) = true → s.mode.dramOpen = true → s.dramc.selfRefresh = false →
    s.strictOn c = false → 8 ≤ s.postponedOf (2 * c + k) →
    Runs (.refreshDue c k true) s (fun t => t.out = .dram c k 0 :: s.out ∧ CountedBy (DRC_CH_POSTPONE_URGENT c) 1 s t ∧
    RegsBut [rDRC_CH_POSTPONE c] s t ∧ SameBut [.regs, .out] s t)) ∧
  -- REFRESH_READOUT within the rated range
  (∀ (s : State) (c k code : Nat), c < 4 → k < 2 → s.fitted (2 * c + k) = true → s.mode.dramOpen = true → s.dramc.selfRefresh = false → code ≤ 4 →
    Runs (.refreshReadout c k code true) s (fun t => t.getF (rateF (2 * c + k)) = code ∧ t.hotRank (2 * c + k) = true ∧
      t.getF (trefiF (2 * c + k)) = (if s.strictOn c then 3906 * 2 ^ (4 - code) / 4 / 2 else 3906 * 2 ^ (4 - code) / 4) ∧
      (s.hotRank (2 * c + k) = false → t.flag DRC_INT_STATUS_HOT = true) ∧
      RegsBut [rDRC_CH_STATE c, rDRC_CH_REFRESH c, rDRC_INT_STATUS] s t ∧ SameBut [.regs, .bar4, .out] s t)) ∧
  -- REFRESH_CATCHUP
  (∀ (s : State) (c k : Nat), c < 4 → k < 2 → s.postponedOf (2 * c + k) ≠ 0 →
    Runs (.refreshCatchup c k) s (fun t => t.postponedOf (2 * c + k) = 0 ∧ t.out = List.replicate (s.postponedOf (2 * c + k)) (.dram c k 0) ++ s.out ∧
      RegsBut [rDRC_CH_POSTPONE c] s t ∧ SameBut [.regs, .out, .dramc] s t)) ∧
  -- WCK_OSC_READ of a channel with one rank and no spare
  (∀ (s : State) (c : Nat), c < 4 → s.mode.dramOpen = true → s.dramc.selfRefresh = false → s.fitted (2 * c) = true → s.fitted (2 * c + 1) = false →
    s.flag (DRC_CH_STATE_SPARE_HERE c) = false →
    Runs (.wckOscRead c) s (fun t => t.out = .dram c 0 3 :: s.out ∧ SameBut [.out] s t)) ∧
  -- DRAM_REQUEST_COMPLETE of a good class-2 read
  (∀ (s : State) (r : DramDone) (l : Look), s.reqOk r = true → r.write = false → r.user = .treeFill l ∨ r.user = .flow l → r.first = .ok →
    s.poisoned r = false →
    Runs (.dramRequestComplete r) s (fun t => t.getF (DRC_CH_LAT_PEAK_NS (r.rank / 2)) = min 65535 (max (s.getF (DRC_CH_LAT_PEAK_NS (r.rank / 2)))
    r.ns) ∧
      RegsBut [rDRC_CH_LAT_PEAK (r.rank / 2)] s t ∧ SameBut [.regs] s t)) ∧
  -- DRAM_REQUEST_COMPLETE with a single-bit error: counted, a minor event
  (∀ (s : State) (r : DramDone), s.reqOk r = true → r.write = false → r.user = .host → r.first = .single → s.poisoned r = false →
    s.quiet (345 + 7 * (r.rank / 2)) →
    Runs (.dramRequestComplete r) s (fun t => CountedBy (DRC_CH_CE_COUNT (r.rank / 2)) 1 s t ∧
    Minor (345 + 7 * (r.rank / 2)) [rDRC_CH_CE (r.rank / 2)] s t ∧ SameBut [.regs, .flt] s t)) ∧
  -- DRAM_REQUEST_COMPLETE of an uncorrectable read of a rank without a free spare
  (∀ (s : State) (r : DramDone), s.reqOk r = true → r.write = false → r.user = .host → r.first = .double → r.spare = false → r.line < 2 ^ 26 →
    s.spareFree (r.rank / 4) = false → s.quiet (339 + 7 * (r.rank / 2)) →
    Runs (.dramRequestComplete r) s (fun t => CountedBy (DRC_CH_UE_COUNT (r.rank / 2)) 1 s t ∧ t.getF (DRC_CH_LAST_UE_LINE (r.rank / 2)) = r.line ∧
    t.getF (DRC_CH_LAST_UE_RANK (r.rank / 2)) = r.rank % 2 ∧
      t.getF (DRC_CH_LAST_UE_CAUSE (r.rank / 2)) = 1 ∧ t.flag (DRC_CH_LAST_UE_VALID (r.rank / 2)) = true ∧ t.flag DRC_INT_STATUS_UE = true ∧
      Minor (339 + 7 * (r.rank / 2)) [rDRC_CH_UE (r.rank / 2), rDRC_CH_LAST_UE (r.rank / 2), rDRC_INT_STATUS] s t ∧
    SameBut [.regs, .bar4, .out, .flt] s t)) ∧
  -- DRAM_REQUEST_COMPLETE of a parity error that the second issue ends well: counted
  (∀ (s : State) (r : DramDone), s.reqOk r = true → r.write = false → r.user = .host → r.first = .parity → r.again = .ok → s.poisoned r = false →
    Runs (.dramRequestComplete r) s (fun t => CountedBy (DRC_CH_CAPAR_COUNT (r.rank / 2)) 1 s t ∧ RegsBut [rDRC_CH_CAPAR (r.rank / 2)] s t ∧
    SameBut [.regs] s t)) ∧
  -- DRAM_REQUEST_TIMEOUT: cause 5, no retirement
  (∀ (s : State) (r : DramDone), s.reqOk r = true → r.user = .host → s.quiet (342 + 7 * (r.rank / 2)) →
    Runs (.dramRequestTimeout r) s (fun t => CountedBy (DRC_CH_UE_COUNT (r.rank / 2)) 1 s t ∧ t.getF (DRC_CH_LAST_UE_CAUSE (r.rank / 2)) = 5 ∧
    t.flag (DRC_CH_LAST_UE_VALID (r.rank / 2)) = true ∧
      t.flag DRC_INT_STATUS_UE = true ∧ t.dramc = s.dramc ∧
      Minor (342 + 7 * (r.rank / 2)) [rDRC_CH_UE (r.rank / 2), rDRC_CH_LAST_UE (r.rank / 2), rDRC_INT_STATUS] s t ∧
    SameBut [.regs, .bar4, .out, .flt] s t)) ∧
  -- PATROL_SCRUB of a good line
  (∀ (s : State) (r : DramDone), s.reqOk r = true → r.first = .ok → s.poisoned r = false →
    Runs (.patrolScrub r) s (fun t => t = s)) ∧
  -- PATROL_SCRUB that corrects a bit: counted, a minor event
  (∀ (s : State) (r : DramDone), s.reqOk r = true → r.first = .single → s.poisoned r = false → s.quiet (345 + 7 * (r.rank / 2)) →
    Runs (.patrolScrub r) s (fun t => CountedBy (DRC_CH_CE_COUNT (r.rank / 2)) 1 s t ∧ Minor (345 + 7 * (r.rank / 2)) [rDRC_CH_CE (r.rank / 2)] s t ∧
    SameBut [.regs, .flt] s t))

/-- The mailbox: each command's response and effect.  The cryptographic checks are uninterpreted (assumption log 6); the order of the checks is the
model's choice (assumption log 18). -/
def Obligations.TheMailboxAnswers : Prop :=
  -- MB_HELLO
  (∀ (s : State) (lo hi v : Nat), s.mbTakes 0 → 2 ≤ s.mbReq.len → lo = (s.mbReq.payload.getD 0 0).toNat → hi = (s.mbReq.payload.getD 1 0).toNat →
    max lo 1 ≤ min hi 2 → v = min hi 2 →
    Runs (.mbHello) s (fun t => t.mbVer = v ∧ Answers s.mbReq 0 [1, 2, BitVec.ofNat 8 v] [] [] s t)) ∧
  -- MB_HELLO without a common version
  (∀ (s : State) (lo hi : Nat), s.mbTakes 0 → 2 ≤ s.mbReq.len → lo = (s.mbReq.payload.getD 0 0).toNat → hi = (s.mbReq.payload.getD 1 0).toNat →
    min hi 2 < max lo 1 →
    Runs (.mbHello) s (fun t => t.mbVer = 0 ∧ Answers s.mbReq 8 [1, 2, 0] [] [] s t)) ∧
  -- MB_ECHO
  (∀ (s : State), s.mbTakes 1 →
    Runs (.mbEcho) s (fun t => Answers s.mbReq 0 s.mbReq.payload [] [] s t)) ∧
  -- MB_ECHO while the device is busy: refused, a minor event
  (∀ (s : State), s.mbReq.op = 1 → HDM_MB_STATUS_BUSY.get (s.rd4 rHDM_MB_STATUS) = 1 → s.quiet srcMailbox →
    Runs (.mbEcho) s (fun t => t.flag HDM_INT_STATUS_MB_REFUSED = true ∧ Minor srcMailbox [rHDM_INT_STATUS] s t ∧ Bar4But [rMSIX_PBA 8] s t ∧
    SameBut [.regs, .bar4, .out, .flt] s t)) ∧
  -- MB_CAIRN_CLEAR without payload: a nonce
  (∀ (s : State), s.mbTakes 0x10 → s.mbReq.len = 0 →
    Runs (.mbCairnClear) s (fun t => ∃ n : List Byte, n.length = 8 ∧ t.crn = { s.crn with nonce := some (leNat n) } ∧
    Answers s.mbReq 0 n [] [.crn, .freeCtr] s t)) ∧
  -- MB_CAIRN_CLEAR with a code while no nonce is outstanding: it fails
  (∀ (s : State), s.mbTakes 0x10 → s.mbReq.len = 8 → s.crn.nonce = none →
    Runs (.mbCairnClear) s (fun t => t.crn = s.crn ∧ t.flag CRN_STATUS_CLEARING = s.flag CRN_STATUS_CLEARING ∧ Answers s.mbReq 7 [] [] [] s t)) ∧
  -- MB_JTAG_CHALLENGE
  (∀ (s : State), s.mbTakes 0x20 →
    Runs (.mbJtagChallenge) s (fun t => ∃ n : List Byte, n.length = 48 ∧ t.load = { s.load with jtagNonce := some n } ∧
    Answers s.mbReq 0 n [] [.load, .freeCtr] s t)) ∧
  -- MB_JTAG_UNLOCK without a challenge outstanding: it fails
  (∀ (s : State), s.mbTakes 0x21 → s.mbReq.len = 194 → s.load.jtagNonce = none →
    Runs (.mbJtagUnlock) s (fun t => t.load = s.load ∧ Answers s.mbReq 7 [] [] [] s t)) ∧
  -- MB_JTAG_UNLOCK: the nonce is consumed, and the unlock holds where the signature does
  (∀ (s : State) (n hash : List Byte) (slot : Nat), s.mbTakes 0x21 → s.mbReq.len = 194 → s.load.jtagNonce = some n →
    slot = (s.mbReq.payload.getD 0 0).toNat → hash = s.otp.keyHash.getD slot [] → hash ≠ [] → s.otp.revoked.testBit slot = false →
    Runs (.mbJtagUnlock) s (fun t => t.load.jtagNonce = none ∧
      (Config.sha384 ((s.mbReq.payload.drop 1).take 97) = hash →
       Config.ecdsaOk ((s.mbReq.payload.drop 1).take 97) (Config.sha384 (n ++ (leBytes 4 (s.rd rGLB_ID_LO).toNat ++ leBytes 4 (s.rd
    rGLB_ID_HI).toNat)))
         ((s.mbReq.payload.drop 98).take 96) = true →
       t.load = { s.load with jtagNonce := none, jtagOpen := true } ∧ Answers s.mbReq 0 [] [] [.load] s t))) ∧
  -- MB_OTP_KEY of an empty slot
  (∀ (s : State) (slot : Nat), s.mbTakes 0x30 → s.mbReq.len = 49 → slot = (s.mbReq.payload.getD 0 0).toNat → slot < 4 →
    s.otp.keyHash.getD slot [] = [] →
    Runs (.mbOtpKey) s (fun t => t.otp.keyHash.getD slot [] = (s.mbReq.payload.drop 1).take 48 ∧ (∀ i, i < 4 → i ≠ slot →
    t.otp.keyHash.getD i [] = s.otp.keyHash.getD i []) ∧
      t.otp = { s.otp with keyHash := t.otp.keyHash } ∧ t.getF IMG_OTP_KEYS_VALID = s.getF IMG_OTP_KEYS_VALID ||| 2 ^ slot ∧
      Answers s.mbReq 0 [] [rIMG_OTP_KEYS] [.otp] s t)) ∧
  -- MB_OTP_REVOKE of another slot than that of the running image
  (∀ (s : State) (slot : Nat), s.mbTakes 0x31 → s.mbReq.len = 1 → slot = (s.mbReq.payload.getD 0 0).toNat → slot < 4 →
    s.img.any (fun i => i.keySlot == slot) = false →
    Runs (.mbOtpRevoke) s (fun t => t.otp = { s.otp with revoked := s.otp.revoked ||| 2 ^ slot } ∧
    t.getF IMG_OTP_KEYS_REVOKED = s.getF IMG_OTP_KEYS_REVOKED ||| 2 ^ slot ∧
      Answers s.mbReq 0 [] [rIMG_OTP_KEYS] [.otp] s t))

/-- The DMA channels. -/
def Obligations.DmaMovesBytes : Prop :=
  -- DMA_GO from host to host memory
  (∀ (s : State) (c n : Nat), c < 13 → s.heldLo = [] → s.getF (HDM_DMA_STATUS_BUSY c) = 0 → s.getF (HDM_DMA_STATUS_SHUTDOWN c) = 0 →
    s.getF (HDM_DMA_CTL_EN c) = 1 → s.getF (HDM_DMA_CTL_SRC_SPACE c) = 0 → s.getF (HDM_DMA_CTL_DST_SPACE c) = 0 → s.getF (HDM_DMA_CTL_CRC_WR c) = 0 →
    s.getF (HDM_DMA_CNT_BYTES c) = n → 1 ≤ n → n ≤ 16777216 → s.pair (rHDM_DMA_SRC_LO c) + n ≤ 2 ^ 64 → s.pair (rHDM_DMA_DST_LO c) + n ≤ 2 ^ 64 →
    Runs (.dmaGo c) s (fun t => t.flag (HDM_DMA_STATUS_BUSY c) = true ∧ t.getF (HDM_DMA_STATUS_ERR c) = 0 ∧
      t.flag (HDM_DMA_STATUS_DIR c) = decide (s.pair (rHDM_DMA_SRC_LO c) < s.pair (rHDM_DMA_DST_LO c) ∧
    s.pair (rHDM_DMA_DST_LO c) < s.pair (rHDM_DMA_SRC_LO c) + n) ∧
      t.dma = s.dma ++
    [{ chan := c, src := s.pair (rHDM_DMA_SRC_LO c), dst := s.pair (rHDM_DMA_DST_LO c), cnt := n, srcSpace := 0, dstSpace := 0, crcWr := false, desc := decide (s.pair (rHDM_DMA_SRC_LO c) < s.pair (rHDM_DMA_DST_LO c)) && decide (s.pair (rHDM_DMA_DST_LO c) < s.pair (rHDM_DMA_SRC_LO c) + n), moved := 0, data := [], stop := false }] ∧ RegsBut [rHDM_DMA_STATUS c] s t ∧ SameBut [.regs, .dma] s t)) ∧
  -- DMA_GO of a channel that is not enabled: refused with error 7
  (∀ (s : State) (c : Nat), c < 13 → s.heldLo = [] → s.getF (HDM_DMA_STATUS_BUSY c) = 0 → s.getF (HDM_DMA_CTL_EN c) = 0 →
    Runs (.dmaGo c) s (fun t => t.getF (HDM_DMA_STATUS_ERR c) = 7 ∧ t.flag (HDM_DMA_STATUS_DONE c) = true ∧ t.dma = s.dma ∧
    RegsBut [rHDM_DMA_STATUS c] s t ∧ SameBut [.regs, .bar4, .out] s t)) ∧
  -- DMA_GO of a busy channel is ignored, a minor event
  (∀ (s : State) (c : Nat), c < 13 → s.getF (HDM_DMA_STATUS_BUSY c) = 1 → s.quiet srcHostOther →
    Runs (.dmaGo c) s (fun t => t.dma = s.dma ∧ Minor srcHostOther [] s t ∧ SameBut [.regs, .flt] s t)) ∧
  -- DMA_STOP acts after the burst
  (∀ (s : State) (c : Nat) (r : DmaRun), s.dmaRun c = some r →
    Runs (.dmaStop c) s (fun t => t.dmaRun c = some { r with stop := true } ∧ (∀ d, d ≠ c → t.dmaRun d = s.dmaRun d) ∧ SameBut [.dma] s t)) ∧
  -- DMA_SHUTDOWN of a busy channel
  (∀ (s : State) (c : Nat) (r : DmaRun), c < 32 → s.dmaRun c = some r → s.getF (HDM_DMA_STATUS_BUSY c) = 1 →
    Runs (.dmaShutdown c) s (fun t => t.flag (HDM_DMA_CTL_EN c) = false ∧ t.flag (HDM_DMA_STATUS_SHUTDOWN c) = true ∧
    t.flag (HDM_DMA_STATUS_EN_PENDING c) = false ∧
      t.dmaRun c = some { r with stop := true } ∧ RegsBut [rHDM_DMA_CTL c, rHDM_DMA_STATUS c] s t ∧ SameBut [.regs, .dma] s t)) ∧
  -- DMA_SHUTDOWN of an idle channel
  (∀ (s : State) (c : Nat), c < 32 → s.getF (HDM_DMA_STATUS_BUSY c) = 0 →
    Runs (.dmaShutdown c) s (fun t => t.flag (HDM_DMA_CTL_EN c) = false ∧ t.flag (HDM_DMA_STATUS_EN_PENDING c) = false ∧
    RegsBut [rHDM_DMA_CTL c, rHDM_DMA_STATUS c] s t ∧ SameBut [.regs] s t)) ∧
  -- DMA_BURST_DONE from host to host memory, up to the 512-byte boundary of the destination
  (∀ (s : State) (c n : Nat) (data : List Byte) (r : DmaRun), c < 32 → s.dmaRun c = some r → r.chan = c → r.srcSpace = 0 → r.dstSpace = 0 →
    r.desc = false → r.stop = false → n = min (r.cnt - r.moved) (512 - (r.dst + r.moved) % 512) → r.moved < r.cnt → r.cnt < 2 ^ 25 → data.length = n →
    Runs (.dmaBurstDone c data []) s (fun t => t.out = .hostWrite (r.dst + r.moved) data :: s.out ∧
    t.getF (HDM_DMA_DONE_BYTES_BYTES c) = r.moved + n ∧
      t.dmaRun c = some { r with moved := r.moved + n, data := r.data ++ data } ∧ (∀ d, d ≠ c → t.dmaRun d = s.dmaRun d) ∧
      RegsBut [rHDM_DMA_DONE_BYTES c] s t ∧ SameBut [.regs, .out, .dma] s t)) ∧
  -- DMA_BURST_DONE of the last burst of a transfer that stops
  (∀ (s : State) (c : Nat) (data : List Byte) (r : DmaRun), c < 32 → s.dmaRun c = some r → r.chan = c → r.srcSpace = 0 → r.dstSpace = 0 →
    r.desc = false → r.stop = true → r.moved + 512 < r.cnt → (r.dst + r.moved) % 512 = 0 → r.cnt < 2 ^ 25 → data.length = 512 →
    s.getF (HDM_DMA_STATUS_SHUTDOWN c) = 0 →
    Runs (.dmaBurstDone c data []) s (fun t => Out.hostWrite (r.dst + r.moved) data ∈ t.out ∧ t.flag (HDM_DMA_STATUS_STOPPED c) = true ∧
    t.flag (HDM_DMA_STATUS_BUSY c) = false ∧ t.flag (HDM_DMA_STATUS_DONE c) = true ∧
      t.getF (HDM_DMA_DONE_BYTES_BYTES c) = r.moved + 512 ∧ t.dmaRun c = none ∧ RegsBut [rHDM_DMA_STATUS c, rHDM_DMA_DONE_BYTES c] s t ∧
    SameBut [.regs, .bar4, .out, .dma] s t)) ∧
  -- DMA_TRANSFER_DONE: the CRC of the data is stored
  (∀ (s : State) (c : Nat) (r : DmaRun), c < 32 → s.dmaRun c = some r → r.chan = c → r.moved = r.cnt → r.cnt < 2 ^ 25 → r.crcWr = false →
    s.getF (HDM_DMA_STATUS_SHUTDOWN c) = 0 →
    Runs (.dmaTransferDone c) s (fun t => t.getF (HDM_DMA_CRC_CRC c) = crc32c r.data % 2 ^ 32 ∧ t.flag (HDM_DMA_STATUS_BUSY c) = false ∧
    t.flag (HDM_DMA_STATUS_DONE c) = true ∧
      t.getF (HDM_DMA_DONE_BYTES_BYTES c) = r.cnt ∧ t.dmaRun c = none ∧ (∀ d, d ≠ c → t.dmaRun d = s.dmaRun d) ∧
      RegsBut [rHDM_DMA_STATUS c, rHDM_DMA_CRC c, rHDM_DMA_DONE_BYTES c] s t ∧ SameBut [.regs, .bar4, .out, .dma] s t)) ∧
  -- DMA_REQUEST_ERROR of a channel with a transfer
  (∀ (s : State) (c kind : Nat) (r : DmaRun), c < 32 → 1 ≤ kind → kind ≤ 4 → s.dmaRun c = some r → r.chan = c → r.moved < 2 ^ 25 →
    s.getF (HDM_DMA_STATUS_SHUTDOWN c) = 0 → s.quiet srcPcie →
    Runs (.dmaRequestError c kind) s (fun t => t.getF (HDM_DMA_STATUS_ERR c) = 5 ∧ t.flag (HDM_DMA_STATUS_BUSY c) = false ∧
    t.flag (HDM_DMA_STATUS_DONE c) = true ∧ t.dmaRun c = none ∧
      t.getF (HDM_DMA_DONE_BYTES_BYTES c) = r.moved ∧ t.getF HDM_ERR_INFO_KIND = kind ∧ t.getF HDM_ERR_INFO_CHANNEL = c ∧
    t.flag HDM_ERR_INFO_VALID = true ∧
      CountedBy HDM_ERR_CNT_COUNT 1 s t ∧ t.flag HDM_INT_STATUS_HOST_ERR = true ∧
      Minor srcPcie [rHDM_DMA_STATUS c, rHDM_DMA_DONE_BYTES c, HDM_ERR_INFO_KIND.off, HDM_ERR_CNT_COUNT.off, rHDM_INT_STATUS] s t ∧
    SameBut [.regs, .bar4, .out, .flt, .dma] s t))

/-- The packet rings of P64, the PCIe link, host-interface resets, MSI-X, and the management port. -/
def Obligations.RingsLinkAndMessages : Prop :=
  -- RING_DOORBELL
  (∀ (s : State) (n v : Nat), n < 16 → v < s.ringSize n →
    Runs (.ringDoorbell n v) s (fun t => t.rd4 (rHDM_RING_TAIL n) = BitVec.ofNat 32 v ∧ Bar4But [rHDM_RING_TAIL n] s t ∧ SameBut [.bar4] s t)) ∧
  -- RING_DOORBELL beyond the ring: ignored, a minor event
  (∀ (s : State) (n v : Nat), n < 16 → v < 65536 → s.ringSize n ≤ v → s.quiet srcHostOther →
    Runs (.ringDoorbell n v) s (fun t => Minor srcHostOther [] s t ∧ SameBut [.regs, .flt] s t)) ∧
  -- TX_DESCRIPTOR_PROCESS of a good descriptor with a forced destination
  (∀ (s : State) (r fid : Nat) (desc data : List Byte) (len : Nat), r < 8 → s.flag (HDM_RING_CFG_EN r) = true → s.ringHas r = true →
    s.frame fid = none → s.notAdmitted 64 = none → s.flag (BPM_POOL_OCC_BP (s.poolOf ((desc.getD 11 0).toNat % 8))) = false → desc.length = 32 →
    s.txBad desc = false → len = leNat ((desc.drop 8).take 2) → data.length = len → (desc.getD 10 0).toNat.testBit 0 = true →
    Runs (.txDescriptorProcess r fid desc data) s (fun t => (t.frame fid).map (fun f => (f.port, f.phase, f.bytes, f.inTc, f.inject, f.res.fwdOp,
    f.res.dest, f.writer)) =
        some (64, .waiting, data, (desc.getD 11 0).toNat % 8, true, 1, leNat ((desc.drop 12).take 2), 0x330 + r) ∧
      t.getF (HDM_RING_HEAD_INDEX r) = (s.getF (HDM_RING_HEAD_INDEX r) + 1) % s.ringSize r % 65536 ∧ CountedBy (HDM_RING_FRAMES_COUNT r) 1 s t ∧
      FramesBut fid s t ∧ RegsBut [rHDM_RING_HEAD r, rHDM_RING_FRAMES r] s t ∧ SameBut [.regs, .bar4, .out, .frames, .rings] s t)) ∧
  -- TX_DESCRIPTOR_PROCESS of a bad descriptor: counted, HEAD moves on
  (∀ (s : State) (r fid : Nat) (desc data : List Byte), r < 8 → s.flag (HDM_RING_CFG_EN r) = true → s.ringHas r = true → s.frame fid = none →
    s.notAdmitted 64 = none → s.flag (BPM_POOL_OCC_BP (s.poolOf ((desc.getD 11 0).toNat % 8))) = false → desc.length = 32 → s.txBad desc = true →
    Runs (.txDescriptorProcess r fid desc data) s (fun t => CountedBy (HDM_RING_DROP_COUNT r) 1 s t ∧
    t.getF (HDM_RING_HEAD_INDEX r) = (s.getF (HDM_RING_HEAD_INDEX r) + 1) % s.ringSize r % 65536 ∧
      RegsBut [rHDM_RING_HEAD r, rHDM_RING_DROP r] s t ∧ SameBut [.regs, .bar4, .out, .rings] s t)) ∧
  -- RX_COMPLETION of a whole copy with good data: the copy is delivered
  (∀ (s : State) (fid n : Nat) (desc : List Byte) (poison : Bool) (f : Frame) (c : Copy), s.frame fid = some f → s.copy fid 64 = some c →
    c.phase = .sending → c.fid = fid → c.port = 64 → c.tailMark = false → f.ended = true → s.readOk c = true → n = s.rxRing c.tc →
    s.ringHas n = true → desc.length = 32 → (s.copyBytes f c).1.length ≤ leNat ((desc.drop 8).take 2) →
    Runs (.rxCompletion fid desc poison) s (fun t => Out.hostWrite (leNat (desc.take 8)) (s.copyBytes f c).1 ∈ t.out ∧
      Out.hostWrite (s.pair (rHDM_RING_BASE_LO n) + 32 * s.getF (HDM_RING_HEAD_INDEX n) + 8)
        ((rxDescriptor f c (s.copyBytes f c).1.length (s.flag (HDM_RING_HEAD_PHASE n)) false false poison).take 4) ∈ t.out ∧
      t.copy fid 64 = none ∧ CopiesBut fid 64 s t ∧ FramesBut fid s t ∧ CountedBy (HDM_RING_FRAMES_COUNT n) 1 s t ∧ ThreadsEnd (.copy fid 64) s t ∧
    SamplesEnd (.copy fid 64) s t)) ∧
  -- RING_SHUTDOWN of a ring with nothing under way
  (∀ (s : State) (n : Nat), n < 16 → s.flag (HDM_RING_CFG_EN n) = true → s.ringBusy n = false →
    Runs (.ringShutdown n) s (fun t => t.flag (HDM_RING_CFG_EN n) = false ∧ RegsBut [rHDM_RING_CFG n] s t ∧ SameBut [.regs] s t)) ∧
  -- RING_SHUTDOWN of a ring with a copy under way
  (∀ (s : State) (n : Nat), n < 16 → s.flag (HDM_RING_CFG_EN n) = true → s.ringBusy n = true →
    Runs (.ringShutdown n) s (fun t => t.flag (HDM_RING_CFG_EN n) = false ∧ t.flag (HDM_RING_STATUS_SHUTDOWN n) = true ∧
    RegsBut [rHDM_RING_CFG n, rHDM_RING_STATUS n] s t ∧ SameBut [.regs] s t)) ∧
  -- RING_COAL_TIMEOUT
  (∀ (s : State) (n : Nat), n < 16 → s.getF (HDM_RING_CFG_COAL_US n) ≠ 0 → (s.ringSt n).unrep ≠ 0 →
    (s.ringSt n).since + tUs (s.getF (HDM_RING_CFG_COAL_US n)) ≤ s.now → (s.ringSt n).ring = n → (s.rd4 (rMSIX_CTL (64 + n))).getLsbD 0 = false →
    Runs (.ringCoalTimeout n) s (fun t => t.out = (if s.out.contains (.msix (64 + n) s.now) then s.out else .msix (64 + n) s.now :: s.out) ∧
    (t.ringSt n).unrep = 0 ∧ (∀ m, m ≠ n → t.ringSt m = s.ringSt m) ∧ SameBut [.out, .rings] s t)) ∧
  -- PCIE_LINK_CHANGE
  (∀ (s : State) (g w : Nat), g = 3 ∨ g = 4 ∨ g = 5 → w = 1 ∨ w = 2 ∨ w = 4 ∨ w = 8 → s.mode.pcieUp = true → s.reservations 64 = [] →
    s.getF HDM_LINK_GEN ≠ g →
    Runs (.pcieLinkChange g w) s (fun t => t.getF HDM_LINK_GEN = g ∧ t.getF HDM_LINK_WIDTH = w ∧ t.flag HDM_INT_STATUS_LINK_CHG = true ∧
    t.getF (SCH_PORT_RATE_AVAIL_MBPS 64) = pcieMbps g w ∧
      RegsBut [rHDM_LINK, rHDM_INT_STATUS, rSCH_PORT_RATE 64] s t ∧ SameBut [.regs, .bar4, .out] s t)) ∧
  -- HOST_INTERFACE_RESET with no frame of the host in the device
  (∀ (s : State), s.modeCode ≠ mBivouac → s.frames = [] → s.copies = [] →
    Runs (.hostInterfaceReset false) s (fun t => t.bar4 = [] ∧ t.dma = [] ∧ t.rings = [] ∧ (∀ o, hdmReg o = true → t.rd o = resetWord o) ∧
      (∀ o, hdmReg o = false → o ≠ rCRN_STATUS → o ≠ rTLY_SNAP_STATUS → t.rd o = s.rd o) ∧ t.flag CRN_STATUS_EXPORTING = false ∧
    t.flag TLY_SNAP_STATUS_BUSY = false ∧
      SameBut [.regs, .bar4, .latch, .heldLo, .dma, .rings] s t)) ∧
  -- MSIX_UNMASK of a vector whose pending bit is set
  (∀ (s : State) (v : Nat), v < 256 → (s.rd4 (rMSIX_PBA v)).getLsbD (v % 32) = true →
    Runs (.msixUnmask v) s (fun t => t.out = .msix v s.now :: s.out ∧ (t.rd4 (rMSIX_CTL v)).getLsbD 0 = false ∧
    (t.rd4 (rMSIX_PBA v)).getLsbD (v % 32) = false ∧
      (∀ i, i < 32 → i ≠ v % 32 → (t.rd4 (rMSIX_PBA v)).getLsbD i = (s.rd4 (rMSIX_PBA v)).getLsbD i) ∧ Bar4But [rMSIX_CTL v, rMSIX_PBA v] s t ∧
    SameBut [.bar4, .out] s t)) ∧
  -- MSIX_UNMASK of a vector without it
  (∀ (s : State) (v : Nat), v < 256 → (s.rd4 (rMSIX_PBA v)).getLsbD (v % 32) = false →
    Runs (.msixUnmask v) s (fun t => (t.rd4 (rMSIX_CTL v)).getLsbD 0 = false ∧ Bar4But [rMSIX_CTL v] s t ∧ SameBut [.bar4] s t)) ∧
  -- I2C_READ of four bytes
  (∀ (s : State) (ptr : Nat), ptr ≠ 9 →
    Runs (.i2cRead ptr 4) s (fun t => t.out = .i2c (leBytes 4 (s.i2cWord ptr).toNat) :: s.out ∧ SameBut [.out] s t)) ∧
  -- I2C_WRITE of less than four bytes takes no effect
  (∀ (s : State) (ptr : Nat) (b : List Byte), b.length < 4 →
    Runs (.i2cWrite ptr b) s (fun t => t = s)) ∧
  -- I2C_WRITE of a service request to AON_MODE_REQ
  (∀ (s : State) (b : List Byte), s.asks → s.running = true → b.length = 4 → leNat b = 0xA5C30005 →
    Runs (.i2cWrite 0x04 b) s (fun t => EntersMode mService 3 s t ∧ t.getF AON_MODE_INFO_REQ_RESULT = 1 ∧ t.mode.resume = s.modeCode ∧
    RegsBut modeRegs s t ∧
      SameBut [.regs, .bar4, .out, .mode, .dramc, .age] s t)) ∧
  -- I2C_WRITE of the wake register
  (∀ (s : State) (b : List Byte), s.modeCode = mBivouac → s.mode.porst = false → s.flag AON_WAKE_CFG_I2C_EN = true → b.length = 4 →
    b.head? = some 0xA5 →
    Runs (.i2cWrite 0x0C b) s (fun t => Wakes s t ∧ t.flag AON_WAKE_CAUSE_I2C = true))

/-! ### Faults, ageing, cairns and tallies -/

/-- The fault family.  The first clauses say what FAULT_EVENT does in each case of R455 and R457: minor, shadowed, severe in an idle group (a belay,
nothing more), severe in a busy group, class C0, class C4.  The message that repeats is that of the entry to Hold; in a Hold the host commanded it
names open values (the model's choice, assumption log 5). -/
def Obligations.FaultEventsAreCounted : Prop :=
  -- FAULT_EVENT, minor: counted, and the window count moves on
  (∀ (s : State) (src : Nat) (u : FUnit) (v : Option Look), s.reaches src u v → s.quiet src →
    Runs (.faultEvent src ⟨u, v⟩) s (fun t => Minor src [] s t ∧ t.getF (FLT_SRC_STATE_WIN_COUNT src) = (if s.getF (FLT_SRC_STATE_WIN_COUNT src) = 0 ∨
        (s.flt.winStart.lookup src).getD 0 + tUs (s.getF (FLT_SRC_CFG_W_US src)) ≤ s.now then 1 else s.getF (FLT_SRC_STATE_WIN_COUNT src) + 1) ∧
      SameBut [.regs, .flt] s t)) ∧
  -- FAULT_EVENT of an uncorrectable buffer line that a copy in transmission meets: it is tail-marked, and the event counts
  (∀ (s : State) (src fid p : Nat) (u : FUnit) (c : Copy), s.detects src → 247 ≤ src ∧ src ≤ 262 → s.quiet src → s.copy fid p = some c →
    c.started = true → s.threads.all (fun th => th.target != .copy fid p) = true →
    Runs (.faultEvent src ⟨u, some (.copy fid p)⟩) s (fun t => t.copy fid p = some { c with tailMark := true } ∧ CopiesBut fid p s t ∧
    Minor src [] s t ∧ SameBut [.regs, .flt, .copies] s t)) ∧
  -- FAULT_EVENT of a power-gated unit: nothing
  (∀ (s : State) (src : Nat) (u : FUnit) (v : Option Look), s.gatedSource src u = true →
    Runs (.faultEvent src ⟨u, v⟩) s (fun t => t = s)) ∧
  -- FAULT_EVENT of an uncorrectable ROM word under a task's thread: the thread aborts with cause 4, and the task waits again
  (∀ (s : State) (sl i k : Nat) (u : FUnit) (th : Thread), s.detects 117 → s.quiet 117 → s.thread 16 sl = some th → th.target = .task k → sl < 64 →
    th.pc < 65536 → th.patched = false →
    Runs (.faultEvent 117 ⟨u, some (.thread 16 sl i)⟩) s (fun t => t.thread 16 sl = none ∧ t.tasks = s.tasks ++ [k] ∧
    CountedBy (HSQ_ABORT_CNT_COUNT 16) 1 s t ∧ t.getF (HSQ_ABORT_INFO_ADDR 16) = th.pc ∧
      t.getF (HSQ_ABORT_INFO_CAUSE 16) = 4 ∧ t.getF (HSQ_ABORT_INFO_THREAD 16) = sl ∧ t.flag (HSQ_ABORT_INFO_VALID 16) = true ∧
      CountedBy (FLT_SRC_CNT_EVENTS 117) 1 s t)) ∧
  -- FAULT_EVENT of a shadowed source
  (∀ (s : State) (src : Nat) (u : FUnit) (v : Option Look) (r : Reaction), s.reaches src u v → s.shadowOf src = some r →
    Runs (.faultEvent src ⟨u, v⟩) s (fun t => CountedBy (FLT_SRC_CONSEQ_COUNT src) 1 s t ∧ CountedBy FLT_CONSEQ_CNT_COUNT 1 s t ∧
    t.flt.reactions = s.flt.reactions ∧ t.flt.belay = s.flt.belay ∧
      RegsBut [rFLT_SRC_CONSEQ src, rFLT_CONSEQ_CNT, rCRN_DROPPED, rCRN_INT_STATUS] s t ∧ SameBut [.regs, .bar4, .out, .flt, .crn] s t)) ∧
  -- FAULT_EVENT, severe, in an idle group of class C1 to C3: the belay begins, and no reaction
  (∀ (s : State) (src g : Nat) (u : FUnit) (v : Option Look), s.reaches src u v → s.severeNow src → g = groupOf src →
    s.getF (FLT_GRP_STATUS_STATE g) = 0 → 1 ≤ s.getF (FLT_GRP_CFG_CLASS g) → s.getF (FLT_GRP_CFG_CLASS g) ≤ 3 →
    (s.flt.shadowEnd.lookup src).all (fun e => decide (e.1 + tMs 100 ≤ s.now)) = true → s.rivalBelay g (eventUnit src u) = none →
    Runs (.faultEvent src ⟨u, v⟩) s (fun t => t.getF (FLT_GRP_STATUS_STATE g) = 1 ∧ t.getF (FLT_GRP_STATUS_LAST_SOURCE g) = src ∧
    t.getF (FLT_GRP_STATUS_ACKED g) = 0 ∧
      (t.getF (if g < 32 then FLT_PENDING_LO_GROUPS else FLT_PENDING_HI_GROUPS)).testBit (g % 32) = true ∧
      (t.getF (if g < 32 then FLT_SEVERE_LO_GROUPS else FLT_SEVERE_HI_GROUPS)).testBit (g % 32) = true ∧
      t.flt.belay.lookup g = some (s.now + tUs (s.getF (FLT_GRP_CFG_BELAY_US g))) ∧ t.flt.reactions = s.flt.reactions ∧
      t.flt.sevUnit.lookup g = some (eventUnit src u) ∧ t.flt.sevNs.lookup g = some s.localNs ∧ CountedBy (FLT_SRC_CNT_EVENTS src) 1 s t ∧
    CountedBy (FLT_GRP_SEVERE_COUNT g) 1 s t ∧ t.getF (FLT_SRC_STATE_WIN_COUNT src) = 0 ∧
      RegsBut [rFLT_SRC_CNT src, rFLT_SRC_STATE src, rFLT_GRP_SEVERE g, rFLT_GRP_STATUS g, rFLT_PENDING_LO, rFLT_PENDING_HI, rFLT_SEVERE_LO,
    rFLT_SEVERE_HI] s t ∧
      SameBut [.regs, .bar4, .out, .flt] s t)) ∧
  -- FAULT_EVENT, severe, in a group whose belay, reaction or shadow lasts: counted only
  (∀ (s : State) (src g : Nat) (u : FUnit) (v : Option Look), s.reaches src u v → s.severeNow src → g = groupOf src →
    s.getF (FLT_GRP_STATUS_STATE g) ≠ 0 → s.getF (FLT_GRP_CFG_CLASS g) ≤ 3 →
    Runs (.faultEvent src ⟨u, v⟩) s (fun t => CountedBy (FLT_SRC_CNT_EVENTS src) 1 s t ∧ CountedBy (FLT_GRP_SEVERE_COUNT g) 1 s t ∧
    t.getF (FLT_SRC_STATE_WIN_COUNT src) = 0 ∧
      t.flt.belay = s.flt.belay ∧ t.flt.reactions = s.flt.reactions ∧
      RegsBut [rFLT_SRC_CNT src, rFLT_SRC_STATE src, rFLT_GRP_SEVERE g] s t ∧ SameBut [.regs, .flt] s t)) ∧
  -- FAULT_EVENT, severe, of class C0: recorded and closed at once
  (∀ (s : State) (src g : Nat) (u : FUnit) (v : Option Look), s.reaches src u v → s.severeNow src → g = groupOf src →
    s.getF (FLT_GRP_STATUS_STATE g) = 0 → s.getF (FLT_GRP_CFG_CLASS g) = 0 →
    Runs (.faultEvent src ⟨u, v⟩) s (fun t => t.getF (FLT_GRP_STATUS_STATE g) = 0 ∧ t.getF (FLT_GRP_STATUS_LAST_SOURCE g) = src ∧
    CountedBy (FLT_GRP_SEVERE_COUNT g) 1 s t ∧
      t.flt.belay = s.flt.belay ∧ t.flt.reactions = s.flt.reactions ∧
      RegsBut [rFLT_SRC_CNT src, rFLT_SRC_STATE src, rFLT_GRP_SEVERE g, rFLT_GRP_STATUS g, rFLT_SEVERE_LO, rFLT_SEVERE_HI] s t ∧
      SameBut [.regs, .bar4, .out, .flt] s t)) ∧
  -- FAULT_EVENT, severe, of class C4, in a device without frames: Hold, and the cause is latched
  (∀ (s : State) (src g : Nat) (u : FUnit) (v : Option Look), s.reaches src u v → s.severeNow src → g = groupOf src →
    s.getF (FLT_GRP_CFG_CLASS g) = 4 → s.frames = [] → s.copies = [] →
    Runs (.faultEvent src ⟨u, v⟩) s (fun t => EntersMode mHold 5 s t ∧ t.flag AON_MODE_INFO_C4_LATCH = true ∧ t.flag FLT_C4_CAUSE_VALID = true ∧
    t.flt.holdMsg.take 4 = [4, BitVec.ofNat 8 (s.getF TWN_STATUS_VIRAM), BitVec.ofNat 8 g, 0x14] ∧ t.flt.reactions = [] ∧ t.flt.belay = [] ∧
      t.getF FLT_C4_CAUSE_SOURCE = (if s.flag FLT_C4_CAUSE_VALID && s.flag AON_MODE_INFO_C4_LATCH then s.getF FLT_C4_CAUSE_SOURCE else src) ∧
      t.getF (FLT_GRP_STATUS_ACTION g) = 4 ∧
      RegsBut ([rFLT_SRC_CNT src, rFLT_SRC_STATE src, rFLT_GRP_SEVERE g, rFLT_GRP_REACTIONS g, rFLT_PENDING_LO, rFLT_PENDING_HI, rFLT_SEVERE_LO,
        rFLT_SEVERE_HI, rFLT_STATUS, rFLT_C4_CAUSE] ++ (List.range 48).map rFLT_GRP_STATUS ++ modeRegs ++ isoRegs) s t ∧
      SameBut [.regs, .bar4, .out, .flt, .mode, .dramc, .age] s t)) ∧
  -- FAULT_ACK_HANDLED in a belay: no reaction; the group is idle and ACKED
  (∀ (s : State) (g : Nat), g < 48 → s.modeCode ≠ mBivouac → s.getF (FLT_GRP_STATUS_STATE g) = 1 →
    Runs (.faultAckHandled g) s (fun t => t.getF (FLT_GRP_STATUS_STATE g) = 0 ∧ t.getF (FLT_GRP_STATUS_ACKED g) = 1 ∧ t.flt.belay.lookup g = none ∧
    t.flt.reactions = s.flt.reactions ∧
      (t.getF (if g < 32 then FLT_PENDING_LO_GROUPS else FLT_PENDING_HI_GROUPS)).testBit (g % 32) = false ∧
      RegsBut [rFLT_GRP_STATUS g, rFLT_PENDING_LO, rFLT_PENDING_HI, rCRN_DROPPED, rCRN_INT_STATUS] s t ∧
    SameBut [.regs, .bar4, .out, .flt, .crn] s t)) ∧
  -- FAULT_ACK_HANDLED in any other STATE: an event of FG31
  (∀ (s : State) (g : Nat), s.getF (FLT_GRP_STATUS_STATE g) ≠ 1 → s.quiet srcHostOther →
    Runs (.faultAckHandled g) s (fun t => Minor srcHostOther [] s t ∧ SameBut [.regs, .flt] s t)) ∧
  -- FAULT_ACK_REACT in any other STATE: an event of FG31
  (∀ (s : State) (g : Nat), s.getF (FLT_GRP_STATUS_STATE g) ≠ 1 → s.quiet srcHostOther →
    Runs (.faultAckReact g) s (fun t => Minor srcHostOther [] s t ∧ SameBut [.regs, .flt] s t)) ∧
  -- FAULT_ACK_REACT in a belay of a tile's group of class C1, with no other belay or reaction: the reaction starts
  (∀ (s : State) (g src d : Nat), g < 48 → s.modeCode ≠ mBivouac → s.getF (FLT_GRP_STATUS_STATE g) = 1 → s.getF (FLT_GRP_CFG_CLASS g) = 1 →
    s.getF (FLT_GRP_STATUS_LAST_SOURCE g) = src → 128 ≤ src ∧ src ≤ 151 → s.isIso (.tile ((src - 128) / 6)) = false →
    (s.flt.sevUnit.lookup g).getD (.tile ((src - 128) / 6)) = .tile ((src - 128) / 6) → s.flt.belay = [(g, d)] → s.flt.reactions = [] →
    Runs (.faultAckReact g) s (fun t => t.getF (FLT_GRP_STATUS_STATE g) = 2 ∧ t.getF (FLT_GRP_STATUS_ACTION g) = 1 ∧
    t.flag FLT_STATUS_SHADOW = true ∧ t.getF FLT_STATUS_LAST_GROUP = g ∧
      t.getF FLT_STATUS_LAST_CLASS = 1 ∧ CountedBy (FLT_GRP_REACTIONS_COUNT g) 1 s t ∧ t.flt.belay = [] ∧
      t.flt.reactions =
    [{ group := g, source := src, cls := 1, unit := .tile ((src - 128) / 6), escalated := false, start := s.now, evNs := (s.flt.sevNs.lookup g).getD s.localNs, lanes := [], quads := [], done := none }] ∧
      RegsBut [rFLT_GRP_STATUS g, rFLT_GRP_REACTIONS g, rFLT_STATUS, rFLT_PENDING_LO, rFLT_PENDING_HI, rCRN_DROPPED, rCRN_INT_STATUS] s t ∧
      SameBut [.regs, .bar4, .out, .flt, .crn] s t)) ∧
  -- BELAY_EXPIRY: the same reaction starts once the deadline has passed
  (∀ (s : State) (g src d : Nat), g < 48 → s.modeCode ≠ mBivouac → s.getF (FLT_GRP_STATUS_STATE g) = 1 → s.getF (FLT_GRP_CFG_CLASS g) = 1 →
    s.getF (FLT_GRP_STATUS_LAST_SOURCE g) = src → 128 ≤ src ∧ src ≤ 151 → s.isIso (.tile ((src - 128) / 6)) = false →
    (s.flt.sevUnit.lookup g).getD (.tile ((src - 128) / 6)) = .tile ((src - 128) / 6) → s.flt.belay = [(g, d)] → d ≤ s.now → s.flt.reactions = [] →
    Runs (.belayExpiry g) s (fun t => t.getF (FLT_GRP_STATUS_STATE g) = 2 ∧ t.getF (FLT_GRP_STATUS_ACTION g) = 1 ∧ t.flt.belay = [] ∧
      t.flt.reactions =
    [{ group := g, source := src, cls := 1, unit := .tile ((src - 128) / 6), escalated := false, start := s.now, evNs := (s.flt.sevNs.lookup g).getD s.localNs, lanes := [], quads := [], done := none }] ∧ CountedBy (FLT_GRP_REACTIONS_COUNT g) 1 s t ∧
      RegsBut [rFLT_GRP_STATUS g, rFLT_GRP_REACTIONS g, rFLT_STATUS, rFLT_PENDING_LO, rFLT_PENDING_HI, rCRN_DROPPED, rCRN_INT_STATUS] s t ∧
      SameBut [.regs, .bar4, .out, .flt, .crn] s t)) ∧
  -- BELAY_EXPIRY before the deadline: nothing
  (∀ (s : State) (g d : Nat), s.flt.belay.lookup g = some d → s.now < d →
    Runs (.belayExpiry g) s (fun t => t = s)) ∧
  -- REACTION_COMPLETE of a tile repair: its settle time begins
  (∀ (s : State) (g q : Nat) (r : Reaction), g < 48 → s.reactionOf g = some r → r.done = none → r.cls = 1 → r.unit = .tile q →
    s.mode.parkWaits = false →
    Runs (.reactionComplete g) s (fun t => t.getF (FLT_GRP_STATUS_STATE g) = 3 ∧ t.reactionOf g = some { r with done := some s.now } ∧
    RegsBut [rFLT_GRP_STATUS g] s t ∧ SameBut [.regs, .flt] s t)) ∧
  -- REACTION_COMPLETE of an isolation: the END message goes out
  (∀ (s : State) (g b : Nat) (r : Reaction), g < 48 → s.reactionOf g = some r → r.done = none → r.cls = 2 → r.unit = .bankGroup b →
    s.mode.parkWaits = false → s.getF TWN_STATUS_LANES ≠ 0 →
    Runs (.reactionComplete g) s (fun t => t.getF (FLT_GRP_STATUS_STATE g) = 3 ∧
    t.out = .rope (s.safetyMsg g 2 true false r.source (.bankGroup b) r.evNs) :: s.out ∧
      t.reactionOf g = some { r with done := some s.now } ∧ RegsBut [rFLT_GRP_STATUS g] s t ∧ SameBut [.regs, .out, .flt] s t)) ∧
  -- REACTION_TIMEOUT within the bound: nothing
  (∀ (s : State) (g : Nat) (r : Reaction), s.reactionOf g = some r → s.now < r.start + tUs (reactionBound r.cls) →
    Runs (.reactionTimeout g) s (fun t => t = s)) ∧
  -- REACTION_TIMEOUT of the repair of a lane without a port: escalated to its isolation, without a belay
  (∀ (s : State) (g c : Nat) (r : Reaction), g < 48 → s.modeCode = mAbseil → s.flt.reactions = [r] → r.group = g → r.done = none → r.cls = 1 →
    r.unit = .lane c → escalates r.source = true → r.start + tUs 25 ≤ s.now → s.isIso (.lane c) = false → s.lanes = [] → s.flt.belay = [] →
    Runs (.reactionTimeout g) s (fun t => t.flt.reactions =
    [{ group := g, source := r.source, cls := 2, unit := .lane c, escalated := true, start := s.now, evNs := (s.flt.sevNs.lookup g).getD s.localNs, lanes := [c], quads := [], done := none }] ∧ t.getF (FLT_GRP_STATUS_STATE g) = 2 ∧ t.getF (FLT_GRP_STATUS_ACTION g) = 2 ∧
      CountedBy (FLT_GRP_REACTIONS_ESCALATED g) 1 s t ∧ CountedBy FLT_ESCAL_CNT_COUNT 1 s t ∧ CountedBy (FLT_GRP_REACTIONS_COUNT g) 1 s t ∧
      t.isIso (.lane c) = true ∧ t.mode = (if s.faultN then s.mode else { s.mode with faultUntil := s.now + tUs 10 }) ∧
      RegsBut [rFLT_GRP_STATUS g, rFLT_GRP_REACTIONS g, rFLT_ESCAL_CNT, rFLT_STATUS, rFLT_PENDING_LO, rFLT_PENDING_HI, rCRN_DROPPED,
    rCRN_INT_STATUS] s t ∧
      SameBut [.regs, .bar4, .out, .flt, .crn, .mode] s t)) ∧
  -- SHADOW_END after the settle time: the group is idle, and the end of the shadow is remembered
  (∀ (s : State) (g d : Nat) (r : Reaction), g < 48 → s.reactionOf g = some r → r.done = some d → d + tUs 20 ≤ s.now →
    Runs (.shadowEnd g) s (fun t => t.getF (FLT_GRP_STATUS_STATE g) = 0 ∧ t.flt.reactions = s.flt.reactions.filter (fun x => x.group != g) ∧
    t.flt.shadowEnd.lookup r.source = some (s.now, r.cls) ∧
      t.flag FLT_STATUS_SHADOW = !t.flt.reactions.isEmpty ∧ RegsBut [rFLT_GRP_STATUS g, rFLT_PENDING_LO, rFLT_PENDING_HI, rFLT_STATUS] s t ∧
      SameBut [.regs, .flt] s t)) ∧
  -- SHADOW_END before it: nothing
  (∀ (s : State) (g d : Nat) (r : Reaction), s.reactionOf g = some r → r.done = some d → s.now < d + tUs 20 →
    Runs (.shadowEnd g) s (fun t => t = s)) ∧
  -- FAULT_INJECT with INJ_EN = 1: an event of the source as if it had been detected
  (∀ (s : State) (src : Nat), s.flag FLT_CTL_INJ_EN = true → src < 412 → s.quiet src → s.injectUnit src = (s, (s.injectUnit src).2) →
    s.gatedSource src (s.injectUnit src).2 = false →
    Runs (.faultInject src) s (fun t => Minor src [] s t ∧ SameBut [.regs, .flt] s t)) ∧
  -- FAULT_INJECT with INJ_EN = 0: ignored, an event of FG31
  (∀ (s : State) (src : Nat), s.flag FLT_CTL_INJ_EN = false → s.quiet srcHostOther →
    Runs (.faultInject src) s (fun t => Minor srcHostOther [] s t ∧ SameBut [.regs, .flt] s t)) ∧
  -- PROBE_SEND: a probe returns from each quadrant that can carry it
  (∀ (s : State), 
    Runs (.probeSend) s (fun t => (∀ q, q < 4 → t.flt.probeAt.lookup q = if s.probeReturns q then some s.now else s.flt.probeAt.lookup q) ∧
      t.flt = { s.flt with probeAt := t.flt.probeAt } ∧ SameBut [.flt] s t)) ∧
  -- QUADRANT_HEARTBEAT_TIMEOUT: the quadrant's FG24 source fires
  (∀ (s : State) (q : Nat), q < 4 → s.quadPowered q = true → (s.getF FLT_ISO_QUAD).testBit q = false →
    (s.flt.probeAt.lookup q).getD 0 + tUs 100 ≤ s.now → s.quiet (277 + q) →
    Runs (.quadrantHeartbeatTimeout q) s (fun t => Minor (277 + q) [] s t ∧ SameBut [.regs, .flt] s t)) ∧
  -- QUADRANT_HEARTBEAT_TIMEOUT while probes return: nothing
  (∀ (s : State) (q : Nat), s.now < (s.flt.probeAt.lookup q).getD 0 + tUs 100 →
    Runs (.quadrantHeartbeatTimeout q) s (fun t => t = s)) ∧
  -- RWL_CRC_CHECK that finds one powered quadrant changed
  (∀ (s : State) (q : Nat), q < 4 → s.isSealed = true → s.quadPowered q = true → s.quiet (396 + q) →
    Runs (.rwlCrcCheck (2 ^ q)) s (fun t => Minor (396 + q) [] s t ∧ SameBut [.regs, .flt] s t)) ∧
  -- RWL_CRC_CHECK that finds nothing changed
  (∀ (s : State), 
    Runs (.rwlCrcCheck 0) s (fun t => t = s)) ∧
  -- HOLD_SAFETY_REPEAT: the message of the Hold goes out again
  (∀ (s : State), s.modeCode = mHold → s.flt.holdMsg.head? = some 4 → s.getF TWN_STATUS_LANES ≠ 0 →
    Runs (.holdSafetyRepeat) s (fun t => t.out = .rope s.flt.holdMsg :: s.out ∧ SameBut [.out] s t)) ∧
  -- HOLD_SAFETY_REPEAT outside Hold: nothing
  (∀ (s : State), s.modeCode ≠ mHold →
    Runs (.holdSafetyRepeat) s (fun t => t = s))

/-- The ageing family.  The core target of a reading is BASE_MV and 10 mV for each 1.00 % of slowdown, rounded up to 5 mV and kept within the window. -/
def Obligations.MarginsAreReplanned : Prop :=
  -- REPLAN_INTERVAL in a mode that allows a re-plan
  (∀ (s : State) (base : Nat), s.modeCode = mPaired ∨ s.modeCode = mSolo ∨ s.modeCode = mAbseil ∨ s.modeCode = mService → s.img.isSome = true →
    s.lastKind 4 = base → base + 3600 * s.getF AGE_CFG_INTERVAL_H ≤ s.opSec → s.age.firedFor ≠ some base → s.flag AGE_CTL_REPLAN_EN = true →
    s.flag AGE_STATUS_RUNNING = false → s.mode.park = 0 →
    Runs (.replanInterval) s (fun t => t.flag AGE_STATUS_RUNNING = true ∧ t.getF AGE_STATUS_STEP = 1 ∧ t.flag AGE_STATUS_PENDING = false ∧
    t.age = { s.age with firedFor := some base } ∧
      RegsBut [rAGE_STATUS] s t ∧ SameBut [.regs, .age] s t)) ∧
  -- REPLAN_INTERVAL before it is due
  (∀ (s : State), s.opSec < s.lastKind 4 + 3600 * s.getF AGE_CFG_INTERVAL_H →
    Runs (.replanInterval) s (fun t => t = s)) ∧
  -- TEMP_EXCURSION outside the limits: reported and recorded
  (∀ (s : State) (n : Nat) (x : Int), s.modeCode ≠ mBivouac → n < 8 → s.img.isSome = true → x < signedOf 8 (s.getF AGE_CFG_T_LOW) ∨
    signedOf 8 (s.getF AGE_CFG_T_HIGH) < x →
    Runs (.tempExcursion n x) s (fun t => t.flag AGE_STATUS_EXCURSION = true ∧ t.flag AGE_INT_STATUS_EXCURSION = true ∧
    t.age = { s.age with hot := true } ∧
      RegsBut [rAGE_STATUS, rAGE_INT_STATUS, rCRN_DROPPED, rCRN_INT_STATUS] s t ∧ SameBut [.regs, .bar4, .out, .crn, .age] s t)) ∧
  -- TEMP_EXCURSION within the limits: nothing
  (∀ (s : State) (n : Nat) (x : Int), signedOf 8 (s.getF AGE_CFG_T_LOW) ≤ x → x ≤ signedOf 8 (s.getF AGE_CFG_T_HIGH) →
    Runs (.tempExcursion n x) s (fun t => t = s)) ∧
  -- EXCURSION_RECOVERED
  (∀ (s : State), s.modeCode = mPaired ∨ s.modeCode = mSolo ∨ s.modeCode = mAbseil ∨ s.modeCode = mService → s.age.hot = true →
    s.flag AGE_CTL_REPLAN_EN = true → s.flag AGE_STATUS_RUNNING = false → s.mode.park = 0 →
    Runs (.excursionRecovered) s (fun t => t.flag AGE_STATUS_RUNNING = true ∧ t.getF AGE_STATUS_STEP = 1 ∧ t.flag AGE_STATUS_PENDING = false ∧
    t.age = { s.age with hot := false } ∧
      RegsBut [rAGE_STATUS] s t ∧ SameBut [.regs, .age] s t)) ∧
  -- REPLAN_AFTER_ENTRY
  (∀ (s : State), s.modeCode = mPaired ∨ s.modeCode = mSolo ∨ s.modeCode = mAbseil ∨ s.modeCode = mService → s.age.entryDue = true →
    s.flag AGE_CTL_REPLAN_EN = true → s.flag AGE_STATUS_RUNNING = false → s.mode.park = 0 →
    Runs (.replanAfterEntry) s (fun t => t.flag AGE_STATUS_RUNNING = true ∧ t.getF AGE_STATUS_STEP = 1 ∧ t.flag AGE_STATUS_PENDING = false ∧
    t.age = { s.age with entryDue := false } ∧
      RegsBut [rAGE_STATUS] s t ∧ SameBut [.regs, .age] s t)) ∧
  -- AGE_RUN starts a re-plan
  (∀ (s : State), s.modeCode = mPaired ∨ s.modeCode = mSolo ∨ s.modeCode = mAbseil ∨ s.modeCode = mService → s.flag AGE_CTL_REPLAN_EN = true →
    s.flag AGE_STATUS_RUNNING = false → s.mode.park = 0 →
    Runs (.ageRun) s (fun t => t.flag AGE_STATUS_RUNNING = true ∧ t.getF AGE_STATUS_STEP = 1 ∧ t.flag AGE_STATUS_PENDING = false ∧
    RegsBut [rAGE_STATUS] s t ∧ SameBut [.regs] s t)) ∧
  -- AGE_RUN where no re-plan may start now: it waits
  (∀ (s : State), (s.modeCode ≠ mPaired ∧ s.modeCode ≠ mSolo ∧ s.modeCode ≠ mAbseil ∧ s.modeCode ≠ mService) ∨ s.flag AGE_STATUS_RUNNING = true ∨
    s.mode.park ≠ 0 → s.flag AGE_CTL_REPLAN_EN = true →
    Runs (.ageRun) s (fun t => t.flag AGE_STATUS_PENDING = true ∧ t.flag AGE_STATUS_RUNNING = s.flag AGE_STATUS_RUNNING ∧
    t.getF AGE_STATUS_STEP = s.getF AGE_STATUS_STEP ∧
      RegsBut [rAGE_STATUS] s t ∧ SameBut [.regs] s t)) ∧
  -- AGE_RUN with REPLAN_EN = 0: nothing
  (∀ (s : State), s.flag AGE_CTL_REPLAN_EN = false →
    Runs (.ageRun) s (fun t => t = s)) ∧
  -- RO_READ of one oscillator, between re-plans, within the window: reported, and only a higher target counts
  (∀ (s : State) (r : RoReading) (v : Nat), s.modeCode ≠ mBivouac → s.img.isSome = true → r.ro < 64 → s.measured (roUnit r.ro) = true →
    -3000 ≤ r.slow ∧ r.slow ≤ 3000 → s.flag AGE_STATUS_RUNNING = false → v = s.clampMv (coreTarget (s.getF AGE_CORE_BASE_MV) (max 0 r.slow).toNat) →
    coreTarget (s.getF AGE_CORE_BASE_MV) (max 0 r.slow).toNat ≤ s.getF AGE_AVS_WIN_MAX_MV →
    Runs (.roRead [r]) s (fun t => t.getF (AGE_RO_FREQ_MHZ r.ro) = min 65535 r.freq ∧ (t.getF (AGE_RO_DEG r.ro) : Int) = max 0 r.slow ∧
    t.getF AGE_CORE_WORST_RO = r.ro ∧
      (t.getF AGE_CORE_WORST_DEG : Int) = max 0 r.slow ∧ t.flag AGE_STATUS_VCORE_LIMIT = false ∧
      t.age = { s.age with goal := if s.age.goal.getD s.age.vcore < v ∧ s.modeCode ≠ mHold then some v else s.age.goal } ∧
      RegsBut [rAGE_RO r.ro, rAGE_CORE, rAGE_STATUS] s t ∧ SameBut [.regs, .age] s t)) ∧
  -- RO_READ of a reading more than 30 % from its baseline: an error, and discarded
  (∀ (s : State) (r : RoReading), s.modeCode ≠ mBivouac → s.img.isSome = true → r.ro < 64 → s.measured (roUnit r.ro) = true → r.slow < -3000 ∨
    3000 < r.slow → s.quiet 392 →
    Runs (.roRead [r]) s (fun t => Minor 392 [] s t ∧ SameBut [.regs, .flt] s t)) ∧
  -- AVS_STEP that the regulator takes, not the last one
  (∀ (s : State) (g v : Nat) (f : Bool), s.age.goal = some g → s.age.nackAt = none → s.modeCode ≠ mHold → s.age.stepAt + tUs 100 ≤ s.now →
    nextMv s.age.vcore g ≠ g →
    Runs (.avsStep true v f) s (fun t => t.out = .pmbus 1 0x21 (nextMv s.age.vcore g) :: s.out ∧
    t.getF AGE_AVS_TARGET_MV = nextMv s.age.vcore g % 1024 ∧
      t.age = { s.age with vcore := nextMv s.age.vcore g, stepAt := s.now } ∧ RegsBut [rAGE_AVS] s t ∧ SameBut [.regs, .out, .age] s t)) ∧
  -- AVS_STEP, the last one, with a good reading: the goal is reached
  (∀ (s : State) (g v : Nat), s.age.goal = some g → s.age.nackAt = none → s.modeCode ≠ mHold → s.age.stepAt + tUs 100 ≤ s.now →
    nextMv s.age.vcore g = g → s.getF AGE_AVS_WIN_MIN_MV ≤ v + 10 ∧ v ≤ s.getF AGE_AVS_WIN_MAX_MV + 10 →
    Runs (.avsStep true v false) s (fun t => t.getF AGE_AVS_TARGET_MV = g % 1024 ∧ t.getF AGE_AVS_READ_MV = min 1023 v ∧
    t.age = { s.age with vcore := g, goal := none, stepAt := s.now } ∧
      t.getF AGE_STATUS_STEP = (if s.atStep 2 then 3 else s.getF AGE_STATUS_STEP) ∧ Out.pmbus 1 0x8B 0 ∈ t.out ∧
      RegsBut [rAGE_AVS, rAGE_STATUS] s t ∧ SameBut [.regs, .out, .age] s t)) ∧
  -- AVS_STEP that the regulator refuses
  (∀ (s : State) (g v : Nat) (f : Bool), s.age.goal = some g → s.age.nackAt = none → s.modeCode ≠ mHold → s.age.stepAt + tUs 100 ≤ s.now →
    Runs (.avsStep false v f) s (fun t => t.age = { s.age with nackAt := some s.now, stepAt := s.now } ∧
    t.out = .pmbus 1 0x21 (nextMv s.age.vcore g) :: s.out ∧ SameBut [.out, .age] s t)) ∧
  -- PMBUS_NACK_RETRY that the regulator takes, not the last step
  (∀ (s : State) (g n v : Nat) (f : Bool), s.age.goal = some g → s.age.nackAt = some n → n + tMs 1 ≤ s.now → nextMv s.age.vcore g ≠ g →
    Runs (.pmbusNackRetry true v f) s (fun t => t.out = .pmbus 1 0x21 (nextMv s.age.vcore g) :: s.out ∧
    t.getF AGE_AVS_TARGET_MV = nextMv s.age.vcore g % 1024 ∧
      t.age = { s.age with vcore := nextMv s.age.vcore g, stepAt := s.now, nackAt := none } ∧ RegsBut [rAGE_AVS] s t ∧
    SameBut [.regs, .out, .age] s t)) ∧
  -- PMBUS_NACK_RETRY refused again: source 393, and the voltage stays
  (∀ (s : State) (g n v : Nat) (f : Bool), s.age.goal = some g → s.age.nackAt = some n → n + tMs 1 ≤ s.now → s.quiet 393 →
    Runs (.pmbusNackRetry false v f) s (fun t => Minor 393 [rAGE_STATUS] s t ∧ t.age = { s.age with goal := none, nackAt := none, stepAt := s.now } ∧
      t.getF AGE_STATUS_STEP = (if s.atStep 2 then 3 else s.getF AGE_STATUS_STEP) ∧ t.out = .pmbus 1 0x21 (nextMv s.age.vcore g) :: s.out ∧
      SameBut [.regs, .out, .flt, .age] s t)) ∧
  -- EYE_READ of a lane that is up
  (∀ (s : State) (c h w : Nat), s.laneUp c = true → c < 24 ∨ (64 ≤ c ∧ c < 69) →
    Runs (.eyeRead c h w) s (fun t => t.getF (LAN_EYE_HEIGHT c) = min 65535 h ∧ t.getF (LAN_EYE_WIDTH c) = min 65535 w ∧ RegsBut [rLAN_EYE c] s t ∧
    SameBut [.regs] s t)) ∧
  -- EYE_READ of a lane that is down: it keeps its last reading
  (∀ (s : State) (c h w : Nat), s.laneUp c = false →
    Runs (.eyeRead c h w) s (fun t => t = s)) ∧
  -- REPLAN_DONE without lanes and with good margins: margins, eyes, projection, the cairn, DONE
  (∀ (s : State) (m : Margins) (e0 e1 e2 e3 : Nat × Nat), s.flag AGE_STATUS_RUNNING = true → 3 ≤ s.getF AGE_STATUS_STEP →
    s.flag AGE_STATUS_PENDING = false → s.flag DRC_STATUS_MIGRATING = false → s.lanes = [] → m.eyes = [] → m.tunes = [] → m.dram = [e0, e1, e2, e3] →
    (∀ e ∈ m.dram, s.getF AGE_DRAM_FLOOR_PS ≤ e.1 ∧ s.getF AGE_DRAM_FLOOR_PS ≤ e.2) → s.getF AGE_SRAM_FLOOR_MV + 10 ≤ m.sram ∧
    m.sram ≤ s.getF AGE_SRAM_FLOOR_MV + 40 ∧ m.sram < 256 → s.history.length < 5 →
    Runs (.replanDone m) s (fun t => t.flag AGE_STATUS_RUNNING = false ∧ t.getF AGE_STATUS_STEP = 0 ∧ CountedBy AGE_REPLANS_COUNT 1 s t ∧
    t.flag AGE_INT_STATUS_DONE = true ∧
      t.getF AGE_SRAM_MARGIN_MV = m.sram ∧ t.getF (DRC_CH_EYE_RD_PS 0) = min 65535 e0.1 ∧ t.getF (DRC_CH_EYE_WR_PS 3) = min 65535 e3.2 ∧
      t.getF AGE_MARGIN_PROJ_DAYS = 0xFFFF ∧ t.getF AGE_LANES_LOW_LO_FRONT = 0 ∧ t.getF AGE_LANES_LOW_HI_ROPE = 0 ∧
    t.flag AGE_STATUS_SRAM_LOW = false ∧
      t.flag AGE_STATUS_DRAM_LOW = false ∧ t.flag AGE_STATUS_LANE_LOW = false ∧ t.flag AGE_STATUS_PROJ_LOW = false ∧
      RegsBut [rAGE_STATUS, rAGE_SRAM, rAGE_MARGIN, rAGE_LANES_LOW_LO, rAGE_LANES_LOW_HI, rAGE_REPLANS, rAGE_INT_STATUS, rDRC_CH_EYE 0, rDRC_CH_EYE 1,
        rDRC_CH_EYE 2, rDRC_CH_EYE 3, rDRC_INT_STATUS, rCRN_DROPPED, rCRN_INT_STATUS] s t ∧ SameBut [.regs, .bar4, .out, .crn, .age, .freeCtr] s t)) ∧
  -- REPLAN_DONE without a re-plan at step 3: nothing
  (∀ (s : State) (m : Margins), s.flag AGE_STATUS_RUNNING = false ∨ s.getF AGE_STATUS_STEP < 3 →
    Runs (.replanDone m) s (fun t => t = s)) ∧
  -- PMBUS_ALERT without a fault bit
  (∀ (s : State) (n : Nat), n < 4 → s.modeCode ≠ mBivouac → s.mode.porst = false →
    Runs (.pmbusAlert n false) s (fun t => t.out = .pmbus n 0x79 0 :: s.out ∧ SameBut [.out] s t)) ∧
  -- PMBUS_ALERT with one: source 395
  (∀ (s : State) (n : Nat), n < 4 → s.modeCode ≠ mBivouac → s.mode.porst = false → s.quiet 395 →
    Runs (.pmbusAlert n true) s (fun t => Minor 395 [] s t ∧ t.out = .pmbus n 0x79 0 :: s.out ∧ SameBut [.regs, .out, .flt] s t))

/-- The cairn store's family: the write of the oldest queued cairn into the next free slot, the record interval and its samples, the export, the key,
the end of a clear, and the window. -/
def Obligations.CairnsAreKept : Prop :=
  -- CAIRN_WRITE into a free slot
  (∀ (s : State) (c : Cairn) (rest : List Cairn) (u : Nat), s.modeCode ≠ mBivouac → s.flag CRN_STATUS_CLEARING = false →
    s.flag CRN_STATUS_FULL = false → s.crn.queue = c :: rest → s.getF CRN_STATUS_USED = u → u < 65535 → u + 1 ≠ 256 * s.getF CRN_CFG_NEAR_FULL →
    (s.slotBytes u).all (· == 0) = true →
    Runs (.cairnWrite false) s (fun t => t.slotBytes u = c.body s.cairnVer ++ c.mark s.cairnVer ∧ t.getF CRN_STATUS_USED = u + 1 ∧
    t.crn.queue = rest ∧
      (∀ x, (x < 64 * u ∨ 64 * u + 64 ≤ x) → sget zeroByte t.crn.mram x = sget zeroByte s.crn.mram x) ∧
      t.crn = { s.crn with mram := t.crn.mram, queue := rest } ∧ RegsBut [rCRN_STATUS] s t ∧ SameBut [.regs, .crn] s t)) ∧
  -- CAIRN_WRITE over a slot with non-zero words: passed over
  (∀ (s : State) (u : Nat), s.modeCode ≠ mBivouac → s.flag CRN_STATUS_CLEARING = false → s.flag CRN_STATUS_FULL = false → s.crn.queue ≠ [] →
    s.getF CRN_STATUS_USED = u → u < 65535 → u + 1 ≠ 256 * s.getF CRN_CFG_NEAR_FULL → (s.slotBytes u).any (· != 0) = true →
    Runs (.cairnWrite false) s (fun t => t.getF CRN_STATUS_USED = u + 1 ∧ RegsBut [rCRN_STATUS] s t ∧ SameBut [.regs] s t)) ∧
  -- CAIRN_WRITE with a full store: the cairn is lost and counted
  (∀ (s : State) (c : Cairn) (rest : List Cairn), s.modeCode ≠ mBivouac → s.flag CRN_STATUS_CLEARING = false → s.flag CRN_STATUS_FULL = true →
    s.crn.queue = c :: rest →
    Runs (.cairnWrite false) s (fun t => CountedBy CRN_LOST_COUNT 1 s t ∧ t.crn = { s.crn with queue := rest } ∧ RegsBut [rCRN_LOST] s t ∧
    SameBut [.regs, .crn] s t)) ∧
  -- CAIRN_WRITE that fails its read-back: source 378, the slot is abandoned, the cairn waits on
  (∀ (s : State) (u : Nat), s.modeCode ≠ mBivouac → s.flag CRN_STATUS_CLEARING = false → s.flag CRN_STATUS_FULL = false → s.crn.queue ≠ [] →
    s.getF CRN_STATUS_USED = u → u < 65535 → u + 1 ≠ 256 * s.getF CRN_CFG_NEAR_FULL → (s.slotBytes u).all (· == 0) = true → s.quiet 378 →
    Runs (.cairnWrite true) s (fun t => Minor 378 [rCRN_STATUS] s t ∧ t.getF CRN_STATUS_USED = u + 1 ∧ t.crn.queue = s.crn.queue ∧
    (t.slotBytes u).drop 56 = List.replicate 8 0 ∧
      SameBut [.regs, .flt, .crn] s t)) ∧
  -- CAIRN_INTERVAL_END with no port in use: the kind-02h cairn, and the bins are clear
  (∀ (s : State), s.modeCode ≠ mBivouac → s.lastKind 2 + 3600 * max 1 (s.getF CRN_CFG_INTERVAL_H) ≤ s.opSec → s.ports = [] → s.flt.accum = [] →
    s.crn.queue.length < 256 →
    Runs (.cairnIntervalEnd) s (fun t => (t.crn.queue.getLast?).map (fun c => (c.kind, c.key, c.firstSec, c.rep)) = some (2, 0, s.opSec, 1) ∧
    t.crn.queue.dropLast = s.crn.queue ∧
      t.crn.tBins = [] ∧ t.crn.qBins = [] ∧ t.crn.tLow = 127 ∧ t.crn.tHigh = -128 ∧ t.crn.mram = s.crn.mram ∧ SameBut [.crn] s t)) ∧
  -- CAIRN_INTERVAL_END before it is due
  (∀ (s : State), s.opSec < s.lastKind 2 + 3600 * max 1 (s.getF CRN_CFG_INTERVAL_H) →
    Runs (.cairnIntervalEnd) s (fun t => t = s)) ∧
  -- CAIRN_SAMPLE_TICK
  (∀ (s : State) (n : Nat) (x : Int), s.modeCode ≠ mBivouac →
    Runs (.cairnSampleTick n x) s (fun t => t.crn.tBins.lookup (tempBin x) = some ((s.crn.tBins.lookup (tempBin x)).getD 0 + 1) ∧
    t.crn.tLow = min s.crn.tLow x ∧ t.crn.tHigh = max s.crn.tHigh x ∧
      (s.crn.tHigh < x → t.crn.tSensor = n) ∧ t.crn.queue = s.crn.queue ∧ t.crn.mram = s.crn.mram ∧ SameBut [.crn] s t)) ∧
  -- CAIRN_EXPORT starts
  (∀ (s : State), s.flag CRN_STATUS_EXPORTING = false → s.flag CRN_STATUS_CLEARING = false → s.heldLo = [] →
    Runs (.cairnExport) s (fun t => t.flag CRN_STATUS_EXPORTING = true ∧ t.getF CRN_EXPORT_DONE_SLOTS = 0 ∧
    RegsBut [rCRN_STATUS, rCRN_EXPORT_DONE] s t ∧ SameBut [.regs, .crn] s t ∧
      t.crn = { s.crn with exportAddr := s.pair rCRN_EXPORT_ADDR_LO / 64 * 64, exportNext := s.getF CRN_EXPORT_FROM_INDEX, exportEnd := s.getF CRN_STATUS_USED, exportFrom := s.getF CRN_EXPORT_FROM_INDEX })) ∧
  -- CAIRN_EXPORT while an export or a clear runs: nothing
  (∀ (s : State), s.flag CRN_STATUS_EXPORTING = true ∨ s.flag CRN_STATUS_CLEARING = true →
    Runs (.cairnExport) s (fun t => t = s)) ∧
  -- CAIRN_EXPORT_STOP of an export
  (∀ (s : State), s.flag CRN_STATUS_EXPORTING = true →
    Runs (.cairnExportStop) s (fun t => t.flag CRN_STATUS_EXPORTING = false ∧ t.flag CRN_INT_STATUS_EXPORT_DONE = true ∧
    RegsBut [rCRN_STATUS, rCRN_INT_STATUS] s t ∧ SameBut [.regs, .bar4, .out] s t)) ∧
  -- CAIRN_EXPORT_STOP without one: nothing
  (∀ (s : State), s.flag CRN_STATUS_EXPORTING = false →
    Runs (.cairnExportStop) s (fun t => t = s)) ∧
  -- CAIRN_EXPORT_DONE of the last slot
  (∀ (s : State) (i : Nat), s.flag CRN_STATUS_EXPORTING = true → s.flag (HDM_DMA_CTL_EN 14) = true → s.crn.exportNext = i → s.crn.exportEnd = i + 1 →
    s.getF CRN_EXPORT_DONE_SLOTS < 65536 →
    Runs (.cairnExportDone) s (fun t => Out.hostWrite (s.crn.exportAddr + 64 * (i - s.crn.exportFrom)) (if slotValid (s.slotBytes i) then s.slotBytes
    i else List.replicate 64 0) ∈ t.out ∧
      CountedBy CRN_SKIPPED_COUNT (if slotValid (s.slotBytes i) then 0 else 1) s t ∧ t.getF CRN_EXPORT_DONE_SLOTS = s.getF CRN_EXPORT_DONE_SLOTS + 1 ∧
      t.flag CRN_STATUS_EXPORTING = false ∧ t.flag CRN_INT_STATUS_EXPORT_DONE = true ∧ t.crn = { s.crn with exportNext := i + 1 } ∧
      RegsBut [rCRN_STATUS, rCRN_INT_STATUS, rCRN_EXPORT_DONE, rCRN_SKIPPED] s t ∧ SameBut [.regs, .bar4, .out, .crn] s t)) ∧
  -- CAIRN_EXPORT_DONE with its channel off: nothing
  (∀ (s : State), s.flag (HDM_DMA_CTL_EN 14) = false →
    Runs (.cairnExportDone) s (fun t => t = s)) ∧
  -- CAIRN_KEY_BURN in Test, the first time
  (∀ (s : State), s.modeCode = mTest → s.otp.cairnKey = none →
    Runs (.cairnKeyBurn) s (fun t => t.otp =
    { s.otp with cairnKey := some ((List.range 8).flatMap (fun n => leBytes 4 (s.getF (CRN_OTP_KEY_KEY n)))) } ∧ t.flag CRN_STATUS_KEY_SET = true ∧
      RegsBut [rCRN_STATUS] s t ∧ SameBut [.regs, .otp] s t)) ∧
  -- CAIRN_KEY_BURN again: the key stays, and the attempt is recorded
  (∀ (s : State) (k : List Byte), s.modeCode = mTest → s.otp.cairnKey = some k →
    Runs (.cairnKeyBurn) s (fun t => RegsBut [rCRN_DROPPED, rCRN_INT_STATUS] s t ∧ SameBut [.regs, .bar4, .out, .crn] s t)) ∧
  -- CAIRN_KEY_BURN outside Test: nothing
  (∀ (s : State), s.modeCode ≠ mTest →
    Runs (.cairnKeyBurn) s (fun t => t = s)) ∧
  -- CAIRN_CLEAR_DONE: slot 0 holds the Cleared cairn, every other byte is zero, CRN_LOST stays
  (∀ (s : State), s.flag CRN_STATUS_CLEARING = true →
    Runs (.cairnClearDone) s (fun t => t.getF CRN_STATUS_USED = 1 ∧ t.flag CRN_STATUS_FULL = false ∧ t.flag CRN_STATUS_CLEARING = false ∧
    t.flag CRN_INT_STATUS_CLEARED = true ∧
      (t.slotBytes 0).head? = some 0x4B ∧ slotValid (t.slotBytes 0) = true ∧ (∀ x, 64 ≤ x → sget zeroByte t.crn.mram x = 0) ∧
      RegsBut [rCRN_STATUS, rCRN_INT_STATUS] s t ∧ SameBut [.regs, .bar4, .out, .crn] s t)) ∧
  -- CAIRN_CLEAR_DONE without a clear: nothing
  (∀ (s : State), s.flag CRN_STATUS_CLEARING = false →
    Runs (.cairnClearDone) s (fun t => t = s)) ∧
  -- CAIRN_WINDOW_READ of the lower half of a word of a valid slot: its upper half is held
  (∀ (s : State) (o i : Nat), o % 8 = 0 → o < 4096 → i = s.getF CRN_CURSOR_INDEX / 64 * 64 + o / 64 → slotValid (s.slotBytes i) = true →
    Runs (.cairnWindowRead o) s (fun t => t.readData = leNat (readBytes s.crn.mram (64 * i + o % 64) 4) ∧
    t.latch.lookup (0xC01000 + o + 4) = some (BitVec.ofNat 32 (leNat (readBytes s.crn.mram (64 * i + o % 64 + 4) 4))) ∧
      SameBut [.readData, .latch] s t)) ∧
  -- CAIRN_WINDOW_READ of an upper half that is held
  (∀ (s : State) (o : Nat) (w : Word), o % 8 = 4 → o < 4092 → s.latch.lookup (0xC01000 + o) = some w →
    Runs (.cairnWindowRead o) s (fun t => t.readData = w.toNat ∧ SameBut [.readData] s t)) ∧
  -- CAIRN_WINDOW_READ of the first word of an invalid slot: zero, and counted
  (∀ (s : State) (o i : Nat), o % 64 = 0 → o < 4096 → i = s.getF CRN_CURSOR_INDEX / 64 * 64 + o / 64 → slotValid (s.slotBytes i) = false →
    Runs (.cairnWindowRead o) s (fun t => t.readData = 0 ∧ CountedBy CRN_SKIPPED_COUNT 1 s t ∧ t.latch.lookup (0xC01000 + o + 4) = some 0 ∧
    RegsBut [rCRN_SKIPPED] s t ∧
      SameBut [.regs, .readData, .latch] s t)) ∧
  -- CAIRN_WINDOW_READ at FFCh with AUTO_ADV: the cursor moves on by 64
  (∀ (s : State) (w : Word), s.flag CRN_CTL_AUTO_ADV = true → s.latch.lookup 0xC01FFC = some w →
    Runs (.cairnWindowRead 0xFFC) s (fun t => t.readData = w.toNat ∧ t.getF CRN_CURSOR_INDEX = min 65472 (s.getF CRN_CURSOR_INDEX / 64 * 64 + 64) ∧
    RegsBut [rCRN_CURSOR] s t ∧
      SameBut [.regs, .readData] s t))

/-- The tallies' family: the three clears, a snapshot's start, stop, period and end, the bandwidth window and the capture of a stream's tallies. -/
def Obligations.TalliesAreClearedAndCaptured : Prop :=
  -- CLEAR_PORTS
  (∀ (s : State), 
    Runs (.clearPorts) s (fun t => (∀ p i, p < 68 → i < 200 → t.rd (tlyOff p i) = 0 ∧ t.rd (tlyOff p i + 4) = 0) ∧ (∀ p, p < 68 →
    t.rd (rTLY_P_PEAK_RX p) = 0 ∧ t.rd (rTLY_P_PEAK_TX p) = 0) ∧
      t.rd (rTLY_CARRY_PORTS 0) = 0 ∧ t.rd (rTLY_CARRY_PORTS 1) = 0 ∧ t.rd (rTLY_CARRY_PORTS 2) = 0 ∧
      (∀ o, portTallyReg o = false → o ∉ (List.range 3).map rTLY_CARRY_PORTS → t.rd o = s.rd o) ∧ SameBut [.regs] s t)) ∧
  -- CLEAR_EVT
  (∀ (s : State), 
    Runs (.clearEvt) s (fun t => (∀ q n, q < 4 → n < 32 → t.rd (rTLY_Q_EVT_LO q n) = 0 ∧ t.rd (rTLY_Q_EVT_HI q n) = 0 ∧
    t.rd (rTLY_Q_EVT_SAMPLES q n) = 0) ∧
      (∀ o, evtTallyReg o = false → t.rd o = s.rd o) ∧ SameBut [.regs] s t)) ∧
  -- CLEAR_STRM
  (∀ (s : State), 
    Runs (.clearStrm) s (fun t => t.strm = [] ∧ t.strmCarry = [] ∧ (∀ k, k < 6 → t.rd (rTLY_STRM_CNT_LO k) = 0 ∧ t.rd (rTLY_STRM_CNT_HI k) = 0) ∧
      (∀ o, strmReg o = false → t.rd o = s.rd o) ∧ SameBut [.regs, .strm, .strmCarry] s t)) ∧
  -- SNAP_GO: captured in this cycle
  (∀ (s : State), s.flag TLY_SNAP_STATUS_BUSY = false → s.heldLo = [] →
    Runs (.snapGo) s (fun t => t.flag TLY_SNAP_STATUS_BUSY = true ∧ t.tly.seq = (s.tly.seq + 1) % 65536 ∧
      t.tly.run.map (fun r => (r.addr, r.seq, r.scope, r.ns, r.sec, r.first, r.count, r.body)) = some (s.pair rTLY_SNAP_ADDR_LO / 64 * 64, t.tly.seq,
        (s.rd rTLY_SNAP_SCOPE).toNat % 8, nsPart s.localNs, secPart s.localNs, s.getF TLY_SNAP_STRM_FIRST, s.getF TLY_SNAP_STRM_COUNT,
        s.snapBody ((s.rd rTLY_SNAP_SCOPE).toNat % 8)) ∧ RegsBut [rTLY_SNAP_STATUS] s t ∧ SameBut [.regs, .tly] s t)) ∧
  -- SNAP_GO while a record is written: skipped and counted
  (∀ (s : State), s.flag TLY_SNAP_STATUS_BUSY = true →
    Runs (.snapGo) s (fun t => CountedBy TLY_SNAP_SKIP_COUNT 1 s t ∧ t.flag TLY_INT_STATUS_SNAP_SKIP = true ∧
    RegsBut [rTLY_SNAP_SKIP, rTLY_INT_STATUS] s t ∧ SameBut [.regs, .bar4, .out] s t)) ∧
  -- SNAP_STOP
  (∀ (s : State), s.flag TLY_SNAP_STATUS_BUSY = true →
    Runs (.snapStop) s (fun t => t.flag TLY_SNAP_STATUS_BUSY = false ∧ t.tly = { s.tly with run := none } ∧ RegsBut [rTLY_SNAP_STATUS] s t ∧
    SameBut [.regs, .tly] s t)) ∧
  -- SNAP_PERIODIC when due
  (∀ (s : State) (p : Nat), s.getF TLY_CFG_SNAP_PERIOD_MS = p → p ≠ 0 → s.tly.periodAt + p * 1000000 ≤ s.localNs →
    s.flag TLY_SNAP_STATUS_BUSY = false → s.heldLo = [] →
    Runs (.snapPeriodic) s (fun t => t.flag TLY_SNAP_STATUS_BUSY = true ∧ t.tly.periodAt = s.localNs ∧ t.tly.seq = (s.tly.seq + 1) % 65536 ∧
    t.tly.run.isSome = true ∧
      RegsBut [rTLY_SNAP_STATUS] s t ∧ SameBut [.regs, .tly] s t)) ∧
  -- SNAP_PERIODIC with the period 0, or before it ends: nothing
  (∀ (s : State), s.getF TLY_CFG_SNAP_PERIOD_MS = 0 ∨ s.localNs < s.tly.periodAt + s.getF TLY_CFG_SNAP_PERIOD_MS * 1000000 →
    Runs (.snapPeriodic) s (fun t => t = s)) ∧
  -- SNAP_DONE of a record without streams: the body first, the header last
  (∀ (s : State) (r : SnapRun) (body : List Byte), s.tly.run = some r → s.flag (HDM_DMA_CTL_EN 15) = true → r.scope.testBit 2 = false →
    body = r.body.flatMap (leBytes 8) →
    Runs (.snapDone) s (fun t => (∃ l, t.out = l ++ .hostWrite r.addr (snapHeader r (crc32c body)) :: .hostWrite (r.addr + 64) body :: s.out) ∧
    t.tly = { s.tly with run := none } ∧
      t.flag TLY_SNAP_STATUS_BUSY = false ∧ t.flag TLY_SNAP_STATUS_DONE = true ∧ t.getF TLY_SNAP_STATUS_SEQ = r.seq % 65536 ∧
      t.flag TLY_INT_STATUS_SNAP_DONE = true ∧ RegsBut [rTLY_SNAP_STATUS, rTLY_INT_STATUS] s t ∧ SameBut [.regs, .bar4, .out, .tly] s t)) ∧
  -- SNAP_DONE with its channel off: nothing
  (∀ (s : State), s.flag (HDM_DMA_CTL_EN 15) = false →
    Runs (.snapDone) s (fun t => t = s)) ∧
  -- BW_WINDOW_END of a whole window: each port's rates and peaks
  (∀ (s : State) (p : Nat), p < 68 → s.tly.cut = false → s.tly.winAt / (1000 * s.winUs) < s.localNs / (1000 * s.winUs) →
    Runs (.bwWindowEnd) s (fun t => t.getF (TLY_P_BW_RX_MBPS p) = min 0xFFFFF (((s.bw.lookup p).getD (0, 0)).1 / s.winUs) ∧
      t.getF (TLY_P_BW_TX_MBPS p) = min 0xFFFFF (((s.bw.lookup p).getD (0, 0)).2 / s.winUs) ∧
      t.getF (TLY_P_PEAK_RX_MBPS p) = max (s.getF (TLY_P_PEAK_RX_MBPS p)) (t.getF (TLY_P_BW_RX_MBPS p)) ∧
      t.getF (TLY_P_PEAK_TX_MBPS p) = max (s.getF (TLY_P_PEAK_TX_MBPS p)) (t.getF (TLY_P_BW_TX_MBPS p)) ∧ t.bw = [] ∧
      t.tly = { s.tly with winAt := s.localNs / (1000 * s.winUs) * (1000 * s.winUs), cut := false } ∧
      RegsBut ((List.range 68).flatMap (fun q => [rTLY_P_BW_RX q, rTLY_P_BW_TX q, rTLY_P_PEAK_RX q, rTLY_P_PEAK_TX q])) s t ∧
    SameBut [.regs, .bw, .tly] s t)) ∧
  -- BW_WINDOW_END of a window cut short: discarded
  (∀ (s : State), s.tly.cut = true → s.tly.winAt / (1000 * s.winUs) < s.localNs / (1000 * s.winUs) →
    Runs (.bwWindowEnd) s (fun t => t.bw = [] ∧ t.tly = { s.tly with winAt := s.localNs / (1000 * s.winUs) * (1000 * s.winUs), cut := false } ∧
    SameBut [.bw, .tly] s t)) ∧
  -- BW_WINDOW_END within the window: nothing
  (∀ (s : State), s.localNs / (1000 * s.winUs) ≤ s.tly.winAt / (1000 * s.winUs) →
    Runs (.bwWindowEnd) s (fun t => t = s)) ∧
  -- STRM_SEL: the six tallies of the handle
  (∀ (s : State) (h k v : Nat), h < 65536 → k < 6 → v = (s.strm.lookup (8 * h + k)).getD 0 → v < 2 ^ 48 →
    Runs (.strmSel h) s (fun t => t.getF TLY_STRM_SEL_HANDLE = h ∧ t.getF (TLY_STRM_CNT_LO_VALUE k) + 2 ^ 32 * t.getF (TLY_STRM_CNT_HI_VALUE k) = v ∧
      t.flag (TLY_STRM_CNT_HI_CARRY k) = s.strmCarry.contains (8 * h + k) ∧
      RegsBut (rTLY_STRM_SEL :: (List.range 6).flatMap (fun j => [rTLY_STRM_CNT_LO j, rTLY_STRM_CNT_HI j])) s t ∧ SameBut [.regs] s t))

/-! ### Rules stated whole -/

/-- R3.  The DEVICE field after reset is that of one of the two variants (2400, assumption log 3). -/
def Obligations.TheDeviceIdentifiesItself : Prop :=
  rGLB_ID_LO = 0 ∧ State.reset.getF ⟨rGLB_ID_LO, 0, 16⟩ = 0xA21 ∧
  (State.reset.getF ⟨rGLB_ID_LO, 16, 16⟩ = 0x2400 ∨ State.reset.getF ⟨rGLB_ID_LO, 16, 16⟩ = 0x2416) ∧
  (∀ (s : State) (ev : Nat), exec (.readClear .bar0 0 4 ev) s = .next { s with readData := (s.rd 0).toNat }) ∧
  (∀ (s : State) (val ev : Nat), Runs (.registerWrite .bar0 0 4 val ev) s (fun t => RegsBut [] s t ∧ SameBut [.regs] s t))

/-- R554, in two clauses for the offsets inside a span and two for those outside every span. -/
def Obligations.UndefinedOffsetsReadZero : Prop :=
  -- A read inside a span
  (∀ (s : State) (o ev : Nat), undefinedAt o → inSpan o = true →
    Runs (.readClear .bar0 o 4 ev) s (fun t => t = { s with readData := 0 })) ∧
  -- A write inside a span
  (∀ (s : State) (o val ev : Nat), undefinedAt o → inSpan o = true →
    Runs (.registerWrite .bar0 o 4 val ev) s (fun t => t = s)) ∧
  -- A read outside every span
  (∀ (s : State) (o ev : Nat), o % 4 = 0 → inSpan o = false → s.quiet srcAccess →
    Runs (.readClear .bar0 o 4 ev) s (fun t => t.readData = 0 ∧ Minor srcAccess [] s t ∧ SameBut [.regs, .readData, .flt] s t)) ∧
  -- A write outside every span
  (∀ (s : State) (o val ev : Nat), o % 4 = 0 → inSpan o = false → s.quiet srcAccess →
    Runs (.registerWrite .bar0 o 4 val ev) s (fun t => Minor srcAccess [] s t ∧ SameBut [.regs, .flt] s t))

/-- R475.  The comparison with a detected event holds where a detector's event reaches the collector at all; where a source has several units,
the one injected at is open (the model's choice, assumption log 80). -/
def Obligations.InjectionPresentsAnEvent : Prop :=
  -- GO with INJ_EN = 1: the state of a detected event
  (∀ (s : State) (src val ev : Nat), s.flag FLT_CTL_INJ_EN = true → val < 2 ^ 32 → val.testBit 31 = true → val % 512 = src → s.detects src →
    Runs (.registerWrite .bar0 rFLT_INJ 4 val ev) s (fun t => (∃ u,
    exec (.faultEvent src ⟨(s.injectUnit src).2, none⟩) (s.injectUnit src).1 = .next u ∧ RegsBut [rFLT_INJ] u t ∧ SameBut [.regs] u t) ∧
      exec (.faultInject src) s = exec (.faultEvent src ⟨(s.injectUnit src).2, none⟩) (s.injectUnit src).1)) ∧
  -- GO with INJ_EN = 0
  (∀ (s : State) (val ev : Nat), s.flag FLT_CTL_INJ_EN = false → val < 2 ^ 32 → val.testBit 31 = true → s.quiet srcHostOther →
    Runs (.registerWrite .bar0 rFLT_INJ 4 val ev) s (fun t => Minor srcHostOther [rFLT_INJ] s t ∧ SameBut [.regs, .flt] s t)) ∧
  -- INJ_EN after the seal
  (∀ (s : State) (val ev : Nat), s.isSealed = true → b2n (s.flag FLT_CTL_INJ_EN) ≠ val % 2 → s.quiet srcRwl →
    Runs (.registerWrite .bar0 rFLT_CTL 4 val ev) s (fun t => t.flag FLT_CTL_INJ_EN = s.flag FLT_CTL_INJ_EN ∧ Minor srcRwl [rFLT_CTL] s t ∧
    SameBut [.regs, .flt] s t)) ∧
  -- INJ_EN before it
  (∀ (s : State) (val ev : Nat), s.isSealed = false →
    Runs (.registerWrite .bar0 rFLT_CTL 4 val ev) s (fun t => t.flag FLT_CTL_INJ_EN = decide (val % 2 = 1)))

/-- R460, over every severe event: one whose window count reaches N (R455).  The second clause leaves out the event that R464 escalates instead,
within 100 ms of the end of its source's shadow. -/
def Obligations.ABusyGroupOnlyCounts : Prop :=
  -- A group that is not idle
  (∀ (s : State) (src g : Nat) (u : FUnit) (v : Option Look), s.reaches src u v → s.severeNow src → g = groupOf src →
    s.getF (FLT_GRP_STATUS_STATE g) ≠ 0 → s.getF (FLT_GRP_CFG_CLASS g) ≤ 3 →
    Runs (.faultEvent src ⟨u, v⟩) s (fun t => CountedBy (FLT_GRP_SEVERE_COUNT g) 1 s t ∧ t.flt.belay = s.flt.belay ∧
    t.flt.reactions = s.flt.reactions ∧
      t.flt.pendRestart = s.flt.pendRestart ∧ t.getF (FLT_GRP_STATUS_STATE g) = s.getF (FLT_GRP_STATUS_STATE g) ∧
      RegsBut [rFLT_SRC_CNT src, rFLT_SRC_STATE src, rFLT_GRP_SEVERE g] s t ∧ SameBut [.regs, .flt] s t)) ∧
  -- An idle group
  (∀ (s : State) (src g : Nat) (u : FUnit) (v : Option Look), s.reaches src u v → s.severeNow src → g = groupOf src →
    s.getF (FLT_GRP_STATUS_STATE g) = 0 → 1 ≤ s.getF (FLT_GRP_CFG_CLASS g) → s.getF (FLT_GRP_CFG_CLASS g) ≤ 3 →
    (s.flt.shadowEnd.lookup src).all (fun e => decide (e.1 + tMs 100 ≤ s.now)) = true → s.rivalBelay g (eventUnit src u) = none →
    Runs (.faultEvent src ⟨u, v⟩) s (fun t => t.getF (FLT_GRP_STATUS_STATE g) = 1 ∧
    t.flt.belay.lookup g = some (s.now + tUs (s.getF (FLT_GRP_CFG_BELAY_US g))) ∧
      t.flt.reactions = s.flt.reactions ∧ CountedBy (FLT_GRP_SEVERE_COUNT g) 1 s t))

/-- R511, over the one operation by which every cairn is raised.  The last cairn is the newest of the queue or, if the queue is empty,
that of the highest written slot.  REPEAT saturates at its 16 bits. -/
def Obligations.EventCairnsMerge : Prop :=
  (∀ (s : State) (kind key flags : Nat) (pay : List Byte) (l : Cairn) (q : List Cairn), s.modeCode ≠ mBivouac → s.crn.queue = q ++ [l] →
    0x40 ≤ kind → l.kind = kind → l.key = key → l.pcycle = s.getF AON_PCYCLE_COUNT →
    s.cairn kind key pay flags =
      { s with crn := { s.crn with queue := q ++ [{ l with rep := min 65535 (l.rep + 1), lastSec := s.opSec }] } }) ∧
  (∀ (s : State) (kind key flags u : Nat) (pay : List Byte), s.modeCode ≠ mBivouac → s.crn.queue = [] → s.getF CRN_STATUS_USED = u + 1 →
    0x40 ≤ kind → slotValid (s.slotBytes u) = true → ((s.slotBytes u).getD 0 0).toNat = kind → leNat (((s.slotBytes u).drop 4).take 4) = key →
    leNat (((s.slotBytes u).drop 13).take 3) = s.getF AON_PCYCLE_COUNT →
    ((s.cairn kind key pay flags).slotBytes u).take 16 = (s.slotBytes u).take 16 ∧
    ((s.cairn kind key pay flags).slotBytes u).drop 24 = (s.slotBytes u).drop 24 ∧
    leNat ((((s.cairn kind key pay flags).slotBytes u).drop 16).take 5) = s.opSec ∧
    leNat ((((s.cairn kind key pay flags).slotBytes u).drop 22).take 2) = min 65535 (leNat (((s.slotBytes u).drop 22).take 2) + 1) ∧
    (s.cairn kind key pay flags).crn = { s.crn with mram := (s.cairn kind key pay flags).crn.mram } ∧
    SameBut [.crn] s (s.cairn kind key pay flags) ∧
    (∀ x, (x < 64 * u + 16 ∨ 64 * u + 24 ≤ x) → sget zeroByte (s.cairn kind key pay flags).crn.mram x = sget zeroByte s.crn.mram x)) ∧
  (∀ (s : State) (kind key flags : Nat) (pay : List Byte), s.modeCode ≠ mBivouac → s.crn.queue.length < 256 →
    (kind < 0x40 ∨ ∃ (q : List Cairn) (l : Cairn), s.crn.queue = q ++ [l] ∧ (l.kind ≠ kind ∨ l.key ≠ key ∨ l.pcycle ≠ s.getF AON_PCYCLE_COUNT)) →
    s.cairn kind key pay flags = { s with crn := { s.crn with queue := s.crn.queue ++
      [⟨kind, flags, key, s.opSec, s.getF AON_PCYCLE_COUNT, s.opSec, 1, pay⟩] } })

/-- R517. -/
def Obligations.TheClearingKeyIsBurnedOnce : Prop :=
  -- The words, in Test
  (∀ (s : State) (n val ev : Nat), n < 8 → val < 2 ^ 32 → s.modeCode = mTest →
    Runs (.registerWrite .bar0 (rCRN_OTP_KEY n) 4 val ev) s (fun t => t.getF (CRN_OTP_KEY_KEY n) = val ∧ RegsBut [rCRN_OTP_KEY n] s t ∧
    SameBut [.regs] s t)) ∧
  -- The first burn
  (∀ (s : State) (k : List Byte), s.modeCode = mTest → s.otp.cairnKey = none →
    k = (List.range 8).flatMap (fun n => leBytes 4 (s.getF (CRN_OTP_KEY_KEY n))) →
    Runs (.cairnKeyBurn) s (fun t => t.otp = { s.otp with cairnKey := some k } ∧ k.length = 32 ∧ t.flag CRN_STATUS_KEY_SET = true ∧
    RegsBut [rCRN_STATUS] s t ∧ SameBut [.regs, .otp] s t)) ∧
  -- A later burn
  (∀ (s : State) (k : List Byte), s.modeCode = mTest → s.otp.cairnKey = some k →
    Runs (.cairnKeyBurn) s (fun t => t = s.cairn 0x46 4 ([0, 0] ++ leBytes 2 (s.getF IMG_RUN_EPOCH)) ∧ t.otp = s.otp ∧
    t.flag CRN_STATUS_KEY_SET = s.flag CRN_STATUS_KEY_SET)) ∧
  -- A burn outside Test
  (∀ (s : State), s.modeCode ≠ mTest →
    Runs (.cairnKeyBurn) s (fun t => t = s)) ∧
  -- KEY_SET after a cold reset
  (∀ (s : State) (b : Bool), s.modeCode ≠ mBivouac → s.frames = [] → s.copies = [] →
    Runs (.coldReset b) s (fun t => t.flag CRN_STATUS_KEY_SET = s.otp.cairnKey.isSome ∧ t.otp.cairnKey = s.otp.cairnKey))

/-- R492.  DEG is in units of 0.01 %, so 10 mV for each 1.00 % is one tenth of a millivolt for each unit.  The reading of clause 4 is the first above the
limit between re-plans. -/
def Obligations.TheCoreTargetFollowsTheWorstOscillator : Prop :=
  -- The target's value
  (∀ (base deg : Nat), coreTarget base deg % 5 = 0 ∧ 10 * base + deg ≤ 10 * coreTarget base deg ∧ 10 * coreTarget base deg < 10 * base + deg + 50) ∧
  -- The window
  (∀ (s : State) (v : Nat), s.getF AGE_AVS_WIN_MIN_MV ≤ s.getF AGE_AVS_WIN_MAX_MV → (v < s.getF AGE_AVS_WIN_MIN_MV →
    s.clampMv v = s.getF AGE_AVS_WIN_MIN_MV) ∧ (s.getF AGE_AVS_WIN_MAX_MV < v → s.clampMv v = s.getF AGE_AVS_WIN_MAX_MV) ∧
    (s.getF AGE_AVS_WIN_MIN_MV ≤ v → v ≤ s.getF AGE_AVS_WIN_MAX_MV → s.clampMv v = v)) ∧
  -- The worst oscillator of those read
  (∀ (s : State) (l : List RoReading), s.modeCode ≠ mBivouac → s.img.isSome = true → l ≠ [] → s.flag AGE_STATUS_RUNNING = false → (∀ r ∈ l, r.ro < 64 ∧
    s.measured (roUnit r.ro) = true ∧ -3000 ≤ r.slow ∧ r.slow ≤ 3000 ∧
    coreTarget (s.getF AGE_CORE_BASE_MV) (max 0 r.slow).toNat ≤ s.getF AGE_AVS_WIN_MAX_MV) →
    Runs (.roRead l) s (fun t => (∃ r ∈ l, t.getF AGE_CORE_WORST_DEG = (max 0 r.slow).toNat ∧ t.getF AGE_CORE_WORST_RO = r.ro) ∧
      (∀ r ∈ l, (max 0 r.slow).toNat ≤ t.getF AGE_CORE_WORST_DEG) ∧ RegsBut (rAGE_CORE :: rAGE_STATUS :: l.map (fun r => rAGE_RO r.ro)) s t ∧
      SameBut [.regs, .age] s t)) ∧
  -- A target above AVS_MAX
  (∀ (s : State) (r : RoReading) (m : Nat), s.modeCode ≠ mBivouac → s.img.isSome = true → r.ro < 64 → s.measured (roUnit r.ro) = true →
    -3000 ≤ r.slow ∧ r.slow ≤ 3000 → s.flag AGE_STATUS_RUNNING = false → s.flag AGE_STATUS_VCORE_LIMIT = false → s.getF AGE_AVS_WIN_MAX_MV = m →
    s.getF AGE_AVS_WIN_MIN_MV ≤ m → m < coreTarget (s.getF AGE_CORE_BASE_MV) (max 0 r.slow).toNat → s.quiet 387 →
    Runs (.roRead [r]) s (fun t => t.flag AGE_STATUS_VCORE_LIMIT = true ∧ t.flag AGE_INT_STATUS_LIMIT = true ∧
    Minor 387 [rAGE_RO r.ro, rAGE_CORE, rAGE_STATUS, rAGE_INT_STATUS] s t ∧
      t.age.goal = (if s.age.goal.getD s.age.vcore < m ∧ s.modeCode ≠ mHold then some m else s.age.goal) ∧
    SameBut [.regs, .bar4, .out, .flt, .age] s t)) ∧
  -- The headroom
  (∀ (s : State), (s.headroom : Int) = max 0 ((s.getF AGE_AVS_WIN_MAX_MV : Int) - coreTarget (s.getF AGE_CORE_BASE_MV) (s.getF AGE_CORE_WORST_DEG))) ∧
  -- BASE_MV is not the host's to write
  (∀ (s : State) (val ev : Nat), 
    Runs (.registerWrite .bar0 rAGE_CORE 4 val ev) s (fun t => t.getF AGE_CORE_BASE_MV = s.getF AGE_CORE_BASE_MV))
end

