-- ==== Sys2Proof/Laws/Sparse.lean ====
section
/-!
SUPPORT. Laws/Sparse.lean: the laws of sparse maps: a read after a write at the same key gives what was written, a write leaves every other
key alone, and every write keeps the canonical form.  Reads and writes of runs of bytes inherit them.
-/

namespace Sys2Proof.Machine

variable {α : Type}

theorem sget_sput_same (d : Nat → α) (m : List (Nat × α)) (k : Nat) (v : α) : sget d (sput m k v) k = v := by
  induction m with
  | nil => simp [sput, sget]
  | cons e t ih =>
    obtain ⟨k', v'⟩ := e
    by_cases h : k < k'
    · simp [sput, sget, h]
    · by_cases h' : k' = k
      · simp [sput, sget, h']
      · simp [sput, sget, h, h', ih]

theorem sget_sput_other (d : Nat → α) (m : List (Nat × α)) {k j : Nat} (v : α) (hj : j ≠ k) :
    sget d (sput m k v) j = sget d m j := by
  have hk : k ≠ j := fun h => hj h.symm
  induction m with
  | nil => simp [sput, sget, hk]
  | cons e t ih =>
    obtain ⟨k', v'⟩ := e
    by_cases h : k < k'
    · simp [sput, sget, h, hk]
    · by_cases h' : k' = k
      · subst h'; simp [sput, sget, hk]
      · rw [sput, if_neg h, if_neg h', sget, sget, ih]

theorem sget_sdel_same (d : Nat → α) (m : List (Nat × α)) (k : Nat) : sget d (sdel m k) k = d k := by
  induction m with
  | nil => rfl
  | cons e t ih =>
    obtain ⟨k', v'⟩ := e
    by_cases h : k' = k <;> simp [sdel, sget, h, ih]

theorem sget_sdel_other (d : Nat → α) (m : List (Nat × α)) {k j : Nat} (hj : j ≠ k) :
    sget d (sdel m k) j = sget d m j := by
  induction m with
  | nil => rfl
  | cons e t ih =>
    obtain ⟨k', v'⟩ := e
    by_cases h : k' = k
    · have hkj : k ≠ j := fun h' => hj h'.symm
      simp [sdel, sget, h, ih, hkj]
    · by_cases h' : k' = j
      · simp [sdel, sget, h', hj]
      · simp [sdel, sget, h, h', ih]

variable [DecidableEq α]

/-- A read after a write at the same key gives the value written. -/
@[simp] theorem sget_sset_same (d : Nat → α) (m : List (Nat × α)) (k : Nat) (v : α) : sget d (sset d m k v) k = v := by
  by_cases h : v = d k
  · simp [sset, h, sget_sdel_same]
  · simp [sset, h, sget_sput_same]

/-- A write leaves every other key alone. -/
theorem sget_sset_other (d : Nat → α) (m : List (Nat × α)) {k j : Nat} (v : α) (hj : j ≠ k) :
    sget d (sset d m k v) j = sget d m j := by
  by_cases h : v = d k
  · simp [sset, h, sget_sdel_other d m hj]
  · simp [sset, h, sget_sput_other d m v hj]

/-! ### The canonical form -/

omit [DecidableEq α] in
theorem keysAbove_mono {b c : Nat} (h : b ≤ c) (m : List (Nat × α)) (hm : keysAbove c m = true) : keysAbove b m = true := by
  cases m with
  | nil => rfl
  | cons e t =>
    obtain ⟨k, v⟩ := e
    simp only [keysAbove, Bool.and_eq_true, decide_eq_true_eq] at hm ⊢
    exact ⟨by omega, hm.2⟩

omit [DecidableEq α] in
theorem keysAbove_sput {b k : Nat} (hb : b < k) (v : α) (m : List (Nat × α)) (hm : keysAbove b m = true) :
    keysAbove b (sput m k v) = true := by
  induction m generalizing b with
  | nil => simp [sput, keysAbove, hb]
  | cons e t ih =>
    obtain ⟨k', v'⟩ := e
    simp only [keysAbove, Bool.and_eq_true, decide_eq_true_eq] at hm
    by_cases h : k < k'
    · simp [sput, keysAbove, h, hb, hm.2]
    · by_cases h' : k' = k
      · subst h'; simp [sput, keysAbove, hb, hm.2]
      · simp [sput, keysAbove, h, h', hm.1, ih (show k' < k by omega) hm.2]

omit [DecidableEq α] in
theorem keysAbove_sdel {b : Nat} (k : Nat) (m : List (Nat × α)) (hm : keysAbove b m = true) : keysAbove b (sdel m k) = true := by
  induction m generalizing b with
  | nil => rfl
  | cons e t ih =>
    obtain ⟨k', v'⟩ := e
    simp only [keysAbove, Bool.and_eq_true, decide_eq_true_eq] at hm
    by_cases h : k' = k
    · simpa [sdel, h] using ih (keysAbove_mono (Nat.le_of_lt hm.1) t hm.2)
    · simp [sdel, keysAbove, h, hm.1, ih hm.2]

omit [DecidableEq α] in
theorem keysRise_of_above {b : Nat} {m : List (Nat × α)} (h : keysAbove b m = true) : keysRise m = true := by
  cases m with
  | nil => rfl
  | cons e t => simp only [keysAbove, Bool.and_eq_true] at h; exact h.2

omit [DecidableEq α] in
theorem keysRise_sput (k : Nat) (v : α) (m : List (Nat × α)) (hm : keysRise m = true) : keysRise (sput m k v) = true := by
  cases m with
  | nil => rfl
  | cons e t =>
    obtain ⟨k', v'⟩ := e
    have ht : keysAbove k' t = true := hm
    by_cases h : k < k'
    · simp [sput, keysRise, keysAbove, h, ht]
    · by_cases h' : k' = k
      · subst h'; simpa [sput, keysRise] using ht
      · simpa [sput, keysRise, h, h'] using keysAbove_sput (show k' < k by omega) v t ht

omit [DecidableEq α] in
theorem keysRise_sdel (k : Nat) (m : List (Nat × α)) (hm : keysRise m = true) : keysRise (sdel m k) = true := by
  cases m with
  | nil => rfl
  | cons e t =>
    obtain ⟨k', v'⟩ := e
    have ht : keysAbove k' t = true := hm
    by_cases h : k' = k
    · simpa [sdel, h] using keysRise_of_above (keysAbove_sdel k t ht)
    · simpa [sdel, keysRise, h] using keysAbove_sdel k t ht

theorem noDefault_sput (d : Nat → α) (k : Nat) {v : α} (hv : v ≠ d k) (m : List (Nat × α)) (hm : noDefault d m = true) :
    noDefault d (sput m k v) = true := by
  induction m with
  | nil => simp [sput, noDefault, hv]
  | cons e t ih =>
    obtain ⟨k', v'⟩ := e
    simp only [noDefault, Bool.and_eq_true, decide_eq_true_eq] at hm
    by_cases h : k < k'
    · simp [sput, noDefault, h, hv, hm]
    · by_cases h' : k' = k
      · simp [sput, noDefault, h', hv, hm.2]
      · simp [sput, noDefault, h, h', hm.1, ih hm.2]

theorem noDefault_sdel (d : Nat → α) (k : Nat) (m : List (Nat × α)) (hm : noDefault d m = true) :
    noDefault d (sdel m k) = true := by
  induction m with
  | nil => rfl
  | cons e t ih =>
    obtain ⟨k', v'⟩ := e
    simp only [noDefault, Bool.and_eq_true, decide_eq_true_eq] at hm
    by_cases h : k' = k
    · simpa [sdel, h] using ih hm.2
    · simp [sdel, noDefault, h, hm.1, ih hm.2]

/-- A write keeps the canonical form. -/
theorem swf_sset (d : Nat → α) (m : List (Nat × α)) (k : Nat) (v : α) (hm : swf d m = true) : swf d (sset d m k v) = true := by
  simp only [swf, Bool.and_eq_true] at hm ⊢
  by_cases h : v = d k
  · simpa [sset, h] using And.intro (keysRise_sdel k m hm.1) (noDefault_sdel d k m hm.2)
  · simpa [sset, h] using And.intro (keysRise_sput k v m hm.1) (noDefault_sput d k h m hm.2)

/-- The empty map is in canonical form. -/
@[simp] theorem swf_nil (d : Nat → α) : swf d ([] : List (Nat × α)) = true := rfl

omit [DecidableEq α] in
theorem keysAbove_filter (f : Nat × α → Bool) {b : Nat} (m : List (Nat × α)) (hm : keysAbove b m = true) :
    keysAbove b (m.filter f) = true := by
  induction m generalizing b with
  | nil => rfl
  | cons e t ih =>
    obtain ⟨k, v⟩ := e
    simp only [keysAbove, Bool.and_eq_true, decide_eq_true_eq] at hm
    by_cases h : f (k, v)
    · simpa [keysAbove, h, hm.1] using ih hm.2
    · simpa [h] using ih (keysAbove_mono (Nat.le_of_lt hm.1) t hm.2)

theorem noDefault_filter (d : Nat → α) (f : Nat × α → Bool) (m : List (Nat × α)) (hm : noDefault d m = true) :
    noDefault d (m.filter f) = true := by
  induction m with
  | nil => rfl
  | cons e t ih =>
    obtain ⟨k, v⟩ := e
    simp only [noDefault, Bool.and_eq_true, decide_eq_true_eq] at hm
    by_cases h : f (k, v)
    · simpa [noDefault, h, hm.1] using ih hm.2
    · simpa [h] using ih hm.2

/-- Dropping entries keeps the canonical form. -/
theorem swf_filter (d : Nat → α) (f : Nat × α → Bool) (m : List (Nat × α)) (hm : swf d m = true) : swf d (m.filter f) = true := by
  simp only [swf, Bool.and_eq_true] at hm ⊢
  refine ⟨?_, noDefault_filter d f m hm.2⟩
  cases m with
  | nil => rfl
  | cons e t =>
    obtain ⟨k, v⟩ := e
    have ht : keysAbove k t = true := hm.1
    by_cases h : f (k, v)
    · simpa [keysRise, h] using keysAbove_filter f t ht
    · simpa [h] using keysRise_of_above (keysAbove_filter f t ht)

/-- Dropping the entries of some keys keeps the canonical form. -/
theorem swf_keepKeys (d : Nat → α) (p : Nat → Bool) (m : List (Nat × α)) (hm : swf d m = true) : swf d (keepKeys p m) = true :=
  swf_filter d _ m hm

/-- Mapping the values of a map, and dropping those that come to what an unlisted key reads as, keeps the canonical form. -/
theorem swf_remap (d : Nat → α) (g : Nat → α → α) (m : List (Nat × α)) (hm : swf d m = true) :
    swf d (m.filterMap (fun e => if g e.1 e.2 = d e.1 then none else some (e.1, g e.1 e.2))) = true := by
  have above : ∀ (l : List (Nat × α)) (b : Nat), keysAbove b l = true →
      keysAbove b (l.filterMap (fun e => if g e.1 e.2 = d e.1 then none else some (e.1, g e.1 e.2))) = true := by
    intro l
    induction l with
    | nil => exact fun _ _ => rfl
    | cons e t ih =>
      intro b h
      obtain ⟨k, v⟩ := e
      simp only [keysAbove, Bool.and_eq_true, decide_eq_true_eq] at h
      by_cases hg : g k v = d k
      · simpa [List.filterMap_cons, hg] using ih b (keysAbove_mono (Nat.le_of_lt h.1) t h.2)
      · simpa [List.filterMap_cons, hg, keysAbove, h.1] using ih k h.2
  have nodef : ∀ l : List (Nat × α), noDefault d (l.filterMap (fun e => if g e.1 e.2 = d e.1 then none else some (e.1, g e.1 e.2))) = true := by
    intro l
    induction l with
    | nil => rfl
    | cons e t ih =>
      obtain ⟨k, v⟩ := e
      by_cases hg : g k v = d k
      · simpa [List.filterMap_cons, hg] using ih
      · simpa [List.filterMap_cons, hg, noDefault] using ih
  simp only [swf, Bool.and_eq_true] at hm ⊢
  refine ⟨?_, nodef m⟩
  cases m with
  | nil => rfl
  | cons e t =>
    obtain ⟨k, v⟩ := e
    by_cases hg : g k v = d k
    · simpa [List.filterMap_cons, hg] using keysRise_of_above (above t k hm.1)
    · simpa [List.filterMap_cons, hg, keysRise] using above t k hm.1

/-! ### Runs of bytes -/

theorem writeBytes_wf (m : List (Nat × BitVec 8)) (a : Nat) (l : List (BitVec 8)) (hm : Memory.wf m = true) :
    Memory.wf (writeBytes m a l) = true := by
  induction l generalizing m a with
  | nil => exact hm
  | cons b t ih => exact ih _ _ (swf_sset zeroByte m a b hm)

/-- A byte outside the run written reads as before. -/
theorem sget_writeBytes_outside (m : List (Nat × BitVec 8)) (a : Nat) (l : List (BitVec 8)) {x : Nat} (h : x < a ∨ a + l.length ≤ x) :
    sget zeroByte (writeBytes m a l) x = sget zeroByte m x := by
  induction l generalizing m a with
  | nil => rfl
  | cons b t ih =>
    simp only [List.length_cons] at h
    rw [writeBytes, ih _ _ (by omega), sget_sset_other zeroByte m b (by omega)]

/-- A byte of the run written reads as it was written. -/
theorem sget_writeBytes_inside (m : List (Nat × BitVec 8)) (a : Nat) (l : List (BitVec 8)) (i : Nat) (h : i < l.length) :
    sget zeroByte (writeBytes m a l) (a + i) = l[i] := by
  induction l generalizing m a i with
  | nil => simp at h
  | cons b t ih =>
    cases i with
    | zero =>
      rw [writeBytes, sget_writeBytes_outside _ _ _ (by omega)]
      exact sget_sset_same zeroByte m a b
    | succ i =>
      simp only [List.length_cons] at h
      have := ih (sset zeroByte m a b) (a + 1) i (by omega)
      rw [writeBytes, show a + (i + 1) = a + 1 + i by omega, this]
      rfl

@[simp] theorem readBytes_length (m : List (Nat × BitVec 8)) (a n : Nat) : (readBytes m a n).length = n := by
  induction n generalizing a with
  | zero => rfl
  | succ n ih => simp [readBytes, ih]

theorem readBytes_getElem (m : List (Nat × BitVec 8)) (a n i : Nat) (h : i < (readBytes m a n).length) :
    (readBytes m a n)[i] = sget zeroByte m (a + i) := by
  induction n generalizing a i with
  | zero => simp at h
  | succ n ih =>
    cases i with
    | zero => simp [readBytes]
    | succ i =>
      simp only [readBytes, List.getElem_cons_succ]
      rw [ih (a + 1) i (by simpa [readBytes] using h), show a + 1 + i = a + (i + 1) by omega]

/-- What was written is read back. -/
theorem readBytes_writeBytes (m : List (Nat × BitVec 8)) (a : Nat) (l : List (BitVec 8)) :
    readBytes (writeBytes m a l) a l.length = l := by
  apply List.ext_getElem
  · simp
  · intro i h1 h2
    rw [readBytes_getElem, sget_writeBytes_inside m a l i h2]

/-- Bytes outside the run written read as before. -/
theorem readBytes_writeBytes_outside (m : List (Nat × BitVec 8)) (a : Nat) (l : List (BitVec 8)) (b n : Nat)
    (h : b + n ≤ a ∨ a + l.length ≤ b) : readBytes (writeBytes m a l) b n = readBytes m b n := by
  apply List.ext_getElem
  · simp
  · intro i h1 h2
    have hi : i < n := by simpa using h1
    rw [readBytes_getElem, readBytes_getElem, sget_writeBytes_outside m a l (by omega)]

end Sys2Proof.Machine
end

