-- ==== Sys2Proof/Laws/Fields.lean ====
section
/-!
SUPPORT. Laws/Fields.lean: the laws of register words and fields: what a field reads as after a write of the same field, of another field of
the same register, and of another register.
-/

namespace Sys2Proof.Machine

/-! ### Fields of a word -/

/-- A field that lies in a 32-bit word. -/
def Fld.fits (f : Fld) : Prop := f.lo + f.width ≤ 32

/-- Two fields that share no bit. -/
def Fld.apart (f g : Fld) : Prop := f.lo + f.width ≤ g.lo ∨ g.lo + g.width ≤ f.lo

theorem Fld.put_toNat (f : Fld) (hf : f.fits) (w : Word) (v : Nat) :
    (f.put w v).toNat =
      w.toNat / 2 ^ (f.lo + f.width) * 2 ^ (f.lo + f.width) + v % 2 ^ f.width * 2 ^ f.lo + w.toNat % 2 ^ f.lo := by
  have hw : w.toNat < 2 ^ 32 := w.isLt
  have hv : v % 2 ^ f.width < 2 ^ f.width := Nat.mod_lt _ (Nat.two_pow_pos _)
  have hl : w.toNat % 2 ^ f.lo < 2 ^ f.lo := Nat.mod_lt _ (Nat.two_pow_pos _)
  have hsum : v % 2 ^ f.width * 2 ^ f.lo + w.toNat % 2 ^ f.lo < 2 ^ (f.lo + f.width) := by
    rw [Nat.pow_add, Nat.mul_comm (2 ^ f.lo)]
    calc v % 2 ^ f.width * 2 ^ f.lo + w.toNat % 2 ^ f.lo
        < v % 2 ^ f.width * 2 ^ f.lo + 2 ^ f.lo := by omega
      _ = (v % 2 ^ f.width + 1) * 2 ^ f.lo := by rw [Nat.add_mul, Nat.one_mul]
      _ ≤ 2 ^ f.width * 2 ^ f.lo := Nat.mul_le_mul_right _ hv
  have hq : w.toNat / 2 ^ (f.lo + f.width) < 2 ^ (32 - (f.lo + f.width)) := by
    apply Nat.div_lt_of_lt_mul
    rw [← Nat.pow_add, show f.lo + f.width + (32 - (f.lo + f.width)) = 32 by have := hf; unfold Fld.fits at this; omega]
    exact hw
  have htot : (w.toNat / 2 ^ (f.lo + f.width) + 1) * 2 ^ (f.lo + f.width) ≤ 2 ^ 32 := by
    calc (w.toNat / 2 ^ (f.lo + f.width) + 1) * 2 ^ (f.lo + f.width)
        ≤ 2 ^ (32 - (f.lo + f.width)) * 2 ^ (f.lo + f.width) := Nat.mul_le_mul_right _ hq
      _ = 2 ^ 32 := by rw [← Nat.pow_add]; congr 1; unfold Fld.fits at hf; omega
  rw [Nat.add_mul, Nat.one_mul] at htot
  rw [Fld.put, BitVec.toNat_ofNat, Nat.mod_eq_of_lt (by omega)]

/-- The low part, the field and the high part of what `put` writes. -/
theorem Fld.put_parts (f : Fld) (hf : f.fits) (w : Word) (v : Nat) :
    (f.put w v).toNat % 2 ^ f.lo = w.toNat % 2 ^ f.lo ∧
    (f.put w v).toNat / 2 ^ f.lo % 2 ^ f.width = v % 2 ^ f.width ∧
    (f.put w v).toNat / 2 ^ (f.lo + f.width) = w.toNat / 2 ^ (f.lo + f.width) := by
  have hl : w.toNat % 2 ^ f.lo < 2 ^ f.lo := Nat.mod_lt _ (Nat.two_pow_pos _)
  have hv : v % 2 ^ f.width < 2 ^ f.width := Nat.mod_lt _ (Nat.two_pow_pos _)
  have hform : (f.put w v).toNat =
      2 ^ f.lo * (2 ^ f.width * (w.toNat / 2 ^ (f.lo + f.width)) + v % 2 ^ f.width) + w.toNat % 2 ^ f.lo := by
    rw [Fld.put_toNat f hf, Nat.pow_add, Nat.mul_add]
    ac_rfl
  have hdiv : (f.put w v).toNat / 2 ^ f.lo = 2 ^ f.width * (w.toNat / 2 ^ (f.lo + f.width)) + v % 2 ^ f.width := by
    rw [hform, Nat.mul_add_div (Nat.two_pow_pos _), Nat.div_eq_of_lt hl, Nat.add_zero]
  refine ⟨?_, ?_, ?_⟩
  · rw [hform, Nat.mul_add_mod, Nat.mod_eq_of_lt hl]
  · rw [hdiv, Nat.mul_add_mod, Nat.mod_mod]
  · rw [Nat.pow_add, ← Nat.div_div_eq_div_mul, hdiv, Nat.mul_add_div (Nat.two_pow_pos _), Nat.div_eq_of_lt hv, Nat.add_zero, Nat.pow_add]

/-- A field reads as it was written. -/
theorem Fld.get_put_same (f : Fld) (hf : f.fits) (w : Word) (v : Nat) : f.get (f.put w v) = v % 2 ^ f.width :=
  (Fld.put_parts f hf w v).2.1

/-- A field apart from the one written reads as before. -/
theorem Fld.get_put_apart (f g : Fld) (hf : f.fits) (h : f.apart g) (w : Word) (v : Nat) : g.get (f.put w v) = g.get w := by
  have hp := Fld.put_parts f hf w v
  unfold Fld.get
  rcases h with h | h
  · obtain ⟨k, hk⟩ : ∃ k, g.lo = f.lo + f.width + k := ⟨g.lo - (f.lo + f.width), by omega⟩
    rw [hk, Nat.pow_add, ← Nat.div_div_eq_div_mul, ← Nat.div_div_eq_div_mul, hp.2.2]
  · obtain ⟨k, hk⟩ : ∃ k, f.lo = g.lo + g.width + k := ⟨f.lo - (g.lo + g.width), by omega⟩
    have key : ∀ x : Nat, x / 2 ^ g.lo % 2 ^ g.width = x % 2 ^ f.lo / 2 ^ g.lo % 2 ^ g.width := by
      intro x
      have h1 : 2 ^ g.lo * 2 ^ g.width ∣ 2 ^ f.lo := by rw [← Nat.pow_add, hk]; exact Nat.pow_dvd_pow 2 (by omega)
      have h2 : x % 2 ^ f.lo % (2 ^ g.lo * 2 ^ g.width) = x % (2 ^ g.lo * 2 ^ g.width) := Nat.mod_mod_of_dvd _ h1
      rw [← Nat.mod_mul_right_div_self, ← Nat.mod_mul_right_div_self, h2]
    rw [key (f.put w v).toNat, hp.1, ← key]

theorem Fld.get_lt (f : Fld) (w : Word) : f.get w < 2 ^ f.width := Nat.mod_lt _ (Nat.two_pow_pos _)

/-! ### Registers -/

@[simp] theorem State.rd_wr_same (s : State) (o : Nat) (w : Word) : (s.wr o w).rd o = w := sget_sset_same _ _ _ _

theorem State.rd_wr_other (s : State) {o o' : Nat} (w : Word) (h : o' ≠ o) : (s.wr o w).rd o' = s.rd o' :=
  sget_sset_other _ _ _ h

@[simp] theorem State.rd4_wr4_same (s : State) (o : Nat) (w : Word) : (s.wr4 o w).rd4 o = w := sget_sset_same _ _ _ _

theorem State.rd4_wr4_other (s : State) {o o' : Nat} (w : Word) (h : o' ≠ o) : (s.wr4 o w).rd4 o' = s.rd4 o' :=
  sget_sset_other _ _ _ h

/-- A write of a field leaves every other register alone. -/
theorem State.rd_setF_other (s : State) (f : Fld) (v : Nat) {o : Nat} (h : o ≠ f.off) : (s.setF f v).rd o = s.rd o :=
  s.rd_wr_other _ h

/-- A field reads as it was written. -/
theorem State.getF_setF_same (s : State) (f : Fld) (v : Nat) (hf : f.fits) : (s.setF f v).getF f = v % 2 ^ f.width := by
  simp [State.setF, State.getF, Fld.get_put_same f hf]

/-- A field of another register reads as before. -/
theorem State.getF_setF_other (s : State) (f g : Fld) (v : Nat) (h : g.off ≠ f.off) : (s.setF f v).getF g = s.getF g := by
  rw [State.getF, s.rd_setF_other f v h, State.getF]

/-- A field apart from the one written reads as before, in the same register or another. -/
theorem State.getF_setF_apart (s : State) (f g : Fld) (v : Nat) (hf : f.fits) (h : f.apart g) : (s.setF f v).getF g = s.getF g := by
  by_cases ho : g.off = f.off
  · simp [State.setF, State.getF, ho, Fld.get_put_apart f g hf h]
  · exact s.getF_setF_other f g v ho

/-- A register that no rule has written reads as at reset. -/
theorem State.rd_reset (o : Nat) : State.reset.rd o = resetWord o := rfl

theorem State.getF_lt (s : State) (f : Fld) : s.getF f < 2 ^ f.width := f.get_lt _

theorem State.flag_eq (s : State) (f : Fld) : s.flag f = (s.getF f != 0) := rfl

end Sys2Proof.Machine
end

