-- ==== Sys2Proof/Laws/Keeps.lean ====
section
/-!
SUPPORT. Laws/Keeps.lean: what an operation may change, said once for each operation: `Keeps m s t` says that `t` differs from `s` only in the
parts that the mask `m` names, that every sparse map in canonical form in `s` is so in `t`, that no output of `s` is taken back in `t`, and
that the count of open values does not fall.
-/

namespace Sys2Proof.Machine

/-- The number of a part, its bit in a mask. -/
def Part.idx (p : Part) : Nat := p.ctorIdx

/-- What an operation with mask `m` may have done. -/
structure Keeps (m : Nat) (s t : State) : Prop where
  same : ∀ p : Part, m.testBit p.idx = false → p.same s t
  canon : s.canon → t.canon
  outs : s.out <:+ t.out
  ctr : s.freeCtr ≤ t.freeCtr

theorem Part.same_refl (s : State) (p : Part) : p.same s s := by cases p <;> rfl

theorem Part.same_trans {s t u : State} (p : Part) (h : p.same s t) (h' : p.same t u) : p.same s u := by
  cases p <;> exact Eq.trans h' h

theorem Keeps.refl (m : Nat) (s : State) : Keeps m s s :=
  ⟨fun p _ => p.same_refl s, id, List.suffix_refl _, Nat.le_refl _⟩

/-- One operation after another; the second's mask lies within the whole's. -/
theorem Keeps.app {m k : Nat} {s t u : State} (h : Keeps m s t) (h' : Keeps k t u) (hk : k &&& m = k) : Keeps m s u := by
  refine ⟨fun p hp => p.same_trans (h.same p hp) (h'.same p ?_), fun hc => h'.canon (h.canon hc), h.outs.trans h'.outs,
    Nat.le_trans h.ctr h'.ctr⟩
  rw [← hk, Nat.testBit_and, hp, Bool.and_false]

theorem Keeps.ite {m : Nat} {s a b : State} {c : Prop} [Decidable c] (ha : c → Keeps m s a) (hb : ¬c → Keeps m s b) :
    Keeps m s (if c then a else b) := by
  by_cases h : c
  · simpa [h] using ha h
  · simpa [h] using hb h

/-- The branches of a conditional below a projection. -/
theorem Keeps.iteP {α : Type} {m : Nat} {s : State} {a b : α} {c : Prop} [Decidable c] (p : α → State) (ha : c → Keeps m s (p a))
    (hb : ¬c → Keeps m s (p b)) : Keeps m s (p (if c then a else b)) := by
  by_cases h : c
  · simpa [h] using ha h
  · simpa [h] using hb h

theorem Keeps.foldl {α : Type} {m : Nat} {s t : State} (f : State → α → State) (l : List α) (h : Keeps m s t)
    (hf : ∀ (u : State) (a : α), Keeps m u (f u a)) : Keeps m s (l.foldl f t) := by
  induction l generalizing t with
  | nil => exact h
  | cons a l ih => exact ih (h.app (hf t a) (Nat.and_self m))

theorem Keeps.st {m r n : Nat} {x : Option (Nat × Nat)} {s t : State} (h : Keeps m s t) : Keeps m s (CmdOut.mk r n x t).st := h

theorem Keeps.on {m : Nat} {s t : State} {b : Bool} {f : State → State} (h : Keeps m s t) (hf : ∀ u, Keeps m u (f u)) :
    Keeps m s (t.on b f) := by
  cases b
  · exact h
  · exact h.app (hf t) (Nat.and_self m)

theorem Keeps.foldS {α : Type} {m : Nat} {s t : State} {f : State → α → State} {l : List α} (h : Keeps m s t)
    (hf : ∀ u a, Keeps m u (f u a)) : Keeps m s (State.foldS f t l) := by
  induction l generalizing t with
  | nil => exact h
  | cons a l ih => exact ih (h.app (hf t a) (Nat.and_self m))

theorem Keeps.request {m key : Nat} {s t : State} {f : State → State} (h : Keeps m s t) (hf : ∀ u, Keeps m u (f u)) :
    Keeps m s (t.request key f) := by
  unfold State.request
  exact .ite (fun _ => h) (fun _ => h.app (hf t) (Nat.and_self m))

theorem Keeps.snd {α : Type} {m : Nat} {s t : State} {a : α} (h : Keeps m s t) : Keeps m s (a, t).2 := h
theorem Keeps.fst {α : Type} {m : Nat} {s t : State} {a : α} (h : Keeps m s t) : Keeps m s (t, a).1 := h

/-- An update of parts that no sparse map, output or count of open values stands in. -/
theorem Keeps.upd {m : Nat} {s t u : State} (h : Keeps m s t) (hs : ∀ p : Part, m.testBit p.idx = false → p.same t u)
    (h1 : u.regs = t.regs) (h2 : u.bar4 = t.bar4) (h3 : u.mem = t.mem) (h4 : u.dram = t.dram) (h5 : u.crn.mram = t.crn.mram)
    (h6 : u.mirror = t.mirror) (h7 : u.snap = t.snap) (h8 : u.out = t.out) (h9 : u.freeCtr = t.freeCtr) : Keeps m s u := by
  refine ⟨fun p hp => p.same_trans (h.same p hp) (hs p hp), fun hc => ?_, ?_, ?_⟩
  · have := h.canon hc
    simpa only [State.canon, h1, h2, h3, h4, h5, h6, h7] using this
  · rw [h8]; exact h.outs
  · rw [h9]; exact h.ctr

theorem keeps_pending (t : State) (v : List Instr) : Keeps 0x1 t { t with pending := v } :=
  (Keeps.refl _ t).upd (by intro p hp; cases p <;> first | rfl | exact absurd hp (by decide)) rfl rfl rfl rfl rfl rfl rfl rfl rfl
theorem keeps_now (t : State) (v : Nat) : Keeps 0x2 t { t with now := v } :=
  (Keeps.refl _ t).upd (by intro p hp; cases p <;> first | rfl | exact absurd hp (by decide)) rfl rfl rfl rfl rfl rfl rfl rfl rfl
theorem keeps_readData (t : State) (v : Nat) : Keeps 0x40 t { t with readData := v } :=
  (Keeps.refl _ t).upd (by intro p hp; cases p <;> first | rfl | exact absurd hp (by decide)) rfl rfl rfl rfl rfl rfl rfl rfl rfl
theorem keeps_latch (t : State) (v : List (Nat × Word)) : Keeps 0x80 t { t with latch := v } :=
  (Keeps.refl _ t).upd (by intro p hp; cases p <;> first | rfl | exact absurd hp (by decide)) rfl rfl rfl rfl rfl rfl rfl rfl rfl
theorem keeps_latchI2c (t : State) (v : List (Nat × Word)) : Keeps 0x100 t { t with latchI2c := v } :=
  (Keeps.refl _ t).upd (by intro p hp; cases p <;> first | rfl | exact absurd hp (by decide)) rfl rfl rfl rfl rfl rfl rfl rfl rfl
theorem keeps_heldLo (t : State) (v : List (Nat × Word)) : Keeps 0x200 t { t with heldLo := v } :=
  (Keeps.refl _ t).upd (by intro p hp; cases p <;> first | rfl | exact absurd hp (by decide)) rfl rfl rfl rfl rfl rfl rfl rfl rfl
theorem keeps_img (t : State) (v : Option Image) : Keeps 0x1000 t { t with img := v } :=
  (Keeps.refl _ t).upd (by intro p hp; cases p <;> first | rfl | exact absurd hp (by decide)) rfl rfl rfl rfl rfl rfl rfl rfl rfl
theorem keeps_isSealed (t : State) (v : Bool) : Keeps 0x2000 t { t with isSealed := v } :=
  (Keeps.refl _ t).upd (by intro p hp; cases p <;> first | rfl | exact absurd hp (by decide)) rfl rfl rfl rfl rfl rfl rfl rfl rfl
theorem keeps_otp (t : State) (v : Otp) : Keeps 0x4000 t { t with otp := v } :=
  (Keeps.refl _ t).upd (by intro p hp; cases p <;> first | rfl | exact absurd hp (by decide)) rfl rfl rfl rfl rfl rfl rfl rfl rfl
theorem keeps_mode (t : State) (v : ModeSt) : Keeps 0x8000 t { t with mode := v } :=
  (Keeps.refl _ t).upd (by intro p hp; cases p <;> first | rfl | exact absurd hp (by decide)) rfl rfl rfl rfl rfl rfl rfl rfl rfl
theorem keeps_flt (t : State) (v : FaultSt) : Keeps 0x10000 t { t with flt := v } :=
  (Keeps.refl _ t).upd (by intro p hp; cases p <;> first | rfl | exact absurd hp (by decide)) rfl rfl rfl rfl rfl rfl rfl rfl rfl
theorem keeps_time (t : State) (v : TimeSt) : Keeps 0x40000 t { t with time := v } :=
  (Keeps.refl _ t).upd (by intro p hp; cases p <;> first | rfl | exact absurd hp (by decide)) rfl rfl rfl rfl rfl rfl rfl rfl rfl
theorem keeps_gens (t : State) (v : GenBlock) : Keeps 0x80000 t { t with gens := v } :=
  (Keeps.refl _ t).upd (by intro p hp; cases p <;> first | rfl | exact absurd hp (by decide)) rfl rfl rfl rfl rfl rfl rfl rfl rfl
theorem keeps_threads (t : State) (v : List Thread) : Keeps 0x100000 t { t with threads := v } :=
  (Keeps.refl _ t).upd (by intro p hp; cases p <;> first | rfl | exact absurd hp (by decide)) rfl rfl rfl rfl rfl rfl rfl rfl rfl
theorem keeps_samples (t : State) (v : List Sample) : Keeps 0x200000 t { t with samples := v } :=
  (Keeps.refl _ t).upd (by intro p hp; cases p <;> first | rfl | exact absurd hp (by decide)) rfl rfl rfl rfl rfl rfl rfl rfl rfl
theorem keeps_evtCount (t : State) (v : List (Nat × Nat)) : Keeps 0x400000 t { t with evtCount := v } :=
  (Keeps.refl _ t).upd (by intro p hp; cases p <;> first | rfl | exact absurd hp (by decide)) rfl rfl rfl rfl rfl rfl rfl rfl rfl
theorem keeps_tasks (t : State) (v : List Nat) : Keeps 0x800000 t { t with tasks := v } :=
  (Keeps.refl _ t).upd (by intro p hp; cases p <;> first | rfl | exact absurd hp (by decide)) rfl rfl rfl rfl rfl rfl rfl rfl rfl
theorem keeps_frames (t : State) (v : List Frame) : Keeps 0x1000000 t { t with frames := v } :=
  (Keeps.refl _ t).upd (by intro p hp; cases p <;> first | rfl | exact absurd hp (by decide)) rfl rfl rfl rfl rfl rfl rfl rfl rfl
theorem keeps_copies (t : State) (v : List Copy) : Keeps 0x2000000 t { t with copies := v } :=
  (Keeps.refl _ t).upd (by intro p hp; cases p <;> first | rfl | exact absurd hp (by decide)) rfl rfl rfl rfl rfl rfl rfl rfl rfl
theorem keeps_buf (t : State) (v : BufSt) : Keeps 0x4000000 t { t with buf := v } :=
  (Keeps.refl _ t).upd (by intro p hp; cases p <;> first | rfl | exact absurd hp (by decide)) rfl rfl rfl rfl rfl rfl rfl rfl rfl
theorem keeps_ports (t : State) (v : List PortSt) : Keeps 0x8000000 t { t with ports := v } :=
  (Keeps.refl _ t).upd (by intro p hp; cases p <;> first | rfl | exact absurd hp (by decide)) rfl rfl rfl rfl rfl rfl rfl rfl rfl
theorem keeps_lanes (t : State) (v : List LaneSt) : Keeps 0x10000000 t { t with lanes := v } :=
  (Keeps.refl _ t).upd (by intro p hp; cases p <;> first | rfl | exact absurd hp (by decide)) rfl rfl rfl rfl rfl rfl rfl rfl rfl
theorem keeps_sas (t : State) (v : List SaSt) : Keeps 0x20000000 t { t with sas := v } :=
  (Keeps.refl _ t).upd (by intro p hp; cases p <;> first | rfl | exact absurd hp (by decide)) rfl rfl rfl rfl rfl rfl rfl rfl rfl
theorem keeps_scs (t : State) (v : List ScSt) : Keeps 0x40000000 t { t with scs := v } :=
  (Keeps.refl _ t).upd (by intro p hp; cases p <;> first | rfl | exact absurd hp (by decide)) rfl rfl rfl rfl rfl rfl rfl rfl rfl
theorem keeps_patchBad (t : State) (v : List (Nat × Nat × Bool)) : Keeps 0x80000000 t { t with patchBad := v } :=
  (Keeps.refl _ t).upd (by intro p hp; cases p <;> first | rfl | exact absurd hp (by decide)) rfl rfl rfl rfl rfl rfl rfl rfl rfl
theorem keeps_gates (t : State) (v : List GateSt) : Keeps 0x100000000 t { t with gates := v } :=
  (Keeps.refl _ t).upd (by intro p hp; cases p <;> first | rfl | exact absurd hp (by decide)) rfl rfl rfl rfl rfl rfl rfl rfl rfl
theorem keeps_shapers (t : State) (v : List CbsSt) : Keeps 0x200000000 t { t with shapers := v } :=
  (Keeps.refl _ t).upd (by intro p hp; cases p <;> first | rfl | exact absurd hp (by decide)) rfl rfl rfl rfl rfl rfl rfl rfl rfl
theorem keeps_scheds (t : State) (v : List SchSt) : Keeps 0x400000000 t { t with scheds := v } :=
  (Keeps.refl _ t).upd (by intro p hp; cases p <;> first | rfl | exact absurd hp (by decide)) rfl rfl rfl rfl rfl rfl rfl rfl rfl
theorem keeps_meters (t : State) (v : List MeterSt) : Keeps 0x800000000 t { t with meters := v } :=
  (Keeps.refl _ t).upd (by intro p hp; cases p <;> first | rfl | exact absurd hp (by decide)) rfl rfl rfl rfl rfl rfl rfl rfl rfl
theorem keeps_strm (t : State) (v : List (Nat × Nat)) : Keeps 0x1000000000 t { t with strm := v } :=
  (Keeps.refl _ t).upd (by intro p hp; cases p <;> first | rfl | exact absurd hp (by decide)) rfl rfl rfl rfl rfl rfl rfl rfl rfl
theorem keeps_strmCarry (t : State) (v : List Nat) : Keeps 0x2000000000 t { t with strmCarry := v } :=
  (Keeps.refl _ t).upd (by intro p hp; cases p <;> first | rfl | exact absurd hp (by decide)) rfl rfl rfl rfl rfl rfl rfl rfl rfl
theorem keeps_frerAt (t : State) (v : List (Nat × Nat)) : Keeps 0x4000000000 t { t with frerAt := v } :=
  (Keeps.refl _ t).upd (by intro p hp; cases p <;> first | rfl | exact absurd hp (by decide)) rfl rfl rfl rfl rfl rfl rfl rfl rfl
theorem keeps_genUsed (t : State) (v : List Nat) : Keeps 0x8000000000 t { t with genUsed := v } :=
  (Keeps.refl _ t).upd (by intro p hp; cases p <;> first | rfl | exact absurd hp (by decide)) rfl rfl rfl rfl rfl rfl rfl rfl rfl
theorem keeps_lost (t : State) (v : List Nat) : Keeps 0x20000000000 t { t with lost := v } :=
  (Keeps.refl _ t).upd (by intro p hp; cases p <;> first | rfl | exact absurd hp (by decide)) rfl rfl rfl rfl rfl rfl rfl rfl rfl
theorem keeps_asmRem (t : State) (v : List (Nat × Nat)) : Keeps 0x40000000000 t { t with asmRem := v } :=
  (Keeps.refl _ t).upd (by intro p hp; cases p <;> first | rfl | exact absurd hp (by decide)) rfl rfl rfl rfl rfl rfl rfl rfl rfl
theorem keeps_trees (t : State) (v : List (Nat × Nat)) : Keeps 0x80000000000 t { t with trees := v } :=
  (Keeps.refl _ t).upd (by intro p hp; cases p <;> first | rfl | exact absurd hp (by decide)) rfl rfl rfl rfl rfl rfl rfl rfl rfl
theorem keeps_bw (t : State) (v : List (Nat × (Nat × Nat))) : Keeps 0x100000000000 t { t with bw := v } :=
  (Keeps.refl _ t).upd (by intro p hp; cases p <;> first | rfl | exact absurd hp (by decide)) rfl rfl rfl rfl rfl rfl rfl rfl rfl
theorem keeps_lpm (t : State) (v : List LpmEnt) : Keeps 0x200000000000 t { t with lpm := v } :=
  (Keeps.refl _ t).upd (by intro p hp; cases p <;> first | rfl | exact absurd hp (by decide)) rfl rfl rfl rfl rfl rfl rfl rfl rfl
theorem keeps_filt (t : State) (v : List FiltEnt) : Keeps 0x400000000000 t { t with filt := v } :=
  (Keeps.refl _ t).upd (by intro p hp; cases p <;> first | rfl | exact absurd hp (by decide)) rfl rfl rfl rfl rfl rfl rfl rfl rfl
theorem keeps_cmd (t : State) (v : Option CmdSt) : Keeps 0x800000000000 t { t with cmd := v } :=
  (Keeps.refl _ t).upd (by intro p hp; cases p <;> first | rfl | exact absurd hp (by decide)) rfl rfl rfl rfl rfl rfl rfl rfl rfl
theorem keeps_load (t : State) (v : LoadSt) : Keeps 0x1000000000000 t { t with load := v } :=
  (Keeps.refl _ t).upd (by intro p hp; cases p <;> first | rfl | exact absurd hp (by decide)) rfl rfl rfl rfl rfl rfl rfl rfl rfl
theorem keeps_rope (t : State) (v : RopeSt) : Keeps 0x2000000000000 t { t with rope := v } :=
  (Keeps.refl _ t).upd (by intro p hp; cases p <;> first | rfl | exact absurd hp (by decide)) rfl rfl rfl rfl rfl rfl rfl rfl rfl
theorem keeps_dramc (t : State) (v : DramSt) : Keeps 0x4000000000000 t { t with dramc := v } :=
  (Keeps.refl _ t).upd (by intro p hp; cases p <;> first | rfl | exact absurd hp (by decide)) rfl rfl rfl rfl rfl rfl rfl rfl rfl
theorem keeps_dma (t : State) (v : List DmaRun) : Keeps 0x8000000000000 t { t with dma := v } :=
  (Keeps.refl _ t).upd (by intro p hp; cases p <;> first | rfl | exact absurd hp (by decide)) rfl rfl rfl rfl rfl rfl rfl rfl rfl
theorem keeps_rings (t : State) (v : List RingSt) : Keeps 0x10000000000000 t { t with rings := v } :=
  (Keeps.refl _ t).upd (by intro p hp; cases p <;> first | rfl | exact absurd hp (by decide)) rfl rfl rfl rfl rfl rfl rfl rfl rfl
theorem keeps_age (t : State) (v : AgeSt) : Keeps 0x40000000000000 t { t with age := v } :=
  (Keeps.refl _ t).upd (by intro p hp; cases p <;> first | rfl | exact absurd hp (by decide)) rfl rfl rfl rfl rfl rfl rfl rfl rfl
theorem keeps_tly (t : State) (v : TlySt) : Keeps 0x80000000000000 t { t with tly := v } :=
  (Keeps.refl _ t).upd (by intro p hp; cases p <;> first | rfl | exact absurd hp (by decide)) rfl rfl rfl rfl rfl rfl rfl rfl rfl
theorem keeps_fwd (t : State) (v : FwdSt) : Keeps 0x100000000000000 t { t with fwd := v } :=
  (Keeps.refl _ t).upd (by intro p hp; cases p <;> first | rfl | exact absurd hp (by decide)) rfl rfl rfl rfl rfl rfl rfl rfl rfl

/-- The outputs go back to what they were. -/
theorem Keeps.outBack {m : Nat} {s t : State} (h : Keeps m s t) (_hm : 0x800 &&& m = 0x800) : Keeps m s { t with out := s.out } := by
  refine ⟨fun p hp => ?_, h.canon, List.suffix_refl _, h.ctr⟩
  cases p <;> first | exact h.same _ hp | rfl

theorem of_ite_none {α : Type} {c : Prop} [Decidable c] {x : Option α} {r : α} (h : (if c then none else x) = some r) : x = some r := by
  split at h
  · cases h
  · exact h

/-! ### The sparse maps, the outputs and the open values -/

theorem keeps_wr (s : State) (o : Nat) (w : Word) : Keeps 0x4 s (s.wr o w) :=
  ⟨by intro p hp; cases p <;> first | rfl | exact absurd hp (by decide), fun h => ⟨swf_sset _ _ _ _ h.1, h.2⟩,
    List.suffix_refl _, Nat.le_refl _⟩

/-- Some register words go back to their reset values. -/
theorem keeps_regsFilter (s : State) (f : Nat × Word → Bool) : Keeps 0x4 s { s with regs := s.regs.filter f } :=
  ⟨by intro p hp; cases p <;> first | rfl | exact absurd hp (by decide), fun h => ⟨swf_filter _ f _ h.1, h.2⟩,
    List.suffix_refl _, Nat.le_refl _⟩

theorem keeps_bar4Nil (s : State) : Keeps 0x8 s { s with bar4 := [] } :=
  ⟨by intro p hp; cases p <;> first | rfl | exact absurd hp (by decide), fun h => ⟨h.1, rfl, h.2.2⟩,
    List.suffix_refl _, Nat.le_refl _⟩

/-- The registers that a restart keeps are in canonical form. -/
theorem Restart.regs_wf (k : Restart) (m : List (Nat × Word)) (h : swf resetWord m = true) : swf resetWord (k.regs m) = true := by
  cases k
  · exact swf_keepKeys _ _ _ h
  · exact swf_remap resetWord warmWord m h
  · exact swf_keepKeys resetWord (fun o => (0x20000 ≤ o && o < 0x30000) || o == rFLT_C4_CAUSE || o == rCRN_LOST) m h

/-- Some bytes of DRAM go back to 0. -/
theorem keeps_dramFilter (s : State) (f : Host.Cell → Bool) : Keeps 0x20 s { s with dram := s.dram.filter f } :=
  ⟨by intro p hp; cases p <;> first | rfl | exact absurd hp (by decide),
    fun h => ⟨h.1, h.2.1, h.2.2.1, swf_filter _ f _ h.2.2.2.1, h.2.2.2.2⟩, List.suffix_refl _, Nat.le_refl _⟩

/-- Some bytes of BAR2 memory go back to 0. -/
theorem keeps_memFilter (s : State) (f : Host.Cell → Bool) : Keeps 0x10 s { s with mem := s.mem.filter f } :=
  ⟨by intro p hp; cases p <;> first | rfl | exact absurd hp (by decide),
    fun h => ⟨h.1, h.2.1, swf_filter _ f _ h.2.2.1, h.2.2.2⟩, List.suffix_refl _, Nat.le_refl _⟩

theorem keeps_snap (s : State) (x : Option Snap) (hx : s.canon → ∀ y ∈ x, y.canon) : Keeps 0x20000000000000 s { s with snap := x } :=
  ⟨by intro p hp; cases p <;> first | rfl | exact absurd hp (by decide),
    fun h => ⟨h.1, h.2.1, h.2.2.1, h.2.2.2.1, h.2.2.2.2.1, h.2.2.2.2.2.1, hx h⟩, List.suffix_refl _, Nat.le_refl _⟩

theorem keeps_wr4 (s : State) (o : Nat) (w : Word) : Keeps 0x8 s (s.wr4 o w) :=
  ⟨by intro p hp; cases p <;> first | rfl | exact absurd hp (by decide), fun h => ⟨h.1, swf_sset _ _ _ _ h.2.1, h.2.2⟩,
    List.suffix_refl _, Nat.le_refl _⟩

theorem keeps_wrMem (s : State) (a : Nat) (l : List Byte) : Keeps 0x10 s (s.wrMem a l) :=
  ⟨by intro p hp; cases p <;> first | rfl | exact absurd hp (by decide),
    fun h => ⟨h.1, h.2.1, writeBytes_wf _ _ _ h.2.2.1, h.2.2.2⟩, List.suffix_refl _, Nat.le_refl _⟩

theorem keeps_dram (s : State) (a : Nat) (l : List Byte) : Keeps 0x20 s { s with dram := writeBytes s.dram a l } :=
  ⟨by intro p hp; cases p <;> first | rfl | exact absurd hp (by decide),
    fun h => ⟨h.1, h.2.1, h.2.2.1, writeBytes_wf _ _ _ h.2.2.2.1, h.2.2.2.2⟩, List.suffix_refl _, Nat.le_refl _⟩

theorem State.wrDram_keeps (s : State) (a : Nat) (l : List Byte) : Keeps 0x4000000000020 s (s.wrDram a l) := by
  unfold State.wrDram
  exact .app (.app (.refl _ _) (keeps_dram s a l) rfl) (keeps_dramc { s with dram := writeBytes s.dram a l } _) rfl

theorem keeps_mram (s : State) (a : Nat) (l : List Byte) :
    Keeps 0x20000 s { s with crn := { s.crn with mram := writeBytes s.crn.mram a l } } :=
  ⟨by intro p hp; cases p <;> first | rfl | exact absurd hp (by decide),
    fun h => ⟨h.1, h.2.1, h.2.2.1, h.2.2.2.1, writeBytes_wf _ _ _ h.2.2.2.2.1, h.2.2.2.2.2⟩, List.suffix_refl _, Nat.le_refl _⟩

/-- The cairn store but for its MRAM. -/
theorem keeps_crn (t : State) (v : CairnSt) (h : v.mram = t.crn.mram) : Keeps 0x20000 t { t with crn := v } :=
  (Keeps.refl _ t).upd (by intro p hp; cases p <;> first | rfl | exact absurd hp (by decide)) rfl rfl rfl rfl h rfl rfl rfl rfl

/-- The cairn store with an MRAM in canonical form. -/
theorem keeps_crnWf (t : State) (v : CairnSt) (hv : Memory.wf v.mram = true) : Keeps 0x20000 t { t with crn := v } :=
  ⟨by intro p hp; cases p <;> first | rfl | exact absurd hp (by decide),
    fun h => ⟨h.1, h.2.1, h.2.2.1, h.2.2.2.1, hv, h.2.2.2.2.2⟩, List.suffix_refl _, Nat.le_refl _⟩

theorem keeps_mirror (s : State) (m : List Host.Cell) (hm : s.canon → Memory.wf m = true) : Keeps 0x10000000000 s { s with mirror := m } :=
  ⟨by intro p hp; cases p <;> first | rfl | exact absurd hp (by decide),
    fun h => ⟨h.1, h.2.1, h.2.2.1, h.2.2.2.1, h.2.2.2.2.1, hm h, h.2.2.2.2.2.2⟩, List.suffix_refl _, Nat.le_refl _⟩

theorem keeps_memIs (s : State) (m : List Host.Cell) (hm : s.canon → Memory.wf m = true) : Keeps 0x10 s { s with mem := m } :=
  ⟨by intro p hp; cases p <;> first | rfl | exact absurd hp (by decide),
    fun h => ⟨h.1, h.2.1, hm h, h.2.2.2⟩, List.suffix_refl _, Nat.le_refl _⟩

theorem keeps_emit (s : State) (o : Out) : Keeps 0x800 s (s.emit o) :=
  ⟨by intro p hp; cases p <;> first | rfl | exact absurd hp (by decide), id, List.suffix_cons _ _, Nat.le_refl _⟩

theorem keeps_free (s : State) : Keeps 0x400 s s.free.2 :=
  ⟨by intro p hp; cases p <;> first | rfl | exact absurd hp (by decide), id, List.suffix_refl _, Nat.le_succ _⟩

theorem State.free_keeps {s : State} {v : Nat} {t : State} (h : s.free = (v, t)) : Keeps 0x400 s t := by
  have h0 := keeps_free s
  rw [h] at h0
  exact h0

end Sys2Proof.Machine
end

