-- ==== Sys2Proof/Laws/KeepsOps.lean ====
section
/-!
SUPPORT. Laws/KeepsOps.lean: for each operation of the machine and each command's meaning, the parts of the state it may change (`Keeps`), in the
order in which they are built from one another.  The mask is the union of the masks of what the operation calls.
-/

set_option linter.all false

namespace Sys2Proof.Machine

theorem State.stageFields_keeps (s : State) (a1 : Nat) (a2 : Nat) : Keeps 4 s (@State.stageFields s a1 a2) := by
  unfold State.stageFields
  exact .app (.refl _ _) (keeps_wr _ _ _) rfl

theorem State.useStaged_keeps (s : State) : Keeps 516 s (@State.useStaged s) := by
  unfold State.useStaged
  refine .foldl _ _ ?_ (fun u1 a1 => ?_)
  · exact .refl _ _
  · extract_lets x2_0
    have hx2_0 : Keeps 516 u1 x2_0 := by
      unfold x2_0
      exact .app (.refl _ _) (State.stageFields_keeps _ _ _) rfl
    exact .app hx2_0 (keeps_heldLo _ _) rfl

theorem State.setF_keeps (s : State) (a1 : Fld) (a2 : Nat) : Keeps 4 s (@State.setF s a1 a2) := by
  unfold State.setF
  exact .app (.refl _ _) (keeps_wr _ _ _) rfl

theorem State.genRegs_keeps (s : State) : Keeps 4 s (@State.genRegs s) := by
  unfold State.genRegs
  extract_lets x3_0 x3_1 x3_2
  have hx3_2 : Keeps 4 s x3_2 := by
    unfold x3_2
    exact .app (.app (.refl _ _) (State.setF_keeps _ _ _) rfl) (State.setF_keeps _ _ _) rfl
  split
  · exact .app hx3_2 (State.setF_keeps _ _ _) rfl
  · exact hx3_2

theorem State.sendVec_keeps (s : State) (a1 : Nat) : Keeps 2056 s (@State.sendVec s a1) := by
  unfold State.sendVec
  refine .ite (fun _ => ?_) (fun _ => ?_)
  · exact .app (.refl _ _) (keeps_wr4 _ _ _) rfl
  · refine .ite (fun _ => ?_) (fun _ => ?_)
    · exact .refl _ _
    · exact .app (.refl _ _) (keeps_emit _ _) rfl

theorem State.raise_keeps (s : State) (a1 : Fld) (a2 : Nat) (a3 : Nat) : Keeps 2060 s (@State.raise s a1 a2 a3) := by
  unfold State.raise
  refine .ite (fun _ => ?_) (fun _ => ?_)
  · exact .refl _ _
  · extract_lets x4_0
    have hx4_0 : Keeps 2060 s x4_0 := by
      unfold x4_0
      exact .app (.refl _ _) (State.setF_keeps _ _ _) rfl
    refine .ite (fun _ => ?_) (fun _ => ?_)
    · exact .app hx4_0 (State.sendVec_keeps _ _) rfl
    · exact hx4_0

theorem State.raiseCLS_keeps (s : State) (a1 : Fld) : Keeps 2060 s (@State.raiseCLS s a1) := by
  unfold State.raiseCLS
  exact .app (.refl _ _) (State.raise_keeps _ _ _ _) rfl

theorem State.strike_keeps (s : State) : Keeps 72057594038454796 s (@State.strike s) := by
  unfold State.strike
  extract_lets x5_0 x5_1 x5_2 x5_3 x5_4 x5_5 x5_6 x5_7 x5_8 x5_9 x5_10 x5_11 x5_12
  have hx5_0 : Keeps 72057594038454796 s x5_0 := by
    unfold x5_0
    exact .app (.refl _ _) (State.useStaged_keeps _) rfl
  have hx5_8 : Keeps 72057594038454796 s x5_8 := by
    unfold x5_8
    refine .upd (t := x5_0) ?_ (by intro p hp; cases p <;> first | exact absurd hp (by decide) | rfl) rfl rfl rfl rfl rfl rfl rfl rfl rfl
    exact hx5_0
  have hx5_9 : Keeps 72057594038454796 s x5_9 := by
    unfold x5_9
    exact .app (.app hx5_8 (State.setF_keeps _ _ _) rfl) (State.setF_keeps _ _ _) rfl
  have hx5_10 : Keeps 72057594038454796 s x5_10 := by
    unfold x5_10
    exact .app (.app hx5_9 (keeps_wr _ _ _) rfl) (State.setF_keeps _ _ _) rfl
  have hx5_11 : Keeps 72057594038454796 s x5_11 := by
    unfold x5_11
    exact .app (.app (.app hx5_10 (State.genRegs_keeps _) rfl) (State.setF_keeps _ _ _) rfl) (State.setF_keeps _ _ _) rfl
  have hx5_12 : Keeps 72057594038454796 s x5_12 := by
    unfold x5_12
    exact .app (.app hx5_11 (State.setF_keeps _ _ _) rfl) (State.setF_keeps _ _ _) rfl
  exact .app (.app hx5_12 (State.setF_keeps _ _ _) rfl) (State.raiseCLS_keeps _ _) rfl

theorem State.setTally_keeps (s : State) (a1 : Nat) (a2 : Nat) (a3 : Bool) : Keeps 4 s (@State.setTally s a1 a2 a3) := by
  unfold State.setTally
  extract_lets x6_0
  exact .app (.app (.refl _ _) (keeps_wr _ _ _) rfl) (keeps_wr _ _ _) rfl

theorem State.addTally_keeps (s : State) (a1 : Nat) (a2 : Nat) : Keeps 4 s (@State.addTally s a1 a2) := by
  unfold State.addTally
  extract_lets x7_0
  exact .app (.refl _ _) (State.setTally_keeps _ _ _ _) rfl

theorem State.raiseTLY_keeps (s : State) (a1 : Fld) : Keeps 2060 s (@State.raiseTLY s a1) := by
  unfold State.raiseTLY
  exact .app (.refl _ _) (State.raise_keeps _ _ _ _) rfl

theorem State.orF_keeps (s : State) (a1 : Fld) (a2 : Nat) : Keeps 4 s (@State.orF s a1 a2) := by
  unfold State.orF
  exact .app (.refl _ _) (State.setF_keeps _ _ _) rfl

theorem State.portTally_keeps (s : State) (a1 : Nat) (a2 : Nat) (a3 : Nat) : Keeps 2060 s (@State.portTally s a1 a2 a3) := by
  unfold State.portTally
  refine .ite (fun _ => ?_) (fun _ => ?_)
  · exact .refl _ _
  · extract_lets x8_0
    have hx8_0 : Keeps 2060 s x8_0 := by
      unfold x8_0
      exact .app (.refl _ _) (State.addTally_keeps _ _ _) rfl
    refine .ite (fun _ => ?_) (fun _ => ?_)
    · exact .app (.app hx8_0 (State.orF_keeps _ _ _) rfl) (State.raiseTLY_keeps _ _) rfl
    · exact hx8_0

theorem State.count_keeps (s : State) (a1 : Fld) (a2 : Nat) : Keeps 4 s (@State.count s a1 a2) := by
  unfold State.count
  exact .app (.refl _ _) (State.setF_keeps _ _ _) rfl

theorem State.countWhy_keeps (s : State) (a1 : Frame) (a2 : Nat) : Keeps 36028797018966028 s (@State.countWhy s a1 a2) := by
  unfold State.countWhy
  refine .ite (fun _ => ?_) (fun _ => ?_)
  · exact .refl _ _
  · extract_lets x9_0 x9_1
    have hx9_0 : Keeps 36028797018966028 s x9_0 := by
      unfold x9_0
      exact .app (.refl _ _) (State.portTally_keeps _ _ _ _) rfl
    refine .ite (fun _ => ?_) (fun _ => ?_)
    · exact .app hx9_0 (State.count_keeps _ _ _) rfl
    · refine .ite (fun _ => ?_) (fun _ => ?_)
      · split
        · extract_lets x10_0
          exact .app hx9_0 (keeps_tly _ _) rfl
        · exact hx9_0
      · exact hx9_0

theorem State.strmTally_keeps (s : State) (a1 : Nat) (a2 : Nat) : Keeps 206158430208 s (@State.strmTally s a1 a2) := by
  unfold State.strmTally
  extract_lets x11_0
  refine .ite (fun _ => ?_) (fun _ => ?_)
  · refine .upd (t := s) ?_ (by intro p hp; cases p <;> first | exact absurd hp (by decide) | rfl) rfl rfl rfl rfl rfl rfl rfl rfl rfl
    exact .refl _ _
  · exact .app (.refl _ _) (keeps_strm _ _) rfl

theorem State.raiseSCH_keeps (s : State) (a1 : Fld) : Keeps 2060 s (@State.raiseSCH s a1) := by
  unfold State.raiseSCH
  exact .app (.refl _ _) (State.raise_keeps _ _ _ _) rfl

theorem State.blockFilter_keeps (s : State) (a1 : Nat) : Keeps 2076 s (@State.blockFilter s a1) := by
  unfold State.blockFilter
  extract_lets x12_0
  exact .app (.app (.app (.app (.refl _ _) (keeps_wrMem _ _ _) rfl) (State.setF_keeps _ _ _) rfl) (State.setF_keeps _ _ _) rfl) (State.raiseSCH_keeps _ _) rfl

theorem State.putBuckets_keeps (s : State) (a1 : Nat) (a2 : Int) (a3 : Int) : Keeps 34359738368 s (@State.putBuckets s a1 a2 a3) := by
  unfold State.putBuckets
  exact .app (.refl _ _) (keeps_meters _ _) rfl

theorem State.meterApply_keeps0 (s : State) (a1 : Nat) (a2 : Nat) (a3 : Nat) : Keeps 34359738368 s (@State.meterApply s a1 a2 a3).2.2 := by
  unfold State.meterApply
  extract_lets x13_0 x13_1 x13_2
  refine .iteP (fun r : Nat × Option Nat × State => r.2.2) (fun _ => ?_) (fun _ => ?_)
  · dsimp only
    exact .refl _ _
  · refine .iteP (fun r : Nat × Option Nat × State => r.2.2) (fun _ => ?_) (fun _ => ?_)
    · dsimp only
      exact .app (.refl _ _) (State.putBuckets_keeps _ _ _ _) rfl
    · refine .iteP (fun r : Nat × Option Nat × State => r.2.2) (fun _ => ?_) (fun _ => ?_)
      · dsimp only
        exact .app (.refl _ _) (State.putBuckets_keeps _ _ _ _) rfl
      · dsimp only
        exact .refl _ _

theorem State.meterApply_keeps {s : State} {a1 : Nat} {a2 : Nat} {a3 : Nat} {r0 r1} {t : State} (h : @State.meterApply s a1 a2 a3 = (r0, (r1, t))) : Keeps 34359738368 s t := by
  have h0 := State.meterApply_keeps0 s a1 a2 a3
  rw [h] at h0
  exact h0

theorem State.meterFrame_keeps0 (s : State) (a1 : Frame) (a2 : Nat) (a3 : Nat) : Keeps 34359738368 s (@State.meterFrame s a1 a2 a3).2.2 := by
  unfold State.meterFrame
  extract_lets x14_0 x14_1 x14_2
  dsimp only
  unfold x14_1
  exact .app (.refl _ _) (State.meterApply_keeps rfl) rfl

theorem State.meterFrame_keeps {s : State} {a1 : Frame} {a2 : Nat} {a3 : Nat} {r0 r1} {t : State} (h : @State.meterFrame s a1 a2 a3 = (r0, (r1, t))) : Keeps 34359738368 s t := by
  have h0 := State.meterFrame_keeps0 s a1 a2 a3
  rw [h] at h0
  exact h0

theorem State.streamFilter_keeps0 (s : State) (a1 : Frame) (a2 : Nat) : Keeps 240518170652 s (@State.streamFilter s a1 a2).2.2 := by
  unfold State.streamFilter
  extract_lets x15_0 x15_1 x15_2 x15_3 x15_4 x15_5 x15_6 x15_7 x15_8 x15_9 x15_10 x15_11 x15_12 x15_13 x15_14
  have hx15_5 : Keeps 240518170652 s x15_5 := by
    unfold x15_5
    exact .app (.refl _ _) (State.strmTally_keeps _ _ _) rfl
  have hx15_14 : Keeps 240518170652 s x15_14 := by
    unfold x15_14
    refine .ite (fun _ => ?_) (fun _ => ?_)
    · refine .app ?_ (State.strmTally_keeps _ _ _) rfl
      unfold x15_10
      exact .app hx15_5 (State.meterFrame_keeps rfl) rfl
    · refine .ite (fun _ => ?_) (fun _ => ?_)
      · refine .app ?_ (State.strmTally_keeps _ _ _) rfl
        unfold x15_10
        exact .app hx15_5 (State.meterFrame_keeps rfl) rfl
      · unfold x15_10
        exact .app hx15_5 (State.meterFrame_keeps rfl) rfl
  refine .iteP (fun r : Bool × Frame × State => r.2.2) (fun _ => ?_) (fun _ => ?_)
  · dsimp only
    exact .app hx15_5 (State.strmTally_keeps _ _ _) rfl
  · refine .iteP (fun r : Bool × Frame × State => r.2.2) (fun _ => ?_) (fun _ => ?_)
    · dsimp only
      refine .ite (fun _ => ?_) (fun _ => ?_)
      · exact .app (.app hx15_5 (State.strmTally_keeps _ _ _) rfl) (State.blockFilter_keeps _ _) rfl
      · exact .app hx15_5 (State.strmTally_keeps _ _ _) rfl
    · refine .iteP (fun r : Bool × Frame × State => r.2.2) (fun _ => ?_) (fun _ => ?_)
      · dsimp only
        refine .ite (fun _ => ?_) (fun _ => ?_)
        · exact .app (.app hx15_5 (State.strmTally_keeps _ _ _) rfl) (State.blockFilter_keeps _ _) rfl
        · exact .app hx15_5 (State.strmTally_keeps _ _ _) rfl
      · refine .iteP (fun r : Bool × Frame × State => r.2.2) (fun _ => ?_) (fun _ => ?_)
        · dsimp only
          exact hx15_5
        · dsimp only
          exact hx15_14

theorem State.streamFilter_keeps {s : State} {a1 : Frame} {a2 : Nat} {r0 r1} {t : State} (h : @State.streamFilter s a1 a2 = (r0, (r1, t))) : Keeps 240518170652 s t := by
  have h0 := State.streamFilter_keeps0 s a1 a2
  rw [h] at h0
  exact h0

theorem State.putGate_keeps (s : State) (a1 : GateSt) : Keeps 4294967296 s (@State.putGate s a1) := by
  unfold State.putGate
  exact .app (.refl _ _) (keeps_gates _ _) rfl

theorem State.setB_keeps (s : State) (a1 : Fld) (a2 : Bool) : Keeps 4 s (@State.setB s a1 a2) := by
  unfold State.setB
  exact .app (.refl _ _) (State.setF_keeps _ _ _) rfl

theorem State.powerGate_keeps (s : State) : Keeps 4 s (@State.powerGate s) := by
  unfold State.powerGate
  refine .foldS ?_ (fun u16 a16 => ?_)
  · exact .refl _ _
  · exact .app (.refl _ _) (State.setB_keeps _ _ _) rfl

theorem State.eqPreset_keeps (s : State) (a1 : Nat) : Keeps 268435460 s (@State.eqPreset s a1) := by
  unfold State.eqPreset
  split
  · refine .ite (fun _ => ?_) (fun _ => ?_)
    · exact .refl _ _
    · extract_lets x17_0
      exact .app (.app (.refl _ _) (keeps_lanes _ _) rfl) (State.setF_keeps _ _ _) rfl
  · exact .refl _ _

theorem State.laneStart_keeps (s : State) (a1 : Nat) : Keeps 268435460 s (@State.laneStart s a1) := by
  unfold State.laneStart
  extract_lets x18_0
  have hx18_0 : Keeps 268435460 s x18_0 := by
    unfold x18_0
    exact .app (.app (.refl _ _) (keeps_wr _ _ _) rfl) (State.eqPreset_keeps _ _) rfl
  exact .app hx18_0 (keeps_lanes _ _) rfl

theorem State.lanesStart_keeps (s : State) (a1 : List LaneSt) : Keeps 268435460 s (@State.lanesStart s a1) := by
  induction a1 generalizing s with
  | nil =>
    simp only [State.lanesStart]
    exact .refl _ _
  | cons b l ih =>
    simp only [State.lanesStart]
    refine .app (k := 268435460) ?_ (ih _) rfl
    exact .app (.refl _ _) (State.laneStart_keeps _ _) rfl

theorem State.lanesBegin_keeps (s : State) : Keeps 268435460 s (@State.lanesBegin s) := by
  unfold State.lanesBegin
  exact .app (.refl _ _) (State.lanesStart_keeps _ _) rfl

theorem State.faultEdge_keeps (s : State) (a1 : State) : Keeps 32768 s (@State.faultEdge s a1) := by
  unfold State.faultEdge
  refine .ite (fun _ => ?_) (fun _ => ?_)
  · exact .app (.refl _ _) (keeps_mode _ _) rfl
  · exact .refl _ _

theorem State.raiseGLB_keeps (s : State) (a1 : Fld) : Keeps 2060 s (@State.raiseGLB s a1) := by
  unfold State.raiseGLB
  exact .app (.refl _ _) (State.raise_keeps _ _ _ _) rfl

theorem State.imgState_keeps (s : State) (a1 : Nat) : Keeps 281474976745484 s (@State.imgState s a1) := by
  unfold State.imgState
  extract_lets x19_0 x19_1 x19_2 x19_3
  have hx19_2 : Keeps 281474976745484 s x19_2 := by
    unfold x19_2
    refine .ite (fun _ => ?_) (fun _ => ?_)
    · exact .app (.refl _ _) (keeps_load _ _) rfl
    · exact .refl _ _
  have hx19_3 : Keeps 281474976745484 s x19_3 := by
    unfold x19_3
    exact .app (.app hx19_2 (State.setF_keeps _ _ _) rfl) (State.faultEdge_keeps _ _) rfl
  refine .ite (fun _ => ?_) (fun _ => ?_)
  · exact .app hx19_3 (State.raiseGLB_keeps _ _) rfl
  · exact hx19_3

theorem State.sealNow_keeps (s : State) : Keeps 281475245189132 s s.sealNow := by
  unfold State.sealNow
  split
  · exact .refl _ _
  · next i =>
    extract_lets t st _ _ u
    have ht : Keeps 281475245189132 s t := by
      unfold t
      exact .app (.app (.refl _ _) (keeps_isSealed _ _) rfl) (State.powerGate_keeps _) rfl
    clear_value t
    have hu : Keeps 281475245189132 s u :=
      ht.upd (by intro p hp; cases p <;> first | exact absurd hp (by decide) | rfl) rfl rfl rfl rfl rfl rfl rfl rfl rfl
    clear_value u
    exact .app (.app hu (State.imgState_keeps _ _) rfl) (State.lanesBegin_keeps _) rfl

theorem State.doSeal_keeps (s : State) : Keeps 281475245189132 s (@State.doSeal s) := by
  unfold State.doSeal
  refine .ite (fun _ => ?_) (fun _ => ?_)
  · exact .app (.refl _ _) (State.sealNow_keeps _) rfl
  · exact .refl _ _

theorem State.useLo_keeps (s : State) (a1 : Nat) : Keeps 516 s (@State.useLo s a1) := by
  unfold State.useLo
  split
  · extract_lets x20_0
    have hx20_0 : Keeps 516 s x20_0 := by
      unfold x20_0
      exact .app (.refl _ _) (keeps_wr _ _ _) rfl
    exact .app hx20_0 (keeps_heldLo _ _) rfl
  · exact .refl _ _

theorem State.failPush_keeps (s : State) (a1 : Nat) : Keeps 4 s (@State.failPush s a1) := by
  unfold State.failPush
  exact .app (.refl _ _) (State.setF_keeps _ _ _) rfl

theorem State.doImgPush_keeps (s : State) : Keeps 281474976743940 s (@State.doImgPush s) := by
  unfold State.doImgPush
  extract_lets x21_0 x21_1 x21_2 x21_3 x21_4 x21_5 x21_6
  have hx21_0 : Keeps 281474976743940 s x21_0 := by
    unfold x21_0
    exact .app (.refl _ _) (State.useLo_keeps _ _) rfl
  have hx21_4 : Keeps 281474976743940 s x21_4 := by
    unfold x21_4
    exact .app hx21_0 (keeps_load _ _) rfl
  refine .ite (fun _ => ?_) (fun _ => ?_)
  · exact .app hx21_0 (State.failPush_keeps _ _) rfl
  · refine .ite (fun _ => ?_) (fun _ => ?_)
    · refine .upd (t := x21_4) ?_ (by intro p hp; cases p <;> first | exact absurd hp (by decide) | rfl) rfl rfl rfl rfl rfl rfl rfl rfl rfl
      exact hx21_4
    · exact hx21_4

theorem State.ropeSend_keeps (s : State) (a1 : List Byte) : Keeps 2048 s (@State.ropeSend s a1) := by
  unfold State.ropeSend
  refine .ite (fun _ => ?_) (fun _ => ?_)
  · exact .refl _ _
  · exact .app (.refl _ _) (keeps_emit _ _) rfl

theorem State.tellState_keeps (s : State) (a1 : Nat) (a2 : List Byte) (a3 : List Byte) : Keeps 2048 s (@State.tellState s a1 a2 a3) := by
  unfold State.tellState
  exact .app (.refl _ _) (State.ropeSend_keeps _ _) rfl

theorem State.doLeap_keeps (s : State) : Keeps 844424930166796 s (@State.doLeap s) := by
  unfold State.doLeap
  refine .ite (fun _ => ?_) (fun _ => ?_)
  · exact .app (.refl _ _) (State.failPush_keeps _ _) rfl
  · extract_lets x22_0 x22_1 x22_2 x22_3 x22_4
    have hx22_1 : Keeps 844424930166796 s x22_1 := by
      unfold x22_1
      exact .app (.app (.refl _ _) (State.tellState_keeps _ _ _ _) rfl) (State.failPush_keeps _ _) rfl
    have hx22_4 : Keeps 844424930166796 s x22_4 := by
      unfold x22_4
      refine .upd (t := x22_1) ?_ (by intro p hp; cases p <;> first | exact absurd hp (by decide) | rfl) rfl rfl rfl rfl rfl rfl rfl rfl rfl
      exact hx22_1
    exact .app hx22_4 (State.imgState_keeps _ _) rfl

theorem State.leapAbort_keeps (s : State) (a1 : Nat) : Keeps 844424930166796 s (@State.leapAbort s a1) := by
  unfold State.leapAbort
  extract_lets x23_0 x23_1 x23_2
  have hx23_0 : Keeps 844424930166796 s x23_0 := by
    unfold x23_0
    exact .app (.app (.app (.refl _ _) (State.tellState_keeps _ _ _ _) rfl) (State.imgState_keeps _ _) rfl) (State.failPush_keeps _ _) rfl
  refine .upd (t := x23_0) ?_ (by intro p hp; cases p <;> first | exact absurd hp (by decide) | rfl) rfl rfl rfl rfl rfl rfl rfl rfl rfl
  exact hx23_0

theorem State.doLeapAbort_keeps (s : State) : Keeps 844424930166796 s (@State.doLeapAbort s) := by
  unfold State.doLeapAbort
  refine .ite (fun _ => ?_) (fun _ => ?_)
  · exact .app (.refl _ _) (State.leapAbort_keeps _ _) rfl
  · exact .refl _ _

theorem State.raiseCRN_keeps (s : State) (a1 : Fld) : Keeps 2060 s (@State.raiseCRN s a1) := by
  unfold State.raiseCRN
  exact .app (.refl _ _) (State.raise_keeps _ _ _ _) rfl

theorem State.mergeSlot_keeps (s : State) (a1 : Nat) (a2 : Nat) : Keeps 131072 s (s.mergeSlot a1 a2) := by
  unfold State.mergeSlot
  exact keeps_mram s _ _

theorem State.cairn_keeps (s : State) (a1 : Nat) (a2 : Nat) (a3 : List Byte) (a4 : optParam Nat 0) : Keeps 133132 s (@State.cairn s a1 a2 a3 a4) := by
  unfold State.cairn
  refine .ite (fun _ => ?_) (fun _ => ?_)
  · exact .refl _ _
  · extract_lets x24_0 x24_1 x24_2 x24_3
    split
    · refine .ite (fun _ => ?_) (fun _ => ?_)
      · exact .app (.refl _ _) (keeps_crn _ _ rfl) rfl
      · refine .ite (fun _ => ?_) (fun _ => ?_)
        · exact .app (.refl _ _) (keeps_crn _ _ rfl) rfl
        · exact .app (.app (.refl _ _) (State.count_keeps _ _ _) rfl) (State.raiseCRN_keeps _ _) rfl
    · refine .ite (fun _ => ?_) (fun _ => ?_)
      · exact .app (.refl _ _) (State.mergeSlot_keeps _ _ _) rfl
      · exact .app (.refl _ _) (keeps_crn _ _ rfl) rfl

theorem State.doFloorRaise_keeps (s : State) : Keeps 149516 s (@State.doFloorRaise s) := by
  unfold State.doFloorRaise
  extract_lets x25_0 x25_1
  refine .ite (fun _ => ?_) (fun _ => ?_)
  · exact .refl _ _
  · refine .ite (fun _ => ?_) (fun _ => ?_)
    · exact .app (.refl _ _) (State.cairn_keeps _ _ _ _ _) rfl
    · exact .app (.app (.app (.refl _ _) (keeps_otp _ _) rfl) (State.setF_keeps _ _ _) rfl) (State.setF_keeps _ _ _) rfl

theorem State.ctlImg_keeps (s : State) (a1 : Nat) : Keeps 844425198758412 s (@State.ctlImg s a1) := by
  unfold State.ctlImg
  refine .on ?_ (fun u26 => ?_)
  · refine .on ?_ (fun u27 => ?_)
    · refine .on ?_ (fun u28 => ?_)
      · refine .on ?_ (fun u29 => ?_)
        · refine .on ?_ (fun u30 => ?_)
          · exact .refl _ _
          · exact .app (.refl _ _) (State.doSeal_keeps _) rfl
        · exact .app (.refl _ _) (State.doImgPush_keeps _) rfl
      · exact .app (.refl _ _) (State.doLeap_keeps _) rfl
    · exact .app (.refl _ _) (State.doLeapAbort_keeps _) rfl
  · exact .app (.refl _ _) (State.doFloorRaise_keeps _) rfl

theorem State.reqResult_keeps (s : State) (a1 : Nat) : Keeps 4 s (@State.reqResult s a1) := by
  unfold State.reqResult
  exact .app (.refl _ _) (State.setF_keeps _ _ _) rfl

theorem Keeps.requestFrom {m key : Nat} {b : Bool} {s t : State} {f : State → State} (h : Keeps m s t) (hm : 4 &&& m = 4)
    (hf : ∀ u, Keeps m u (f u)) : Keeps m s (t.requestFrom key b f) := by
  unfold State.requestFrom
  refine .request h (fun u => .ite (fun _ => .app (.refl _ _) (State.reqResult_keeps _ _) hm) (fun _ =>
    .ite (fun _ => ?_) (fun _ => .app (.refl _ _) (State.reqResult_keeps _ _) hm)))
  exact .app (.app (.refl _ _) (State.reqResult_keeps _ _) hm) (hf _) (Nat.and_self m)

theorem State.replanStop_keeps (s : State) : Keeps 4 s (@State.replanStop s) := by
  unfold State.replanStop
  refine .ite (fun _ => ?_) (fun _ => ?_)
  · exact .app (.app (.app (.refl _ _) (State.setF_keeps _ _ _) rfl) (State.setF_keeps _ _ _) rfl) (State.setF_keeps _ _ _) rfl
  · exact .refl _ _

theorem State.parkStart_keeps (s : State) : Keeps 34820 s (@State.parkStart s) := by
  unfold State.parkStart
  extract_lets x31_0 x31_1 x31_2
  have hx31_0 : Keeps 34820 s x31_0 := by
    unfold x31_0
    refine .ite (fun _ => ?_) (fun _ => ?_)
    · exact .app (.refl _ _) (State.tellState_keeps _ _ _ _) rfl
    · exact .refl _ _
  have hx31_1 : Keeps 34820 s x31_1 := by
    unfold x31_1
    exact .app (.app hx31_0 (State.setF_keeps _ _ _) rfl) (State.replanStop_keeps _) rfl
  exact .app hx31_1 (keeps_mode _ _) rfl

theorem State.doReqPark_keeps (s : State) (a1 : Nat) (a2 : Bool) : Keeps 34820 s (@State.doReqPark s a1 a2) := by
  unfold State.doReqPark
  refine .requestFrom ?_ rfl (fun u32 => ?_)
  · exact .refl _ _
  · refine .ite (fun _ => ?_) (fun _ => ?_)
    · exact .app (.refl _ _) (keeps_mode _ _) rfl
    · exact .app (.refl _ _) (State.parkStart_keeps _) rfl

theorem State.delFrame_keeps (s : State) (a1 : Nat) : Keeps 16777216 s (@State.delFrame s a1) := by
  unfold State.delFrame
  exact .app (.refl _ _) (keeps_frames _ _) rfl

theorem State.settleFrame_keeps (s : State) (a1 : Nat) : Keeps 16777216 s (@State.settleFrame s a1) := by
  unfold State.settleFrame
  split
  · exact .refl _ _
  · refine .ite (fun _ => ?_) (fun _ => ?_)
    · exact .app (.refl _ _) (State.delFrame_keeps _ _) rfl
    · exact .refl _ _

theorem State.dropThreads_keeps (s : State) (a1 : Thread → Bool) : Keeps 3145728 s (@State.dropThreads s a1) := by
  unfold State.dropThreads
  refine .upd (t := s) ?_ (by intro p hp; cases p <;> first | exact absurd hp (by decide) | rfl) rfl rfl rfl rfl rfl rfl rfl rfl rfl
  exact .refl _ _

theorem State.endThreads_keeps (s : State) (a1 : Target) : Keeps 3145728 s (@State.endThreads s a1) := by
  unfold State.endThreads
  exact .app (.refl _ _) (State.dropThreads_keeps _ _) rfl

theorem State.badFree_keeps (s : State) (a1 : Nat) : Keeps 67108864 s (@State.badFree s a1) := by
  unfold State.badFree
  exact .app (.refl _ _) (keeps_buf _ _) rfl

theorem State.raiseBPM_keeps (s : State) (a1 : Fld) : Keeps 2060 s (@State.raiseBPM s a1) := by
  unfold State.raiseBPM
  exact .app (.refl _ _) (State.raise_keeps _ _ _ _) rfl

theorem State.refuseBead_keeps (s : State) (a1 : Nat) (a2 : Nat) (a3 : Nat) (a4 : Nat) : Keeps 4 s (@State.refuseBead s a1 a2 a3 a4) := by
  unfold State.refuseBead
  extract_lets x33_0
  have hx33_0 : Keeps 4 s x33_0 := by
    unfold x33_0
    exact .app (.app (.refl _ _) (State.setF_keeps _ _ _) rfl) (State.setF_keeps _ _ _) rfl
  exact .app (.app (.app hx33_0 (State.setF_keeps _ _ _) rfl) (State.setF_keeps _ _ _) rfl) (State.setF_keeps _ _ _) rfl

theorem State.beadToQuar_keeps (s : State) (a1 : Nat) (a2 : Nat) : Keeps 67108864 s (@State.beadToQuar s a1 a2) := by
  unfold State.beadToQuar
  exact .app (.refl _ _) (keeps_buf _ _) rfl

theorem State.raiseWarn2_keeps (s : State) : Keeps 2060 s (@State.raiseWarn2 s) := by
  unfold State.raiseWarn2
  refine .ite (fun _ => ?_) (fun _ => ?_)
  · exact .app (.refl _ _) (State.sendVec_keeps _ _) rfl
  · exact .app (.refl _ _) (State.raiseBPM_keeps _ _) rfl

theorem State.poolEval_keeps (s : State) (a1 : Nat) : Keeps 67110924 s (@State.poolEval s a1) := by
  unfold State.poolEval
  refine .ite (fun _ => ?_) (fun _ => ?_)
  · exact .refl _ _
  · extract_lets x34_0 x34_1 x34_2 x34_3 x34_4 x34_5 x34_6
    have hx34_4 : Keeps 67110924 s x34_4 := by
      unfold x34_4
      refine .ite (fun _ => ?_) (fun _ => ?_)
      · exact .refl _ _
      · refine .ite (fun _ => ?_) (fun _ => ?_)
        · exact .app (.refl _ _) (State.setF_keeps _ _ _) rfl
        · refine .ite (fun _ => ?_) (fun _ => ?_)
          · exact .app (.refl _ _) (State.setF_keeps _ _ _) rfl
          · exact .refl _ _
    have hx34_5 : Keeps 67110924 s x34_5 := by
      unfold x34_5
      exact .app hx34_4 (State.setB_keeps _ _ _) rfl
    refine .ite (fun _ => ?_) (fun _ => ?_)
    · refine .ite (fun _ => ?_) (fun _ => ?_)
      · exact hx34_5
      · exact .app (.app (.app hx34_5 (keeps_buf _ _) rfl) (State.orF_keeps _ _ _) rfl) (State.raiseWarn2_keeps _) rfl
    · refine .ite (fun _ => ?_) (fun _ => ?_)
      · exact .app hx34_5 (keeps_buf _ _) rfl
      · exact hx34_5

theorem State.dec_keeps (s : State) (a1 : Fld) (a2 : Nat) : Keeps 4 s (@State.dec s a1 a2) := by
  unfold State.dec
  exact .app (.refl _ _) (State.setF_keeps _ _ _) rfl

theorem State.uncharge_keeps (s : State) (a1 : Nat) (a2 : Nat) : Keeps 67110924 s (@State.uncharge s a1 a2) := by
  unfold State.uncharge
  exact .app (.app (.refl _ _) (State.dec_keeps _ _ _) rfl) (State.poolEval_keeps _ _) rfl

theorem State.dropRef_keeps (s : State) (a1 : Nat) : Keeps 67110924 s (@State.dropRef s a1) := by
  unfold State.dropRef
  split
  · exact .refl _ _
  · refine .ite (fun _ => ?_) (fun _ => ?_)
    · exact .app (.refl _ _) (State.beadToQuar_keeps _ _ _) rfl
    · exact .app (.app (.refl _ _) (keeps_buf _ _) rfl) (State.uncharge_keeps _ _ _) rfl

theorem State.freeAs_keeps (s : State) (a1 : Nat) (a2 : Nat) : Keeps 67110924 s (@State.freeAs s a1 a2) := by
  unfold State.freeAs
  split
  · exact .app (.app (.app (.app (.refl _ _) (State.count_keeps _ _ _) rfl) (State.refuseBead_keeps _ _ _ _ _) rfl) (State.raiseBPM_keeps _ _) rfl) (State.badFree_keeps _ _) rfl
  · refine .ite (fun _ => ?_) (fun _ => ?_)
    · exact .app (.refl _ _) (State.dropRef_keeps _ _) rfl
    · refine .ite (fun _ => ?_) (fun _ => ?_)
      · exact .app (.refl _ _) (State.beadToQuar_keeps _ _ _) rfl
      · exact .app (.app (.app (.app (.refl _ _) (State.count_keeps _ _ _) rfl) (State.refuseBead_keeps _ _ _ _ _) rfl) (State.raiseBPM_keeps _ _) rfl) (State.badFree_keeps _ _) rfl

theorem State.freeAll_keeps (s : State) (a1 : Nat) (a2 : List Nat) : Keeps 67110924 s (@State.freeAll s a1 a2) := by
  induction a2 generalizing s a1 with
  | nil =>
    simp only [State.freeAll]
    exact .refl _ _
  | cons b l ih =>
    simp only [State.freeAll]
    refine .app (k := 67110924) ?_ (ih _ _) rfl
    exact .app (.refl _ _) (State.freeAs_keeps _ _ _) rfl

theorem State.delCopy_keeps (s : State) (a1 : Nat) (a2 : Nat) : Keeps 33554432 s (@State.delCopy s a1 a2) := by
  unfold State.delCopy
  exact .app (.refl _ _) (keeps_copies _ _) rfl

theorem State.depthSub_keeps (s : State) (a1 : Copy) : Keeps 4 s (@State.depthSub s a1) := by
  unfold State.depthSub
  refine .ite (fun _ => ?_) (fun _ => ?_)
  · exact .refl _ _
  · refine .ite (fun _ => ?_) (fun _ => ?_)
    · exact .app (.app (.refl _ _) (State.dec_keeps _ _ _) rfl) (State.dec_keeps _ _ _) rfl
    · exact .app (.refl _ _) (State.dec_keeps _ _ _) rfl

theorem State.releaseCopy_keeps (s : State) (a1 : Copy) : Keeps 103811084 s (@State.releaseCopy s a1) := by
  unfold State.releaseCopy
  exact .app (.app (.app (.app (.refl _ _) (State.depthSub_keeps _ _) rfl) (State.delCopy_keeps _ _ _) rfl) (State.freeAll_keeps _ _ _) rfl) (State.endThreads_keeps _ _) rfl

theorem State.cutCopies_keeps (s : State) (a1 : List Copy) : Keeps 120588300 s (@State.cutCopies s a1) := by
  induction a1 generalizing s with
  | nil =>
    simp only [State.cutCopies]
    exact .refl _ _
  | cons b l ih =>
    simp only [State.cutCopies]
    refine .app (k := 120588300) ?_ (ih _) rfl
    exact .app (.app (.app (.app (.refl _ _) (State.releaseCopy_keeps _ _) rfl) (State.portTally_keeps _ _ _ _) rfl) (State.portTally_keeps _ _ _ _) rfl) (State.settleFrame_keeps _ _) rfl

theorem State.dropCopy_keeps (s : State) (a1 : Copy) (a2 : Nat) : Keeps 120588300 s (@State.dropCopy s a1 a2) := by
  unfold State.dropCopy
  exact .app (.app (.app (.app (.refl _ _) (State.releaseCopy_keeps _ _) rfl) (State.portTally_keeps _ _ _ _) rfl) (State.portTally_keeps _ _ _ _) rfl) (State.settleFrame_keeps _ _) rfl

theorem State.dropCopies_keeps (s : State) (a1 : List Copy) (a2 : Nat) : Keeps 120588300 s (@State.dropCopies s a1 a2) := by
  induction a1 generalizing s a2 with
  | nil =>
    simp only [State.dropCopies]
    exact .refl _ _
  | cons b l ih =>
    simp only [State.dropCopies]
    refine .app (k := 120588300) ?_ (ih _ _) rfl
    exact .app (.refl _ _) (State.dropCopy_keeps _ _ _) rfl

theorem State.flushAll_keeps (s : State) : Keeps 120588300 s (@State.flushAll s) := by
  unfold State.flushAll
  exact .app (.refl _ _) (State.dropCopies_keeps _ _ _) rfl

theorem State.clearIso_keeps (s : State) : Keeps 65540 s (@State.clearIso s) := by
  unfold State.clearIso
  extract_lets x35_0 x35_1 x35_2
  have hx35_0 : Keeps 65540 s x35_0 := by
    unfold x35_0
    exact .app (.app (.app (.refl _ _) (keeps_wr _ _ _) rfl) (keeps_wr _ _ _) rfl) (keeps_wr _ _ _) rfl
  have hx35_1 : Keeps 65540 s x35_1 := by
    unfold x35_1
    exact .app (.app hx35_0 (keeps_wr _ _ _) rfl) (keeps_wr _ _ _) rfl
  exact .app hx35_1 (keeps_flt _ _) rfl

theorem State.recordMal_keeps (s : State) (a1 : Frame) (a2 : Nat × Nat × Nat) : Keeps 4 s (@State.recordMal s a1 a2) := by
  unfold State.recordMal
  extract_lets x36_0 x36_1
  have hx36_1 : Keeps 4 s x36_1 := by
    unfold x36_1
    exact .app (.app (.refl _ _) (State.setF_keeps _ _ _) rfl) (State.setF_keeps _ _ _) rfl
  exact .app (.app (.app hx36_1 (State.setF_keeps _ _ _) rfl) (State.setF_keeps _ _ _) rfl) (State.setF_keeps _ _ _) rfl

theorem State.reachCount_keeps (s : State) (a1 : Frame) : Keeps 4 s (@State.reachCount s a1) := by
  unfold State.reachCount
  refine .ite (fun _ => ?_) (fun _ => ?_)
  · exact .app (.refl _ _) (State.count_keeps _ _ _) rfl
  · exact .refl _ _

theorem State.judged_keeps0 (s : State) (a1 : Frame) : Keeps 4 s (@State.judged s a1).2.2 := by
  unfold State.judged
  split
  · dsimp only
    exact .app (.refl _ _) (State.recordMal_keeps _ _ _) rfl
  · dsimp only
    exact .app (.refl _ _) (State.reachCount_keeps _ _) rfl

theorem State.judged_keeps {s : State} {a1 : Frame} {r0 r1} {t : State} (h : @State.judged s a1 = (r0, (r1, t))) : Keeps 4 s t := by
  have h0 := State.judged_keeps0 s a1
  rw [h] at h0
  exact h0

theorem State.tailMarkFrame_keeps (s : State) (a1 : Nat) : Keeps 33554432 s (@State.tailMarkFrame s a1) := by
  unfold State.tailMarkFrame
  exact .app (.refl _ _) (keeps_copies _ _) rfl

theorem State.withdrawCopies_keeps (s : State) (a1 : List Copy) : Keeps 103811084 s (@State.withdrawCopies s a1) := by
  induction a1 generalizing s with
  | nil =>
    simp only [State.withdrawCopies]
    exact .refl _ _
  | cons b l ih =>
    simp only [State.withdrawCopies]
    refine .app (k := 103811084) ?_ (ih _) rfl
    exact .app (.refl _ _) (State.releaseCopy_keeps _ _) rfl

theorem State.putFrame_keeps (s : State) (a1 : Frame) : Keeps 16777216 s (@State.putFrame s a1) := by
  unfold State.putFrame
  exact .app (.refl _ _) (keeps_frames _ _) rfl

theorem State.dropFrame_keeps (s : State) (a1 : Nat) (a2 : Nat) : Keeps 36028797139552268 s (@State.dropFrame s a1 a2) := by
  unfold State.dropFrame
  split
  · exact .refl _ _
  · extract_lets x37_0 x37_1 x37_2 x37_3 x37_4 x37_5 x37_6 x37_7 x37_8
    have hx37_2 : Keeps 36028797139552268 s x37_2 := by
      unfold x37_2
      unfold x37_0
      refine .iteP (fun r : Option Nat × Frame × State => r.2.2) (fun _ => ?_) (fun _ => ?_)
      · exact .app (.refl _ _) (State.judged_keeps rfl) rfl
      · dsimp only
        exact .refl _ _
    have hx37_3 : Keeps 36028797139552268 s x37_3 := by
      unfold x37_3
      exact .app (.app (.app hx37_2 (State.withdrawCopies_keeps _ _) rfl) (State.tailMarkFrame_keeps _ _) rfl) (State.endThreads_keeps _ _) rfl
    have hx37_5 : Keeps 36028797139552268 s x37_5 := by
      unfold x37_5
      exact .app hx37_3 (State.freeAll_keeps _ _ _) rfl
    have hx37_8 : Keeps 36028797139552268 s x37_8 := by
      unfold x37_8
      exact .app hx37_5 (State.countWhy_keeps _ _ _) rfl
    refine .ite (fun _ => ?_) (fun _ => ?_)
    · refine .ite (fun _ => ?_) (fun _ => ?_)
      · exact .app hx37_8 (State.putFrame_keeps _ _) rfl
      · exact .app hx37_8 (State.delFrame_keeps _ _) rfl
    · exact .app hx37_5 (State.putFrame_keeps _ _) rfl

theorem State.dropFrames_keeps (s : State) (a1 : List Frame) : Keeps 36028797139552268 s (@State.dropFrames s a1) := by
  induction a1 generalizing s with
  | nil =>
    simp only [State.dropFrames]
    exact .refl _ _
  | cons b l ih =>
    simp only [State.dropFrames]
    refine .app (k := 36028797139552268) ?_ (ih _) rfl
    exact .app (.refl _ _) (State.dropFrame_keeps _ _ _) rfl

theorem State.replanStart_keeps (s : State) : Keeps 4 s (@State.replanStart s) := by
  unfold State.replanStart
  exact .app (.app (.app (.refl _ _) (State.setF_keeps _ _ _) rfl) (State.setF_keeps _ _ _) rfl) (State.setF_keeps _ _ _) rfl

theorem State.replanPending_keeps (s : State) : Keeps 4 s (@State.replanPending s) := by
  unfold State.replanPending
  refine .ite (fun _ => ?_) (fun _ => ?_)
  · exact .app (.refl _ _) (State.replanStart_keeps _) rfl
  · exact .refl _ _

theorem State.replanEntry_keeps (s : State) (a1 : Nat) (a2 : Nat) : Keeps 18014398509481988 s (@State.replanEntry s a1 a2) := by
  unfold State.replanEntry
  extract_lets x38_0 x38_1
  have hx38_0 : Keeps 18014398509481988 s x38_0 := by
    unfold x38_0
    refine .ite (fun _ => ?_) (fun _ => ?_)
    · exact .app (.refl _ _) (State.replanPending_keeps _) rfl
    · exact .app (.refl _ _) (State.replanStop_keeps _) rfl
  refine .ite (fun _ => ?_) (fun _ => ?_)
  · exact .app hx38_0 (keeps_age _ _) rfl
  · exact hx38_0

theorem State.maxF_keeps (s : State) (a1 : Fld) (a2 : Nat) : Keeps 4 s (@State.maxF s a1 a2) := by
  unfold State.maxF
  exact .app (.refl _ _) (State.setF_keeps _ _ _) rfl

theorem State.setPostponed_keeps (s : State) (a1 : Nat) (a2 : Nat) : Keeps 1125899906842628 s (@State.setPostponed s a1 a2) := by
  unfold State.setPostponed
  extract_lets x39_0 x39_1 x39_2 x39_3
  have hx39_1 : Keeps 1125899906842628 s x39_1 := by
    unfold x39_1
    exact .app (.refl _ _) (keeps_dramc _ _) rfl
  exact .app (.app hx39_1 (State.setF_keeps _ _ _) rfl) (State.maxF_keeps _ _ _) rfl

theorem State.refreshes_keeps (s : State) (a1 : Nat) (a2 : Nat) : Keeps 2048 s (@State.refreshes s a1 a2) := by
  induction a2 generalizing s a1 with
  | zero =>
    simp only [State.refreshes]
    exact .refl _ _
  | succ n ih =>
    simp only [State.refreshes]
    refine .app (k := 2048) ?_ (ih _ _) rfl
    exact .app (.refl _ _) (keeps_emit _ _) rfl

theorem State.catchUp_keeps (s : State) (a1 : Nat) : Keeps 1125899906844676 s (@State.catchUp s a1) := by
  unfold State.catchUp
  exact .app (.app (.refl _ _) (State.refreshes_keeps _ _ _) rfl) (State.setPostponed_keeps _ _ _) rfl

theorem State.refreshCh_keeps (s : State) (a1 : Nat) : Keeps 1125899906844676 s (@State.refreshCh s a1) := by
  unfold State.refreshCh
  extract_lets x40_0 x40_1 x40_2
  have hx40_1 : Keeps 1125899906844676 s x40_1 := by
    unfold x40_1
    refine .ite (fun _ => ?_) (fun _ => ?_)
    · exact .app (.app (.refl _ _) (State.catchUp_keeps _ _) rfl) (State.catchUp_keeps _ _) rfl
    · exact .refl _ _
  have hx40_2 : Keeps 1125899906844676 s x40_2 := by
    unfold x40_2
    exact .app hx40_1 (State.setB_keeps _ _ _) rfl
  exact .app (.app hx40_2 (State.setF_keeps _ _ _) rfl) (State.setF_keeps _ _ _) rfl

theorem State.refreshRules_keeps (s : State) : Keeps 1125899906844676 s (@State.refreshRules s) := by
  unfold State.refreshRules
  extract_lets x41_0
  have hx41_0 : Keeps 1125899906844676 s x41_0 := by
    unfold x41_0
    refine .foldl _ _ ?_ (fun u42 a42 => ?_)
    · exact .refl _ _
    · exact .app (.refl _ _) (State.refreshCh_keeps _ _) rfl
  exact .app hx41_0 (State.setB_keeps _ _ _) rfl

theorem State.enterMode_keeps (s : State) (a1 : Nat) (a2 : Nat) : Keeps 19140298416359436 s (@State.enterMode s a1 a2) := by
  unfold State.enterMode
  extract_lets x43_0 x43_1 x43_2 x43_3 x43_4 x43_5
  have hx43_1 : Keeps 19140298416359436 s x43_1 := by
    unfold x43_1
    exact .app (.app (.app (.refl _ _) (State.setF_keeps _ _ _) rfl) (State.setF_keeps _ _ _) rfl) (State.setF_keeps _ _ _) rfl
  have hx43_2 : Keeps 19140298416359436 s x43_2 := by
    unfold x43_2
    exact .app (.app (.app hx43_1 (State.setF_keeps _ _ _) rfl) (State.refreshRules_keeps _) rfl) (State.replanEntry_keeps _ _ _) rfl
  have hx43_4 : Keeps 19140298416359436 s x43_4 := by
    unfold x43_4
    exact .app hx43_2 (keeps_mode _ _) rfl
  have hx43_5 : Keeps 19140298416359436 s x43_5 := by
    unfold x43_5
    exact .app hx43_4 (State.faultEdge_keeps _ _) rfl
  refine .ite (fun _ => ?_) (fun _ => ?_)
  · exact hx43_5
  · exact .app hx43_5 (State.raiseGLB_keeps _ _) rfl

theorem State.enterHold_keeps (s : State) (a1 : Nat) (a2 : Nat) (a3 : Nat) : Keeps 55169095555975180 s (@State.enterHold s a1 a2 a3) := by
  unfold State.enterHold
  extract_lets x44_0 x44_1 x44_2 x44_3 x44_4 x44_5 x44_6 x44_7
  have hx44_0 : Keeps 55169095555975180 s x44_0 := by
    unfold x44_0
    exact .app (.refl _ _) (State.cutCopies_keeps _ _) rfl
  have hx44_1 : Keeps 55169095555975180 s x44_1 := by
    unfold x44_1
    exact .app hx44_0 (State.flushAll_keeps _) rfl
  have hx44_2 : Keeps 55169095555975180 s x44_2 := by
    unfold x44_2
    exact .app (.app hx44_1 (State.dropFrames_keeps _ _) rfl) (State.clearIso_keeps _) rfl
  have hx44_4 : Keeps 55169095555975180 s x44_4 := by
    unfold x44_4
    exact .app hx44_2 (keeps_mode _ _) rfl
  have hx44_5 : Keeps 55169095555975180 s x44_5 := by
    unfold x44_5
    exact .app (.app hx44_4 (State.setF_keeps _ _ _) rfl) (State.enterMode_keeps _ _ _) rfl
  exact .app (.app hx44_5 (keeps_flt _ _) rfl) (State.ropeSend_keeps _ _) rfl

theorem State.hostHold_keeps (s : State) : Keeps 55169095555976204 s (@State.hostHold s) := by
  unfold State.hostHold
  exact .app (.app (.refl _ _) (State.free_keeps rfl) rfl) (State.enterHold_keeps _ _ _ _) rfl

theorem State.doReqHold_keeps (s : State) (a1 : Nat) (a2 : Bool) : Keeps 55169095555976204 s (@State.doReqHold s a1 a2) := by
  unfold State.doReqHold
  refine .request ?_ (fun u45 => ?_)
  · exact .refl _ _
  · refine .ite (fun _ => ?_) (fun _ => ?_)
    · exact .app (.app (.refl _ _) (State.reqResult_keeps _ _) rfl) (State.setF_keeps _ _ _) rfl
    · refine .ite (fun _ => ?_) (fun _ => ?_)
      · exact .app (.app (.refl _ _) (State.reqResult_keeps _ _) rfl) (State.hostHold_keeps _) rfl
      · exact .app (.refl _ _) (State.reqResult_keeps _ _) rfl

theorem State.toSpare_keeps (s : State) (a1 : Nat) : Keeps 1125899906842628 s (@State.toSpare s a1) := by
  unfold State.toSpare
  extract_lets x46_0 x46_1 x46_2
  have hx46_2 : Keeps 1125899906842628 s x46_2 := by
    unfold x46_2
    exact .app (.refl _ _) (keeps_dramc _ _) rfl
  exact .app (.app hx46_2 (State.setF_keeps _ _ _) rfl) (State.setF_keeps _ _ _) rfl

theorem State.clrBit_keeps (s : State) (a1 : Fld) (a2 : Nat) : Keeps 4 s (@State.clrBit s a1 a2) := by
  unfold State.clrBit
  refine .ite (fun _ => ?_) (fun _ => ?_)
  · exact .app (.refl _ _) (State.setF_keeps _ _ _) rfl
  · exact .refl _ _

theorem State.clrGroup_keeps (s : State) (a1 : Fld) (a2 : Fld) (a3 : Nat) : Keeps 4 s (@State.clrGroup s a1 a2 a3) := by
  unfold State.clrGroup
  exact .app (.refl _ _) (State.clrBit_keeps _ _ _) rfl

theorem State.groupIdle_keeps (s : State) (a1 : Nat) : Keeps 65540 s (@State.groupIdle s a1) := by
  unfold State.groupIdle
  extract_lets x47_0 x47_1
  have hx47_0 : Keeps 65540 s x47_0 := by
    unfold x47_0
    exact .app (.app (.refl _ _) (State.setF_keeps _ _ _) rfl) (State.clrGroup_keeps _ _ _ _) rfl
  exact .app hx47_0 (keeps_flt _ _) rfl

theorem State.groupsIdle_keeps (s : State) (a1 : List Nat) : Keeps 65540 s (@State.groupsIdle s a1) := by
  induction a1 generalizing s with
  | nil =>
    simp only [State.groupsIdle]
    exact .refl _ _
  | cons b l ih =>
    simp only [State.groupsIdle]
    refine .app (k := 65540) ?_ (ih _) rfl
    exact .app (.app (.refl _ _) (State.groupIdle_keeps _ _) rfl) (State.setF_keeps _ _ _) rfl

theorem State.abandonAll_keeps (s : State) : Keeps 65540 s (@State.abandonAll s) := by
  unfold State.abandonAll
  extract_lets x48_0 x48_1 x48_2
  have hx48_0 : Keeps 65540 s x48_0 := by
    unfold x48_0
    exact .app (.refl _ _) (State.groupsIdle_keeps _ _) rfl
  have hx48_1 : Keeps 65540 s x48_1 := by
    unfold x48_1
    exact .app hx48_0 (State.setF_keeps _ _ _) rfl
  exact .app hx48_1 (keeps_flt _ _) rfl

theorem State.domsStart_keeps (s : State) : Keeps 262144 s (@State.domsStart s) := by
  unfold State.domsStart
  extract_lets x49_0 x49_1
  exact .app (.refl _ _) (keeps_time _ _) rfl

theorem State.loadWords_keeps (s : State) (a1 : List (Nat × Word)) : Keeps 4 s (@State.loadWords s a1) := by
  induction a1 generalizing s with
  | nil =>
    simp only [State.loadWords]
    exact .refl _ _
  | cons b l ih =>
    simp only [State.loadWords]
    refine .app (k := 4) ?_ (ih _) rfl
    exact .app (.refl _ _) (keeps_wr _ _ _) rfl

theorem State.loadDram_keeps (s : State) : Keeps 4 s (@State.loadDram s) := by
  unfold State.loadDram
  extract_lets x50_0 x50_1 x50_2 x50_3 x50_4
  have hx50_0 : Keeps 4 s x50_0 := by
    unfold x50_0
    exact .app (.refl _ _) (State.loadWords_keeps _ _) rfl
  have hx50_1 : Keeps 4 s x50_1 := by
    unfold x50_1
    exact .app hx50_0 (State.setF_keeps _ _ _) rfl
  have hx50_2 : Keeps 4 s x50_2 := by
    unfold x50_2
    exact .app (.app hx50_1 (State.setF_keeps _ _ _) rfl) (State.setF_keeps _ _ _) rfl
  have hx50_4 : Keeps 4 s x50_4 := by
    unfold x50_4
    refine .foldl _ _ ?_ (fun u51 a51 => ?_)
    · exact hx50_2
    · unfold x50_3
      exact .app (.refl _ _) (State.setF_keeps _ _ _) rfl
  refine .foldl _ _ ?_ (fun u52 a52 => ?_)
  · exact hx50_4
  · exact .app (.refl _ _) (State.setB_keeps _ _ _) rfl

theorem State.loadFixed_keeps (s : State) : Keeps 4 s (@State.loadFixed s) := by
  unfold State.loadFixed
  extract_lets x53_0 x53_1 x53_2 x53_3 x53_4 x53_5
  have hx53_0 : Keeps 4 s x53_0 := by
    unfold x53_0
    refine .ite (fun _ => ?_) (fun _ => ?_)
    · exact .app (.app (.refl _ _) (State.setF_keeps _ _ _) rfl) (State.setF_keeps _ _ _) rfl
    · exact .refl _ _
  have hx53_1 : Keeps 4 s x53_1 := by
    unfold x53_1
    exact .app hx53_0 (State.setF_keeps _ _ _) rfl
  have hx53_2 : Keeps 4 s x53_2 := by
    unfold x53_2
    exact .app hx53_1 (State.setF_keeps _ _ _) rfl
  have hx53_3 : Keeps 4 s x53_3 := by
    unfold x53_3
    exact .app (.app hx53_2 (State.setF_keeps _ _ _) rfl) (State.setF_keeps _ _ _) rfl
  have hx53_4 : Keeps 4 s x53_4 := by
    unfold x53_4
    exact .app hx53_3 (State.setF_keeps _ _ _) rfl
  have hx53_5 : Keeps 4 s x53_5 := by
    unfold x53_5
    exact .app (.app hx53_4 (State.setB_keeps _ _ _) rfl) (State.loadDram_keeps _) rfl
  exact .app hx53_5 (State.setB_keeps _ _ _) rfl

theorem State.restart_keeps (s : State) (k : Restart) : Keeps 144115188075836412 s (s.restart k) := by
  unfold State.restart
  extract_lets full _ m _ tm _ dc _ _ _ _ _ _ t
  have ht : Keeps 144115188075836412 s t := by
    refine ⟨by intro p hp; cases p <;> first | exact absurd hp (by decide) | rfl, fun h => ?_, List.suffix_refl _, Nat.le_refl _⟩
    refine ⟨Restart.regs_wf _ _ h.1, ?_, rfl, ?_, ?_, rfl, ?_⟩
    · show swf resetWord4 (if k = .warm then keepKeys (fun o => decide (0x2000 ≤ o)) s.bar4 else []) = true
      split
      · exact swf_keepKeys _ _ _ h.2.1
      · rfl
    · show Memory.wf (if k = .bivouac then s.dram else []) = true
      split
      · exact h.2.2.2.1
      · rfl
    · show Memory.wf (CairnSt.mram (if k = .warm then _ else _)) = true
      split
      · exact h.2.2.2.2.1
      · exact h.2.2.2.2.1
    · intro x hx
      have hx : (if k = .bivouac then s.snap else none) = some x := hx
      split at hx
      · exact h.2.2.2.2.2.2 x hx
      · cases hx
  clear_value t
  exact .app (.app ht (State.setF_keeps _ _ _) rfl) (State.loadFixed_keeps _) rfl

theorem State.findIndex_keeps (s : State) : Keeps 4 s (@State.findIndex s) := by
  unfold State.findIndex
  extract_lets x54_0 x54_1
  have hx54_1 : Keeps 4 s x54_1 := by
    unfold x54_1
    exact .app (.refl _ _) (State.setF_keeps _ _ _) rfl
  refine .ite (fun _ => ?_) (fun _ => ?_)
  · exact .app hx54_1 (State.setF_keeps _ _ _) rfl
  · exact hx54_1

theorem State.ascend_keeps (s : State) (a1 : AscentKind) (a2 : Nat) : Keeps 562949953454084 s (@State.ascend s a1 a2) := by
  unfold State.ascend
  extract_lets x55_0 x55_1 x55_2
  have hx55_0 : Keeps 562949953454084 s x55_0 := by
    unfold x55_0
    exact .app (.refl _ _) (State.findIndex_keeps _) rfl
  refine .upd (t := x55_0) ?_ (by intro p hp; cases p <;> first | exact absurd hp (by decide) | rfl) rfl rfl rfl rfl rfl rfl rfl rfl rfl
  exact hx55_0

theorem State.resetCause_keeps (s : State) (a1 : Fld) (a2 : Bool) : Keeps 4 s (@State.resetCause s a1 a2) := by
  unfold State.resetCause
  exact .app (.app (.app (.refl _ _) (keeps_wr _ _ _) rfl) (State.setF_keeps _ _ _) rfl) (State.setB_keeps _ _ _) rfl

theorem State.warmReset_keeps (s : State) (a1 : Nat) : Keeps 144115188075838460 s (s.warmReset a1) := by
  unfold State.warmReset
  extract_lets t a t1
  have ht : Keeps 144115188075838460 s t := by
    unfold t
    exact .ite (fun _ => .app (.refl _ _) (State.toSpare_keeps _ _) rfl) (fun _ => .refl _ _)
  have ha : Keeps 144115188075838460 s a := .app (.app ht (State.abandonAll_keeps _) rfl) (State.clearIso_keeps _) rfl
  have ht1 : Keeps 144115188075838460 s t1 := by
    unfold t1
    exact .app (.app (.app (.app ha (State.enterMode_keeps _ _ _) rfl) (State.restart_keeps _ _) rfl) (State.domsStart_keeps _) rfl)
      (State.refreshRules_keeps _) rfl
  exact .outBack (.app (.app ht1 (State.resetCause_keeps _ _ _) rfl) (State.ascend_keeps _ _ _) rfl) rfl

theorem State.doReqWarm_keeps (s : State) (a1 : Nat) (a2 : Bool) : Keeps 144115188075838460 s (@State.doReqWarm s a1 a2) := by
  unfold State.doReqWarm
  refine .requestFrom ?_ rfl (fun u56 => ?_)
  · exact .refl _ _
  · exact .app (.refl _ _) (State.warmReset_keeps _ _) rfl

theorem State.doReqTest_keeps (s : State) (a1 : Nat) (a2 : Bool) : Keeps 19421773393070092 s (@State.doReqTest s a1 a2) := by
  unfold State.doReqTest
  refine .requestFrom ?_ rfl (fun u57 => ?_)
  · exact .refl _ _
  · extract_lets x58_0 x58_1 x58_2
    have hx58_0 : Keeps 19421773393070092 u57 x58_0 := by
      unfold x58_0
      exact .app (.refl _ _) (State.enterMode_keeps _ _ _) rfl
    refine .upd (t := x58_0) ?_ (by intro p hp; cases p <;> first | exact absurd hp (by decide) | rfl) rfl rfl rfl rfl rfl rfl rfl rfl rfl
    exact hx58_0

theorem State.enterService_keeps (s : State) (a1 : Nat) : Keeps 19140298416359436 s (@State.enterService s a1) := by
  unfold State.enterService
  extract_lets x59_0 x59_1 x59_2 x59_3
  have hx59_1 : Keeps 19140298416359436 s x59_1 := by
    unfold x59_1
    refine .ite (fun _ => ?_) (fun _ => ?_)
    · exact .app (.refl _ _) (State.tellState_keeps _ _ _ _) rfl
    · exact .refl _ _
  have hx59_2 : Keeps 19140298416359436 s x59_2 := by
    unfold x59_2
    exact .app hx59_1 (State.enterMode_keeps _ _ _) rfl
  exact .app hx59_2 (keeps_mode _ _) rfl

theorem State.doReqService_keeps (s : State) (a1 : Nat) (a2 : Bool) : Keeps 19140298416359436 s (@State.doReqService s a1 a2) := by
  unfold State.doReqService
  refine .requestFrom ?_ rfl (fun u60 => ?_)
  · exact .refl _ _
  · exact .app (.refl _ _) (State.enterService_keeps _ _) rfl

theorem State.twinCairn_keeps (s : State) (a1 : Nat) (a2 : Nat) : Keeps 133132 s (@State.twinCairn s a1 a2) := by
  unfold State.twinCairn
  exact .app (.refl _ _) (State.cairn_keeps _ _ _ _ _) rfl

theorem State.guar_keeps (s : State) (a1 : Nat) (a2 : Nat) (a3 : Nat) (a4 : Nat) (a5 : Nat) (a6 : Nat) (a7 : Bool) : Keeps 133132 s (@State.guar s a1 a2 a3 a4 a5 a6 a7) := by
  unfold State.guar
  exact .app (.app (.app (.refl _ _) (State.raiseSCH_keeps _ _) rfl) (State.count_keeps _ _ _) rfl) (State.cairn_keeps _ _ _ _ _) rfl

theorem State.guarReplicas_keeps (s : State) (a1 : Bool) : Keeps 133132 s (@State.guarReplicas s a1) := by
  unfold State.guarReplicas
  refine .ite (fun _ => ?_) (fun _ => ?_)
  · exact .refl _ _
  · exact .app (.refl _ _) (State.guar_keeps _ _ _ _ _ _ _ _) rfl

theorem State.raiseTWN_keeps (s : State) (a1 : Fld) : Keeps 2060 s (@State.raiseTWN s a1) := by
  unfold State.raiseTWN
  exact .app (.refl _ _) (State.raise_keeps _ _ _ _) rfl

theorem State.setTwin_keeps (s : State) (a1 : Nat) (a2 : Nat) : Keeps 562949953554444 s (@State.setTwin s a1 a2) := by
  unfold State.setTwin
  extract_lets x61_0 x61_1 x61_2 x61_3 x61_4 x61_5 x61_6 x61_7 x61_8 x61_9 x61_10 x61_11 x61_12 x61_13
  have hx61_1 : Keeps 562949953554444 s x61_1 := by
    unfold x61_1
    exact .app (.refl _ _) (State.setF_keeps _ _ _) rfl
  have hx61_3 : Keeps 562949953554444 s x61_3 := by
    unfold x61_3
    refine .ite (fun _ => ?_) (fun _ => ?_)
    · exact .app (.app hx61_1 (keeps_rope _ _) rfl) (State.setF_keeps _ _ _) rfl
    · exact hx61_1
  have hx61_5 : Keeps 562949953554444 s x61_5 := by
    unfold x61_5
    refine .ite (fun _ => ?_) (fun _ => ?_)
    · exact .app hx61_3 (keeps_rope _ _) rfl
    · exact hx61_3
  have hx61_6 : Keeps 562949953554444 s x61_6 := by
    unfold x61_6
    exact .app hx61_5 (State.setB_keeps _ _ _) rfl
  have hx61_7 : Keeps 562949953554444 s x61_7 := by
    unfold x61_7
    exact .app hx61_6 (State.setF_keeps _ _ _) rfl
  have hx61_8 : Keeps 562949953554444 s x61_8 := by
    unfold x61_8
    refine .ite (fun _ => ?_) (fun _ => ?_)
    · exact hx61_7
    · exact .app hx61_7 (State.twinCairn_keeps _ _ _) rfl
  have hx61_9 : Keeps 562949953554444 s x61_9 := by
    unfold x61_9
    exact .app hx61_8 (State.guarReplicas_keeps _ _) rfl
  have hx61_11 : Keeps 562949953554444 s x61_11 := by
    unfold x61_11
    exact .app hx61_6 (State.raiseTWN_keeps _ _) rfl
  have hx61_12 : Keeps 562949953554444 s x61_12 := by
    unfold x61_12
    exact .app hx61_11 (State.guarReplicas_keeps _ _) rfl
  refine .ite (fun _ => ?_) (fun _ => ?_)
  · exact hx61_6
  · refine .ite (fun _ => ?_) (fun _ => ?_)
    · exact .app hx61_9 (keeps_rope _ _) rfl
    · refine .ite (fun _ => ?_) (fun _ => ?_)
      · refine .ite (fun _ => ?_) (fun _ => ?_)
        · exact .app hx61_12 (keeps_rope _ _) rfl
        · exact hx61_11
      · exact hx61_6

theorem State.doReqResume_keeps (s : State) (a1 : Nat) (a2 : Bool) : Keeps 19703248369911820 s (@State.doReqResume s a1 a2) := by
  unfold State.doReqResume
  refine .requestFrom ?_ rfl (fun u62 => ?_)
  · exact .refl _ _
  · extract_lets x63_0 x63_1 x63_2 x63_3
    have hx63_0 : Keeps 19703248369911820 u62 x63_0 := by
      unfold x63_0
      exact .app (.refl _ _) (State.enterMode_keeps _ _ _) rfl
    have hx63_1 : Keeps 19703248369911820 u62 x63_1 := by
      unfold x63_1
      refine .ite (fun _ => ?_) (fun _ => ?_)
      · exact .app hx63_0 (State.enterMode_keeps _ _ _) rfl
      · exact hx63_0
    have hx63_3 : Keeps 19703248369911820 u62 x63_3 := by
      unfold x63_3
      exact .app hx63_1 (keeps_mode _ _) rfl
    refine .ite (fun _ => ?_) (fun _ => ?_)
    · exact .app (.app hx63_3 (keeps_rope _ _) rfl) (State.setTwin_keeps _ _ _) rfl
    · exact hx63_3

theorem State.modeReq_keeps (s : State) (a1 : Nat) (a2 : Bool) : Keeps 144115188075839484 s (@State.modeReq s a1 a2) := by
  unfold State.modeReq
  extract_lets x64_0
  split
  · exact .app (.refl _ _) (State.doReqPark_keeps _ _ _) rfl
  · exact .app (.refl _ _) (State.doReqHold_keeps _ _ _) rfl
  · exact .app (.refl _ _) (State.doReqWarm_keeps _ _ _) rfl
  · exact .app (.refl _ _) (State.doReqTest_keeps _ _ _) rfl
  · exact .app (.refl _ _) (State.doReqService_keeps _ _ _) rfl
  · exact .app (.refl _ _) (State.doReqResume_keeps _ _ _) rfl
  · refine .request ?_ (fun u65 => ?_)
    · exact .refl _ _
    · exact .app (.refl _ _) (State.reqResult_keeps _ _) rfl

theorem State.raiseLink_keeps (s : State) (a1 : Nat) : Keeps 2060 s (@State.raiseLink s a1) := by
  unfold State.raiseLink
  refine .ite (fun _ => ?_) (fun _ => ?_)
  · exact .refl _ _
  · exact .app (.app (.refl _ _) (State.setF_keeps _ _ _) rfl) (State.sendVec_keeps _ _) rfl

theorem State.linkDown_keeps (s : State) (a1 : Nat) : Keeps 2060 s (@State.linkDown s a1) := by
  unfold State.linkDown
  refine .ite (fun _ => ?_) (fun _ => ?_)
  · exact .app (.app (.refl _ _) (State.setF_keeps _ _ _) rfl) (State.raiseLink_keeps _ _) rfl
  · exact .refl _ _

theorem State.bwAdd_keeps (s : State) (a1 : Nat) (a2 : Nat) (a3 : Nat) : Keeps 17592186044416 s (@State.bwAdd s a1 a2 a3) := by
  unfold State.bwAdd
  extract_lets x66_0
  exact .app (.refl _ _) (keeps_bw _ _) rfl

theorem State.rxTally_keeps (s : State) (a1 : Nat) (a2 : Nat) : Keeps 17592186046476 s (@State.rxTally s a1 a2) := by
  unfold State.rxTally
  extract_lets x67_0
  have hx67_0 : Keeps 17592186046476 s x67_0 := by
    unfold x67_0
    exact .app (.app (.app (.refl _ _) (State.portTally_keeps _ _ _ _) rfl) (State.portTally_keeps _ _ _ _) rfl) (State.bwAdd_keeps _ _ _ _) rfl
  refine .ite (fun _ => ?_) (fun _ => ?_)
  · exact hx67_0
  · exact .app hx67_0 (State.portTally_keeps _ _ _ _) rfl

theorem State.meterCorrect_keeps (s : State) (a1 : Nat) (a2 : List (Nat × Nat × Nat)) : Keeps 34359738368 s (@State.meterCorrect s a1 a2) := by
  induction a2 generalizing s a1 with
  | nil =>
    simp only [State.meterCorrect]
    exact .refl _ _
  | cons b l ih =>
    simp only [State.meterCorrect]
    refine .app (k := 34359738368) ?_ (ih _ _) rfl
    refine .ite (fun _ => ?_) (fun _ => ?_)
    · exact .app (.refl _ _) (State.putBuckets_keeps _ _ _ _) rfl
    · exact .app (.refl _ _) (State.putBuckets_keeps _ _ _ _) rfl

theorem State.endRx_keeps (s : State) (a1 : Frame) (a2 : Nat) : Keeps 36046423685335052 s (@State.endRx s a1 a2) := by
  unfold State.endRx
  extract_lets x68_0
  have hx68_0 : Keeps 36046423685335052 s x68_0 := by
    unfold x68_0
    refine .ite (fun _ => ?_) (fun _ => ?_)
    · exact .app (.app (.app (.refl _ _) (State.portTally_keeps _ _ _ _) rfl) (State.portTally_keeps _ _ _ _) rfl) (State.bwAdd_keeps _ _ _ _) rfl
    · exact .app (.app (.refl _ _) (State.rxTally_keeps _ _ _) rfl) (State.reachCount_keeps _ _) rfl
  exact .app (.app (.app (.app hx68_0 (State.meterCorrect_keeps _ _ _) rfl) (State.putFrame_keeps _ _) rfl) (State.dropFrame_keeps _ _ _) rfl) (State.settleFrame_keeps _ _) rfl

theorem State.truncateRx_keeps (s : State) (a1 : List Frame) : Keeps 36046423685335052 s (@State.truncateRx s a1) := by
  induction a1 generalizing s with
  | nil =>
    simp only [State.truncateRx]
    exact .refl _ _
  | cons b l ih =>
    simp only [State.truncateRx]
    refine .app (k := 36046423685335052) ?_ (ih _) rfl
    exact .app (.refl _ _) (State.endRx_keeps _ _ _) rfl

theorem State.updPort_keeps (s : State) (a1 : Nat) (a2 : PortSt → PortSt) : Keeps 134217728 s (@State.updPort s a1 a2) := by
  unfold State.updPort
  exact .app (.refl _ _) (keeps_ports _ _) rfl

theorem State.ropeForget_keeps (s : State) : Keeps 562949953421316 s (@State.ropeForget s) := by
  unfold State.ropeForget
  exact .app (.app (.refl _ _) (keeps_rope _ _) rfl) (State.setF_keeps _ _ _) rfl

theorem State.flushPort_keeps (s : State) (a1 : Nat) (a2 : Nat) : Keeps 120588300 s (@State.flushPort s a1 a2) := by
  unfold State.flushPort
  exact .app (.refl _ _) (State.dropCopies_keeps _ _ _) rfl

theorem State.expireHold_keeps (s : State) (a1 : Nat) : Keeps 254806028 s (@State.expireHold s a1) := by
  unfold State.expireHold
  exact .app (.app (.app (.refl _ _) (State.setF_keeps _ _ _) rfl) (State.flushPort_keeps _ _ _) rfl) (State.updPort_keeps _ _ _) rfl

theorem State.startHold_keeps (s : State) (a1 : Nat) : Keeps 254806028 s (@State.startHold s a1) := by
  unfold State.startHold
  refine .ite (fun _ => ?_) (fun _ => ?_)
  · exact .refl _ _
  · extract_lets x69_0
    refine .ite (fun _ => ?_) (fun _ => ?_)
    · exact .app (.refl _ _) (State.expireHold_keeps _ _) rfl
    · exact .app (.app (.refl _ _) (State.setF_keeps _ _ _) rfl) (State.updPort_keeps _ _ _) rfl

theorem State.portDown_keeps (s : State) (a1 : Nat) : Keeps 36609373772974092 s (@State.portDown s a1) := by
  unfold State.portDown
  extract_lets x70_0 x70_1 x70_2 x70_3 x70_4 x70_5
  have hx70_0 : Keeps 36609373772974092 s x70_0 := by
    unfold x70_0
    exact .app (.refl _ _) (State.linkDown_keeps _ _) rfl
  have hx70_1 : Keeps 36609373772974092 s x70_1 := by
    unfold x70_1
    exact .app hx70_0 (State.truncateRx_keeps _ _) rfl
  have hx70_2 : Keeps 36609373772974092 s x70_2 := by
    unfold x70_2
    exact .app hx70_1 (State.cutCopies_keeps _ _) rfl
  have hx70_3 : Keeps 36609373772974092 s x70_3 := by
    unfold x70_3
    exact .app (.app hx70_2 (State.setF_keeps _ _ _) rfl) (State.setF_keeps _ _ _) rfl
  have hx70_4 : Keeps 36609373772974092 s x70_4 := by
    unfold x70_4
    exact .app hx70_3 (State.updPort_keeps _ _ _) rfl
  have hx70_5 : Keeps 36609373772974092 s x70_5 := by
    unfold x70_5
    refine .ite (fun _ => ?_) (fun _ => ?_)
    · exact .app hx70_4 (State.ropeForget_keeps _) rfl
    · exact hx70_4
  exact .app hx70_5 (State.startHold_keeps _ _) rfl

theorem State.portsDown_keeps (s : State) (a1 : List Nat) : Keeps 36609373772974092 s (@State.portsDown s a1) := by
  induction a1 generalizing s with
  | nil =>
    simp only [State.portsDown]
    exact .refl _ _
  | cons b l ih =>
    simp only [State.portsDown]
    refine .app (k := 36609373772974092) ?_ (ih _) rfl
    exact .app (.refl _ _) (State.portDown_keeps _ _) rfl

theorem State.ropeCut_keeps (s : State) (a1 : List Frame) : Keeps 36046423685335052 s (@State.ropeCut s a1) := by
  induction a1 generalizing s with
  | nil =>
    simp only [State.ropeCut]
    exact .refl _ _
  | cons b l ih =>
    simp only [State.ropeCut]
    refine .app (k := 36046423685335052) ?_ (ih _) rfl
    exact .app (.refl _ _) (State.endRx_keeps _ _ _) rfl

theorem State.guarStreams_keeps (s : State) (a1 : Nat) (a2 : Bool) (a3 : List StreamRec) : Keeps 133132 s (@State.guarStreams s a1 a2 a3) := by
  induction a3 generalizing s a1 a2 with
  | nil =>
    simp only [State.guarStreams]
    exact .refl _ _
  | cons b l ih =>
    simp only [State.guarStreams]
    refine .app (k := 133132) ?_ (ih _ _ _) rfl
    refine .ite (fun _ => ?_) (fun _ => ?_)
    · exact .app (.refl _ _) (State.guar_keeps _ _ _ _ _ _ _ _) rfl
    · exact .refl _ _

theorem State.grantList_keeps (s : State) (a1 : Nat) (a2 : Nat) (a3 : List Nat) : Keeps 133132 s (@State.grantList s a1 a2 a3) := by
  induction a3 generalizing s a1 a2 with
  | nil =>
    simp only [State.grantList]
    exact .refl _ _
  | cons b l ih =>
    simp only [State.grantList]
    refine .app (k := 133132) ?_ (ih _ _ _) rfl
    refine .ite (fun _ => ?_) (fun _ => ?_)
    · exact .app (.app (.refl _ _) (State.setF_keeps _ _ _) rfl) (State.setB_keeps _ _ _) rfl
    · refine .ite (fun _ => ?_) (fun _ => ?_)
      · exact .app (.app (.app (.app (.refl _ _) (State.setF_keeps _ _ _) rfl) (State.setB_keeps _ _ _) rfl) (State.guar_keeps _ _ _ _ _ _ _ _) rfl) (State.guarStreams_keeps _ _ _ _) rfl
      · exact .app (.app (.app (.refl _ _) (State.setF_keeps _ _ _) rfl) (State.setB_keeps _ _ _) rfl) (State.guar_keeps _ _ _ _ _ _ _ _) rfl

theorem State.cbsTouch_keeps (s : State) (a1 : Nat) : Keeps 8589934592 s (@State.cbsTouch s a1) := by
  unfold State.cbsTouch
  exact .app (.refl _ _) (keeps_shapers _ _) rfl

theorem State.regrant_keeps (s : State) (a1 : Nat) (a2 : Nat) : Keeps 8590067724 s (@State.regrant s a1 a2) := by
  unfold State.regrant
  refine .ite (fun _ => ?_) (fun _ => ?_)
  · exact .refl _ _
  · exact .app (.app (.app (.refl _ _) (State.cbsTouch_keeps _ _) rfl) (State.setF_keeps _ _ _) rfl) (State.grantList_keeps _ _ _ _) rfl

theorem State.linkFault_keeps (s : State) (a1 : Nat) : Keeps 134217728 s (@State.linkFault s a1) := by
  unfold State.linkFault
  exact .app (.refl _ _) (State.updPort_keeps _ _ _) rfl

theorem State.ropeBegins_keeps (s : State) : Keeps 562949953554444 s (@State.ropeBegins s) := by
  unfold State.ropeBegins
  extract_lets x71_0 x71_1 x71_2
  have hx71_1 : Keeps 562949953554444 s x71_1 := by
    unfold x71_1
    exact .app (.refl _ _) (keeps_rope _ _) rfl
  have hx71_2 : Keeps 562949953554444 s x71_2 := by
    unfold x71_2
    exact .app hx71_1 (State.setF_keeps _ _ _) rfl
  refine .ite (fun _ => ?_) (fun _ => ?_)
  · exact .app (.app hx71_2 (State.setF_keeps _ _ _) rfl) (State.setTwin_keeps _ _ _) rfl
  · exact hx71_2

theorem State.macSend_keeps (s : State) (a1 : Nat) (a2 : Nat) (a3 : Nat) : Keeps 2048 s (@State.macSend s a1 a2 a3) := by
  unfold State.macSend
  refine .ite (fun _ => ?_) (fun _ => ?_)
  · exact .refl _ _
  · exact .app (.refl _ _) (keeps_emit _ _) rfl

theorem State.portUp_keeps (s : State) (a1 : Nat) : Keeps 562950208358412 s (@State.portUp s a1) := by
  unfold State.portUp
  refine .ite (fun _ => ?_) (fun _ => ?_)
  · exact .refl _ _
  · extract_lets x72_0 x72_1 x72_2 x72_3
    have hx72_0 : Keeps 562950208358412 s x72_0 := by
      unfold x72_0
      exact .app (.app (.refl _ _) (State.setF_keeps _ _ _) rfl) (State.raiseLink_keeps _ _) rfl
    have hx72_1 : Keeps 562950208358412 s x72_1 := by
      unfold x72_1
      refine .ite (fun _ => ?_) (fun _ => ?_)
      · exact .app hx72_0 (State.flushPort_keeps _ _ _) rfl
      · exact hx72_0
    have hx72_2 : Keeps 562950208358412 s x72_2 := by
      unfold x72_2
      exact .app (.app hx72_1 (State.setF_keeps _ _ _) rfl) (State.updPort_keeps _ _ _) rfl
    have hx72_3 : Keeps 562950208358412 s x72_3 := by
      unfold x72_3
      refine .ite (fun _ => ?_) (fun _ => ?_)
      · exact .app hx72_2 (State.ropeBegins_keeps _) rfl
      · exact hx72_2
    refine .ite (fun _ => ?_) (fun _ => ?_)
    · refine .ite (fun _ => ?_) (fun _ => ?_)
      · exact .app hx72_3 (State.setF_keeps _ _ _) rfl
      · exact .app (.app (.app hx72_3 (State.setF_keeps _ _ _) rfl) (State.macSend_keeps _ _ _ _) rfl) (State.updPort_keeps _ _ _) rfl
    · exact .app hx72_3 (State.setF_keeps _ _ _) rfl

theorem State.lockGained_keeps (s : State) (a1 : Nat) : Keeps 562950208358412 s (@State.lockGained s a1) := by
  unfold State.lockGained
  extract_lets x73_0
  have hx73_0 : Keeps 562950208358412 s x73_0 := by
    unfold x73_0
    exact .app (.refl _ _) (State.updPort_keeps _ _ _) rfl
  refine .ite (fun _ => ?_) (fun _ => ?_)
  · exact hx73_0
  · refine .ite (fun _ => ?_) (fun _ => ?_)
    · exact .app hx73_0 (State.portUp_keeps _ _) rfl
    · exact .app hx73_0 (State.updPort_keeps _ _ _) rfl

theorem State.ropeActive_keeps (s : State) (a1 : Nat) : Keeps 562958798293004 s (@State.ropeActive s a1) := by
  unfold State.ropeActive
  refine .ite (fun _ => ?_) (fun _ => ?_)
  · exact .refl _ _
  · extract_lets x74_0 x74_1 x74_2
    have hx74_1 : Keeps 562958798293004 s x74_1 := by
      unfold x74_1
      exact .app (.app (.refl _ _) (State.setF_keeps _ _ _) rfl) (State.setF_keeps _ _ _) rfl
    have hx74_2 : Keeps 562958798293004 s x74_2 := by
      unfold x74_2
      exact .app (.app hx74_1 (State.regrant_keeps _ _ _) rfl) (State.raiseTWN_keeps _ _) rfl
    refine .ite (fun _ => ?_) (fun _ => ?_)
    · exact .app hx74_2 (State.linkFault_keeps _ _) rfl
    · refine .ite (fun _ => ?_) (fun _ => ?_)
      · exact .app hx74_2 (State.lockGained_keeps _ _) rfl
      · exact hx74_2

theorem State.ropeUnlog_keeps (s : State) (a1 : Nat) : Keeps 36609382363039756 s (@State.ropeUnlog s a1) := by
  unfold State.ropeUnlog
  extract_lets x75_0 x75_1 x75_2 x75_3
  have hx75_1 : Keeps 36609382363039756 s x75_1 := by
    unfold x75_1
    exact .app (.refl _ _) (State.ropeCut_keeps _ _) rfl
  have hx75_3 : Keeps 36609382363039756 s x75_3 := by
    unfold x75_3
    exact .app hx75_1 (keeps_rope _ _) rfl
  refine .ite (fun _ => ?_) (fun _ => ?_)
  · refine .ite (fun _ => ?_) (fun _ => ?_)
    · exact .app hx75_3 (State.ropeActive_keeps _ _) rfl
    · exact hx75_3
  · exact .refl _ _

theorem State.ropeUnlock_keeps (s : State) (a1 : Nat) : Keeps 36609382363039756 s (@State.ropeUnlock s a1) := by
  unfold State.ropeUnlock
  refine .ite (fun _ => ?_) (fun _ => ?_)
  · exact .app (.refl _ _) (State.setF_keeps _ _ _) rfl
  · split
    · exact .app (.refl _ _) (State.ropeUnlog_keeps _ _) rfl
    · exact .refl _ _

theorem State.laneLoses_keeps (s : State) (a1 : Nat) (a2 : Nat) : Keeps 4 s (@State.laneLoses s a1 a2) := by
  unfold State.laneLoses
  extract_lets x76_0 x76_1
  have hx76_0 : Keeps 4 s x76_0 := by
    unfold x76_0
    exact .app (.refl _ _) (State.setF_keeps _ _ _) rfl
  have hx76_1 : Keeps 4 s x76_1 := by
    unfold x76_1
    refine .ite (fun _ => ?_) (fun _ => ?_)
    · exact .app hx76_0 (State.setF_keeps _ _ _) rfl
    · exact hx76_0
  refine .ite (fun _ => ?_) (fun _ => ?_)
  · exact .app hx76_1 (State.setF_keeps _ _ _) rfl
  · exact hx76_1

theorem State.doLanRetrain_keeps (s : State) (a1 : Nat) : Keeps 36609382631475212 s (@State.doLanRetrain s a1) := by
  unfold State.doLanRetrain
  split
  · refine .ite (fun _ => ?_) (fun _ => ?_)
    · exact .refl _ _
    · refine .ite (fun _ => ?_) (fun _ => ?_)
      · exact .app (.app (.refl _ _) (State.portsDown_keeps _ _) rfl) (State.laneStart_keeps _ _) rfl
      · extract_lets x77_0
        have hx77_0 : Keeps 36609382631475212 s x77_0 := by
          unfold x77_0
          exact .app (.app (.refl _ _) (State.laneLoses_keeps _ _ _) rfl) (State.ropeUnlock_keeps _ _) rfl
        refine .app ?_ (State.laneStart_keeps _ _) rfl
        refine .ite (fun _ => ?_) (fun _ => ?_)
        · exact .app hx77_0 (State.portDown_keeps _ _) rfl
        · exact hx77_0
  · exact .refl _ _

theorem State.shutdown_keeps (s : State) (a1 : Nat) : Keeps 4 s (@State.shutdown s a1) := by
  unfold State.shutdown
  refine .ite (fun _ => ?_) (fun _ => ?_)
  · exact .refl _ _
  · extract_lets x78_0
    have hx78_0 : Keeps 4 s x78_0 := by
      unfold x78_0
      exact .app (.refl _ _) (State.setF_keeps _ _ _) rfl
    refine .ite (fun _ => ?_) (fun _ => ?_)
    · exact hx78_0
    · exact .app (.app hx78_0 (State.setF_keeps _ _ _) rfl) (State.setF_keeps _ _ _) rfl

theorem State.enable_keeps (s : State) (a1 : Nat) : Keeps 562950208358412 s (@State.enable s a1) := by
  unfold State.enable
  refine .ite (fun _ => ?_) (fun _ => ?_)
  · exact .refl _ _
  · extract_lets x79_0
    have hx79_0 : Keeps 562950208358412 s x79_0 := by
      unfold x79_0
      exact .app (.refl _ _) (State.setF_keeps _ _ _) rfl
    refine .ite (fun _ => ?_) (fun _ => ?_)
    · exact .app hx79_0 (State.setF_keeps _ _ _) rfl
    · refine .ite (fun _ => ?_) (fun _ => ?_)
      · exact .app hx79_0 (State.lockGained_keeps _ _) rfl
      · exact hx79_0

theorem State.pauseShow_keeps (s : State) (a1 : Nat) : Keeps 4 s (@State.pauseShow s a1) := by
  unfold State.pauseShow
  exact .app (.refl _ _) (State.setF_keeps _ _ _) rfl

theorem State.bursts_keeps (s : State) (a1 : List Nat) : Keeps 134217732 s (@State.bursts s a1) := by
  induction a1 generalizing s with
  | nil =>
    simp only [State.bursts]
    exact .refl _ _
  | cons b l ih =>
    simp only [State.bursts]
    refine .app (k := 134217732) ?_ (ih _) rfl
    exact .app (.app (.refl _ _) (State.setF_keeps _ _ _) rfl) (State.updPort_keeps _ _ _) rfl

theorem State.doWakeTx_keeps (s : State) (a1 : Nat) : Keeps 134219788 s (@State.doWakeTx s a1) := by
  unfold State.doWakeTx
  refine .ite (fun _ => ?_) (fun _ => ?_)
  · exact .refl _ _
  · refine .ite (fun _ => ?_) (fun _ => ?_)
    · exact .refl _ _
    · exact .app (.app (.app (.refl _ _) (State.bursts_keeps _ _) rfl) (State.portTally_keeps _ _ _ _) rfl) (State.macSend_keeps _ _ _ _) rfl

theorem State.ctlMac_keeps (s : State) (a1 : Nat) (a2 : Nat) : Keeps 562950208358412 s (@State.ctlMac s a1 a2) := by
  unfold State.ctlMac
  extract_lets x80_0 x80_1
  have hx80_0 : Keeps 562950208358412 s x80_0 := by
    unfold x80_0
    refine .ite (fun _ => ?_) (fun _ => ?_)
    · exact .refl _ _
    · refine .ite (fun _ => ?_) (fun _ => ?_)
      · exact .app (.refl _ _) (State.shutdown_keeps _ _) rfl
      · refine .ite (fun _ => ?_) (fun _ => ?_)
        · exact .refl _ _
        · exact .app (.refl _ _) (State.enable_keeps _ _) rfl
  have hx80_1 : Keeps 562950208358412 s x80_1 := by
    unfold x80_1
    refine .ite (fun _ => ?_) (fun _ => ?_)
    · exact .app hx80_0 (State.pauseShow_keeps _ _) rfl
    · exact hx80_0
  refine .on ?_ (fun u81 => ?_)
  · exact hx80_1
  · exact .app (.refl _ _) (State.doWakeTx_keeps _ _) rfl

theorem State.accum_keeps (s : State) (a1 : Nat) (a2 : Nat) (a3 : Nat) (a4 : Nat) : Keeps 65536 s (@State.accum s a1 a2 a3 a4) := by
  unfold State.accum
  extract_lets x82_0 x82_1
  exact .app (.refl _ _) (keeps_flt _ _) rfl

theorem State.countEvent_keeps0 (s : State) (a1 : Nat) : Keeps 198668 s (@State.countEvent s a1).1 := by
  unfold State.countEvent
  split
  · extract_lets x83_0
    refine .fst ?_
    exact .app (.app (.app (.app (.refl _ _) (State.count_keeps _ _ _) rfl) (State.count_keeps _ _ _) rfl) (State.accum_keeps _ _ _ _ _) rfl) (State.cairn_keeps _ _ _ _ _) rfl
  · extract_lets x84_0 x84_1 x84_2 x84_3 x84_4 x84_5
    have hx84_0 : Keeps 198668 s x84_0 := by
      unfold x84_0
      exact .app (.app (.refl _ _) (State.count_keeps _ _ _) rfl) (State.accum_keeps _ _ _ _ _) rfl
    have hx84_4 : Keeps 198668 s x84_4 := by
      unfold x84_4
      refine .ite (fun _ => ?_) (fun _ => ?_)
      · exact .app hx84_0 (keeps_flt _ _) rfl
      · exact hx84_0
    refine .iteP (fun r : State × Bool => r.1) (fun _ => ?_) (fun _ => ?_)
    · refine .fst ?_
      exact .app hx84_4 (State.setF_keeps _ _ _) rfl
    · refine .fst ?_
      exact .app hx84_4 (State.setF_keeps _ _ _) rfl

theorem State.countEvent_keeps {s : State} {a1 : Nat} {r0} {t : State} (h : @State.countEvent s a1 = (t, r0)) : Keeps 198668 s t := by
  have h0 := State.countEvent_keeps0 s a1
  rw [h] at h0
  exact h0

theorem State.severeBook_keeps (s : State) (a1 : Nat) (a2 : Nat) : Keeps 65540 s (@State.severeBook s a1 a2) := by
  unfold State.severeBook
  exact .app (.app (.refl _ _) (State.count_keeps _ _ _) rfl) (State.accum_keeps _ _ _ _ _) rfl

theorem State.c4Event_keeps (s : State) (a1 : Nat) (a2 : Nat) : Keeps 55169095555975180 s (@State.c4Event s a1 a2) := by
  unfold State.c4Event
  refine .ite (fun _ => ?_) (fun _ => ?_)
  · exact .refl _ _
  · extract_lets x85_0 x85_1 x85_2 x85_3 x85_4
    have hx85_0 : Keeps 55169095555975180 s x85_0 := by
      unfold x85_0
      refine .ite (fun _ => ?_) (fun _ => ?_)
      · exact .refl _ _
      · exact .app (.app (.refl _ _) (State.setF_keeps _ _ _) rfl) (State.setF_keeps _ _ _) rfl
    have hx85_1 : Keeps 55169095555975180 s x85_1 := by
      unfold x85_1
      exact .app (.app hx85_0 (State.setF_keeps _ _ _) rfl) (State.abandonAll_keeps _) rfl
    have hx85_3 : Keeps 55169095555975180 s x85_3 := by
      unfold x85_3
      exact .app hx85_1 (keeps_mode _ _) rfl
    have hx85_4 : Keeps 55169095555975180 s x85_4 := by
      unfold x85_4
      exact .app (.app (.app hx85_3 (State.setF_keeps _ _ _) rfl) (State.count_keeps _ _ _) rfl) (State.setF_keeps _ _ _) rfl
    exact .app (.app hx85_4 (State.setF_keeps _ _ _) rfl) (State.enterHold_keeps _ _ _ _) rfl

theorem State.groupVec_keeps (s : State) (a1 : Nat) : Keeps 2056 s (@State.groupVec s a1) := by
  unfold State.groupVec
  refine .ite (fun _ => ?_) (fun _ => ?_)
  · exact .app (.app (.refl _ _) (State.sendVec_keeps _ _) rfl) (State.sendVec_keeps _ _) rfl
  · exact .refl _ _

theorem State.setGroup_keeps (s : State) (a1 : Fld) (a2 : Fld) (a3 : Nat) : Keeps 4 s (@State.setGroup s a1 a2 a3) := by
  unfold State.setGroup
  exact .app (.refl _ _) (State.orF_keeps _ _ _) rfl

theorem State.conseq_keeps (s : State) (a1 : Nat) : Keeps 4 s (@State.conseq s a1) := by
  unfold State.conseq
  exact .app (.app (.refl _ _) (State.count_keeps _ _ _) rfl) (State.count_keeps _ _ _) rfl

theorem State.abandon_keeps (s : State) (a1 : List Reaction) (a2 : FUnit) : Keeps 65540 s (@State.abandon s a1 a2) := by
  induction a1 generalizing s a2 with
  | nil =>
    simp only [State.abandon]
    exact .refl _ _
  | cons b l ih =>
    simp only [State.abandon]
    refine .ite (fun _ => ?_) (fun _ => ?_)
    · refine .app (k := 65540) ?_ (ih _ _) rfl
      exact .app (.app (.refl _ _) (keeps_flt _ _) rfl) (State.groupIdle_keeps _ _) rfl
    · refine .app (k := 65540) ?_ (ih _ _) rfl
      exact .refl _ _

theorem State.closeBelays_keeps (s : State) (a1 : List (Nat × Nat)) (a2 : Reaction) : Keeps 65540 s (@State.closeBelays s a1 a2) := by
  induction a1 generalizing s a2 with
  | nil =>
    simp only [State.closeBelays]
    exact .refl _ _
  | cons b l ih =>
    simp only [State.closeBelays]
    refine .ite (fun _ => ?_) (fun _ => ?_)
    · refine .app (k := 65540) ?_ (ih _ _) rfl
      exact .app (.app (.refl _ _) (State.groupIdle_keeps _ _) rfl) (State.conseq_keeps _ _) rfl
    · refine .app (k := 65540) ?_ (ih _ _) rfl
      exact .refl _ _

theorem State.repairTile_keeps (s : State) (a1 : Nat) (a2 : Nat) : Keeps 8796093023232 s (@State.repairTile s a1 a2) := by
  unfold State.repairTile
  extract_lets x86_0 x86_1 x86_2
  have hx86_2 : Keeps 8796093023232 s x86_2 := by
    unfold x86_2
    unfold x86_1
    exact .app (.refl _ _) (State.free_keeps rfl) rfl
  refine .ite (fun _ => ?_) (fun _ => ?_)
  · exact .app hx86_2 (keeps_trees _ _) rfl
  · exact .refl _ _

theorem State.putCopy_keeps (s : State) (a1 : Copy) : Keeps 33554432 s (@State.putCopy s a1) := by
  unfold State.putCopy
  exact .app (.refl _ _) (keeps_copies _ _) rfl

theorem State.loseTarget_keeps (s : State) (a1 : Target) : Keeps 36028797139552268 s (@State.loseTarget s a1) := by
  unfold State.loseTarget
  split
  · exact .app (.refl _ _) (State.dropFrame_keeps _ _ _) rfl
  · split
    · refine .ite (fun _ => ?_) (fun _ => ?_)
      · exact .app (.app (.refl _ _) (State.putCopy_keeps _ _) rfl) (State.endThreads_keeps _ _) rfl
      · exact .app (.refl _ _) (State.dropCopy_keeps _ _ _) rfl
    · exact .app (.refl _ _) (State.endThreads_keeps _ _) rfl
  · exact .refl _ _

theorem State.loseCopies_keeps (s : State) (a1 : List Copy) : Keeps 36028797139552268 s (@State.loseCopies s a1) := by
  induction a1 generalizing s with
  | nil =>
    simp only [State.loseCopies]
    exact .refl _ _
  | cons b l ih =>
    simp only [State.loseCopies]
    refine .app (k := 36028797139552268) ?_ (ih _) rfl
    exact .app (.refl _ _) (State.loseTarget_keeps _ _) rfl

theorem State.restartStation_keeps (s : State) (a1 : Nat) (a2 : Nat) : Keeps 36028797139552268 s (@State.restartStation s a1 a2) := by
  unfold State.restartStation
  extract_lets x87_0
  have hx87_0 : Keeps 36028797139552268 s x87_0 := by
    unfold x87_0
    exact .app (.refl _ _) (State.dropFrames_keeps _ _) rfl
  exact .app hx87_0 (State.loseCopies_keeps _ _) rfl

theorem State.restartSched_keeps (s : State) (a1 : Nat) : Keeps 36028822909356044 s (@State.restartSched s a1) := by
  unfold State.restartSched
  extract_lets x88_0
  have hx88_0 : Keeps 36028822909356044 s x88_0 := by
    unfold x88_0
    exact .app (.refl _ _) (State.loseCopies_keeps _ _) rfl
  refine .upd (t := x88_0) ?_ (by intro p hp; cases p <;> first | exact absurd hp (by decide) | rfl) rfl rfl rfl rfl rfl rfl rfl rfl rfl
  exact hx88_0

theorem State.restartMover_keeps (s : State) : Keeps 120588300 s (@State.restartMover s) := by
  unfold State.restartMover
  extract_lets x89_0 x89_1 x89_2 x89_3 x89_4
  have hx89_2 : Keeps 120588300 s x89_2 := by
    unfold x89_2
    exact .app (.refl _ _) (State.dropCopies_keeps _ _ _) rfl
  have hx89_4 : Keeps 120588300 s x89_4 := by
    unfold x89_4
    exact .app hx89_2 (keeps_buf _ _) rfl
  exact .app hx89_4 (State.count_keeps _ _ _) rfl

theorem State.dmaReset_keeps (s : State) (a1 : Nat) : Keeps 2251799813685252 s (s.dmaReset a1) := by
  unfold State.dmaReset
  have h := Keeps.app (.refl 2251799813685252 s) (keeps_regsFilter s (fun e => !(0xA01000 + 0x40 * a1 ≤ e.1 && e.1 < 0xA01040 + 0x40 * a1))) rfl
  exact h.upd (by intro p hp; cases p <;> first | exact absurd hp (by decide) | rfl) rfl rfl rfl rfl rfl rfl rfl rfl rfl

theorem State.dmaResetAll_keeps (s : State) : Keeps 2251799813685252 s (@State.dmaResetAll s) := by
  unfold State.dmaResetAll
  refine .foldl _ _ ?_ (fun u90 a90 => ?_)
  · exact .refl _ _
  · exact .app (.refl _ _) (State.dmaReset_keeps _ _) rfl

theorem State.repair_keeps (s : State) (a1 : Nat) (a2 : FUnit) : Keeps 38869995718052876 s (@State.repair s a1 a2) := by
  unfold State.repair
  split
  · exact .app (.refl _ _) (State.repairTile_keeps _ _ _) rfl
  · exact .app (.refl _ _) (State.restartStation_keeps _ _ _) rfl
  · exact .app (.refl _ _) (State.restartSched_keeps _ _) rfl
  · exact .app (.refl _ _) (State.restartMover_keeps _) rfl
  · exact .app (.refl _ _) (State.dropFrames_keeps _ _) rfl
  · exact .app (.refl _ _) (State.dropFrames_keeps _ _) rfl
  · extract_lets x91_0
    exact .app (.app (.refl _ _) (State.portsDown_keeps _ _) rfl) (State.lanesStart_keeps _ _) rfl
  · exact .app (.app (.refl _ _) (State.portDown_keeps _ _) rfl) (State.lanesStart_keeps _ _) rfl
  · exact .app (.refl _ _) (State.ropeUnlock_keeps _ _) rfl
  · exact .app (.refl _ _) (State.dmaResetAll_keeps _) rfl
  · exact .app (.refl _ _) (State.dmaReset_keeps _ _) rfl
  · exact .refl _ _

theorem State.loseTargets_keeps (s : State) (a1 : List Thread) : Keeps 36028797139553292 s (@State.loseTargets s a1) := by
  induction a1 generalizing s with
  | nil =>
    simp only [State.loseTargets]
    exact .refl _ _
  | cons b l ih =>
    simp only [State.loseTargets]
    refine .app (k := 36028797139553292) ?_ (ih _) rfl
    exact .app (.app (.app (.app (.app (.app (.app (.app (.refl _ _) (State.free_keeps rfl) rfl) (State.count_keeps _ _ _) rfl) (State.setF_keeps _ _ _) rfl) (State.setF_keeps _ _ _) rfl) (State.setF_keeps _ _ _) rfl) (State.setF_keeps _ _ _) rfl) (State.conseq_keeps _ _) rfl) (State.loseTarget_keeps _ _) rfl

theorem State.loseTails_keeps (s : State) (a1 : List Frame) : Keeps 36046423685335052 s (@State.loseTails s a1) := by
  induction a1 generalizing s with
  | nil =>
    simp only [State.loseTails]
    exact .refl _ _
  | cons b l ih =>
    simp only [State.loseTails]
    refine .app (k := 36046423685335052) ?_ (ih _) rfl
    split
    · exact .app (.app (.refl _ _) (State.endRx_keeps _ _ _) rfl) (keeps_copies _ _) rfl
    · exact .app (.refl _ _) (State.endRx_keeps _ _ _) rfl

theorem State.freeBeads_keeps (s : State) (a1 : List Nat) : Keeps 67108864 s (@State.freeBeads s a1) := by
  induction a1 generalizing s with
  | nil =>
    simp only [State.freeBeads]
    exact .refl _ _
  | cons b l ih =>
    simp only [State.freeBeads]
    refine .app (k := 67108864) ?_ (ih _) rfl
    split
    · exact .refl _ _
    · exact .app (.refl _ _) (State.beadToQuar_keeps _ _ _) rfl

theorem State.reloadPatches_keeps (s : State) (a1 : Nat) : Keeps 2147483648 s (@State.reloadPatches s a1) := by
  unfold State.reloadPatches
  exact .app (.refl _ _) (keeps_patchBad _ _) rfl

theorem State.quadFrames_keeps (s : State) (a1 : Nat) : Keeps 36609375920458764 s (@State.quadFrames s a1) := by
  unfold State.quadFrames
  extract_lets x92_0 x92_1 x92_2 x92_3 x92_4 x92_5
  have hx92_0 : Keeps 36609375920458764 s x92_0 := by
    unfold x92_0
    exact .app (.refl _ _) (State.loseTargets_keeps _ _) rfl
  have hx92_1 : Keeps 36609375920458764 s x92_1 := by
    unfold x92_1
    exact .app hx92_0 (State.dropFrames_keeps _ _) rfl
  have hx92_2 : Keeps 36609375920458764 s x92_2 := by
    unfold x92_2
    exact .app hx92_1 (State.loseTails_keeps _ _) rfl
  have hx92_3 : Keeps 36609375920458764 s x92_3 := by
    unfold x92_3
    exact .app hx92_2 (State.loseCopies_keeps _ _) rfl
  have hx92_4 : Keeps 36609375920458764 s x92_4 := by
    unfold x92_4
    exact .app hx92_3 (State.freeBeads_keeps _ _) rfl
  have hx92_5 : Keeps 36609375920458764 s x92_5 := by
    unfold x92_5
    exact .app hx92_4 (State.dropThreads_keeps _ _) rfl
  exact .app (.app hx92_5 (State.portsDown_keeps _ _) rfl) (State.reloadPatches_keeps _ _) rfl

theorem State.toAbseil_keeps (s : State) : Keeps 19140298416359436 s (@State.toAbseil s) := by
  unfold State.toAbseil
  refine .ite (fun _ => ?_) (fun _ => ?_)
  · exact .app (.refl _ _) (State.enterMode_keeps _ _ _) rfl
  · refine .ite (fun _ => ?_) (fun _ => ?_)
    · exact .app (.refl _ _) (keeps_mode _ _) rfl
    · exact .refl _ _

theorem State.shrink_keeps (s : State) (a1 : Nat) (a2 : List Nat) : Keeps 67241996 s (@State.shrink s a1 a2) := by
  induction a2 generalizing s a1 with
  | nil =>
    simp only [State.shrink]
    exact .refl _ _
  | cons b l ih =>
    simp only [State.shrink]
    refine .ite (fun _ => ?_) (fun _ => ?_)
    · exact .refl _ _
    · refine .app (k := 67241996) ?_ (ih _ _) rfl
      refine .ite (fun _ => ?_) (fun _ => ?_)
      · exact .app (.app (.app (.app (.refl _ _) (State.setF_keeps _ _ _) rfl) (State.poolEval_keeps _ _) rfl) (State.raiseBPM_keeps _ _) rfl) (State.guar_keeps _ _ _ _ _ _ _ _) rfl
      · exact .app (.app (.refl _ _) (State.setF_keeps _ _ _) rfl) (State.poolEval_keeps _ _) rfl

theorem State.loseBank_keeps (s : State) (a1 : Nat) : Keeps 36028797139683340 s (@State.loseBank s a1) := by
  unfold State.loseBank
  extract_lets x93_0 x93_1 x93_2 x93_3 x93_4 x93_5
  have hx93_0 : Keeps 36028797139683340 s x93_0 := by
    unfold x93_0
    exact .app (.app (.refl _ _) (State.orF_keeps _ _ _) rfl) (State.dec_keeps _ _ _) rfl
  have hx93_2 : Keeps 36028797139683340 s x93_2 := by
    unfold x93_2
    exact .app hx93_0 (State.dec_keeps _ _ _) rfl
  have hx93_4 : Keeps 36028797139683340 s x93_4 := by
    unfold x93_4
    exact .app hx93_2 (State.loseCopies_keeps _ _) rfl
  exact .app hx93_4 (State.shrink_keeps _ _ _) rfl

theorem State.flushDqx_keeps (s : State) : Keeps 120588300 s (@State.flushDqx s) := by
  unfold State.flushDqx
  exact .app (.refl _ _) (State.dropCopies_keeps _ _ _) rfl

theorem State.isoPorts_keeps (s : State) (a1 : List Nat) : Keeps 36609373773039628 s (@State.isoPorts s a1) := by
  induction a1 generalizing s with
  | nil =>
    simp only [State.isoPorts]
    exact .refl _ _
  | cons b l ih =>
    simp only [State.isoPorts]
    refine .app (k := 36609373773039628) ?_ (ih _) rfl
    refine .ite (fun _ => ?_) (fun _ => ?_)
    · refine .app ?_ (State.expireHold_keeps _ _) rfl
      refine .app ?_ (State.portDown_keeps _ _) rfl
      refine .ite (fun _ => ?_) (fun _ => ?_)
      · exact .app (.refl _ _) (State.orF_keeps _ _ _) rfl
      · refine .ite (fun _ => ?_) (fun _ => ?_)
        · exact .app (.refl _ _) (State.orF_keeps _ _ _) rfl
        · exact .app (.refl _ _) (keeps_flt _ _) rfl
    · refine .app ?_ (State.portDown_keeps _ _) rfl
      refine .ite (fun _ => ?_) (fun _ => ?_)
      · exact .app (.refl _ _) (State.orF_keeps _ _ _) rfl
      · refine .ite (fun _ => ?_) (fun _ => ?_)
        · exact .app (.refl _ _) (State.orF_keeps _ _ _) rfl
        · exact .app (.refl _ _) (keeps_flt _ _) rfl

theorem State.raiseHDM_keeps (s : State) (a1 : Fld) : Keeps 2060 s (@State.raiseHDM s a1) := by
  unfold State.raiseHDM
  exact .app (.refl _ _) (State.raise_keeps _ _ _ _) rfl

theorem State.pcieLink_keeps (s : State) (a1 : Nat) (a2 : Nat) : Keeps 8590067724 s (@State.pcieLink s a1 a2) := by
  unfold State.pcieLink
  extract_lets x94_0 x94_1
  have hx94_0 : Keeps 8590067724 s x94_0 := by
    unfold x94_0
    exact .app (.app (.refl _ _) (State.setF_keeps _ _ _) rfl) (State.setF_keeps _ _ _) rfl
  have hx94_1 : Keeps 8590067724 s x94_1 := by
    unfold x94_1
    exact .app hx94_0 (State.regrant_keeps _ _ _) rfl
  refine .ite (fun _ => ?_) (fun _ => ?_)
  · exact hx94_1
  · exact .app hx94_1 (State.raiseHDM_keeps _ _) rfl

theorem State.hostReset_keeps (s : State) : Keeps 42784196580608652 s s.hostReset := by
  unfold State.hostReset
  extract_lets t u v
  have ht : Keeps 42784196580608652 s t := by
    unfold t
    exact .app (.refl _ _) (State.dropFrames_keeps _ _) rfl
  have hu : Keeps 42784196580608652 s u := by
    unfold u
    exact .app ht (State.cutCopies_keeps _ _) rfl
  have hv : Keeps 42784196580608652 s v := by
    have h := Keeps.app (.app hu (keeps_regsFilter u (fun e => !hdmReg e.1)) rfl) (keeps_bar4Nil _) rfl
    exact h.upd (by intro p hp; cases p <;> first | exact absurd hp (by decide) | rfl) rfl rfl rfl rfl rfl rfl rfl rfl rfl
  exact .app (.app hv (State.setF_keeps _ _ _) rfl) (State.setF_keeps _ _ _) rfl

theorem State.isolate_keeps (s : State) (a1 : FUnit) : Keeps 62505082368003724 s (@State.isolate s a1) := by
  unfold State.isolate
  split
  · exact .app (.app (.app (.refl _ _) (State.orF_keeps _ _ _) rfl) (State.quadFrames_keeps _ _) rfl) (State.toAbseil_keeps _) rfl
  · exact .app (.app (.app (.refl _ _) (State.orF_keeps _ _ _) rfl) (State.quadFrames_keeps _ _) rfl) (State.toAbseil_keeps _) rfl
  · exact .app (.app (.app (.refl _ _) (State.orF_keeps _ _ _) rfl) (State.quadFrames_keeps _ _) rfl) (State.toAbseil_keeps _) rfl
  · exact .app (.app (.app (.refl _ _) (State.orF_keeps _ _ _) rfl) (State.quadFrames_keeps _ _) rfl) (State.toAbseil_keeps _) rfl
  · refine .ite (fun _ => ?_) (fun _ => ?_)
    · exact .refl _ _
    · exact .app (.app (.app (.app (.refl _ _) (State.orF_keeps _ _ _) rfl) (State.loseTargets_keeps _ _) rfl) (State.dropThreads_keeps _ _) rfl) (State.toAbseil_keeps _) rfl
  · exact .app (.app (.refl _ _) (State.loseBank_keeps _ _) rfl) (State.toAbseil_keeps _) rfl
  · extract_lets x95_0 x95_1 x95_2 x95_3
    have hx95_0 : Keeps 62505082368003724 s x95_0 := by
      unfold x95_0
      exact .app (.app (.refl _ _) (State.setF_keeps _ _ _) rfl) (State.flushAll_keeps _) rfl
    have hx95_1 : Keeps 62505082368003724 s x95_1 := by
      unfold x95_1
      exact .app hx95_0 (State.cutCopies_keeps _ _) rfl
    have hx95_2 : Keeps 62505082368003724 s x95_2 := by
      unfold x95_2
      exact .app hx95_1 (State.dropFrames_keeps _ _) rfl
    exact .app (.app hx95_2 (keeps_mode _ _) rfl) (State.toAbseil_keeps _) rfl
  · extract_lets x96_0 x96_1 x96_2 x96_3
    have hx96_0 : Keeps 62505082368003724 s x96_0 := by
      unfold x96_0
      exact .app (.app (.refl _ _) (State.setF_keeps _ _ _) rfl) (State.flushAll_keeps _) rfl
    have hx96_1 : Keeps 62505082368003724 s x96_1 := by
      unfold x96_1
      exact .app hx96_0 (State.cutCopies_keeps _ _) rfl
    have hx96_2 : Keeps 62505082368003724 s x96_2 := by
      unfold x96_2
      exact .app hx96_1 (State.dropFrames_keeps _ _) rfl
    exact .app (.app hx96_2 (keeps_mode _ _) rfl) (State.toAbseil_keeps _) rfl
  · extract_lets x97_0 x97_1 x97_2 x97_3
    have hx97_0 : Keeps 62505082368003724 s x97_0 := by
      unfold x97_0
      exact .app (.app (.refl _ _) (State.setF_keeps _ _ _) rfl) (State.flushAll_keeps _) rfl
    have hx97_1 : Keeps 62505082368003724 s x97_1 := by
      unfold x97_1
      exact .app hx97_0 (State.cutCopies_keeps _ _) rfl
    have hx97_2 : Keeps 62505082368003724 s x97_2 := by
      unfold x97_2
      exact .app hx97_1 (State.dropFrames_keeps _ _) rfl
    exact .app (.app hx97_2 (keeps_mode _ _) rfl) (State.toAbseil_keeps _) rfl
  · extract_lets x98_0 x98_1 x98_2 x98_3
    have hx98_0 : Keeps 62505082368003724 s x98_0 := by
      unfold x98_0
      exact .app (.app (.refl _ _) (State.setF_keeps _ _ _) rfl) (State.flushAll_keeps _) rfl
    have hx98_1 : Keeps 62505082368003724 s x98_1 := by
      unfold x98_1
      exact .app hx98_0 (State.cutCopies_keeps _ _) rfl
    have hx98_2 : Keeps 62505082368003724 s x98_2 := by
      unfold x98_2
      exact .app hx98_1 (State.dropFrames_keeps _ _) rfl
    exact .app (.app hx98_2 (keeps_mode _ _) rfl) (State.toAbseil_keeps _) rfl
  · exact .app (.app (.app (.refl _ _) (State.setF_keeps _ _ _) rfl) (State.flushDqx_keeps _) rfl) (State.toAbseil_keeps _) rfl
  · extract_lets x99_0 x99_1 x99_2
    have hx99_1 : Keeps 62505082368003724 s x99_1 := by
      unfold x99_1
      exact .app (.refl _ _) (State.isoPorts_keeps _ _) rfl
    exact .app (.app hx99_1 (keeps_flt _ _) rfl) (State.toAbseil_keeps _) rfl
  · exact .app (.app (.refl _ _) (State.isoPorts_keeps _ _) rfl) (State.toAbseil_keeps _) rfl
  · extract_lets x100_0 x100_1 x100_2 x100_3 x100_4 x100_5 x100_6
    have hx100_1 : Keeps 62505082368003724 s x100_1 := by
      unfold x100_1
      exact .app (.app (.refl _ _) (State.orF_keeps _ _ _) rfl) (State.isoPorts_keeps _ _) rfl
    have hx100_3 : Keeps 62505082368003724 s x100_3 := by
      unfold x100_3
      exact .app hx100_1 (keeps_flt _ _) rfl
    have hx100_4 : Keeps 62505082368003724 s x100_4 := by
      unfold x100_4
      exact .app hx100_3 (State.hostReset_keeps _) rfl
    have hx100_6 : Keeps 62505082368003724 s x100_6 := by
      unfold x100_6
      refine .ite (fun _ => ?_) (fun _ => ?_)
      · exact .app (.app hx100_4 (keeps_mode _ _) rfl) (State.pcieLink_keeps _ _ _) rfl
      · refine .foldl _ _ ?_ (fun u101 a101 => ?_)
        · exact hx100_3
        · exact .app (.refl _ _) (State.ropeUnlock_keeps _ _) rfl
    exact .app hx100_6 (State.toAbseil_keeps _) rfl
  · exact .app (.app (.app (.refl _ _) (keeps_flt _ _) rfl) (State.ropeUnlock_keeps _ _) rfl) (State.toAbseil_keeps _) rfl
  · exact .app (.app (.refl _ _) (keeps_flt _ _) rfl) (State.toAbseil_keeps _) rfl
  · exact .app (.refl _ _) (State.hostReset_keeps _) rfl
  · exact .app (.refl _ _) (State.hostReset_keeps _) rfl
  · exact .refl _ _

theorem State.reportStart_keeps (s : State) (a1 : Nat) (a2 : Nat) (a3 : FUnit) (a4 : Nat) (a5 : Bool) (a6 : Nat) : Keeps 133132 s (@State.reportStart s a1 a2 a3 a4 a5 a6) := by
  unfold State.reportStart
  extract_lets x102_0 x102_1
  have hx102_1 : Keeps 133132 s x102_1 := by
    unfold x102_1
    exact .app (.refl _ _) (State.cairn_keeps _ _ _ _ _) rfl
  refine .ite (fun _ => ?_) (fun _ => ?_)
  · exact .app hx102_1 (State.ropeSend_keeps _ _) rfl
  · exact hx102_1

theorem State.react_keeps (s : State) (g src : Nat) (u : FUnit) (cls : Nat) (esc : Bool) : Keeps 62513895909330572 s (s.react g src u cls esc) := by
  unfold State.react
  extract_lets t running _ ru ns r a b _ c d e f i k l
  have ht : Keeps 62513895909330572 s t := .app (.refl _ _) (State.groupIdle_keeps _ _) rfl
  clear_value t
  refine .ite (fun _ => ht) (fun _ => .ite (fun _ => .app (.app ht (keeps_flt t _) rfl) (State.setF_keeps _ _ _) rfl) (fun _ =>
    .ite (fun _ => .app (.app ht (State.count_keeps _ _ _) rfl) (State.count_keeps _ _ _) rfl) (fun _ => ?_)))
  have ha : Keeps 62513895909330572 s a := .app ht (State.abandon_keeps _ _ _) rfl
  clear_value a
  have hb : Keeps 62513895909330572 s b := .app ha (State.closeBelays_keeps _ _ _) rfl
  clear_value b
  have hc : Keeps 62513895909330572 s c := .app hb (keeps_flt b _) rfl
  clear_value c
  have hd : Keeps 62513895909330572 s d := .app (.app hc (State.setF_keeps _ _ _) rfl) (State.setF_keeps _ _ _) rfl
  clear_value d
  have he : Keeps 62513895909330572 s e :=
    .app (.app (.app hd (State.setF_keeps _ _ _) rfl) (State.setF_keeps _ _ _) rfl) (State.setF_keeps _ _ _) rfl
  clear_value e
  have hf : Keeps 62513895909330572 s f := .app he (State.count_keeps _ _ _) rfl
  clear_value f
  have hi : Keeps 62513895909330572 s i :=
    .ite (fun _ => .app (.app hf (State.count_keeps _ _ _) rfl) (State.count_keeps _ _ _) rfl) (fun _ => hf)
  clear_value i
  clear_value ru
  have hk : Keeps 62513895909330572 s k := by
    unfold k
    split
    · exact .app hi (State.refreshRules_keeps _) rfl
    · exact hi
  clear_value k
  have hl : Keeps 62513895909330572 s l := .ite (fun _ => .app hk (State.repair_keeps _ _ _) rfl) (fun _ =>
    .ite (fun _ => .app hk (State.quadFrames_keeps _ _) rfl) (fun _ => .app hk (State.isolate_keeps _ _) rfl))
  clear_value l
  exact .app (.app hl (State.faultEdge_keeps _ _) rfl) (State.reportStart_keeps _ _ _ _ _ _ _) rfl

theorem State.startBelay_keeps (s : State) (a1 : Nat) : Keeps 67596 s (@State.startBelay s a1) := by
  unfold State.startBelay
  extract_lets x103_0 x103_1
  have hx103_0 : Keeps 67596 s x103_0 := by
    unfold x103_0
    exact .app (.app (.refl _ _) (State.setF_keeps _ _ _) rfl) (State.setGroup_keeps _ _ _ _) rfl
  exact .app (.app hx103_0 (keeps_flt _ _) rfl) (State.groupVec_keeps _ _) rfl

theorem State.severe_keeps (s : State) (a1 : Nat) (a2 : FUnit) : Keeps 62513895909330572 s (@State.severe s a1 a2) := by
  unfold State.severe
  extract_lets x104_0 x104_1 x104_2 x104_3 x104_4 x104_5 x104_6
  have hx104_2 : Keeps 62513895909330572 s x104_2 := by
    unfold x104_2
    exact .app (.refl _ _) (State.severeBook_keeps _ _ _) rfl
  have hx104_4 : Keeps 62513895909330572 s x104_4 := by
    unfold x104_4
    exact .app hx104_2 (keeps_flt _ _) rfl
  have hx104_5 : Keeps 62513895909330572 s x104_5 := by
    unfold x104_5
    exact .app (.app (.app hx104_4 (State.setF_keeps _ _ _) rfl) (State.setF_keeps _ _ _) rfl) (State.setGroup_keeps _ _ _ _) rfl
  refine .ite (fun _ => ?_) (fun _ => ?_)
  · exact .app (.app (.app (.app hx104_2 (State.setF_keeps _ _ _) rfl) (State.setGroup_keeps _ _ _ _) rfl) (State.groupVec_keeps _ _) rfl) (State.c4Event_keeps _ _ _) rfl
  · refine .ite (fun _ => ?_) (fun _ => ?_)
    · exact hx104_2
    · refine .ite (fun _ => ?_) (fun _ => ?_)
      · exact .app hx104_5 (State.groupVec_keeps _ _) rfl
      · split
        · exact .app (.app hx104_5 (State.groupVec_keeps _ _) rfl) (State.react_keeps _ _ _ _ _ _) rfl
        · split
          · refine .ite (fun _ => ?_) (fun _ => ?_)
            · exact .app (.app (.app hx104_5 (State.groupIdle_keeps _ _) rfl) (State.conseq_keeps _ _) rfl) (State.startBelay_keeps _ _) rfl
            · exact .app (.app hx104_5 (State.groupVec_keeps _ _) rfl) (State.conseq_keeps _ _) rfl
          · exact .app hx104_5 (State.startBelay_keeps _ _) rfl

theorem State.event_keeps (s : State) (a1 : Nat) (a2 : FUnit) : Keeps 62513895909330572 s (@State.event s a1 a2) := by
  unfold State.event
  refine .ite (fun _ => ?_) (fun _ => ?_)
  · exact .refl _ _
  · split
    · exact .app (.refl _ _) (State.countEvent_keeps (by assumption)) rfl
    · exact .app (.app (.refl _ _) (State.countEvent_keeps (by assumption)) rfl) (State.severe_keeps _ _ _) rfl

theorem State.minor_keeps (s : State) (a1 : Nat) : Keeps 62513895909330572 s (@State.minor s a1) := by
  unfold State.minor
  exact .app (.refl _ _) (State.event_keeps _ _ _) rfl

theorem State.doCommitGo_keeps (s : State) : Keeps 526348 s (@State.doCommitGo s) := by
  unfold State.doCommitGo
  extract_lets x105_0 x105_1
  refine .ite (fun _ => ?_) (fun _ => ?_)
  · unfold x105_0
    exact .app (.app (.refl _ _) (State.setF_keeps _ _ _) rfl) (State.raiseCLS_keeps _ _) rfl
  · refine .ite (fun _ => ?_) (fun _ => ?_)
    · unfold x105_0
      exact .app (.app (.refl _ _) (State.setF_keeps _ _ _) rfl) (State.raiseCLS_keeps _ _) rfl
    · refine .ite (fun _ => ?_) (fun _ => ?_)
      · unfold x105_0
        exact .app (.app (.refl _ _) (State.setF_keeps _ _ _) rfl) (State.raiseCLS_keeps _ _) rfl
      · exact .app (.app (.refl _ _) (keeps_gens _ _) rfl) (State.setF_keeps _ _ _) rfl

theorem State.doCommitDiscard_keeps (s : State) : Keeps 524292 s (@State.doCommitDiscard s) := by
  unfold State.doCommitDiscard
  refine .ite (fun _ => ?_) (fun _ => ?_)
  · exact .app (.refl _ _) (State.setF_keeps _ _ _) rfl
  · exact .app (.app (.refl _ _) (keeps_gens _ _) rfl) (State.setF_keeps _ _ _) rfl

theorem State.ctlCommit_keeps (s : State) (a1 : Nat) : Keeps 62513895909854860 s (@State.ctlCommit s a1) := by
  unfold State.ctlCommit
  refine .ite (fun _ => ?_) (fun _ => ?_)
  · exact .app (.refl _ _) (State.minor_keeps _ _) rfl
  · refine .on ?_ (fun u106 => ?_)
    · refine .on ?_ (fun u107 => ?_)
      · exact .refl _ _
      · exact .app (.refl _ _) (State.doCommitGo_keeps _) rfl
    · exact .app (.refl _ _) (State.doCommitDiscard_keeps _) rfl

theorem State.wrSp_keeps (s : State) (a1 : Bool) (a2 : Nat) (a3 : List Byte) : Keeps 1125899906842672 s (@State.wrSp s a1 a2 a3) := by
  unfold State.wrSp
  refine .ite (fun _ => ?_) (fun _ => ?_)
  · exact .app (.refl _ _) (State.wrDram_keeps _ _ _) rfl
  · exact .app (.refl _ _) (keeps_wrMem _ _ _) rfl

theorem State.wrAll_keeps (s : State) (a1 : Copies) (a2 : Nat) (a3 : List Byte) : Keeps 1125899906842672 s (@State.wrAll s a1 a2 a3) := by
  unfold State.wrAll
  refine .foldl _ _ ?_ (fun u108 a108 => ?_)
  · exact .refl _ _
  · exact .app (.refl _ _) (State.wrSp_keeps _ _ _ _) rfl

theorem State.jrnl_keeps (s : State) (a1 : JRec) : Keeps 524292 s (@State.jrnl s a1) := by
  unfold State.jrnl
  exact .app (.app (.refl _ _) (keeps_gens _ _) rfl) (State.setF_keeps _ _ _) rfl

theorem State.putEntry_keeps (s : State) (a1 : Nat) (a2 : Nat) (a3 : Nat) (a4 : Bool) (a5 : List Byte) (a6 : Nat) : Keeps 1125899907366964 s (@State.putEntry s a1 a2 a3 a4 a5 a6) := by
  unfold State.putEntry
  extract_lets x109_0 x109_1 x109_2 x109_3 x109_4
  have hx109_4 : Keeps 1125899907366964 s x109_4 := by
    unfold x109_4
    exact .app (.refl _ _) (State.wrAll_keeps _ _ _ _) rfl
  refine .ite (fun _ => ?_) (fun _ => ?_)
  · exact hx109_4
  · exact .app hx109_4 (State.jrnl_keeps _ _) rfl

theorem State.moveSlot_keeps (s : State) (a1 : Nat) (a2 : Nat) (a3 : Nat) (a4 : Nat) : Keeps 16 s (@State.moveSlot s a1 a2 a3 a4) := by
  unfold State.moveSlot
  extract_lets x110_0 x110_1 x110_2
  refine .foldl _ _ ?_ (fun u111 a111 => ?_)
  · exact .refl _ _
  · exact .app (.app (.refl _ _) (keeps_wrMem _ _ _) rfl) (keeps_wrMem _ _ _) rfl

theorem State.runPath_keeps (s : State) (a1 : Nat) (a2 : Nat) (a3 : List Nat) (a4 : Nat) : Keeps 16 s (@State.runPath s a1 a2 a3 a4) := by
  induction a3 generalizing s a1 a2 a4 with
  | nil =>
    simp only [State.runPath]
    exact .refl _ _
  | cons b l ih =>
    simp only [State.runPath]
    split
    · exact .app (.refl _ _) (State.moveSlot_keeps _ _ _ _ _) rfl
    · refine .app ?_ (State.moveSlot_keeps _ _ _ _ _) rfl
      refine .app (k := 16) ?_ (ih _ _ _ _) rfl
      exact .refl _ _

theorem State.fdbInsert_keeps (s : State) (a1 : Nat) (a2 : Nat) (a3 : Bool) (a4 : List Byte) (a5 : Nat) : Keeps 1125899907366964 s (@State.fdbInsert s a1 a2 a3 a4 a5).st := by
  unfold State.fdbInsert
  split
  · refine .st ?_
    exact .refl _ _
  · split
    · refine .st ?_
      exact .app (.refl _ _) (State.putEntry_keeps _ _ _ _ _ _ _) rfl
    · split
      · refine .st ?_
        exact .refl _ _
      · extract_lets x112_0
        have hx112_0 : Keeps 1125899907366964 s x112_0 := by
          unfold x112_0
          exact .app (.refl _ _) (State.runPath_keeps _ _ _ _ _) rfl
        refine .st ?_
        exact .app hx112_0 (State.putEntry_keeps _ _ _ _ _ _ _) rfl

theorem State.fdbOther_keeps (s : State) (a1 : Nat) (a2 : Nat) (a3 : Nat) (a4 : Bool) (a5 : List Byte) : Keeps 1125899907366964 s (@State.fdbOther s a1 a2 a3 a4 a5).st := by
  unfold State.fdbOther
  split
  · refine .st ?_
    exact .refl _ _
  · refine .iteP (fun r : CmdOut => r.st) (fun _ => ?_) (fun _ => ?_)
    · refine .st ?_
      exact .refl _ _
    · extract_lets x113_0 x113_1 x113_2 x113_3 x113_4
      have hx113_4 : Keeps 1125899907366964 s x113_4 := by
        unfold x113_4
        exact .app (.refl _ _) (State.wrAll_keeps _ _ _ _) rfl
      refine .st ?_
      refine .ite (fun _ => ?_) (fun _ => ?_)
      · exact hx113_4
      · exact .app hx113_4 (State.jrnl_keeps _ _) rfl

theorem State.lpmCommand_keeps (s : State) (a1 : Nat) (a2 : Nat) (a3 : List Byte) (a4 : Nat) (a5 : Nat) : Keeps 35184372613124 s (@State.lpmCommand s a1 a2 a3 a4 a5).st := by
  unfold State.lpmCommand
  extract_lets x114_0 x114_1
  refine .iteP (fun r : CmdOut => r.st) (fun _ => ?_) (fun _ => ?_)
  · clear_value x114_0
    split
    · refine .st ?_
      exact .refl _ _
    · refine .iteP (fun r : CmdOut => r.st) (fun _ => ?_) (fun _ => ?_)
      · refine .st ?_
        exact .refl _ _
      · refine .st ?_
        exact .app (.app (.refl _ _) (keeps_lpm _ _) rfl) (State.jrnl_keeps _ _) rfl
  · clear_value x114_0
    split
    · refine .st ?_
      exact .refl _ _
    · refine .iteP (fun r : CmdOut => r.st) (fun _ => ?_) (fun _ => ?_)
      · refine .st ?_
        exact .refl _ _
      · refine .iteP (fun r : CmdOut => r.st) (fun _ => ?_) (fun _ => ?_)
        · refine .st ?_
          exact .app (.app (.refl _ _) (keeps_lpm _ _) rfl) (State.jrnl_keeps _ _) rfl
        · extract_lets x115_0
          refine .st ?_
          exact .app (.app (.refl _ _) (keeps_lpm _ _) rfl) (State.jrnl_keeps _ _) rfl

theorem State.cmdRun_keeps (s : State) (a1 : Nat) (a2 : Nat) (a3 : Bool) (a4 : List Byte) (a5 : Nat) : Keeps 1161084279455796 s (@State.cmdRun s a1 a2 a3 a4 a5).st := by
  unfold State.cmdRun
  extract_lets x116_0 x116_1 x116_2
  refine .iteP (fun r : CmdOut => r.st) (fun _ => ?_) (fun _ => ?_)
  · unfold x116_1
    refine .st ?_
    exact .refl _ _
  · refine .iteP (fun r : CmdOut => r.st) (fun _ => ?_) (fun _ => ?_)
    · split
      · unfold x116_1
        refine .st ?_
        exact .refl _ _
      · refine .iteP (fun r : CmdOut => r.st) (fun _ => ?_) (fun _ => ?_)
        · refine .st ?_
          exact .refl _ _
        · refine .iteP (fun r : CmdOut => r.st) (fun _ => ?_) (fun _ => ?_)
          · exact .app (.refl _ _) (State.fdbInsert_keeps _ _ _ _ _ _) rfl
          · exact .app (.refl _ _) (State.fdbOther_keeps _ _ _ _ _ _) rfl
    · refine .iteP (fun r : CmdOut => r.st) (fun _ => ?_) (fun _ => ?_)
      · refine .iteP (fun r : CmdOut => r.st) (fun _ => ?_) (fun _ => ?_)
        · refine .st ?_
          exact .refl _ _
        · refine .iteP (fun r : CmdOut => r.st) (fun _ => ?_) (fun _ => ?_)
          · unfold x116_1
            refine .st ?_
            exact .refl _ _
          · exact .app (.refl _ _) (State.lpmCommand_keeps _ _ _ _ _ _) rfl
      · unfold x116_1
        refine .st ?_
        exact .refl _ _

theorem State.cmdStart_keeps (s : State) (a1 : Nat) (a2 : Nat) (a3 : Bool) (a4 : List Byte) (a5 : Nat) : Keeps 1301821767811124 s (@State.cmdStart s a1 a2 a3 a4 a5) := by
  unfold State.cmdStart
  extract_lets x117_0 x117_1
  have hx117_1 : Keeps 1301821767811124 s x117_1 := by
    unfold x117_1
    unfold x117_0
    exact .app (.refl _ _) (State.cmdRun_keeps _ _ _ _ _ _) rfl
  exact .app (.app hx117_1 (keeps_cmd _ _) rfl) (State.setF_keeps _ _ _) rfl

theorem State.cmdGo_keeps (s : State) (a1 : Nat) (a2 : Nat) (a3 : Bool) : Keeps 1301821767811124 s (@State.cmdGo s a1 a2 a3) := by
  unfold State.cmdGo
  extract_lets x118_0 x118_1 x118_2
  refine .ite (fun _ => ?_) (fun _ => ?_)
  · exact .refl _ _
  · refine .ite (fun _ => ?_) (fun _ => ?_)
    · exact .app (.app (.refl _ _) (keeps_gens _ _) rfl) (State.setF_keeps _ _ _) rfl
    · exact .app (.refl _ _) (State.cmdStart_keeps _ _ _ _ _ _) rfl

theorem State.doShadowClear_keeps (s : State) (a1 : Nat) : Keeps 72057594037927940 s (@State.doShadowClear s a1) := by
  unfold State.doShadowClear
  refine .ite (fun _ => ?_) (fun _ => ?_)
  · split
    · extract_lets x119_0 x119_1
      have hx119_0 : Keeps 72057594037927940 s x119_0 := by
        unfold x119_0
        exact .app (.refl _ _) (State.setF_keeps _ _ _) rfl
      exact .app hx119_0 (keeps_fwd _ _) rfl
    · exact .refl _ _
  · exact .refl _ _

theorem State.snapDom_keeps (s : State) (a1 : Nat) : Keeps 4 s (@State.snapDom s a1) := by
  unfold State.snapDom
  extract_lets x120_0
  exact .app (.app (.app (.refl _ _) (State.setF_keeps _ _ _) rfl) (State.setF_keeps _ _ _) rfl) (State.setF_keeps _ _ _) rfl

theorem State.doTimeSnapshot_keeps (s : State) : Keeps 4 s (@State.doTimeSnapshot s) := by
  unfold State.doTimeSnapshot
  extract_lets x121_0 x121_1
  have hx121_1 : Keeps 4 s x121_1 := by
    unfold x121_1
    exact .app (.app (.app (.refl _ _) (State.setF_keeps _ _ _) rfl) (State.setF_keeps _ _ _) rfl) (State.setF_keeps _ _ _) rfl
  exact .app (.app hx121_1 (State.snapDom_keeps _ _) rfl) (State.snapDom_keeps _ _) rfl

theorem State.ppsArm_keeps (s : State) : Keeps 262144 s (@State.ppsArm s) := by
  unfold State.ppsArm
  exact .app (.refl _ _) (keeps_time _ _) rfl

theorem State.ctlPps_keeps (s : State) (a1 : State) : Keeps 262144 s (@State.ctlPps s a1) := by
  unfold State.ctlPps
  refine .ite (fun _ => ?_) (fun _ => ?_)
  · exact .app (.refl _ _) (State.ppsArm_keeps _) rfl
  · exact .refl _ _

theorem State.doRtcLoad_keeps (s : State) : Keeps 262144 s (@State.doRtcLoad s) := by
  unfold State.doRtcLoad
  exact .app (.refl _ _) (keeps_time _ _) rfl

theorem State.syncedWrite_keeps (s : State) (a1 : State) (a2 : Nat) : Keeps 133132 s (@State.syncedWrite s a1 a2) := by
  unfold State.syncedWrite
  refine .ite (fun _ => ?_) (fun _ => ?_)
  · exact .refl _ _
  · exact .app (.refl _ _) (State.cairn_keeps _ _ _ _ _) rfl

theorem State.putDom_keeps (s : State) (a1 : Nat) (a2 : DomSt) : Keeps 262144 s (@State.putDom s a1 a2) := by
  unfold State.putDom
  exact .app (.refl _ _) (keeps_time _ _) rfl

theorem State.jump_keeps (s : State) (a1 : Nat) (a2 : Int) : Keeps 262148 s (@State.jump s a1 a2) := by
  unfold State.jump
  extract_lets x122_0
  have hx122_0 : Keeps 262148 s x122_0 := by
    unfold x122_0
    exact .app (.refl _ _) (State.putDom_keeps _ _ _) rfl
  exact .app (.app hx122_0 (State.setF_keeps _ _ _) rfl) (State.count_keeps _ _ _) rfl

theorem State.domJump_keeps (s : State) (a1 : Nat) (a2 : Int) : Keeps 262148 s (@State.domJump s a1 a2) := by
  unfold State.domJump
  extract_lets x123_0
  have hx123_0 : Keeps 262148 s x123_0 := by
    unfold x123_0
    exact .app (.refl _ _) (State.jump_keeps _ _ _) rfl
  refine .ite (fun _ => ?_) (fun _ => ?_)
  · exact .app hx123_0 (State.ppsArm_keeps _) rfl
  · exact hx123_0

theorem State.doDomainSet_keeps (s : State) (a1 : Nat) : Keeps 62513895909592716 s (@State.doDomainSet s a1) := by
  unfold State.doDomainSet
  refine .ite (fun _ => ?_) (fun _ => ?_)
  · exact .refl _ _
  · extract_lets x124_0 x124_1 x124_2
    have hx124_0 : Keeps 62513895909592716 s x124_0 := by
      unfold x124_0
      exact .app (.refl _ _) (State.useLo_keeps _ _) rfl
    refine .ite (fun _ => ?_) (fun _ => ?_)
    · exact .app hx124_0 (State.minor_keeps _ _) rfl
    · exact .app hx124_0 (State.domJump_keeps _ _ _) rfl

theorem State.doDomainStep_keeps (s : State) (a1 : Nat) : Keeps 62513895909592716 s (@State.doDomainStep s a1) := by
  unfold State.doDomainStep
  extract_lets x125_0
  refine .ite (fun _ => ?_) (fun _ => ?_)
  · exact .refl _ _
  · refine .ite (fun _ => ?_) (fun _ => ?_)
    · exact .app (.refl _ _) (State.minor_keeps _ _) rfl
    · exact .app (.refl _ _) (State.domJump_keeps _ _ _) rfl

theorem State.doDomainSlew_keeps (s : State) (a1 : Nat) : Keeps 262148 s (@State.doDomainSlew s a1) := by
  unfold State.doDomainSlew
  refine .ite (fun _ => ?_) (fun _ => ?_)
  · exact .refl _ _
  · exact .app (.app (.refl _ _) (State.putDom_keeps _ _ _) rfl) (State.setF_keeps _ _ _) rfl

theorem State.ctlDom_keeps (s : State) (a1 : Nat) (a2 : Nat) : Keeps 62513895909592716 s (@State.ctlDom s a1 a2) := by
  unfold State.ctlDom
  refine .on ?_ (fun u126 => ?_)
  · refine .on ?_ (fun u127 => ?_)
    · refine .on ?_ (fun u128 => ?_)
      · exact .refl _ _
      · exact .app (.refl _ _) (State.doDomainSet_keeps _ _) rfl
    · exact .app (.refl _ _) (State.doDomainStep_keeps _ _) rfl
  · exact .app (.refl _ _) (State.doDomainSlew_keeps _ _) rfl

theorem State.doGateCancel_keeps (s : State) (a1 : GateId) : Keeps 4294967300 s (@State.doGateCancel s a1) := by
  unfold State.doGateCancel
  refine .ite (fun _ => ?_) (fun _ => ?_)
  · exact .app (.app (.refl _ _) (State.setF_keeps _ _ _) rfl) (State.putGate_keeps _ _) rfl
  · exact .refl _ _

theorem State.doGateChange_keeps (s : State) (a1 : GateId) : Keeps 62513900204297868 s (@State.doGateChange s a1) := by
  unfold State.doGateChange
  extract_lets x129_0 x129_1 x129_2 x129_3 x129_4 x129_5
  have hx129_1 : Keeps 62513900204297868 s x129_1 := by
    unfold x129_1
    exact .app (.refl _ _) (State.useLo_keeps _ _) rfl
  have hx129_4 : Keeps 62513900204297868 s x129_4 := by
    unfold x129_4
    exact .app (.app (.app hx129_1 (State.setF_keeps _ _ _) rfl) (State.setF_keeps _ _ _) rfl) (State.setF_keeps _ _ _) rfl
  refine .ite (fun _ => ?_) (fun _ => ?_)
  · exact .refl _ _
  · refine .ite (fun _ => ?_) (fun _ => ?_)
    · exact .app (.refl _ _) (State.minor_keeps _ _) rfl
    · refine .ite (fun _ => ?_) (fun _ => ?_)
      · exact .app (.app (.app hx129_1 (State.setF_keeps _ _ _) rfl) (State.setF_keeps _ _ _) rfl) (State.raiseSCH_keeps _ _) rfl
      · exact .app hx129_4 (State.putGate_keeps _ _) rfl

theorem State.ctlGate_keeps (s : State) (a1 : GateId) (a2 : Nat) : Keeps 62513900204297868 s (@State.ctlGate s a1 a2) := by
  unfold State.ctlGate
  refine .ite (fun _ => ?_) (fun _ => ?_)
  · refine .ite (fun _ => ?_) (fun _ => ?_)
    · exact .app (.app (.refl _ _) (State.minor_keeps _ _) rfl) (State.doGateCancel_keeps _ _) rfl
    · exact .app (.refl _ _) (State.doGateChange_keeps _ _) rfl
  · refine .on ?_ (fun u130 => ?_)
    · refine .on ?_ (fun u131 => ?_)
      · exact .refl _ _
      · exact .app (.refl _ _) (State.doGateChange_keeps _ _) rfl
    · exact .app (.refl _ _) (State.doGateCancel_keeps _ _) rfl

theorem State.fragResume_keeps (s : State) (a1 : Nat) : Keeps 33554432 s (@State.fragResume s a1) := by
  unfold State.fragResume
  refine .ite (fun _ => ?_) (fun _ => ?_)
  · exact .refl _ _
  · exact .app (.refl _ _) (keeps_copies _ _) rfl

theorem State.putSch_keeps (s : State) (a1 : SchSt) : Keeps 17179869184 s (@State.putSch s a1) := by
  unfold State.putSch
  exact .app (.refl _ _) (keeps_scheds _ _) rfl

theorem State.preemptOther_keeps {s : State} {p : Nat} {t : State} (h : s.preemptOther p = some t) : Keeps 33556492 s t := by
  unfold State.preemptOther at h
  split at h
  · split at h
    · split at h
      · cases h; exact .app (.refl _ _) (State.putCopy_keeps _ _) rfl
      · split at h
        · simp only [Option.some.injEq] at h
          subst h
          exact .ite (fun _ => .app (.app (.refl _ _) (State.putCopy_keeps _ _) rfl) (State.portTally_keeps _ _ _ _) rfl)
            (fun _ => .app (.refl _ _) (State.putCopy_keeps _ _) rfl)
        · cases h
    · cases h; exact .refl _ _
  · cases h; exact .refl _ _

theorem State.gateOp_keeps (s : State) (g : GateId) (word : Nat) : Keeps 17213425676 s (s.gateOp g word) := by
  unfold State.gateOp
  split
  · next p =>
    refine .ite (fun _ => .refl _ _) (fun _ => .ite (fun _ => .ite (fun _ => ?_) (fun _ => .refl _ _)) (fun _ => .ite (fun _ => ?_)
      (fun _ => .ite (fun _ => ?_) (fun _ => .refl _ _))))
    · exact .app (.app (.refl _ _) (State.putSch_keeps _ _) rfl) (State.fragResume_keeps _ _) rfl
    · cases h : s.preemptOther p with
      | none => exact .app (.refl _ _) (State.putSch_keeps _ _) rfl
      | some t => exact .app (.app (.refl _ _) (State.preemptOther_keeps h) rfl) (State.putSch_keeps _ _) rfl
    · exact .app (.app (.refl _ _) (State.putSch_keeps _ _) rfl) (State.fragResume_keeps _ _) rfl
  · exact .refl _ _

theorem State.gateShow_keeps (s : State) (a1 : GateId) : Keeps 4 s (@State.gateShow s a1) := by
  unfold State.gateShow
  extract_lets x132_0 x132_1 x132_2
  have hx132_2 : Keeps 4 s x132_2 := by
    unfold x132_2
    exact .app (.app (.refl _ _) (State.setF_keeps _ _ _) rfl) (State.setF_keeps _ _ _) rfl
  exact .app hx132_2 (State.setB_keeps _ _ _) rfl

theorem State.cbsStep_keeps (s : State) (a1 : Nat) (a2 : Nat) : Keeps 8589934596 s (@State.cbsStep s a1 a2) := by
  unfold State.cbsStep
  refine .ite (fun _ => ?_) (fun _ => ?_)
  · extract_lets x133_0 x133_1 x133_2
    exact .app (.app (.refl _ _) (keeps_shapers _ _) rfl) (State.setF_keeps _ _ _) rfl
  · exact .refl _ _

theorem State.cbsAll_keeps (s : State) (a1 : Nat) : Keeps 8589934596 s (@State.cbsAll s a1) := by
  unfold State.cbsAll
  refine .foldl _ _ ?_ (fun u134 a134 => ?_)
  · exact .refl _ _
  · exact .app (.refl _ _) (State.cbsStep_keeps _ _ _) rfl

theorem State.gateApply_keeps (s : State) (a1 : GateId) : Keeps 25803360268 s (@State.gateApply s a1) := by
  unfold State.gateApply
  extract_lets x135_0
  have hx135_0 : Keeps 25803360268 s x135_0 := by
    unfold x135_0
    exact .app (.app (.refl _ _) (State.gateShow_keeps _ _) rfl) (State.gateOp_keeps _ _ _) rfl
  split
  · exact .app hx135_0 (State.cbsAll_keeps _ _) rfl
  · exact hx135_0

theorem State.enGate_keeps (s : State) (a1 : State) (a2 : GateId) : Keeps 25803360268 s (@State.enGate s a1 a2) := by
  unfold State.enGate
  refine .ite (fun _ => ?_) (fun _ => ?_)
  · exact .refl _ _
  · exact .app (.refl _ _) (State.gateApply_keeps _ _) rfl

theorem State.burstWrite_keeps (s old : State) (o : Nat) : Keeps 8589934592 s (s.burstWrite old o) := by
  unfold State.burstWrite
  exact .ite (fun _ => .app (.refl _ _) (keeps_shapers _ _) rfl) (fun _ => .refl _ _)

theorem State.doRoleTake_keeps (s : State) : Keeps 562949953421316 s (@State.doRoleTake s) := by
  unfold State.doRoleTake
  refine .ite (fun _ => ?_) (fun _ => ?_)
  · exact .app (.app (.refl _ _) (keeps_rope _ _) rfl) (State.setF_keeps _ _ _) rfl
  · exact .refl _ _

theorem State.swapAt_keeps (s : State) (a1 : Nat) : Keeps 562949953424384 s (@State.swapAt s a1) := by
  unfold State.swapAt
  extract_lets x136_0 x136_1 x136_2
  have hx136_1 : Keeps 562949953424384 s x136_1 := by
    unfold x136_1
    refine .app ?_ (State.tellState_keeps _ _ _ _) rfl
    unfold x136_0
    exact .app (.refl _ _) (State.free_keeps rfl) rfl
  exact .app hx136_1 (keeps_rope _ _) rfl

theorem State.askSwap_keeps (s : State) (a1 : Nat) : Keeps 36609382363040780 s (@State.askSwap s a1) := by
  unfold State.askSwap
  refine .ite (fun _ => ?_) (fun _ => ?_)
  · exact .refl _ _
  · refine .ite (fun _ => ?_) (fun _ => ?_)
    · exact .app (.refl _ _) (State.twinCairn_keeps _ _ _) rfl
    · refine .ite (fun _ => ?_) (fun _ => ?_)
      · exact .app (.app (.refl _ _) (keeps_rope _ _) rfl) (State.ropeUnlog_keeps _ _) rfl
      · refine .ite (fun _ => ?_) (fun _ => ?_)
        · exact .app (.refl _ _) (State.swapAt_keeps _ _) rfl
        · exact .app (.refl _ _) (State.tellState_keeps _ _ _ _) rfl

theorem State.dramCairn_keeps (s : State) (a1 : Nat) (a2 : Nat) : Keeps 133132 s (@State.dramCairn s a1 a2) := by
  unfold State.dramCairn
  exact .app (.refl _ _) (State.cairn_keeps _ _ _ _ _) rfl

theorem State.raiseDRC_keeps (s : State) (a1 : Fld) : Keeps 2060 s (@State.raiseDRC s a1) := by
  unfold State.raiseDRC
  exact .app (.refl _ _) (State.raise_keeps _ _ _ _) rfl

theorem State.migStart_keeps (s : State) (a1 : Nat) : Keeps 1125899906975756 s (@State.migStart s a1) := by
  unfold State.migStart
  extract_lets x137_0 x137_1 x137_2
  have hx137_0 : Keeps 1125899906975756 s x137_0 := by
    unfold x137_0
    exact .app (.app (.app (.refl _ _) (State.setF_keeps _ _ _) rfl) (State.setF_keeps _ _ _) rfl) (State.setF_keeps _ _ _) rfl
  have hx137_2 : Keeps 1125899906975756 s x137_2 := by
    unfold x137_2
    exact .app hx137_0 (keeps_dramc _ _) rfl
  exact .app (.app (.app (.app hx137_2 (State.setF_keeps _ _ _) rfl) (State.raiseDRC_keeps _ _) rfl) (State.refreshRules_keeps _) rfl) (State.dramCairn_keeps _ _ _) rfl

theorem State.retireRank_keeps (s : State) (a1 : Nat) : Keeps 1125899906975756 s (@State.retireRank s a1) := by
  unfold State.retireRank
  refine .ite (fun _ => ?_) (fun _ => ?_)
  · exact .refl _ _
  · refine .ite (fun _ => ?_) (fun _ => ?_)
    · exact .app (.refl _ _) (State.migStart_keeps _ _) rfl
    · refine .ite (fun _ => ?_) (fun _ => ?_)
      · exact .refl _ _
      · exact .app (.refl _ _) (keeps_dramc _ _) rfl

theorem State.doRankRetire_keeps (s : State) (a1 : Nat) (a2 : Bool) : Keeps 1125899906975756 s (@State.doRankRetire s a1 a2) := by
  unfold State.doRankRetire
  refine .ite (fun _ => ?_) (fun _ => ?_)
  · exact .refl _ _
  · refine .app ?_ (State.retireRank_keeps _ _) rfl
    refine .ite (fun _ => ?_) (fun _ => ?_)
    · exact .refl _ _
    · exact .app (.refl _ _) (State.setF_keeps _ _ _) rfl

theorem State.doDramRetrain_keeps (s : State) : Keeps 1125899906842624 s (@State.doDramRetrain s) := by
  unfold State.doDramRetrain
  refine .ite (fun _ => ?_) (fun _ => ?_)
  · exact .app (.refl _ _) (keeps_dramc _ _) rfl
  · exact .refl _ _

theorem State.doDescOtpBurn_keeps (s : State) : Keeps 149516 s (@State.doDescOtpBurn s) := by
  unfold State.doDescOtpBurn
  refine .ite (fun _ => ?_) (fun _ => ?_)
  · exact .refl _ _
  · refine .ite (fun _ => ?_) (fun _ => ?_)
    · exact .app (.refl _ _) (State.cairn_keeps _ _ _ _ _) rfl
    · exact .app (.refl _ _) (keeps_otp _ _) rfl

theorem State.dmaStop_keeps (s : State) (a1 : Nat) : Keeps 2251799813685248 s (@State.dmaStop s a1) := by
  unfold State.dmaStop
  exact .app (.refl _ _) (keeps_dma _ _) rfl

theorem State.dmaShutdown_keeps (s : State) (a1 : Nat) : Keeps 2251799813685252 s (@State.dmaShutdown s a1) := by
  unfold State.dmaShutdown
  extract_lets x138_0
  have hx138_0 : Keeps 2251799813685252 s x138_0 := by
    unfold x138_0
    exact .app (.app (.refl _ _) (State.setF_keeps _ _ _) rfl) (State.setF_keeps _ _ _) rfl
  refine .ite (fun _ => ?_) (fun _ => ?_)
  · exact .app (.app hx138_0 (State.setF_keeps _ _ _) rfl) (State.dmaStop_keeps _ _) rfl
  · exact hx138_0

theorem State.raiseFWD_keeps (s : State) (a1 : Fld) : Keeps 2060 s (@State.raiseFWD s a1) := by
  unfold State.raiseFWD
  exact .app (.refl _ _) (State.raise_keeps _ _ _ _) rfl

theorem State.writeLearn_keeps (s : State) (a1 : List Byte) : Keeps 2060 s (@State.writeLearn s a1) := by
  unfold State.writeLearn
  extract_lets x139_0 x139_1 x139_2 x139_3 x139_4 x139_5
  have hx139_2 : Keeps 2060 s x139_2 := by
    unfold x139_2
    exact .app (.refl _ _) (keeps_emit _ _) rfl
  have hx139_4 : Keeps 2060 s x139_4 := by
    unfold x139_4
    exact .app (.app hx139_2 (State.setF_keeps _ _ _) rfl) (State.count_keeps _ _ _) rfl
  have hx139_5 : Keeps 2060 s x139_5 := by
    unfold x139_5
    refine .ite (fun _ => ?_) (fun _ => ?_)
    · exact .app hx139_4 (State.setF_keeps _ _ _) rfl
    · exact hx139_4
  refine .ite (fun _ => ?_) (fun _ => ?_)
  · exact .app (.app (.refl _ _) (State.count_keeps _ _ _) rfl) (State.raiseFWD_keeps _ _) rfl
  · refine .ite (fun _ => ?_) (fun _ => ?_)
    · exact .app hx139_5 (State.raiseFWD_keeps _ _) rfl
    · exact hx139_5

theorem State.writeLearns_keeps (s : State) (a1 : List (List Byte)) : Keeps 2060 s (@State.writeLearns s a1) := by
  induction a1 generalizing s with
  | nil =>
    simp only [State.writeLearns]
    exact .refl _ _
  | cons b l ih =>
    simp only [State.writeLearns]
    refine .app (k := 2060) ?_ (ih _) rfl
    exact .app (.refl _ _) (State.writeLearn_keeps _ _) rfl

theorem State.learnFlush_keeps (s : State) : Keeps 72057594037929996 s (@State.learnFlush s) := by
  unfold State.learnFlush
  refine .ite (fun _ => ?_) (fun _ => ?_)
  · exact .app (.app (.refl _ _) (keeps_fwd _ _) rfl) (State.writeLearns_keeps _ _) rfl
  · exact .refl _ _

theorem State.dmaEnable_keeps (s : State) (a1 : Nat) : Keeps 72057594037929996 s (@State.dmaEnable s a1) := by
  unfold State.dmaEnable
  refine .ite (fun _ => ?_) (fun _ => ?_)
  · exact .app (.refl _ _) (State.setF_keeps _ _ _) rfl
  · refine .on ?_ (fun u140 => ?_)
    · exact .app (.refl _ _) (State.setF_keeps _ _ _) rfl
    · exact .app (.refl _ _) (State.learnFlush_keeps _) rfl

theorem State.dmaDone_keeps (s : State) (a1 : Nat) : Keeps 2060 s (@State.dmaDone s a1) := by
  unfold State.dmaDone
  extract_lets x141_0
  have hx141_0 : Keeps 2060 s x141_0 := by
    unfold x141_0
    exact .app (.refl _ _) (State.setF_keeps _ _ _) rfl
  refine .ite (fun _ => ?_) (fun _ => ?_)
  · exact .app hx141_0 (State.sendVec_keeps _ _) rfl
  · exact hx141_0

theorem State.dmaRefuse_keeps (s : State) (a1 : Nat) (a2 : Nat) : Keeps 2060 s (@State.dmaRefuse s a1 a2) := by
  unfold State.dmaRefuse
  exact .app (.app (.refl _ _) (State.setF_keeps _ _ _) rfl) (State.dmaDone_keeps _ _) rfl

theorem State.dmaGo_keeps (s : State) (a1 : Nat) : Keeps 62513895909330572 s (@State.dmaGo s a1) := by
  unfold State.dmaGo
  refine .ite (fun _ => ?_) (fun _ => ?_)
  · exact .app (.refl _ _) (State.minor_keeps _ _) rfl
  · refine .ite (fun _ => ?_) (fun _ => ?_)
    · exact .app (.refl _ _) (State.minor_keeps _ _) rfl
    · extract_lets x142_0 x142_1 x142_2 x142_3 x142_4 x142_5 x142_6 x142_7 x142_8 x142_9 x142_10
      have hx142_0 : Keeps 62513895909330572 s x142_0 := by
        unfold x142_0
        exact .app (.app (.refl _ _) (State.useLo_keeps _ _) rfl) (State.useLo_keeps _ _) rfl
      have hx142_9 : Keeps 62513895909330572 s x142_9 := by
        unfold x142_9
        exact .app hx142_0 (State.setF_keeps _ _ _) rfl
      have hx142_10 : Keeps 62513895909330572 s x142_10 := by
        unfold x142_10
        exact .app (.app hx142_9 (State.setF_keeps _ _ _) rfl) (State.setB_keeps _ _ _) rfl
      refine .ite (fun _ => ?_) (fun _ => ?_)
      · exact .app hx142_0 (State.dmaRefuse_keeps _ _ _) rfl
      · refine .ite (fun _ => ?_) (fun _ => ?_)
        · exact .app hx142_0 (State.dmaRefuse_keeps _ _ _) rfl
        · refine .ite (fun _ => ?_) (fun _ => ?_)
          · exact .app hx142_0 (State.dmaRefuse_keeps _ _ _) rfl
          · refine .ite (fun _ => ?_) (fun _ => ?_)
            · exact .app hx142_0 (State.dmaRefuse_keeps _ _ _) rfl
            · refine .ite (fun _ => ?_) (fun _ => ?_)
              · exact .app hx142_0 (State.dmaRefuse_keeps _ _ _) rfl
              · exact .app hx142_10 (keeps_dma _ _) rfl

theorem State.ctlDma_keeps (s : State) (a1 : Nat) (a2 : Nat) : Keeps 134571489947258508 s (@State.ctlDma s a1 a2) := by
  unfold State.ctlDma
  extract_lets x143_0
  have hx143_0 : Keeps 134571489947258508 s x143_0 := by
    unfold x143_0
    refine .ite (fun _ => ?_) (fun _ => ?_)
    · exact .app (.refl _ _) (State.dmaShutdown_keeps _ _) rfl
    · refine .ite (fun _ => ?_) (fun _ => ?_)
      · exact .refl _ _
      · exact .app (.refl _ _) (State.dmaEnable_keeps _ _) rfl
  refine .on ?_ (fun u144 => ?_)
  · refine .on ?_ (fun u145 => ?_)
    · exact hx143_0
    · exact .app (.refl _ _) (State.dmaGo_keeps _ _) rfl
  · exact .app (.refl _ _) (State.dmaStop_keeps _ _) rfl

theorem State.putRing_keeps (s : State) (a1 : RingSt) : Keeps 4503599627370496 s (@State.putRing s a1) := by
  unfold State.putRing
  exact .app (.refl _ _) (keeps_rings _ _) rfl

theorem State.ringStart_keeps (s : State) (a1 : Nat) : Keeps 4503599627371012 s (@State.ringStart s a1) := by
  unfold State.ringStart
  extract_lets x146_0 x146_1
  have hx146_0 : Keeps 4503599627371012 s x146_0 := by
    unfold x146_0
    exact .app (.app (.refl _ _) (State.useLo_keeps _ _) rfl) (State.useLo_keeps _ _) rfl
  have hx146_1 : Keeps 4503599627371012 s x146_1 := by
    unfold x146_1
    exact .app (.app (.app hx146_0 (State.setF_keeps _ _ _) rfl) (State.setF_keeps _ _ _) rfl) (State.setF_keeps _ _ _) rfl
  exact .app hx146_1 (State.putRing_keeps _ _) rfl

theorem State.ringEnable_keeps (s : State) (a1 : Nat) : Keeps 4503599627371012 s (@State.ringEnable s a1) := by
  unfold State.ringEnable
  refine .ite (fun _ => ?_) (fun _ => ?_)
  · exact .refl _ _
  · refine .ite (fun _ => ?_) (fun _ => ?_)
    · exact .app (.refl _ _) (State.setF_keeps _ _ _) rfl
    · exact .app (.refl _ _) (State.ringStart_keeps _ _) rfl

theorem State.ringStop_keeps (s : State) (a1 : Nat) : Keeps 4 s (@State.ringStop s a1) := by
  unfold State.ringStop
  refine .ite (fun _ => ?_) (fun _ => ?_)
  · exact .refl _ _
  · extract_lets x147_0
    have hx147_0 : Keeps 4 s x147_0 := by
      unfold x147_0
      exact .app (.refl _ _) (State.setF_keeps _ _ _) rfl
    refine .ite (fun _ => ?_) (fun _ => ?_)
    · exact .app hx147_0 (State.setF_keeps _ _ _) rfl
    · exact hx147_0

theorem State.ctlRing_keeps (s : State) (a1 : Nat) (a2 : Nat) : Keeps 4503599627371012 s (@State.ctlRing s a1 a2) := by
  unfold State.ctlRing
  refine .ite (fun _ => ?_) (fun _ => ?_)
  · exact .app (.refl _ _) (State.ringEnable_keeps _ _) rfl
  · exact .app (.app (.refl _ _) (State.setF_keeps _ _ _) rfl) (State.ringStop_keeps _ _) rfl

theorem State.injectUnit_keeps {s : State} {src : Nat} {r0 : FUnit} {t : State} (h : s.injectUnit src = (t, r0)) : Keeps 1024 s t := by
  have h0 : Keeps 0x400 s (s.injectUnit src).1 := by
    unfold State.injectUnit
    extract_lets pick
    have hq : ∀ l mk, Keeps 0x400 s (pick l mk).1 := fun l mk =>
      .iteP (fun r : State × FUnit => r.1) (fun _ => .refl _ _) (fun _ => keeps_free _)
    split
    · exact hq _ _
    · split
      · exact hq _ _
      · split
        · exact hq _ _
        · split
          · exact hq _ _
          · split
            · exact hq _ _
            · exact .refl _ _
  rw [h] at h0
  exact h0

theorem State.doFaultInject_keeps (s : State) (a1 : Nat) : Keeps 62513895909330572 s (@State.doFaultInject s a1) := by
  unfold State.doFaultInject
  refine .ite (fun _ => ?_) (fun _ => ?_)
  · exact .app (.refl _ _) (State.minor_keeps _ _) rfl
  · refine .ite (fun _ => ?_) (fun _ => ?_)
    · extract_lets x148_0
      refine .app ?_ (State.event_keeps _ _ _) rfl
      unfold x148_0
      exact .app (.refl _ _) (State.injectUnit_keeps rfl) rfl
    · exact .refl _ _

theorem State.ackHandled_keeps (s : State) (a1 : Nat) : Keeps 198668 s (@State.ackHandled s a1) := by
  unfold State.ackHandled
  exact .app (.app (.app (.refl _ _) (State.cairn_keeps _ _ _ _ _) rfl) (State.groupIdle_keeps _ _) rfl) (State.setF_keeps _ _ _) rfl

theorem State.doFaultAckHandled_keeps (s : State) (a1 : Nat) : Keeps 62513895909330572 s (@State.doFaultAckHandled s a1) := by
  unfold State.doFaultAckHandled
  refine .ite (fun _ => ?_) (fun _ => ?_)
  · exact .app (.refl _ _) (State.ackHandled_keeps _ _) rfl
  · exact .app (.refl _ _) (State.minor_keeps _ _) rfl

theorem State.reactGroup_keeps (s : State) (a1 : Nat) : Keeps 62513895909330572 s (@State.reactGroup s a1) := by
  unfold State.reactGroup
  extract_lets x149_0 x149_1
  exact .app (.refl _ _) (State.react_keeps _ _ _ _ _ _) rfl

theorem State.doFaultAckReact_keeps (s : State) (a1 : Nat) : Keeps 62513895909330572 s (@State.doFaultAckReact s a1) := by
  unfold State.doFaultAckReact
  refine .ite (fun _ => ?_) (fun _ => ?_)
  · exact .app (.refl _ _) (State.reactGroup_keeps _ _) rfl
  · exact .app (.refl _ _) (State.minor_keeps _ _) rfl

theorem State.ctlAck_keeps (s : State) (a1 : Nat) (a2 : Nat) : Keeps 62513895909330572 s (@State.ctlAck s a1 a2) := by
  unfold State.ctlAck
  refine .ite (fun _ => ?_) (fun _ => ?_)
  · exact .refl _ _
  · split
    · exact .app (.refl _ _) (State.doFaultAckHandled_keeps _ _) rfl
    · exact .app (.refl _ _) (State.doFaultAckReact_keeps _ _) rfl
    · refine .ite (fun _ => ?_) (fun _ => ?_)
      · exact .refl _ _
      · exact .app (.refl _ _) (State.minor_keeps _ _) rfl

theorem State.replan_keeps (s : State) : Keeps 4 s (@State.replan s) := by
  unfold State.replan
  refine .ite (fun _ => ?_) (fun _ => ?_)
  · refine .ite (fun _ => ?_) (fun _ => ?_)
    · exact .app (.refl _ _) (State.replanStart_keeps _) rfl
    · exact .app (.refl _ _) (State.setF_keeps _ _ _) rfl
  · exact .refl _ _

theorem State.doCairnExport_keeps (s : State) : Keeps 131588 s (@State.doCairnExport s) := by
  unfold State.doCairnExport
  refine .ite (fun _ => ?_) (fun _ => ?_)
  · exact .refl _ _
  · extract_lets x150_0 x150_1 x150_2
    have hx150_0 : Keeps 131588 s x150_0 := by
      unfold x150_0
      exact .app (.refl _ _) (State.useLo_keeps _ _) rfl
    have hx150_1 : Keeps 131588 s x150_1 := by
      unfold x150_1
      exact .app (.app hx150_0 (State.setF_keeps _ _ _) rfl) (State.setF_keeps _ _ _) rfl
    exact .app hx150_1 (keeps_crn _ _ rfl) rfl

theorem State.exportEnds_keeps (s : State) : Keeps 2060 s (@State.exportEnds s) := by
  unfold State.exportEnds
  exact .app (.app (.refl _ _) (State.setF_keeps _ _ _) rfl) (State.raiseCRN_keeps _ _) rfl

theorem State.doCairnExportStop_keeps (s : State) : Keeps 2060 s (@State.doCairnExportStop s) := by
  unfold State.doCairnExportStop
  refine .ite (fun _ => ?_) (fun _ => ?_)
  · exact .app (.refl _ _) (State.exportEnds_keeps _) rfl
  · exact .refl _ _

theorem State.doCairnKeyBurn_keeps (s : State) : Keeps 149516 s (@State.doCairnKeyBurn s) := by
  unfold State.doCairnKeyBurn
  refine .ite (fun _ => ?_) (fun _ => ?_)
  · exact .refl _ _
  · split
    · exact .app (.refl _ _) (State.cairn_keeps _ _ _ _ _) rfl
    · extract_lets x151_0 x151_1
      exact .app (.app (.refl _ _) (keeps_otp _ _) rfl) (State.setF_keeps _ _ _) rfl

theorem State.clearPorts_keeps (s : State) : Keeps 4 s (@State.clearPorts s) := by
  unfold State.clearPorts
  extract_lets x152_0
  have hx152_0 : Keeps 4 s x152_0 := by
    unfold x152_0
    exact .app (.refl _ _) (keeps_regsFilter _ _) rfl
  refine .foldS ?_ (fun u153 a153 => ?_)
  · exact hx152_0
  · exact .app (.refl _ _) (keeps_wr _ _ _) rfl

theorem State.clearEvt_keeps (s : State) : Keeps 4 s (@State.clearEvt s) := by
  unfold State.clearEvt
  exact .app (.refl _ _) (keeps_regsFilter _ _) rfl

theorem State.clearStrm_keeps (s : State) : Keeps 206158430212 s s.clearStrm := by
  unfold State.clearStrm
  have h := Keeps.app (.refl 206158430212 s) (keeps_regsFilter s (fun e => !strmReg e.1)) rfl
  exact h.upd (by intro p hp; cases p <;> first | exact absurd hp (by decide) | rfl) rfl rfl rfl rfl rfl rfl rfl rfl rfl

theorem State.snapStart_keeps (s : State) : Keeps 36028797018966540 s (@State.snapStart s) := by
  unfold State.snapStart
  refine .ite (fun _ => ?_) (fun _ => ?_)
  · exact .app (.app (.refl _ _) (State.count_keeps _ _ _) rfl) (State.raiseTLY_keeps _ _) rfl
  · extract_lets x154_0 x154_1 x154_2 x154_3 x154_4
    have hx154_0 : Keeps 36028797018966540 s x154_0 := by
      unfold x154_0
      exact .app (.refl _ _) (State.useLo_keeps _ _) rfl
    exact .app (.app hx154_0 (keeps_tly _ _) rfl) (State.setF_keeps _ _ _) rfl

theorem State.doSnapStop_keeps (s : State) : Keeps 36028797018963972 s (@State.doSnapStop s) := by
  unfold State.doSnapStop
  refine .ite (fun _ => ?_) (fun _ => ?_)
  · exact .app (.app (.refl _ _) (keeps_tly _ _) rfl) (State.setF_keeps _ _ _) rfl
  · exact .refl _ _

theorem State.ctlTly_keeps (s : State) (a1 : Nat) : Keeps 36029003177396748 s (@State.ctlTly s a1) := by
  unfold State.ctlTly
  refine .on ?_ (fun u155 => ?_)
  · refine .on ?_ (fun u156 => ?_)
    · refine .on ?_ (fun u157 => ?_)
      · refine .on ?_ (fun u158 => ?_)
        · refine .on ?_ (fun u159 => ?_)
          · exact .refl _ _
          · exact .app (.refl _ _) (State.clearPorts_keeps _) rfl
        · exact .app (.refl _ _) (State.clearEvt_keeps _) rfl
      · exact .app (.refl _ _) (State.clearStrm_keeps _) rfl
    · exact .app (.refl _ _) (State.snapStart_keeps _) rfl
  · exact .app (.refl _ _) (State.doSnapStop_keeps _) rfl

theorem State.cfgTly_keeps (s : State) (a1 : State) : Keeps 36028797018963968 s (@State.cfgTly s a1) := by
  unfold State.cfgTly
  extract_lets x160_0 x160_1 x160_2
  have hx160_1 : Keeps 36028797018963968 s x160_1 := by
    unfold x160_1
    refine .ite (fun _ => ?_) (fun _ => ?_)
    · exact .refl _ _
    · exact .app (.refl _ _) (keeps_tly _ _) rfl
  refine .ite (fun _ => ?_) (fun _ => ?_)
  · exact hx160_1
  · exact .app hx160_1 (keeps_tly _ _) rfl

theorem State.strmCapture_keeps (s : State) (a1 : Nat) (a2 : Nat) : Keeps 4 s (@State.strmCapture s a1 a2) := by
  unfold State.strmCapture
  extract_lets x161_0
  exact .app (.app (.app (.refl _ _) (State.setF_keeps _ _ _) rfl) (State.setF_keeps _ _ _) rfl) (State.setB_keeps _ _ _) rfl

theorem State.selStrm_keeps (s : State) (a1 : Nat) : Keeps 4 s (@State.selStrm s a1) := by
  unfold State.selStrm
  refine .foldS ?_ (fun u162 a162 => ?_)
  · exact .app (.refl _ _) (State.setF_keeps _ _ _) rfl
  · exact .app (.refl _ _) (State.strmCapture_keeps _ _ _) rfl

theorem State.carryPorts_keeps (s : State) (a1 : Nat) : Keeps 4 s (@State.carryPorts s a1) := by
  unfold State.carryPorts
  refine .ite (fun _ => ?_) (fun _ => ?_)
  · exact .refl _ _
  · exact .app (.refl _ _) (State.clrBit_keeps _ _ _) rfl

theorem State.commands_keeps (s : State) (a1 : State) (a2 : Nat) (a3 : Nat) (a4 : Nat) : Keeps 144115188075855868 s (@State.commands s a1 a2 a3 a4) := by
  unfold State.commands
  refine .ite (fun _ => ?_) (fun _ => ?_)
  · refine .ite (fun _ => ?_) (fun _ => ?_)
    · exact .app (.refl _ _) (State.ctlImg_keeps _ _) rfl
    · refine .ite (fun _ => ?_) (fun _ => ?_)
      · exact .app (.refl _ _) (State.modeReq_keeps _ _ _) rfl
      · refine .ite (fun _ => ?_) (fun _ => ?_)
        · refine .on ?_ (fun u163 => ?_)
          · exact .refl _ _
          · exact .app (.refl _ _) (State.doLanRetrain_keeps _ _) rfl
        · exact .refl _ _
  · refine .ite (fun _ => ?_) (fun _ => ?_)
    · refine .ite (fun _ => ?_) (fun _ => ?_)
      · exact .app (.refl _ _) (State.ctlMac_keeps _ _ _) rfl
      · refine .ite (fun _ => ?_) (fun _ => ?_)
        · exact .app (.refl _ _) (State.pauseShow_keeps _ _) rfl
        · exact .refl _ _
    · refine .ite (fun _ => ?_) (fun _ => ?_)
      · refine .ite (fun _ => ?_) (fun _ => ?_)
        · exact .app (.refl _ _) (State.ctlCommit_keeps _ _) rfl
        · refine .ite (fun _ => ?_) (fun _ => ?_)
          · refine .on ?_ (fun u164 => ?_)
            · exact .refl _ _
            · exact .app (.refl _ _) (State.cmdGo_keeps _ _ _ _) rfl
          · refine .ite (fun _ => ?_) (fun _ => ?_)
            · refine .ite (fun _ => ?_) (fun _ => ?_)
              · exact .refl _ _
              · refine .on ?_ (fun u165 => ?_)
                · exact .refl _ _
                · exact .app (.refl _ _) (State.useLo_keeps _ _) rfl
            · refine .ite (fun _ => ?_) (fun _ => ?_)
              · refine .on ?_ (fun u166 => ?_)
                · exact .refl _ _
                · exact .app (.refl _ _) (State.doShadowClear_keeps _ _) rfl
              · exact .refl _ _
      · refine .ite (fun _ => ?_) (fun _ => ?_)
        · refine .ite (fun _ => ?_) (fun _ => ?_)
          · exact .app (.refl _ _) (State.poolEval_keeps _ _) rfl
          · refine .ite (fun _ => ?_) (fun _ => ?_)
            · refine .on ?_ (fun u167 => ?_)
              · exact .refl _ _
              · exact .app (.refl _ _) (State.doTimeSnapshot_keeps _) rfl
            · refine .ite (fun _ => ?_) (fun _ => ?_)
              · exact .app (.refl _ _) (State.ctlPps_keeps _ _) rfl
              · refine .ite (fun _ => ?_) (fun _ => ?_)
                · refine .on ?_ (fun u168 => ?_)
                  · exact .refl _ _
                  · exact .app (.refl _ _) (State.doRtcLoad_keeps _) rfl
                · refine .ite (fun _ => ?_) (fun _ => ?_)
                  · extract_lets x169_0
                    refine .ite (fun _ => ?_) (fun _ => ?_)
                    · exact .app (.refl _ _) (State.syncedWrite_keeps _ _ _) rfl
                    · refine .ite (fun _ => ?_) (fun _ => ?_)
                      · exact .app (.refl _ _) (State.ctlDom_keeps _ _ _) rfl
                      · exact .refl _ _
                  · exact .refl _ _
        · refine .ite (fun _ => ?_) (fun _ => ?_)
          · split
            · refine .ite (fun _ => ?_) (fun _ => ?_)
              · exact .app (.app (.refl _ _) (State.enGate_keeps _ _ _) rfl) (State.ctlGate_keeps _ _ _) rfl
              · exact .refl _ _
            · refine .ite (fun _ => ?_) (fun _ => ?_)
              · exact .app (.refl _ _) (State.burstWrite_keeps _ _ _) rfl
              · refine .ite (fun _ => ?_) (fun _ => ?_)
                · refine .on ?_ (fun u170 => ?_)
                  · refine .on ?_ (fun u171 => ?_)
                    · exact .refl _ _
                    · exact .app (.refl _ _) (State.doRoleTake_keeps _) rfl
                  · exact .app (.refl _ _) (State.askSwap_keeps _ _) rfl
                · exact .refl _ _
          · refine .ite (fun _ => ?_) (fun _ => ?_)
            · refine .ite (fun _ => ?_) (fun _ => ?_)
              · refine .on ?_ (fun u172 => ?_)
                · refine .on ?_ (fun u173 => ?_)
                  · refine .on ?_ (fun u174 => ?_)
                    · exact .refl _ _
                    · exact .app (.refl _ _) (State.doRankRetire_keeps _ _ _) rfl
                  · exact .app (.refl _ _) (State.doDramRetrain_keeps _) rfl
                · exact .app (.refl _ _) (State.doDescOtpBurn_keeps _) rfl
              · refine .ite (fun _ => ?_) (fun _ => ?_)
                · exact .app (.refl _ _) (State.ctlDma_keeps _ _ _) rfl
                · refine .ite (fun _ => ?_) (fun _ => ?_)
                  · exact .app (.refl _ _) (State.ctlRing_keeps _ _ _) rfl
                  · exact .refl _ _
            · refine .ite (fun _ => ?_) (fun _ => ?_)
              · refine .ite (fun _ => ?_) (fun _ => ?_)
                · refine .on ?_ (fun u175 => ?_)
                  · exact .refl _ _
                  · exact .app (.refl _ _) (State.doFaultInject_keeps _ _) rfl
                · refine .ite (fun _ => ?_) (fun _ => ?_)
                  · exact .app (.refl _ _) (State.ctlAck_keeps _ _ _) rfl
                  · refine .ite (fun _ => ?_) (fun _ => ?_)
                    · refine .on ?_ (fun u176 => ?_)
                      · exact .app (.refl _ _) (State.replanPending_keeps _) rfl
                      · exact .app (.refl _ _) (State.replan_keeps _) rfl
                    · refine .ite (fun _ => ?_) (fun _ => ?_)
                      · refine .on ?_ (fun u177 => ?_)
                        · refine .on ?_ (fun u178 => ?_)
                          · refine .on ?_ (fun u179 => ?_)
                            · exact .refl _ _
                            · exact .app (.refl _ _) (State.doCairnExport_keeps _) rfl
                          · exact .app (.refl _ _) (State.doCairnExportStop_keeps _) rfl
                        · exact .app (.refl _ _) (State.doCairnKeyBurn_keeps _) rfl
                      · exact .refl _ _
              · refine .ite (fun _ => ?_) (fun _ => ?_)
                · exact .app (.refl _ _) (State.ctlTly_keeps _ _) rfl
                · refine .ite (fun _ => ?_) (fun _ => ?_)
                  · exact .app (.refl _ _) (State.cfgTly_keeps _ _) rfl
                  · refine .ite (fun _ => ?_) (fun _ => ?_)
                    · exact .app (.refl _ _) (State.selStrm_keeps _ _) rfl
                    · refine .ite (fun _ => ?_) (fun _ => ?_)
                      · refine .on ?_ (fun u180 => ?_)
                        · exact .refl _ _
                        · exact .app (.refl _ _) (keeps_strmCarry _ _) rfl
                      · refine .ite (fun _ => ?_) (fun _ => ?_)
                        · exact .app (.refl _ _) (keeps_evtCount _ _) rfl
                        · refine .ite (fun _ => ?_) (fun _ => ?_)
                          · refine .on ?_ (fun u181 => ?_)
                            · exact .refl _ _
                            · exact .app (.refl _ _) (State.carryPorts_keeps _ _) rfl
                          · exact .refl _ _

theorem execReqWarm_keeps (a0 : Nat) (a1 : Bool) (s : State) {t : State} (h : execReqWarm a0 a1 s = .next t) : Keeps 144115188075838460 s t := by
  unfold execReqWarm at h
  cases h
  exact .app (.refl _ _) (State.doReqWarm_keeps _ _ _) rfl

theorem State.voltageDone_keeps (s : State) : Keeps 18014398509481988 s (@State.voltageDone s) := by
  unfold State.voltageDone
  extract_lets x182_0 x182_1
  have hx182_1 : Keeps 18014398509481988 s x182_1 := by
    unfold x182_1
    exact .app (.refl _ _) (keeps_age _ _) rfl
  refine .ite (fun _ => ?_) (fun _ => ?_)
  · exact .app hx182_1 (State.setF_keeps _ _ _) rfl
  · exact hx182_1

theorem State.voltageAt_keeps (s : State) (a1 : Nat) (a2 : Nat) (a3 : Nat) (a4 : Bool) : Keeps 62513895909330572 s (@State.voltageAt s a1 a2 a3 a4) := by
  unfold State.voltageAt
  extract_lets x183_0 x183_1 x183_2 x183_3
  have hx183_1 : Keeps 62513895909330572 s x183_1 := by
    unfold x183_1
    exact .app (.app (.refl _ _) (keeps_age _ _) rfl) (State.setF_keeps _ _ _) rfl
  have hx183_2 : Keeps 62513895909330572 s x183_2 := by
    unfold x183_2
    exact .app (.app (.app hx183_1 (keeps_emit _ _) rfl) (keeps_emit _ _) rfl) (State.setF_keeps _ _ _) rfl
  have hx183_3 : Keeps 62513895909330572 s x183_3 := by
    unfold x183_3
    refine .ite (fun _ => ?_) (fun _ => ?_)
    · exact .app hx183_2 (State.event_keeps _ _ _) rfl
    · exact hx183_2
  refine .ite (fun _ => ?_) (fun _ => ?_)
  · exact hx183_1
  · refine .app ?_ (State.voltageDone_keeps _) rfl
    refine .ite (fun _ => ?_) (fun _ => ?_)
    · exact .app hx183_3 (State.event_keeps _ _ _) rfl
    · exact hx183_3

theorem State.putFrer_keeps (s : State) (a1 : Nat) (a2 : Nat) (a3 : Nat) (a4 : Nat) : Keeps 16 s (@State.putFrer s a1 a2 a3 a4) := by
  unfold State.putFrer
  exact .app (.refl _ _) (keeps_wrMem _ _ _) rfl

theorem State.countFrer_keeps (s : State) (a1 : Nat) (a2 : Nat) (a3 : Nat) : Keeps 16 s (@State.countFrer s a1 a2 a3) := by
  unfold State.countFrer
  exact .app (.refl _ _) (State.putFrer_keeps _ _ _ _ _) rfl

theorem State.setFrerFlag_keeps (s : State) (a1 : Nat) (a2 : Nat) (a3 : Bool) : Keeps 16 s (@State.setFrerFlag s a1 a2 a3) := by
  unfold State.setFrerFlag
  extract_lets x184_0
  exact .app (.refl _ _) (State.putFrer_keeps _ _ _ _ _) rfl

theorem execFrerResetTimeout_keeps (a0 : Nat) (s : State) {t : State} (h : execFrerResetTimeout a0 s = .next t) : Keeps 274877906960 s t := by
  unfold execFrerResetTimeout at h
  cases h
  split
  · refine .ite (fun _ => ?_) (fun _ => ?_)
    · exact .app (.app (.app (.refl _ _) (keeps_frerAt _ _) rfl) (State.setFrerFlag_keeps _ _ _ _) rfl) (State.countFrer_keeps _ _ _ _) rfl
    · exact .refl _ _
  · exact .refl _ _

theorem State.putSa_keeps (s : State) (a1 : SaSt) : Keeps 536870912 s (@State.putSa s a1) := by
  unfold State.putSa
  exact .app (.refl _ _) (keeps_sas _ _) rfl

theorem State.setPn_keeps (s : State) (a1 : Nat) (a2 : Nat) : Keeps 536870916 s (@State.setPn s a1 a2) := by
  unfold State.setPn
  extract_lets x185_0 x185_1
  have hx185_1 : Keeps 536870916 s x185_1 := by
    unfold x185_1
    exact .app (.refl _ _) (State.putSa_keeps _ _) rfl
  refine .ite (fun _ => ?_) (fun _ => ?_)
  · exact .app hx185_1 (State.clrBit_keeps _ _ _) rfl
  · exact hx185_1

theorem execRefreshCatchup_keeps (a0 : Nat) (a1 : Nat) (s : State) {t : State} (h : execRefreshCatchup a0 a1 s = .next t) : Keeps 1125899906844676 s t := by
  unfold execRefreshCatchup at h
  cases h
  refine .ite (fun _ => ?_) (fun _ => ?_)
  · exact .app (.refl _ _) (State.catchUp_keeps _ _) rfl
  · exact .refl _ _

theorem State.enterRun_keeps (s : State) (a1 : Nat) (a2 : Nat) : Keeps 19140298416359436 s (@State.enterRun s a1 a2) := by
  unfold State.enterRun
  extract_lets x186_0 x186_1
  have hx186_0 : Keeps 19140298416359436 s x186_0 := by
    unfold x186_0
    refine .ite (fun _ => ?_) (fun _ => ?_)
    · exact .app (.app (.refl _ _) (State.enterMode_keeps _ _ _) rfl) (State.enterMode_keeps _ _ _) rfl
    · exact .app (.refl _ _) (State.enterMode_keeps _ _ _) rfl
  exact .app hx186_0 (keeps_mode _ _) rfl

theorem State.pairNow_keeps (s : State) : Keeps 19703248369911820 s (@State.pairNow s) := by
  unfold State.pairNow
  extract_lets x187_0 x187_1
  have hx187_0 : Keeps 19703248369911820 s x187_0 := by
    unfold x187_0
    exact .app (.refl _ _) (State.setTwin_keeps _ _ _) rfl
  refine .ite (fun _ => ?_) (fun _ => ?_)
  · exact hx187_0
  · refine .ite (fun _ => ?_) (fun _ => ?_)
    · exact .app hx187_0 (State.enterRun_keeps _ _ _) rfl
    · refine .ite (fun _ => ?_) (fun _ => ?_)
      · exact .app hx187_0 (State.enterMode_keeps _ _ _) rfl
      · refine .ite (fun _ => ?_) (fun _ => ?_)
        · exact .app hx187_0 (keeps_mode _ _) rfl
        · exact hx187_0

theorem State.pairWhenDone_keeps (s : State) : Keeps 19703248369911820 s (@State.pairWhenDone s) := by
  unfold State.pairWhenDone
  refine .ite (fun _ => ?_) (fun _ => ?_)
  · exact .app (.refl _ _) (State.pairNow_keeps _) rfl
  · exact .refl _ _

theorem State.combineAll_keeps0 (s : State) (a1 : Nat) (a2 : Bool) (a3 : List Nat) (a4 : Pass) : Keeps 4 s (@State.combineAll s a1 a2 a3 a4).2 := by
  induction a3 generalizing s a1 a2 a4 with
  | nil =>
    simp only [State.combineAll]
    exact .refl _ _
  | cons b l ih =>
    simp only [State.combineAll]
    refine .app ?_ (ih _ _ _ _) rfl
    refine .ite (fun _ => ?_) (fun _ => ?_)
    · exact .app (.refl _ _) (State.count_keeps _ _ _) rfl
    · exact .refl _ _

theorem State.combineAll_keeps {s : State} {a1 : Nat} {a2 : Bool} {a3 : List Nat} {a4 : Pass} {r0} {t : State} (h : @State.combineAll s a1 a2 a3 a4 = (r0, t)) : Keeps 4 s t := by
  have h0 := State.combineAll_keeps0 s a1 a2 a3 a4
  rw [h] at h0
  exact h0

theorem State.charge_keeps (s : State) (a1 : Nat) (a2 : Nat) : Keeps 67110924 s (@State.charge s a1 a2) := by
  unfold State.charge
  extract_lets x188_0
  have hx188_0 : Keeps 67110924 s x188_0 := by
    unfold x188_0
    exact .app (.refl _ _) (State.setF_keeps _ _ _) rfl
  exact .app (.app hx188_0 (State.maxF_keeps _ _ _) rfl) (State.poolEval_keeps _ _) rfl

theorem State.takeBead_keeps {s : State} {a1 a2 : Nat} {r0 : Nat} {t : State} (h : s.takeBead a1 a2 = some (r0, t)) : Keeps 67110924 s t := by
  unfold State.takeBead at h
  split at h
  · cases h
  · simp only [Option.some.injEq, Prod.mk.injEq] at h
    obtain ⟨_, rfl⟩ := h
    exact .app (.app (.app (.refl _ _) (keeps_buf _ _) rfl) (State.dec_keeps _ _ _) rfl) (State.charge_keeps _ _ _) rfl

theorem State.grantBead_keeps {s : State} {pool owner : Nat} {r0 : Nat} {t : State} (h : s.grantBead pool owner = some (r0, t)) :
    Keeps 67110924 s t := by
  unfold State.grantBead at h
  split at h
  · cases h
  · exact State.takeBead_keeps h

theorem State.waitBead_keeps (s : State) (a1 : Nat) (a2 : Nat) (a3 : Nat) (a4 : Nat) (a5 : Nat) : Keeps 67108868 s (@State.waitBead s a1 a2 a3 a4 a5) := by
  unfold State.waitBead
  extract_lets x189_0 x189_1
  exact .app (.app (.refl _ _) (keeps_buf _ _) rfl) (State.setF_keeps _ _ _) rfl

theorem State.evtAdd_keeps (s : State) (a1 : Nat) (a2 : Nat) (a3 : Nat) (a4 : Nat) (a5 : Nat) (a6 : List Nat) : Keeps 4 s (@State.evtAdd s a1 a2 a3 a4 a5 a6) := by
  induction a6 generalizing s a1 a2 a3 a4 a5 with
  | nil =>
    simp only [State.evtAdd]
    exact .refl _ _
  | cons b l ih =>
    simp only [State.evtAdd]
    refine .app (k := 4) ?_ (ih _ _ _ _ _ _) rfl
    refine .ite (fun _ => ?_) (fun _ => ?_)
    · exact .app (.refl _ _) (State.addTally_keeps _ _ _) rfl
    · exact .refl _ _

theorem State.evt_keeps (s : State) (a1 : Nat) (a2 : Nat) (a3 : Nat) (a4 : Nat) : Keeps 4 s (@State.evt s a1 a2 a3 a4) := by
  unfold State.evt
  exact .app (.refl _ _) (State.evtAdd_keeps _ _ _ _ _ _ _) rfl

theorem State.emptyInd_keeps (s : State) (a1 : Nat) (a2 : Nat) : Keeps 2060 s (@State.emptyInd s a1 a2) := by
  unfold State.emptyInd
  exact .app (.app (.app (.refl _ _) (State.count_keeps _ _ _) rfl) (State.evt_keeps _ _ _ _ _) rfl) (State.raiseBPM_keeps _ _) rfl

theorem State.refillBeads_keeps (a0 : Nat) (s : State) (a2 : Nat) (a3 : Nat) : Keeps 100665356 s (@State.refillBeads a0 s a2 a3) := by
  induction a0 generalizing s a2 a3 with
  | zero =>
    simp only [State.refillBeads]
    exact .refl _ _
  | succ n ih =>
    simp only [State.refillBeads]
    split
    · exact .refl _ _
    · refine .ite (fun _ => ?_) (fun _ => ?_)
      · exact .refl _ _
      · split
        · exact .refl _ _
        · split
          · refine .app (k := 100665356) ?_ (ih _ _ _) rfl
            exact .app (.app (.app (.refl _ _) (State.grantBead_keeps (by assumption)) rfl) (keeps_buf _ _) rfl) (State.putCopy_keeps _ _) rfl
          · exact .app (.app (.refl _ _) (State.emptyInd_keeps _ _ _) rfl) (State.waitBead_keeps _ _ _ _ _ _) rfl

theorem State.countCompared_keeps (s : State) (a1 : Nat) (a2 : Nat) : Keeps 4398046511108 s (@State.countCompared s a1 a2) := by
  unfold State.countCompared
  extract_lets x190_0 x190_1
  have hx190_1 : Keeps 4398046511108 s x190_1 := by
    unfold x190_1
    exact .app (.refl _ _) (State.count_keeps _ _ _) rfl
  exact .app hx190_1 (keeps_asmRem _ _) rfl

theorem State.repairRow_keeps (s : State) (a1 : Nat) : Keeps 16 s (s.repairRow a1) := by
  unfold State.repairRow
  exact keeps_wrMem s _ _

theorem State.tcamLookup_keeps {s : State} {q k gen : Nat} {win : List Byte} {c : Bool} {r0 : LookOut} {t : State}
    (h : s.tcamLookup q k gen win c = (r0, t)) : Keeps 62518293955841692 s t := by
  have h0 : Keeps 62518293955841692 s (s.tcamLookup q k gen win c).2 := by
    unfold State.tcamLookup
    extract_lets chain key rows t live fail
    have ht : Keeps 62518293955841692 s t := .app (.app (.refl _ _) (State.count_keeps _ _ _) rfl) (State.countCompared_keeps _ _ _) rfl
    have hf : ∀ u a, Keeps 62518293955841692 s u → Keeps 62518293955841692 s (fail u a).2 := by
      intro u a hu
      unfold fail
      extract_lets v w
      have hv : Keeps 62518293955841692 s v := .app (.app hu (State.count_keeps _ _ _) rfl) (State.repairRow_keeps _ _) rfl
      have hw : Keeps 62518293955841692 s w := .ite (fun _ => .app hv (State.repairRow_keeps _ _) rfl) (fun _ => hv)
      exact .app (.app hw (State.count_keeps _ _ _) rfl) (State.event_keeps _ _ _) rfl
    refine .iteP (fun r : LookOut × State => r.2) (fun _ => .app ht (State.count_keeps _ _ _) rfl) (fun _ => ?_)
    split
    · exact .iteP (fun r : LookOut × State => r.2) (fun _ => hf _ _ (.app ht (keeps_free _) rfl)) (fun _ => ht)
    · exact .iteP (fun r : LookOut × State => r.2) (fun _ => hf _ _ ht) (fun _ => ht)
  rw [h] at h0
  exact h0

theorem State.i2cLatch_keeps (s : State) (a1 : Nat) : Keeps 256 s (@State.i2cLatch s a1) := by
  unfold State.i2cLatch
  refine .ite (fun _ => ?_) (fun _ => ?_)
  · exact .app (.refl _ _) (keeps_latchI2c _ _) rfl
  · exact .refl _ _

theorem State.i2cBytes_keeps0 (a0 : Nat) (s : State) (a2 : Nat) : Keeps 256 s (@State.i2cBytes a0 s a2).2 := by
  induction a0 generalizing s a2 with
  | zero =>
    simp only [State.i2cBytes]
    exact .refl _ _
  | succ n ih =>
    simp only [State.i2cBytes]
    exact .app (.app (.refl _ _) (State.i2cLatch_keeps _ _) rfl) (ih _ _) rfl

theorem State.i2cBytes_keeps {a0 : Nat} {s : State} {a2 : Nat} {r0} {t : State} (h : @State.i2cBytes a0 s a2 = (r0, t)) : Keeps 256 s t := by
  have h0 := State.i2cBytes_keeps0 a0 s a2
  rw [h] at h0
  exact h0

theorem execI2cRead_keeps (a0 : Nat) (a1 : Nat) (s : State) {t : State} (h : execI2cRead a0 a1 s = .next t) : Keeps 2304 s t := by
  unfold execI2cRead at h
  cases h
  extract_lets x191_0
  refine .app ?_ (keeps_emit _ _) rfl
  unfold x191_0
  exact .app (.refl _ _) (State.i2cBytes_keeps rfl) rfl

theorem State.pfcTallies_keeps (s : State) (a1 : Nat) (a2 : Nat) (a3 : List Nat) : Keeps 2060 s (@State.pfcTallies s a1 a2 a3) := by
  induction a3 generalizing s a1 a2 with
  | nil =>
    simp only [State.pfcTallies]
    exact .refl _ _
  | cons b l ih =>
    simp only [State.pfcTallies]
    refine .app (k := 2060) ?_ (ih _ _ _) rfl
    exact .app (.refl _ _) (State.portTally_keeps _ _ _ _) rfl

theorem State.pauseSend_keeps (s : State) (a1 : Nat) (a2 : Nat) (a3 : Nat) : Keeps 134219788 s (@State.pauseSend s a1 a2 a3) := by
  unfold State.pauseSend
  extract_lets x192_0 x192_1 x192_2 x192_3
  have hx192_1 : Keeps 134219788 s x192_1 := by
    unfold x192_1
    exact .app (.refl _ _) (State.updPort_keeps _ _ _) rfl
  refine .ite (fun _ => ?_) (fun _ => ?_)
  · exact .app (.app (.app hx192_1 (State.portTally_keeps _ _ _ _) rfl) (State.pfcTallies_keeps _ _ _ _) rfl) (State.macSend_keeps _ _ _ _) rfl
  · exact .app (.app hx192_1 (State.portTally_keeps _ _ _ _) rfl) (State.macSend_keeps _ _ _ _) rfl

theorem execBelayExpiry_keeps (a0 : Nat) (s : State) {t : State} (h : execBelayExpiry a0 s = .next t) : Keeps 62513895909330572 s t := by
  unfold execBelayExpiry at h
  cases h
  split
  · refine .ite (fun _ => ?_) (fun _ => ?_)
    · exact .app (.refl _ _) (State.reactGroup_keeps _ _) rfl
    · exact .refl _ _
  · exact .refl _ _

theorem State.recMap_keeps (s : State) (a1 : Nat → Nat) (a2 : JRec) : Keeps 1161084278931508 s (@State.recMap s a1 a2) := by
  unfold State.recMap
  split
  · refine .foldl _ _ ?_ (fun u193 a193 => ?_)
    · exact .refl _ _
    · exact .app (.refl _ _) (keeps_wrMem _ _ _) rfl
  · exact .app (.refl _ _) (State.wrDram_keeps _ _ _) rfl
  · exact .app (.refl _ _) (State.setF_keeps _ _ _) rfl
  · exact .app (.refl _ _) (keeps_lpm _ _) rfl

theorem State.recMaps_keeps (s : State) (a1 : Nat → Nat) (a2 : List JRec) : Keeps 1161084278931508 s (@State.recMaps s a1 a2) := by
  induction a2 generalizing s a1 with
  | nil =>
    simp only [State.recMaps]
    exact .refl _ _
  | cons b l ih =>
    simp only [State.recMaps]
    refine .app (k := 1161084278931508) ?_ (ih _ _) rfl
    exact .app (.refl _ _) (State.recMap_keeps _ _ _) rfl

theorem State.unstage_keeps (s : State) (a1 : Nat) : Keeps 4 s (@State.unstage s a1) := by
  unfold State.unstage
  exact .app (.refl _ _) (State.stageFields_keeps _ _ _) rfl

theorem State.unstageAll_keeps (s : State) (a1 : List Nat) : Keeps 4 s (@State.unstageAll s a1) := by
  induction a1 generalizing s with
  | nil =>
    simp only [State.unstageAll]
    exact .refl _ _
  | cons b l ih =>
    simp only [State.unstageAll]
    refine .app (k := 4) ?_ (ih _) rfl
    exact .app (.refl _ _) (State.unstage_keeps _ _) rfl

theorem State.settleAll_keeps (s : State) (a1 : List GenSt) : Keeps 1161084278931508 s (@State.settleAll s a1) := by
  induction a1 generalizing s with
  | nil =>
    simp only [State.settleAll]
    exact .refl _ _
  | cons b l ih =>
    simp only [State.settleAll]
    refine .app (k := 1161084278931508) ?_ (ih _) rfl
    refine .ite (fun _ => ?_) (fun _ => ?_)
    · exact .refl _ _
    · exact .app (.refl _ _) (State.recMaps_keeps _ _ _) rfl

theorem State.takeSnap_keeps (s : State) : Keeps 10168283533706292 s s.takeSnap := by
  unfold State.takeSnap
  extract_lets t cur t1 t2 d _ _
  have ht : Keeps 10168283533706292 s t := by
    unfold t
    exact .app (.refl _ _) (State.recMaps_keeps _ _ _) rfl
  have ht1 : Keeps 10168283533706292 s t1 := by
    unfold t1
    exact .app ht (State.unstageAll_keeps _ _) rfl
  have ht2 : Keeps 10168283533706292 s t2 := by
    unfold t2
    exact .app ht1 (State.settleAll_keeps _ _) rfl
  clear_value t2
  have hd : Keeps 10168283533706292 s d.2 := .app ht2 (keeps_free t2) rfl
  refine ⟨fun p hp => p.same_trans (hd.same p hp) (by cases p <;> first | exact absurd hp (by decide) | rfl), fun h => ?_, hd.outs, hd.ctr⟩
  have hc := hd.canon h
  refine ⟨hc.1, hc.2.1, hc.2.2.1, hc.2.2.2.1, hc.2.2.2.2.1, hc.2.2.2.2.2.1, fun y hy => ?_⟩
  cases hy
  exact ⟨hc.1, swf_keepKeys _ _ _ hc.2.2.1, hc.2.2.2.2.2.1⟩

theorem State.laneSteps_keeps (s : State) (a1 : LaneSt) (a2 : Nat) : Keeps 4 s (@State.laneSteps s a1 a2) := by
  unfold State.laneSteps
  extract_lets x194_0 x194_1 x194_2 x194_3 x194_4
  have hx194_1 : Keeps 4 s x194_1 := by
    unfold x194_1
    exact .app (.refl _ _) (State.setF_keeps _ _ _) rfl
  have hx194_2 : Keeps 4 s x194_2 := by
    unfold x194_2
    refine .ite (fun _ => ?_) (fun _ => ?_)
    · exact .app hx194_1 (State.setF_keeps _ _ _) rfl
    · exact hx194_1
  have hx194_3 : Keeps 4 s x194_3 := by
    unfold x194_3
    refine .ite (fun _ => ?_) (fun _ => ?_)
    · exact .app hx194_2 (State.setF_keeps _ _ _) rfl
    · exact hx194_2
  have hx194_4 : Keeps 4 s x194_4 := by
    unfold x194_4
    refine .ite (fun _ => ?_) (fun _ => ?_)
    · exact .app hx194_3 (State.setF_keeps _ _ _) rfl
    · exact hx194_3
  refine .ite (fun _ => ?_) (fun _ => ?_)
  · exact .app hx194_4 (State.setF_keeps _ _ _) rfl
  · exact hx194_4

theorem State.recQueue_keeps (s : State) (a1 : List Cairn) : Keeps 131072 s (@State.recQueue s a1) := by
  unfold State.recQueue
  exact .app (.refl _ _) (keeps_crn _ _ rfl) rfl

theorem State.putThread_keeps (s : State) (a1 : Thread) : Keeps 1048576 s (@State.putThread s a1) := by
  unfold State.putThread
  exact .app (.refl _ _) (keeps_threads _ _) rfl

theorem State.endSamples_keeps (s : State) (a1 : Nat) (a2 : Nat) : Keeps 2097152 s (@State.endSamples s a1 a2) := by
  unfold State.endSamples
  exact .app (.refl _ _) (keeps_samples _ _) rfl

theorem State.abort_keeps (s : State) (a1 : Thread) (a2 : Nat) (a3 : Nat) : Keeps 62513895917719180 s (@State.abort s a1 a2 a3) := by
  unfold State.abort
  extract_lets x195_0 x195_1 x195_2 x195_3 x195_4 x195_5
  have hx195_0 : Keeps 62513895917719180 s x195_0 := by
    unfold x195_0
    exact .app (.refl _ _) (State.count_keeps _ _ _) rfl
  have hx195_1 : Keeps 62513895917719180 s x195_1 := by
    unfold x195_1
    exact .app (.app hx195_0 (State.setF_keeps _ _ _) rfl) (State.setF_keeps _ _ _) rfl
  have hx195_2 : Keeps 62513895917719180 s x195_2 := by
    unfold x195_2
    exact .app (.app hx195_1 (State.setF_keeps _ _ _) rfl) (State.setF_keeps _ _ _) rfl
  have hx195_3 : Keeps 62513895917719180 s x195_3 := by
    unfold x195_3
    exact .app (.app hx195_2 (State.endSamples_keeps _ _ _) rfl) (State.loseTarget_keeps _ _) rfl
  have hx195_4 : Keeps 62513895917719180 s x195_4 := by
    unfold x195_4
    exact .app hx195_3 (keeps_threads _ _) rfl
  have hx195_5 : Keeps 62513895917719180 s x195_5 := by
    unfold x195_5
    split
    · exact .app hx195_4 (keeps_tasks _ _) rfl
    · exact hx195_4
  exact .app hx195_5 (State.event_keeps _ _ _) rfl

theorem State.writeSample_keeps (s : State) (a1 : Sample) : Keeps 2097156 s (@State.writeSample s a1) := by
  unfold State.writeSample
  extract_lets x196_0 x196_1 x196_2
  have hx196_0 : Keeps 2097156 s x196_0 := by
    unfold x196_0
    exact .app (.app (.refl _ _) (State.setF_keeps _ _ _) rfl) (State.setF_keeps _ _ _) rfl
  have hx196_1 : Keeps 2097156 s x196_1 := by
    unfold x196_1
    exact .app (.app hx196_0 (State.setF_keeps _ _ _) rfl) (State.setB_keeps _ _ _) rfl
  have hx196_2 : Keeps 2097156 s x196_2 := by
    unfold x196_2
    exact .app hx196_1 (State.setF_keeps _ _ _) rfl
  exact .app hx196_2 (keeps_samples _ _) rfl

theorem State.skidStep_keeps (s : State) (a1 : Nat) (a2 : Nat) : Keeps 2097156 s (@State.skidStep s a1 a2) := by
  unfold State.skidStep
  split
  · exact .refl _ _
  · refine .ite (fun _ => ?_) (fun _ => ?_)
    · exact .app (.refl _ _) (State.writeSample_keeps _ _) rfl
    · exact .app (.refl _ _) (keeps_samples _ _) rfl

theorem State.samplePoint_keeps (s : State) (a1 : Nat) (a2 : Nat) (a3 : Nat) (a4 : Nat) (a5 : Nat) (a6 : Bool) : Keeps 2099212 s (@State.samplePoint s a1 a2 a3 a4 a5 a6) := by
  unfold State.samplePoint
  refine .ite (fun _ => ?_) (fun _ => ?_)
  · exact .app (.refl _ _) (State.count_keeps _ _ _) rfl
  · extract_lets x197_0 x197_1 x197_2
    have hx197_0 : Keeps 2099212 s x197_0 := by
      unfold x197_0
      exact .app (.refl _ _) (State.setF_keeps _ _ _) rfl
    have hx197_1 : Keeps 2099212 s x197_1 := by
      unfold x197_1
      exact .app (.app hx197_0 (State.setF_keeps _ _ _) rfl) (State.setF_keeps _ _ _) rfl
    have hx197_2 : Keeps 2099212 s x197_2 := by
      unfold x197_2
      exact .app (.app hx197_1 (State.count_keeps _ _ _) rfl) (State.raiseTLY_keeps _ _) rfl
    exact .app hx197_2 (keeps_samples _ _) rfl

theorem State.evtMAdd_keeps (s : State) (a1 : Nat) (a2 : Nat) (a3 : Nat) (a4 : Nat) (a5 : Nat) (a6 : Nat) (a7 : Bool) (a8 : List Nat) : Keeps 6293516 s (@State.evtMAdd s a1 a2 a3 a4 a5 a6 a7 a8) := by
  induction a8 generalizing s a1 a2 a3 a4 a5 a6 a7 with
  | nil =>
    simp only [State.evtMAdd]
    exact .refl _ _
  | cons b l ih =>
    simp only [State.evtMAdd]
    refine .app (k := 6293516) ?_ (ih _ _ _ _ _ _ _ _) rfl
    refine .ite (fun _ => ?_) (fun _ => ?_)
    · refine .ite (fun _ => ?_) (fun _ => ?_)
      · exact .app (.refl _ _) (State.addTally_keeps _ _ _) rfl
      · refine .ite (fun _ => ?_) (fun _ => ?_)
        · refine .ite (fun _ => ?_) (fun _ => ?_)
          · exact .app (.app (.app (.refl _ _) (State.addTally_keeps _ _ _) rfl) (keeps_evtCount _ _) rfl) (State.samplePoint_keeps _ _ _ _ _ _ _) rfl
          · exact .app (.app (.refl _ _) (State.addTally_keeps _ _ _) rfl) (keeps_evtCount _ _) rfl
        · exact .app (.app (.refl _ _) (State.addTally_keeps _ _ _) rfl) (keeps_evtCount _ _) rfl
    · exact .refl _ _

theorem State.evtM_keeps (s : State) (a1 : Nat) (a2 : Nat) (a3 : Nat) (a4 : Nat) (a5 : Nat) (a6 : optParam Bool false) : Keeps 6293516 s (@State.evtM s a1 a2 a3 a4 a5 a6) := by
  unfold State.evtM
  refine .ite (fun _ => ?_) (fun _ => ?_)
  · exact .app (.refl _ _) (State.evtMAdd_keeps _ _ _ _ _ _ _ _ _) rfl
  · exact .refl _ _

theorem Keeps.issue {m e sl : Nat} {own : Instr} {ks : List Nat} {s t : State} {act : State → Thread → Nat → State} (h : Keeps m s t)
    (hm : 62513895921913484 &&& m = 62513895921913484) (hf : ∀ u a b, Keeps m u (act u a b)) : Keeps m s (t.issue e sl own ks act) := by
  have up : ∀ {k : Nat}, k &&& 62513895921913484 = k → k &&& m = k := fun {k} hk => by rw [← hk, Nat.and_assoc, hm]
  unfold State.issue
  split
  · exact h
  · refine .ite (fun _ => h) (fun _ => ?_)
    extract_lets a
    split
    · exact .ite (fun _ => h.app (State.putThread_keeps _ _) (up rfl)) (fun _ =>
        (h.app (State.abort_keeps _ _ _ _) (up rfl)).app (keeps_patchBad _ _) (up rfl))
    · rename_i t1 t2 t3 _ _
      refine .ite (fun _ => h) (fun _ => ?_)
      have h1 : Keeps m s t1 := h.app (State.skidStep_keeps _ _ _) (up rfl)
      have h2 : Keeps m s t2 := by
        unfold t2
        exact .ite (fun _ => h1.app (State.evtM_keeps _ _ _ _ _ _ _) (up rfl)) (fun _ => h1)
      refine .ite (fun _ => h2.app (State.abort_keeps _ _ _ _) (up rfl)) (fun _ =>
        .ite (fun _ => h2.app (State.abort_keeps _ _ _ _) (up rfl)) (fun _ => ?_))
      have h3 : Keeps m s t3 := by
        unfold t3
        exact .ite (fun _ => h2.app (State.evtM_keeps _ _ _ _ _ _ _) (up rfl)) (fun _ =>
          .ite (fun _ => h2.app (State.evtM_keeps _ _ _ _ _ _ _) (up rfl)) (fun _ => h2))
      exact h3.app (hf _ _ _) (Nat.and_self m)

theorem State.endOffset_keeps0 (s : State) (a1 : Frame) : Keeps 1024 s (@State.endOffset s a1).2 := by
  unfold State.endOffset
  split
  · refine .snd ?_
    exact .app (.refl _ _) (State.free_keeps rfl) rfl
  · split
    · refine .snd ?_
      exact .refl _ _
    · refine .snd ?_
      exact .app (.refl _ _) (State.free_keeps rfl) rfl

theorem State.endOffset_keeps {s : State} {a1 : Frame} {r0} {t : State} (h : @State.endOffset s a1 = (r0, t)) : Keeps 1024 s t := by
  have h0 := State.endOffset_keeps0 s a1
  rw [h] at h0
  exact h0

theorem State.endParse_keeps (s : State) (a1 : Frame) : Keeps 36028797139553292 s (@State.endParse s a1) := by
  unfold State.endParse
  extract_lets x198_0 x198_1 x198_2 x198_3 x198_4
  split
  · refine .app ?_ (State.dropFrame_keeps _ _ _) rfl
    refine .app ?_ (State.putFrame_keeps _ _) rfl
    unfold x198_2
    refine .iteP (fun r : Option Nat × Frame × State => r.2.2) (fun _ => ?_) (fun _ => ?_)
    · exact .app (.refl _ _) (State.judged_keeps rfl) rfl
    · dsimp only
      exact .refl _ _
  · refine .app ?_ (State.endThreads_keeps _ _) rfl
    refine .app ?_ (State.putFrame_keeps _ _) rfl
    unfold x198_4
    refine .app ?_ (State.endOffset_keeps rfl) rfl
    unfold x198_2
    refine .iteP (fun r : Option Nat × Frame × State => r.2.2) (fun _ => ?_) (fun _ => ?_)
    · exact .app (.refl _ _) (State.judged_keeps rfl) rfl
    · dsimp only
      exact .refl _ _

theorem State.endAtReach_keeps (s : State) (a1 : Frame) : Keeps 36028797139553292 s (@State.endAtReach s a1) := by
  unfold State.endAtReach
  exact .app (.refl _ _) (State.endParse_keeps _ _) rfl

theorem State.endAtLimit_keeps (s : State) (a1 : Frame) : Keeps 36028797139553292 s (@State.endAtLimit s a1) := by
  unfold State.endAtLimit
  exact .app (.refl _ _) (State.endParse_keeps _ _) rfl

theorem State.recordAt_keeps (s : State) (a1 : Thread) (a2 : Frame) (a3 : Nat) : Keeps 36028797139553292 s (@State.recordAt s a1 a2 a3) := by
  unfold State.recordAt
  refine .ite (fun _ => ?_) (fun _ => ?_)
  · exact .app (.refl _ _) (State.endAtReach_keeps _ _) rfl
  · refine .ite (fun _ => ?_) (fun _ => ?_)
    · exact .app (.refl _ _) (State.endAtLimit_keeps _ _) rfl
    · exact .app (.refl _ _) (State.putFrame_keeps _ _) rfl

theorem execSetl_keeps (a0 : Nat) (a1 : Nat) (a2 : Nat) (s : State) {t : State} (h : execSetl a0 a1 a2 s = .next t) : Keeps 62513895921913484 s t := by
  unfold execSetl at h
  cases h
  refine .issue ?_ rfl (fun u199 a199 b199 => ?_)
  · exact .refl _ _
  · extract_lets x200_0
    have hx200_0 : Keeps 62513895921913484 u199 x200_0 := by
      unfold x200_0
      exact .app (.refl _ _) (State.putThread_keeps _ _) rfl
    split
    · exact .app hx200_0 (State.recordAt_keeps _ _ _ _) rfl
    · exact hx200_0

theorem State.doCairnWindowRead_keeps (s : State) (a1 : Nat) : Keeps 196 s (@State.doCairnWindowRead s a1) := by
  unfold State.doCairnWindowRead
  extract_lets x201_0 x201_1 x201_2 x201_3 x201_4 x201_5 x201_6 x201_7
  have hx201_6 : Keeps 196 s x201_6 := by
    unfold x201_6
    refine .upd (t := s) ?_ (by intro p hp; cases p <;> first | exact absurd hp (by decide) | rfl) rfl rfl rfl rfl rfl rfl rfl rfl rfl
    exact .refl _ _
  have hx201_7 : Keeps 196 s x201_7 := by
    unfold x201_7
    refine .ite (fun _ => ?_) (fun _ => ?_)
    · exact .app hx201_6 (State.count_keeps _ _ _) rfl
    · exact hx201_6
  refine .ite (fun _ => ?_) (fun _ => ?_)
  · exact .app hx201_7 (State.setF_keeps _ _ _) rfl
  · exact hx201_7

theorem execCairnWindowRead_keeps (a0 : Nat) (s : State) {t : State} (h : execCairnWindowRead a0 s = .next t) : Keeps 196 s t := by
  unfold execCairnWindowRead at h
  cases h
  exact .app (.refl _ _) (State.doCairnWindowRead_keeps _ _) rfl

theorem State.setAges_keeps (s : State) (a1 : List (Nat × Nat)) : Keeps 16 s (@State.setAges s a1) := by
  induction a1 generalizing s with
  | nil =>
    simp only [State.setAges]
    exact .refl _ _
  | cons b l ih =>
    simp only [State.setAges]
    refine .app (k := 16) ?_ (ih _) rfl
    exact .app (.refl _ _) (keeps_wrMem _ _ _) rfl

theorem State.sourceStation_keeps0 (s : State) (a1 : Nat) (a2 : Nat) (a3 : Nat) (a4 : Frame) (a5 : List Byte) : Keeps 20 s (@State.sourceStation s a1 a2 a3 a4 a5).2.2.2 := by
  unfold State.sourceStation
  extract_lets x202_0 x202_1 x202_2 x202_3 x202_4
  clear_value x202_2
  split
  · refine .iteP (fun r : List Nat × Bool × Frame × State => r.2.2.2) (fun _ => ?_) (fun _ => ?_)
    · dsimp only
      exact .app (.refl _ _) (State.count_keeps _ _ _) rfl
    · dsimp only
      exact .app (.refl _ _) (State.count_keeps _ _ _) rfl
  · extract_lets x203_0 x203_1
    refine .iteP (fun r : List Nat × Bool × Frame × State => r.2.2.2) (fun _ => ?_) (fun _ => ?_)
    · dsimp only
      exact .app (.refl _ _) (State.count_keeps _ _ _) rfl
    · refine .iteP (fun r : List Nat × Bool × Frame × State => r.2.2.2) (fun _ => ?_) (fun _ => ?_)
      · dsimp only
        exact .refl _ _
      · refine .iteP (fun r : List Nat × Bool × Frame × State => r.2.2.2) (fun _ => ?_) (fun _ => ?_)
        · dsimp only
          exact .app (.refl _ _) (State.count_keeps _ _ _) rfl
        · refine .iteP (fun r : List Nat × Bool × Frame × State => r.2.2.2) (fun _ => ?_) (fun _ => ?_)
          · dsimp only
            exact .app (.app (.refl _ _) (State.setAges_keeps _ _) rfl) (State.count_keeps _ _ _) rfl
          · dsimp only
            exact .app (.refl _ _) (State.count_keeps _ _ _) rfl

theorem State.sourceStation_keeps {s : State} {a1 : Nat} {a2 : Nat} {a3 : Nat} {a4 : Frame} {a5 : List Byte} {r0 r1 r2} {t : State} (h : @State.sourceStation s a1 a2 a3 a4 a5 = (r0, (r1, (r2, t)))) : Keeps 20 s t := by
  have h0 := State.sourceStation_keeps0 s a1 a2 a3 a4 a5
  rw [h] at h0
  exact h0

theorem State.treeTouch_keeps (s : State) (a1 : Nat) (a2 : Nat) : Keeps 8796093022212 s (@State.treeTouch s a1 a2) := by
  unfold State.treeTouch
  refine .ite (fun _ => ?_) (fun _ => ?_)
  · extract_lets x204_0
    have hx204_0 : Keeps 8796093022212 s x204_0 := by
      unfold x204_0
      exact .app (.refl _ _) (State.count_keeps _ _ _) rfl
    exact .app hx204_0 (keeps_trees _ _) rfl
  · extract_lets x205_0 x205_1 x205_2 x205_3
    have hx205_3 : Keeps 8796093022212 s x205_3 := by
      unfold x205_3
      exact .app (.app (.refl _ _) (State.count_keeps _ _ _) rfl) (State.evt_keeps _ _ _ _ _) rfl
    exact .app hx205_3 (keeps_trees _ _) rfl

theorem State.treeRules_keeps (s : State) (a1 : Nat) (a2 : List Nat) : Keeps 8796093022212 s (@State.treeRules s a1 a2) := by
  induction a2 generalizing s a1 with
  | nil =>
    simp only [State.treeRules]
    exact .refl _ _
  | cons b l ih =>
    simp only [State.treeRules]
    refine .app (k := 8796093022212) ?_ (ih _ _) rfl
    exact .app (.app (.refl _ _) (State.treeTouch_keeps _ _ _) rfl) (State.treeTouch_keeps _ _ _) rfl

theorem State.walk_keeps0 (a0 : Nat) (s : State) (a2 : Nat) (a3 : Nat) (a4 : List Byte) (a5 : Nat) : Keeps 8796093022212 s (@State.walk a0 s a2 a3 a4 a5).2 := by
  induction a0 generalizing s a2 a3 a4 a5 with
  | zero =>
    simp only [State.walk]
    exact .refl _ _
  | succ n ih =>
    simp only [State.walk]
    refine .iteP (fun r : Option (Option Nat) × State => r.2) (fun _ => ?_) (fun _ => ?_)
    · refine .snd ?_
      exact .refl _ _
    · refine .iteP (fun r : Option (Option Nat) × State => r.2) (fun _ => ?_) (fun _ => ?_)
      · refine .iteP (fun r : Option (Option Nat) × State => r.2) (fun _ => ?_) (fun _ => ?_)
        · refine .snd ?_
          exact .app (.refl _ _) (State.treeTouch_keeps _ _ _) rfl
        · exact .app (.app (.refl _ _) (State.treeTouch_keeps _ _ _) rfl) (ih _ _ _ _ _) rfl
      · refine .iteP (fun r : Option (Option Nat) × State => r.2) (fun _ => ?_) (fun _ => ?_)
        · refine .iteP (fun r : Option (Option Nat) × State => r.2) (fun _ => ?_) (fun _ => ?_)
          · refine .snd ?_
            exact .app (.refl _ _) (State.treeTouch_keeps _ _ _) rfl
          · refine .snd ?_
            exact .app (.app (.refl _ _) (State.treeTouch_keeps _ _ _) rfl) (State.treeRules_keeps _ _ _) rfl
        · refine .snd ?_
          exact .app (.refl _ _) (State.treeTouch_keeps _ _ _) rfl

theorem State.walk_keeps {a0 : Nat} {s : State} {a2 : Nat} {a3 : Nat} {a4 : List Byte} {a5 : Nat} {r0} {t : State} (h : @State.walk a0 s a2 a3 a4 a5 = (r0, t)) : Keeps 8796093022212 s t := by
  have h0 := State.walk_keeps0 a0 s a2 a3 a4 a5
  rw [h] at h0
  exact h0

theorem State.treeLookup_keeps0 (s : State) (a1 : Nat) (a2 : Nat) (a3 : Nat) (a4 : Nat) (a5 : List Byte) : Keeps 62513895909330572 s (@State.treeLookup s a1 a2 a3 a4 a5).2 := by
  unfold State.treeLookup
  extract_lets x206_0
  split
  · refine .snd ?_
    exact .refl _ _
  · extract_lets x207_0 x207_1
    have hx207_1 : Keeps 62513895909330572 s x207_1 := by
      unfold x207_1
      refine .app ?_ (State.maxF_keeps _ _ _) rfl
      unfold x207_0
      exact .app (.refl _ _) (State.walk_keeps rfl) rfl
    split
    · refine .snd ?_
      exact .app (.app hx207_1 (State.count_keeps _ _ _) rfl) (State.event_keeps _ _ _) rfl
    · refine .snd ?_
      exact hx207_1
    · refine .snd ?_
      exact hx207_1

theorem State.treeLookup_keeps {s : State} {a1 : Nat} {a2 : Nat} {a3 : Nat} {a4 : Nat} {a5 : List Byte} {r0} {t : State} (h : @State.treeLookup s a1 a2 a3 a4 a5 = (r0, t)) : Keeps 62513895909330572 s t := by
  have h0 := State.treeLookup_keeps0 s a1 a2 a3 a4 a5
  rw [h] at h0
  exact h0

theorem State.tableLookup_keeps0 (s : State) (a1 : Nat) (a2 : Nat) (a3 : Nat) (a4 : Nat) (a5 : List Byte) (a6 : Bool) : Keeps 62518293955841692 s (@State.tableLookup s a1 a2 a3 a4 a5 a6).2 := by
  unfold State.tableLookup
  extract_lets x208_0 x208_1
  split
  · refine .snd ?_
    exact .refl _ _
  · refine .snd ?_
    exact .refl _ _
  · split
    · refine .snd ?_
      exact .refl _ _
    · split
      · refine .snd ?_
        exact .app (.refl _ _) (State.count_keeps _ _ _) rfl
      · refine .snd ?_
        exact .refl _ _
  · refine .snd ?_
    exact .refl _ _
  · exact .app (.refl _ _) (State.treeLookup_keeps rfl) rfl
  · exact .app (.refl _ _) (State.tcamLookup_keeps rfl) rfl
  · refine .snd ?_
    exact .refl _ _

theorem State.tableLookup_keeps {s : State} {a1 : Nat} {a2 : Nat} {a3 : Nat} {a4 : Nat} {a5 : List Byte} {a6 : Bool} {r0} {t : State} (h : @State.tableLookup s a1 a2 a3 a4 a5 a6 = (r0, t)) : Keeps 62518293955841692 s t := by
  have h0 := State.tableLookup_keeps0 s a1 a2 a3 a4 a5 a6
  rw [h] at h0
  exact h0

theorem State.streamHit_keeps0 (s : State) (a1 : Nat) (a2 : Bool) (a3 : Frame) (a4 : Nat) : Keeps 4 s (@State.streamHit s a1 a2 a3 a4).2 := by
  unfold State.streamHit
  extract_lets x209_0
  refine .iteP (fun r : Frame × State => r.2) (fun _ => ?_) (fun _ => ?_)
  · refine .snd ?_
    exact .app (.refl _ _) (State.count_keeps _ _ _) rfl
  · refine .iteP (fun r : Frame × State => r.2) (fun _ => ?_) (fun _ => ?_)
    · refine .snd ?_
      exact .refl _ _
    · refine .snd ?_
      exact .refl _ _

theorem State.streamHit_keeps {s : State} {a1 : Nat} {a2 : Bool} {a3 : Frame} {a4 : Nat} {r0} {t : State} (h : @State.streamHit s a1 a2 a3 a4 = (r0, t)) : Keeps 4 s t := by
  have h0 := State.streamHit_keeps0 s a1 a2 a3 a4
  rw [h] at h0
  exact h0

theorem State.station_keeps0 (s : State) (a1 : Nat) (a2 : Nat) (a3 : Nat) (a4 : Frame) (a5 : Pass) (a6 : Bool) : Keeps 62518293955841692 s (@State.station s a1 a2 a3 a4 a5 a6).2 := by
  unfold State.station
  extract_lets x210_0 x210_1 x210_2 x210_3 x210_4 x210_5 x210_6 x210_7 x210_8
  refine .iteP (fun r : Option (Bool × List Nat × Frame) × State => r.2) (fun _ => ?_) (fun _ => ?_)
  · refine .snd ?_
    exact .refl _ _
  · refine .iteP (fun r : Option (Bool × List Nat × Frame) × State => r.2) (fun _ => ?_) (fun _ => ?_)
    · refine .iteP (fun r : Option (Bool × List Nat × Frame) × State => r.2) (fun _ => ?_) (fun _ => ?_)
      · refine .snd ?_
        exact .refl _ _
      · refine .snd ?_
        unfold x210_6
        exact .app (.refl _ _) (State.meterFrame_keeps rfl) rfl
    · refine .iteP (fun r : Option (Bool × List Nat × Frame) × State => r.2) (fun _ => ?_) (fun _ => ?_)
      · split
        · refine .snd ?_
          exact .refl _ _
        · refine .snd ?_
          exact .refl _ _
      · refine .iteP (fun r : Option (Bool × List Nat × Frame) × State => r.2) (fun _ => ?_) (fun _ => ?_)
        · refine .snd ?_
          unfold x210_7
          exact .app (.refl _ _) (State.sourceStation_keeps rfl) rfl
        · split
          · refine .iteP (fun r : Option (Bool × List Nat × Frame) × State => r.2) (fun _ => ?_) (fun _ => ?_)
            · extract_lets x211_0
              refine .snd ?_
              unfold x211_0
              exact .app (.app (.refl _ _) (State.tableLookup_keeps (by assumption)) rfl) (State.streamHit_keeps rfl) rfl
            · refine .snd ?_
              exact .app (.refl _ _) (State.tableLookup_keeps (by assumption)) rfl
          · refine .snd ?_
            exact .app (.refl _ _) (State.tableLookup_keeps (by assumption)) rfl
          · refine .snd ?_
            exact .app (.refl _ _) (State.tableLookup_keeps (by assumption)) rfl

theorem State.station_keeps {s : State} {a1 : Nat} {a2 : Nat} {a3 : Nat} {a4 : Frame} {a5 : Pass} {a6 : Bool} {r0} {t : State} (h : @State.station s a1 a2 a3 a4 a5 a6 = (r0, t)) : Keeps 62518293955841692 s t := by
  have h0 := State.station_keeps0 s a1 a2 a3 a4 a5 a6
  rw [h] at h0
  exact h0

theorem State.works_keeps (s : State) (a1 : Nat) (a2 : Nat) : Keeps 36028797018963972 s (@State.works s a1 a2) := by
  unfold State.works
  extract_lets x212_0 x212_1 x212_2
  have hx212_2 : Keeps 36028797018963972 s x212_2 := by
    unfold x212_2
    exact .app (.refl _ _) (keeps_tly _ _) rfl
  refine .ite (fun _ => ?_) (fun _ => ?_)
  · exact .app hx212_2 (State.evt_keeps _ _ _ _ _) rfl
  · exact hx212_2

theorem State.frameResult_keeps (s : State) (a1 : Frame) (a2 : Bool) : Keeps 62518293955841692 s (@State.frameResult s a1 a2) := by
  unfold State.frameResult
  extract_lets x213_0 x213_1 x213_2
  split
  · exact .app (.app (.refl _ _) (State.station_keeps (by assumption)) rfl) (State.dropFrame_keeps _ _ _) rfl
  · extract_lets x214_0 x214_1
    have hx214_0 : Keeps 62518293955841692 s x214_0 := by
      unfold x214_0
      exact .app (.app (.app (.refl _ _) (State.station_keeps (by assumption)) rfl) (State.works_keeps _ _ _) rfl) (State.evt_keeps _ _ _ _ _) rfl
    refine .app ?_ (State.putFrame_keeps _ _) rfl
    unfold x214_1
    exact .app hx214_0 (State.combineAll_keeps rfl) rfl

theorem State.raiseTSY_keeps (s : State) (a1 : Fld) : Keeps 2060 s (@State.raiseTSY s a1) := by
  unfold State.raiseTSY
  exact .app (.refl _ _) (State.raise_keeps _ _ _ _) rfl

theorem State.tsPush_keeps (s : State) (a1 : Nat) (a2 : TsEntry) : Keeps 264204 s (@State.tsPush s a1 a2) := by
  unfold State.tsPush
  extract_lets x215_0 x215_1
  refine .ite (fun _ => ?_) (fun _ => ?_)
  · exact .app (.app (.refl _ _) (State.count_keeps _ _ _) rfl) (State.raiseTSY_keeps _ _) rfl
  · exact .app (.refl _ _) (keeps_time _ _) rfl

theorem State.joinBead_keeps (s : State) (a1 : Frame) (a2 : Nat) : Keeps 83886080 s (@State.joinBead s a1 a2) := by
  unfold State.joinBead
  exact .app (.app (.refl _ _) (keeps_buf _ _) rfl) (State.putFrame_keeps _ _) rfl

theorem State.claimBead_keeps (s : State) (a1 : Frame) : Keeps 36028797139552268 s (@State.claimBead s a1) := by
  unfold State.claimBead
  extract_lets x216_0 x216_1
  have hx216_1 : Keeps 36028797139552268 s x216_1 := by
    unfold x216_1
    exact .app (.refl _ _) (State.emptyInd_keeps _ _ _) rfl
  refine .ite (fun _ => ?_) (fun _ => ?_)
  · exact .app (.app (.refl _ _) (State.count_keeps _ _ _) rfl) (State.dropFrame_keeps _ _ _) rfl
  · split
    · exact .app (.app (.refl _ _) (State.grantBead_keeps (by assumption)) rfl) (State.joinBead_keeps _ _ _) rfl
    · refine .ite (fun _ => ?_) (fun _ => ?_)
      · exact .app hx216_1 (State.waitBead_keeps _ _ _ _ _ _) rfl
      · exact .app hx216_1 (State.dropFrame_keeps _ _ _) rfl

theorem State.claimBeads_keeps (a0 : Nat) (s : State) (a2 : Nat) : Keeps 36028797139552268 s (@State.claimBeads a0 s a2) := by
  induction a0 generalizing s a2 with
  | zero =>
    simp only [State.claimBeads]
    exact .refl _ _
  | succ n ih =>
    simp only [State.claimBeads]
    split
    · refine .ite (fun _ => ?_) (fun _ => ?_)
      · refine .app (k := 36028797139552268) ?_ (ih _ _) rfl
        exact .app (.refl _ _) (State.claimBead_keeps _ _) rfl
      · exact .refl _ _
    · exact .refl _ _

theorem execTimeMsgSend_keeps (s : State) {t : State} (h : execTimeMsgSend s = .next t) : Keeps 562949953423360 s t := by
  unfold execTimeMsgSend at h
  cases h
  refine .ite (fun _ => ?_) (fun _ => ?_)
  · extract_lets x217_0 x217_1
    have hx217_0 : Keeps 562949953423360 s x217_0 := by
      unfold x217_0
      exact .app (.refl _ _) (keeps_emit _ _) rfl
    exact .app hx217_0 (keeps_rope _ _) rfl
  · exact .refl _ _

theorem State.portsUp_keeps (s : State) (a1 : List Nat) : Keeps 562950208358412 s (@State.portsUp s a1) := by
  induction a1 generalizing s with
  | nil =>
    simp only [State.portsUp]
    exact .refl _ _
  | cons b l ih =>
    simp only [State.portsUp]
    refine .app (k := 562950208358412) ?_ (ih _) rfl
    exact .app (.refl _ _) (State.portUp_keeps _ _) rfl

theorem State.raiseAGE_keeps (s : State) (a1 : Fld) : Keeps 2060 s (@State.raiseAGE s a1) := by
  unfold State.raiseAGE
  exact .app (.refl _ _) (State.raise_keeps _ _ _ _) rfl

theorem State.limitFlag_keeps (s : State) (a1 : Fld) (a2 : Bool) : Keeps 2060 s (@State.limitFlag s a1 a2) := by
  unfold State.limitFlag
  extract_lets x218_0
  have hx218_0 : Keeps 2060 s x218_0 := by
    unfold x218_0
    exact .app (.refl _ _) (State.setB_keeps _ _ _) rfl
  refine .ite (fun _ => ?_) (fun _ => ?_)
  · exact .app hx218_0 (State.raiseAGE_keeps _ _) rfl
  · exact hx218_0

theorem State.marginFlag_keeps (s : State) (a1 : Fld) (a2 : Nat) (a3 : Bool) : Keeps 62513895909330572 s (@State.marginFlag s a1 a2 a3) := by
  unfold State.marginFlag
  extract_lets x219_0
  have hx219_0 : Keeps 62513895909330572 s x219_0 := by
    unfold x219_0
    exact .app (.refl _ _) (State.limitFlag_keeps _ _ _) rfl
  refine .ite (fun _ => ?_) (fun _ => ?_)
  · exact .app hx219_0 (State.event_keeps _ _ _) rfl
  · exact hx219_0

theorem State.insCtl_keeps (s : State) (a1 : Nat) (a2 : Nat) (a3 : Bool) : Keeps 1301821767811124 s (@State.insCtl s a1 a2 a3) := by
  unfold State.insCtl
  exact .app (.app (.app (.app (.refl _ _) (State.setF_keeps _ _ _) rfl) (State.setF_keeps _ _ _) rfl) (State.setB_keeps _ _ _) rfl) (State.cmdGo_keeps _ _ _ _) rfl

theorem State.localFault_keeps (s : State) (a1 : Nat) : Keeps 2052 s (@State.localFault s a1) := by
  unfold State.localFault
  refine .ite (fun _ => ?_) (fun _ => ?_)
  · exact .refl _ _
  · exact .app (.app (.refl _ _) (State.setF_keeps _ _ _) rfl) (State.macSend_keeps _ _ _ _) rfl

theorem State.linkFaults_keeps (s : State) (a1 : List Nat) : Keeps 134217728 s (@State.linkFaults s a1) := by
  induction a1 generalizing s with
  | nil =>
    simp only [State.linkFaults]
    exact .refl _ _
  | cons b l ih =>
    simp only [State.linkFaults]
    refine .app (k := 134217728) ?_ (ih _) rfl
    exact .app (.refl _ _) (State.linkFault_keeps _ _) rfl

theorem execLinkFaultDetect_keeps (a0 : Nat) (a1 : Nat) (a2 : Nat) (s : State) {t : State} (h : execLinkFaultDetect a0 a1 a2 s = .next t) : Keeps 36609382363039756 s t := by
  unfold execLinkFaultDetect at h
  cases h
  refine .ite (fun _ => ?_) (fun _ => ?_)
  · exact .refl _ _
  · refine .ite (fun _ => ?_) (fun _ => ?_)
    · exact .app (.app (.refl _ _) (State.localFault_keeps _ _) rfl) (State.linkFault_keeps _ _) rfl
    · refine .ite (fun _ => ?_) (fun _ => ?_)
      · exact .app (.app (.refl _ _) (State.setF_keeps _ _ _) rfl) (State.linkFault_keeps _ _) rfl
      · refine .ite (fun _ => ?_) (fun _ => ?_)
        · refine .ite (fun _ => ?_) (fun _ => ?_)
          · exact .app (.app (.refl _ _) (State.updPort_keeps _ _ _) rfl) (State.portDown_keeps _ _) rfl
          · exact .refl _ _
        · split
          · exact .refl _ _
          · refine .ite (fun _ => ?_) (fun _ => ?_)
            · exact .refl _ _
            · refine .ite (fun _ => ?_) (fun _ => ?_)
              · refine .ite (fun _ => ?_) (fun _ => ?_)
                · exact .app (.app (.refl _ _) (State.laneLoses_keeps _ _ _) rfl) (State.ropeUnlock_keeps _ _) rfl
                · exact .refl _ _
              · refine .ite (fun _ => ?_) (fun _ => ?_)
                · exact .app (.app (.refl _ _) (State.laneLoses_keeps _ _ _) rfl) (State.linkFaults_keeps _ _) rfl
                · exact .refl _ _

theorem State.aluFree_keeps (s : State) (a1 : Thread) (a2 : Nat) (a3 : Nat) : Keeps 1049600 s (@State.aluFree s a1 a2 a3) := by
  unfold State.aluFree
  extract_lets x220_0
  refine .app ?_ (State.putThread_keeps _ _) rfl
  unfold x220_0
  exact .app (.refl _ _) (State.free_keeps rfl) rfl

theorem execAndW_keeps (a0 : Nat) (a1 : Nat) (a2 : Nat) (a3 : Nat) (a4 : Nat) (s : State) {t : State} (h : execAndW a0 a1 a2 a3 a4 s = .next t) : Keeps 62513895921913484 s t := by
  unfold execAndW at h
  cases h
  refine .issue ?_ rfl (fun u221 a221 b221 => ?_)
  · exact .refl _ _
  · exact .app (.refl _ _) (State.aluFree_keeps _ _ _ _) rfl

theorem execSnapStop_keeps (s : State) {t : State} (h : execSnapStop s = .next t) : Keeps 36028797018963972 s t := by
  unfold execSnapStop at h
  cases h
  exact .app (.refl _ _) (State.doSnapStop_keeps _) rfl

theorem State.putBar4_keeps (a0 : Nat) (s : State) (a2 : Nat) (a3 : List Byte) : Keeps 8 s (@State.putBar4 a0 s a2 a3) := by
  induction a0 generalizing s a2 a3 with
  | zero =>
    simp only [State.putBar4]
    exact .refl _ _
  | succ n ih =>
    simp only [State.putBar4]
    refine .ite (fun _ => ?_) (fun _ => ?_)
    · exact .refl _ _
    · refine .app (k := 8) ?_ (ih _ _ _) rfl
      exact .app (.refl _ _) (keeps_wr4 _ _ _) rfl

theorem State.mbAnswer_keeps (s : State) (a1 : MbReq) (a2 : Nat) (a3 : List Byte) : Keeps 2060 s (@State.mbAnswer s a1 a2 a3) := by
  unfold State.mbAnswer
  extract_lets x222_0
  have hx222_0 : Keeps 2060 s x222_0 := by
    unfold x222_0
    exact .app (.refl _ _) (State.putBar4_keeps _ _ _ _) rfl
  exact .app (.app hx222_0 (keeps_wr4 _ _ _) rfl) (State.raiseHDM_keeps _ _) rfl

theorem State.setMbVer_keeps (s : State) (a1 : Nat) : Keeps 8 s (@State.setMbVer s a1) := by
  unfold State.setMbVer
  exact .app (.refl _ _) (keeps_wr4 _ _ _) rfl

theorem State.mbHello_keeps (s : State) (a1 : MbReq) : Keeps 2060 s (@State.mbHello s a1) := by
  unfold State.mbHello
  extract_lets x223_0 x223_1 x223_2
  refine .ite (fun _ => ?_) (fun _ => ?_)
  · exact .app (.refl _ _) (State.mbAnswer_keeps _ _ _ _) rfl
  · exact .app (.app (.refl _ _) (State.setMbVer_keeps _ _) rfl) (State.mbAnswer_keeps _ _ _ _) rfl

theorem State.freeBytes_keeps0 (a0 : Nat) (s : State) : Keeps 1024 s (@State.freeBytes a0 s).2 := by
  induction a0 generalizing s with
  | zero =>
    simp only [State.freeBytes]
    exact .refl _ _
  | succ n ih =>
    simp only [State.freeBytes]
    exact .app (.app (.refl _ _) (State.free_keeps rfl) rfl) (ih _) rfl

theorem State.freeBytes_keeps {a0 : Nat} {s : State} {r0} {t : State} (h : @State.freeBytes a0 s = (r0, t)) : Keeps 1024 s t := by
  have h0 := State.freeBytes_keeps0 a0 s
  rw [h] at h0
  exact h0

theorem State.cairnNonce_keeps (s : State) (a1 : Option Nat) : Keeps 131072 s (@State.cairnNonce s a1) := by
  unfold State.cairnNonce
  exact .app (.refl _ _) (keeps_crn _ _ rfl) rfl

theorem State.cairnCodeFails_keeps (s : State) : Keeps 131072 s (@State.cairnCodeFails s) := by
  unfold State.cairnCodeFails
  exact .app (.refl _ _) (keeps_crn _ _ rfl) rfl

theorem State.mbClearCode_keeps (s : State) (a1 : MbReq) : Keeps 133132 s (@State.mbClearCode s a1) := by
  unfold State.mbClearCode
  extract_lets x224_0
  have hx224_0 : Keeps 133132 s x224_0 := by
    unfold x224_0
    exact .app (.refl _ _) (State.cairnNonce_keeps _ _) rfl
  split
  · refine .ite (fun _ => ?_) (fun _ => ?_)
    · exact .app hx224_0 (State.mbAnswer_keeps _ _ _ _) rfl
    · extract_lets x225_0
      refine .ite (fun _ => ?_) (fun _ => ?_)
      · exact .app (.app hx224_0 (State.setF_keeps _ _ _) rfl) (State.mbAnswer_keeps _ _ _ _) rfl
      · exact .app (.app hx224_0 (State.cairnCodeFails_keeps _) rfl) (State.mbAnswer_keeps _ _ _ _) rfl
  · exact .app hx224_0 (State.mbAnswer_keeps _ _ _ _) rfl

theorem State.mbCairnClear_keeps (s : State) (a1 : MbReq) : Keeps 134156 s (@State.mbCairnClear s a1) := by
  unfold State.mbCairnClear
  refine .ite (fun _ => ?_) (fun _ => ?_)
  · exact .app (.refl _ _) (State.mbAnswer_keeps _ _ _ _) rfl
  · refine .ite (fun _ => ?_) (fun _ => ?_)
    · extract_lets x226_0
      refine .app ?_ (State.mbAnswer_keeps _ _ _ _) rfl
      refine .app ?_ (State.cairnNonce_keeps _ _) rfl
      unfold x226_0
      exact .app (.refl _ _) (State.freeBytes_keeps rfl) rfl
    · refine .ite (fun _ => ?_) (fun _ => ?_)
      · exact .app (.refl _ _) (State.mbAnswer_keeps _ _ _ _) rfl
      · exact .app (.refl _ _) (State.mbClearCode_keeps _ _) rfl

theorem State.mbChallenge_keeps (s : State) (a1 : MbReq) : Keeps 281474976713740 s (@State.mbChallenge s a1) := by
  unfold State.mbChallenge
  extract_lets x227_0 x227_1 x227_2
  have hx227_1 : Keeps 281474976713740 s x227_1 := by
    unfold x227_1
    unfold x227_0
    exact .app (.refl _ _) (State.freeBytes_keeps rfl) rfl
  exact .app (.app hx227_1 (keeps_load _ _) rfl) (State.mbAnswer_keeps _ _ _ _) rfl

theorem State.mbUnlock_keeps (s : State) (a1 : MbReq) : Keeps 281474976712716 s (@State.mbUnlock s a1) := by
  unfold State.mbUnlock
  refine .ite (fun _ => ?_) (fun _ => ?_)
  · exact .app (.refl _ _) (State.mbAnswer_keeps _ _ _ _) rfl
  · extract_lets x228_0 x228_1 x228_2 x228_3 x228_4 x228_5
    exact .app (.app (.refl _ _) (keeps_load _ _) rfl) (State.mbAnswer_keeps _ _ _ _) rfl

theorem State.mbOtpKey_keeps (s : State) (a1 : MbReq) : Keeps 18444 s (@State.mbOtpKey s a1) := by
  unfold State.mbOtpKey
  refine .ite (fun _ => ?_) (fun _ => ?_)
  · exact .app (.refl _ _) (State.mbAnswer_keeps _ _ _ _) rfl
  · extract_lets x229_0 x229_1 x229_2
    refine .ite (fun _ => ?_) (fun _ => ?_)
    · exact .app (.refl _ _) (State.mbAnswer_keeps _ _ _ _) rfl
    · exact .app (.app (.app (.refl _ _) (keeps_otp _ _) rfl) (State.orF_keeps _ _ _) rfl) (State.mbAnswer_keeps _ _ _ _) rfl

theorem State.mbOtpRevoke_keeps (s : State) (a1 : MbReq) : Keeps 18444 s (@State.mbOtpRevoke s a1) := by
  unfold State.mbOtpRevoke
  refine .ite (fun _ => ?_) (fun _ => ?_)
  · exact .app (.refl _ _) (State.mbAnswer_keeps _ _ _ _) rfl
  · extract_lets x230_0 x230_1
    refine .ite (fun _ => ?_) (fun _ => ?_)
    · exact .app (.refl _ _) (State.mbAnswer_keeps _ _ _ _) rfl
    · exact .app (.app (.app (.refl _ _) (keeps_otp _ _) rfl) (State.orF_keeps _ _ _) rfl) (State.mbAnswer_keeps _ _ _ _) rfl

theorem State.mbExecute_keeps (s : State) (a1 : MbReq) : Keeps 281474976861196 s (@State.mbExecute s a1) := by
  unfold State.mbExecute
  extract_lets x231_0
  refine .ite (fun _ => ?_) (fun _ => ?_)
  · exact .app (.refl _ _) (State.mbAnswer_keeps _ _ _ _) rfl
  · refine .ite (fun _ => ?_) (fun _ => ?_)
    · exact .app (.refl _ _) (State.mbAnswer_keeps _ _ _ _) rfl
    · refine .ite (fun _ => ?_) (fun _ => ?_)
      · exact .app (.refl _ _) (State.mbAnswer_keeps _ _ _ _) rfl
      · refine .ite (fun _ => ?_) (fun _ => ?_)
        · exact .app (.refl _ _) (State.mbAnswer_keeps _ _ _ _) rfl
        · refine .ite (fun _ => ?_) (fun _ => ?_)
          · exact .app (.refl _ _) (State.mbAnswer_keeps _ _ _ _) rfl
          · refine .ite (fun _ => ?_) (fun _ => ?_)
            · exact .app (.refl _ _) (State.mbHello_keeps _ _) rfl
            · refine .ite (fun _ => ?_) (fun _ => ?_)
              · exact .app (.refl _ _) (State.mbAnswer_keeps _ _ _ _) rfl
              · refine .ite (fun _ => ?_) (fun _ => ?_)
                · exact .app (.refl _ _) (State.mbCairnClear_keeps _ _) rfl
                · refine .ite (fun _ => ?_) (fun _ => ?_)
                  · exact .app (.refl _ _) (State.mbChallenge_keeps _ _) rfl
                  · refine .ite (fun _ => ?_) (fun _ => ?_)
                    · exact .app (.refl _ _) (State.mbUnlock_keeps _ _) rfl
                    · refine .ite (fun _ => ?_) (fun _ => ?_)
                      · exact .app (.refl _ _) (State.mbOtpKey_keeps _ _) rfl
                      · exact .app (.refl _ _) (State.mbOtpRevoke_keeps _ _) rfl

theorem State.mbRing_keeps (s : State) : Keeps 62795370886057612 s (@State.mbRing s) := by
  unfold State.mbRing
  refine .ite (fun _ => ?_) (fun _ => ?_)
  · exact .app (.app (.refl _ _) (State.raiseHDM_keeps _ _) rfl) (State.minor_keeps _ _) rfl
  · exact .app (.refl _ _) (State.mbExecute_keeps _ _) rfl

theorem State.mbRow_keeps (s : State) (a1 : Nat) : Keeps 62795370886057612 s (@State.mbRow s a1) := by
  unfold State.mbRow
  refine .ite (fun _ => ?_) (fun _ => ?_)
  · exact .app (.refl _ _) (State.mbRing_keeps _) rfl
  · exact .refl _ _

theorem execMbCairnClear_keeps (s : State) {t : State} (h : execMbCairnClear s = .next t) : Keeps 62795370886057612 s t := by
  unfold execMbCairnClear at h
  cases h
  exact .app (.refl _ _) (State.mbRow_keeps _ _) rfl

theorem execRefreshDue_keeps (a0 : Nat) (a1 : Nat) (a2 : Bool) (s : State) {t : State} (h : execRefreshDue a0 a1 a2 s = .next t) : Keeps 1125899906844676 s t := by
  unfold execRefreshDue at h
  cases h
  extract_lets x232_0
  refine .ite (fun _ => ?_) (fun _ => ?_)
  · exact .refl _ _
  · refine .ite (fun _ => ?_) (fun _ => ?_)
    · exact .app (.refl _ _) (State.refreshes_keeps _ _ _) rfl
    · refine .ite (fun _ => ?_) (fun _ => ?_)
      · exact .app (.refl _ _) (State.setPostponed_keeps _ _ _) rfl
      · exact .app (.app (.refl _ _) (State.refreshes_keeps _ _ _) rfl) (State.count_keeps _ _ _) rfl

theorem State.copyFrees_keeps (s : State) (a1 : Look) (a2 : Nat) (a3 : Nat) : Keeps 33554432 s (@State.copyFrees s a1 a2 a3) := by
  unfold State.copyFrees
  split
  · split
    · refine .ite (fun _ => ?_) (fun _ => ?_)
      · exact .app (.refl _ _) (State.putCopy_keeps _ _) rfl
      · exact .refl _ _
    · exact .refl _ _
  · exact .refl _ _

theorem execBtab_keeps (a0 : Nat) (a1 : Nat) (a2 : Nat) (a3 : Nat) (s : State) {t : State} (h : execBtab a0 a1 a2 a3 s = .next t) : Keeps 62513895921913484 s t := by
  unfold execBtab at h
  cases h
  refine .issue ?_ rfl (fun u233 a233 b233 => ?_)
  · exact .refl _ _
  · exact .app (.refl _ _) (State.putThread_keeps _ _) rfl

theorem execClearEvt_keeps (s : State) {t : State} (h : execClearEvt s = .next t) : Keeps 4 s t := by
  unfold execClearEvt at h
  cases h
  exact .app (.refl _ _) (State.clearEvt_keeps _) rfl

theorem State.talliesClear_keeps (s : State) : Keeps 17798344474628 s (@State.talliesClear s) := by
  unfold State.talliesClear
  extract_lets x234_0
  have hx234_0 : Keeps 17798344474628 s x234_0 := by
    unfold x234_0
    exact .app (.app (.app (.refl _ _) (State.clearPorts_keeps _) rfl) (State.clearEvt_keeps _) rfl) (State.clearStrm_keeps _) rfl
  exact .app hx234_0 (keeps_bw _ _) rfl

theorem State.emptyFlows_keeps (s : State) : Keeps 32 s (@State.emptyFlows s) := by
  unfold State.emptyFlows
  extract_lets x235_0 x235_1
  exact .app (.refl _ _) (keeps_dramFilter _ _) rfl

theorem State.snapRegs_keeps (s : State) (a1 : List (Nat × Word)) (a2 : List Nat) : Keeps 4 s (@State.snapRegs s a1 a2) := by
  induction a2 generalizing s a1 with
  | nil =>
    simp only [State.snapRegs]
    exact .refl _ _
  | cons b l ih =>
    simp only [State.snapRegs]
    refine .app (k := 4) ?_ (ih _ _) rfl
    exact .app (.refl _ _) (keeps_wr _ _ _) rfl

theorem State.gatesIdle_keeps (s : State) (a1 : List GateSt) : Keeps 4 s (@State.gatesIdle s a1) := by
  unfold State.gatesIdle
  refine .foldS ?_ (fun u236 a236 => ?_)
  · exact .refl _ _
  · exact .app (.refl _ _) (State.setF_keeps _ _ _) rfl

theorem sput_wf {m : List (Nat × BitVec 8)} {k : Nat} {v : BitVec 8} (hv : v ≠ zeroByte k) (h : Memory.wf m = true) :
    Memory.wf (sput m k v) = true := by
  have := swf_sset zeroByte m k v h
  simpa [sset, hv, Memory.wf] using this

theorem foldl_sput_wf (l m : List (Nat × BitVec 8)) (hl : noDefault zeroByte l = true) (hm : Memory.wf m = true) :
    Memory.wf (l.foldl (fun m (e : Nat × Byte) => sput m e.1 e.2) m) = true := by
  induction l generalizing m with
  | nil => exact hm
  | cons e l ih =>
    simp only [noDefault, Bool.and_eq_true, decide_eq_true_eq] at hl
    exact ih _ hl.2 (sput_wf hl.1 hm)

theorem State.restoreSnap_keeps {m : Nat} {s0 s : State} (h : Keeps m s0 s) (hm : 38694971768852 &&& m = 38694971768852) (n : Snap)
    (hn : s0.canon → n.canon) : Keeps m s0 (s.restoreSnap n) := by
  have up : ∀ {k : Nat}, k &&& 38694971768852 = k → k &&& m = k := fun {k} hk => by rw [← hk, Nat.and_assoc, hm]
  have off : ∀ p : Part, m.testBit p.idx = false → (38694971768852 : Nat).testBit p.idx = false := fun p hp => by
    rw [← hm, Nat.testBit_and, hp, Bool.and_false]
  unfold State.restoreSnap
  extract_lets rates t0 frer _ t1 t2 t3 t4
  have h0 : Keeps m s0 t0 := by
    unfold t0
    exact h.app (State.snapRegs_keeps _ _ _) (up rfl)
  have hf : s0.canon → noDefault zeroByte frer = true := fun h' => by
    have := swf_keepKeys zeroByte (fun a => decide (0x0F800000 ≤ a) && decide (a < 0x0FA00000)) s.mem (h.canon h').2.2.1
    simp only [swf, Bool.and_eq_true] at this
    exact this.2
  have h1 : Keeps m s0 t1 := by
    refine ⟨fun p hp => p.same_trans (h0.same p hp) (by
      have hp := off p hp
      cases p <;> first | exact absurd hp (by decide) | rfl), fun h => ?_, h0.outs, h0.ctr⟩
    have hc := h0.canon h
    exact ⟨hc.1, hc.2.1, foldl_sput_wf _ _ (hf h) (hn h).2.1, hc.2.2.2.1, hc.2.2.2.2.1, (hn h).2.2, hc.2.2.2.2.2.2⟩
  clear_value t1
  have h2 : Keeps m s0 t2 := by
    unfold t2
    exact .app (.app h1 (State.setF_keeps _ _ _) (up rfl)) (State.setF_keeps _ _ _) (up rfl)
  clear_value t2
  have h3 : Keeps m s0 t3 := by
    unfold t3
    exact .app (.app h2 (keeps_wr _ _ _) (up rfl)) (keeps_wr _ _ _) (up rfl)
  clear_value t3
  have h4 : Keeps m s0 t4 := by
    unfold t4
    exact .app (.app h3 (State.setF_keeps _ _ _) (up rfl)) (State.genRegs_keeps _) (up rfl)
  clear_value t4
  exact .app (.app h4 (State.gatesIdle_keeps _ _) (up rfl)) (State.domsStart_keeps _) (up rfl)

theorem execSnapshotRestored_keeps (a0 : Bool) (s : State) {t : State} (h : execSnapshotRestored a0 s = .next t) : Keeps 9063486412720188 s t := by
  unfold execSnapshotRestored at h
  cases h
  refine .ite (fun _ => ?_) (fun _ => .refl _ _)
  extract_lets _ t lost
  have ht : Keeps 9063486412720188 s t :=
    ⟨fun p hp => by cases p <;> first | exact absurd hp (by decide) | rfl,
      fun hc => ⟨hc.1, hc.2.1, hc.2.2.1, hc.2.2.2.1, hc.2.2.2.2.1, hc.2.2.2.2.2.1, fun y hy => by cases hy⟩, List.suffix_refl _, Nat.le_refl _⟩
  clear_value t
  have hl : Keeps 9063486412720188 s lost :=
    .app (.app (.app (.app ht (State.emptyFlows_keeps _) rfl) (State.setF_keeps _ _ _) rfl) (State.talliesClear_keeps _) rfl)
      (State.cairn_keeps _ _ _ _ _) rfl
  split
  · next n hn => exact .ite (fun _ => State.restoreSnap_keeps ht rfl n (fun hc => hc.2.2.2.2.2.2 n hn)) (fun _ => hl)
  · exact hl

theorem State.migNext_keeps (s : State) : Keeps 1125899906975756 s (@State.migNext s) := by
  unfold State.migNext
  split
  · exact .refl _ _
  · exact .app (.app (.refl _ _) (keeps_dramc _ _) rfl) (State.retireRank_keeps _ _) rfl

theorem State.migEnd_keeps (s : State) : Keeps 1125899906975756 s (@State.migEnd s) := by
  unfold State.migEnd
  exact .app (.app (.app (.refl _ _) (State.setF_keeps _ _ _) rfl) (State.refreshRules_keeps _) rfl) (State.migNext_keeps _) rfl

theorem execMigrationDone_keeps (a0 : List Nat) (s : State) {t : State} (h : execMigrationDone a0 s = .next t) :
    Keeps 19140298416457740 s t := by
  unfold execMigrationDone at h
  cases h
  refine .ite (fun _ => ?_) (fun _ => .refl _ _)
  extract_lets r lines _ a b _ _ c
  have ha : Keeps 19140298416457740 s a := .app (.refl _ _) (keeps_dramc s _) rfl
  clear_value a
  have hb : Keeps 19140298416457740 s b := .app (.app ha (State.setF_keeps _ _ _) rfl) (State.toSpare_keeps _ _) rfl
  clear_value b
  have hc : Keeps 19140298416457740 s c := .ite (fun _ => hb.upd (by intro p hp; cases p <;> first | exact absurd hp (by decide) | rfl) rfl rfl rfl rfl rfl rfl rfl rfl rfl) (fun _ => hb)
  clear_value c
  exact .app (.app (.app hc (State.dramCairn_keeps _ _ _) rfl) (State.raiseDRC_keeps _ _) rfl) (State.migEnd_keeps _) rfl

theorem execKeySetHandover_keeps (a0 : Nat) (s : State) {t : State} (h : execKeySetHandover a0 s = .next t) : Keeps 36028797139552268 s t := by
  unfold execKeySetHandover at h
  cases h
  split
  · exact .refl _ _
  · refine .ite (fun _ => ?_) (fun _ => ?_)
    · exact .refl _ _
    · extract_lets x237_0 x237_1
      have hx237_1 : Keeps 36028797139552268 s x237_1 := by
        unfold x237_1
        exact .app (.refl _ _) (State.putFrame_keeps _ _) rfl
      exact .app (.app hx237_1 (State.maxF_keeps _ _ _) rfl) (State.claimBeads_keeps _ _ _) rfl

theorem State.rewriteGo_keeps (s : State) (a1 : Frame) (a2 : Copy) : Keeps 120588300 s (@State.rewriteGo s a1 a2) := by
  unfold State.rewriteGo
  extract_lets x238_0 x238_1 x238_2 x238_3 x238_4 x238_5
  have hx238_5 : Keeps 120588300 s x238_5 := by
    unfold x238_5
    exact .app (.refl _ _) (State.portTally_keeps _ _ _ _) rfl
  refine .ite (fun _ => ?_) (fun _ => ?_)
  · exact .app hx238_5 (State.dropCopy_keeps _ _ _) rfl
  · exact .app hx238_5 (State.putCopy_keeps _ _) rfl

theorem State.txStamp_keeps (s : State) (a1 : Frame) (a2 : Nat) (a3 : Nat) : Keeps 264204 s (@State.txStamp s a1 a2 a3) := by
  unfold State.txStamp
  split
  · refine .ite (fun _ => ?_) (fun _ => ?_)
    · exact .app (.refl _ _) (State.tsPush_keeps _ _ _) rfl
    · exact .refl _ _
  · exact .refl _ _

theorem State.fillBytes_keeps0 (s : State) (l : List (Option Byte)) : Keeps 1024 s (s.fillBytes l).2 := by
  induction l generalizing s with
  | nil => exact .refl _ _
  | cons x l ih =>
    cases x with
    | some b => exact ih s
    | none => exact .app (k := 1024) (keeps_free s) (ih _) rfl

theorem State.fillBytes_keeps {s : State} {l : List (Option Byte)} {r0 : List Byte} {t : State} (h : s.fillBytes l = (r0, t)) :
    Keeps 1024 s t := by
  have h0 := State.fillBytes_keeps0 s l
  rw [h] at h0
  exact h0

theorem State.keyBytes_keeps0 (s : State) (a1 : Target) (a2 : Nat) (a3 : Nat) : Keeps 1024 s (@State.keyBytes s a1 a2 a3).2 := by
  unfold State.keyBytes
  exact .app (.refl _ _) (State.fillBytes_keeps rfl) rfl

theorem State.keyBytes_keeps {s : State} {a1 : Target} {a2 : Nat} {a3 : Nat} {r0} {t : State} (h : @State.keyBytes s a1 a2 a3 = (r0, t)) : Keeps 1024 s t := by
  have h0 := State.keyBytes_keeps0 s a1 a2 a3
  rw [h] at h0
  exact h0

theorem State.edit_keeps (s : State) (a1 : Thread) (a2 : Nat) (a3 : Copy → Copy) : Keeps 62513895917719180 s (@State.edit s a1 a2 a3) := by
  unfold State.edit
  split
  · split
    · refine .ite (fun _ => ?_) (fun _ => ?_)
      · exact .app (.refl _ _) (State.abort_keeps _ _ _ _) rfl
      · exact .app (.app (.refl _ _) (State.putThread_keeps _ _) rfl) (State.putCopy_keeps _ _) rfl
    · exact .app (.refl _ _) (State.putThread_keeps _ _) rfl
  · exact .app (.refl _ _) (State.putThread_keeps _ _) rfl

theorem execPush_keeps (a0 : Nat) (a1 : Nat) (a2 : Nat) (a3 : Nat) (a4 : Nat) (s : State) {t : State} (h : execPush a0 a1 a2 a3 a4 s = .next t) : Keeps 62513895921913484 s t := by
  unfold execPush at h
  cases h
  refine .issue ?_ rfl (fun u239 a239 b239 => ?_)
  · exact .refl _ _
  · extract_lets x240_0
    refine .app ?_ (State.edit_keeps _ _ _ _) rfl
    unfold x240_0
    exact .app (.refl _ _) (State.keyBytes_keeps rfl) rfl

theorem Keeps.stateRx {m ver : Nat} {s t : State} {f : State → State} (h : Keeps m s t) (hm : 62513895909330572 &&& m = 62513895909330572)
    (hf : ∀ u, Keeps m u (f u)) : Keeps m s (t.stateRx ver f) := by
  unfold State.stateRx
  exact .ite (fun _ => h) (fun _ => .ite (fun _ => h.app (State.event_keeps _ _ _) hm) (fun _ => h.app (hf t) (Nat.and_self m)))

theorem execSwapReqRx_keeps (a0 : Nat) (a1 : Nat) (s : State) {t : State} (h : execSwapReqRx a0 a1 s = .next t) : Keeps 62513895909330572 s t := by
  unfold execSwapReqRx at h
  cases h
  refine .stateRx ?_ rfl (fun u241 => ?_)
  · exact .refl _ _
  · refine .ite (fun _ => ?_) (fun _ => ?_)
    · exact .refl _ _
    · refine .ite (fun _ => ?_) (fun _ => ?_)
      · exact .app (.refl _ _) (State.twinCairn_keeps _ _ _) rfl
      · refine .ite (fun _ => ?_) (fun _ => ?_)
        · exact .app (.refl _ _) (State.swapAt_keeps _ _) rfl
        · exact .refl _ _

theorem execVerifyResponse_keeps (a0 : Nat) (s : State) {t : State} (h : execVerifyResponse a0 s = .next t) : Keeps 4 s t := by
  unfold execVerifyResponse at h
  cases h
  refine .ite (fun _ => ?_) (fun _ => ?_)
  · exact .app (.refl _ _) (State.setF_keeps _ _ _) rfl
  · exact .refl _ _

theorem State.readSlots_keeps (s : State) : Keeps 281474976745484 s (@State.readSlots s) := by
  unfold State.readSlots
  exact .app (.app (.app (.refl _ _) (keeps_load _ _) rfl) (State.setF_keeps _ _ _) rfl) (State.imgState_keeps _ _) rfl

theorem State.leapService_keeps (s : State) : Keeps 19421773393070092 s (@State.leapService s) := by
  unfold State.leapService
  extract_lets x242_0 x242_1 x242_2
  have hx242_0 : Keeps 19421773393070092 s x242_0 := by
    unfold x242_0
    exact .app (.refl _ _) (State.enterService_keeps _ _) rfl
  refine .app ?_ (State.readSlots_keeps _) rfl
  refine .upd (t := x242_0) ?_ (by intro p hp; cases p <;> first | exact absurd hp (by decide) | rfl) rfl rfl rfl rfl rfl rfl rfl rfl rfl
  exact hx242_0

theorem State.doTsFifoPop_keeps (s : State) (a1 : Nat) : Keeps 262212 s (@State.doTsFifoPop s a1) := by
  unfold State.doTsFifoPop
  refine .ite (fun _ => ?_) (fun _ => ?_)
  · exact .app (.refl _ _) (keeps_readData _ _) rfl
  · extract_lets x243_0 x243_1 x243_2
    have hx243_2 : Keeps 262212 s x243_2 := by
      unfold x243_2
      refine .upd (t := s) ?_ (by intro p hp; cases p <;> first | exact absurd hp (by decide) | rfl) rfl rfl rfl rfl rfl rfl rfl rfl rfl
      exact .refl _ _
    exact .app hx243_2 (State.setF_keeps _ _ _) rfl

theorem execTsFifoPop_keeps (a0 : Nat) (s : State) {t : State} (h : execTsFifoPop a0 s = .next t) : Keeps 262212 s t := by
  unfold execTsFifoPop at h
  cases h
  exact .app (.refl _ _) (State.doTsFifoPop_keeps _ _) rfl

theorem State.updLane_keeps (s : State) (a1 : Nat) (a2 : LaneSt → LaneSt) : Keeps 268435456 s (@State.updLane s a1 a2) := by
  unfold State.updLane
  exact .app (.refl _ _) (keeps_lanes _ _) rfl

theorem State.ringComplete_keeps (s : State) (a1 : Nat) : Keeps 4503599627372552 s (@State.ringComplete s a1) := by
  unfold State.ringComplete
  extract_lets x244_0 x244_1
  refine .ite (fun _ => ?_) (fun _ => ?_)
  · exact .app (.app (.refl _ _) (State.putRing_keeps _ _) rfl) (State.sendVec_keeps _ _) rfl
  · exact .app (.refl _ _) (State.putRing_keeps _ _) rfl

theorem State.holdMem_keeps {s : State} {k : Option Nat} {x : HeldWrite} {t : State} (h : s.holdMem k x = some t) : Keeps 140737488879616 s t := by
  unfold State.holdMem at h
  split at h
  · cases h; exact .app (.refl _ _) (keeps_gens _ _) rfl
  · split at h
    · split at h
      · cases h; exact .app (.refl _ _) (keeps_cmd _ _) rfl
      · cases h
    · cases h

theorem State.refuseWrite_keeps (s : State) (a1 : Nat) (a2 : Nat) : Keeps 62513895909330572 s (@State.refuseWrite s a1 a2) := by
  unfold State.refuseWrite
  extract_lets x245_0 x245_1
  have hx245_0 : Keeps 62513895909330572 s x245_0 := by
    unfold x245_0
    exact .app (.app (.refl _ _) (State.count_keeps _ _ _) rfl) (State.setF_keeps _ _ _) rfl
  have hx245_1 : Keeps 62513895909330572 s x245_1 := by
    unfold x245_1
    exact .app (.app hx245_0 (State.setF_keeps _ _ _) rfl) (State.setF_keeps _ _ _) rfl
  exact .app (.app hx245_1 (State.raiseCLS_keeps _ _) rfl) (State.minor_keeps _ _) rfl

theorem State.objWrite_keeps0 (s : State) (a1 : Copies) (a2 : Nat) (a3 : Nat) (a4 : List Byte) : Keeps 62513895909854908 s (@State.objWrite s a1 a2 a3 a4).1 := by
  unfold State.objWrite
  refine .iteP (fun r : State × Bool => r.1) (fun _ => ?_) (fun _ => ?_)
  · refine .fst ?_
    exact .refl _ _
  · extract_lets x246_0 x246_1 x246_2 x246_3 x246_4 x246_5
    clear_value x246_2
    split
    · unfold x246_5
      refine .iteP (fun r : State × Bool => r.1) (fun _ => ?_) (fun _ => ?_)
      · refine .fst ?_
        exact .refl _ _
      · refine .iteP (fun r : State × Bool => r.1) (fun _ => ?_) (fun _ => ?_)
        · refine .fst ?_
          exact .app (.refl _ _) (State.wrAll_keeps _ _ _ _) rfl
        · refine .fst ?_
          exact .app (.refl _ _) (State.refuseWrite_keeps _ _ _) rfl
    · extract_lets x247_0
      refine .iteP (fun r : State × Bool => r.1) (fun _ => ?_) (fun _ => ?_)
      · unfold x246_5
        refine .iteP (fun r : State × Bool => r.1) (fun _ => ?_) (fun _ => ?_)
        · refine .fst ?_
          exact .refl _ _
        · refine .iteP (fun r : State × Bool => r.1) (fun _ => ?_) (fun _ => ?_)
          · refine .fst ?_
            exact .app (.refl _ _) (State.wrAll_keeps _ _ _ _) rfl
          · refine .fst ?_
            exact .app (.refl _ _) (State.refuseWrite_keeps _ _ _) rfl
      · refine .fst ?_
        split
        · refine .app ?_ (State.wrAll_keeps _ _ _ _) rfl
          unfold x246_5
          refine .iteP (fun r : State × Bool => r.1) (fun _ => ?_) (fun _ => ?_)
          · refine .fst ?_
            exact .refl _ _
          · refine .iteP (fun r : State × Bool => r.1) (fun _ => ?_) (fun _ => ?_)
            · refine .fst ?_
              exact .app (.refl _ _) (State.wrAll_keeps _ _ _ _) rfl
            · refine .fst ?_
              exact .app (.refl _ _) (State.refuseWrite_keeps _ _ _) rfl
        · refine .ite (fun _ => ?_) (fun _ => ?_)
          · refine .app ?_ (State.refuseWrite_keeps _ _ _) rfl
            unfold x246_5
            refine .iteP (fun r : State × Bool => r.1) (fun _ => ?_) (fun _ => ?_)
            · refine .fst ?_
              exact .refl _ _
            · refine .iteP (fun r : State × Bool => r.1) (fun _ => ?_) (fun _ => ?_)
              · refine .fst ?_
                exact .app (.refl _ _) (State.wrAll_keeps _ _ _ _) rfl
              · refine .fst ?_
                exact .app (.refl _ _) (State.refuseWrite_keeps _ _ _) rfl
          · refine .app ?_ (State.jrnl_keeps _ _) rfl
            refine .app ?_ (State.wrAll_keeps _ _ _ _) rfl
            unfold x246_5
            refine .iteP (fun r : State × Bool => r.1) (fun _ => ?_) (fun _ => ?_)
            · refine .fst ?_
              exact .refl _ _
            · refine .iteP (fun r : State × Bool => r.1) (fun _ => ?_) (fun _ => ?_)
              · refine .fst ?_
                exact .app (.refl _ _) (State.wrAll_keeps _ _ _ _) rfl
              · refine .fst ?_
                exact .app (.refl _ _) (State.refuseWrite_keeps _ _ _) rfl
        · refine .app ?_ (State.refuseWrite_keeps _ _ _) rfl
          unfold x246_5
          refine .iteP (fun r : State × Bool => r.1) (fun _ => ?_) (fun _ => ?_)
          · refine .fst ?_
            exact .refl _ _
          · refine .iteP (fun r : State × Bool => r.1) (fun _ => ?_) (fun _ => ?_)
            · refine .fst ?_
              exact .app (.refl _ _) (State.wrAll_keeps _ _ _ _) rfl
            · refine .fst ?_
              exact .app (.refl _ _) (State.refuseWrite_keeps _ _ _) rfl

theorem State.objWrite_keeps {s : State} {a1 : Copies} {a2 : Nat} {a3 : Nat} {a4 : List Byte} {r0} {t : State} (h : @State.objWrite s a1 a2 a3 a4 = (t, r0)) : Keeps 62513895909854908 s t := by
  have h0 := State.objWrite_keeps0 s a1 a2 a3 a4
  rw [h] at h0
  exact h0

theorem State.fdbWord_keeps (s : State) (a1 : Copies) (a2 : Nat) (a3 : Nat) (a4 : Nat) (a5 : Nat) (a6 : Nat) : Keeps 16 s (@State.fdbWord s a1 a2 a3 a4 a5 a6) := by
  unfold State.fdbWord
  refine .foldl _ _ ?_ (fun u248 a248 => ?_)
  · exact .refl _ _
  · extract_lets x249_0
    exact .app (.refl _ _) (keeps_wrMem _ _ _) rfl

theorem State.fdbLife_keeps (s : State) (a1 : Copies) (a2 : Nat) (a3 : Nat) (a4 : Nat) : Keeps 62513895909854876 s (@State.fdbLife s a1 a2 a3 a4) := by
  unfold State.fdbLife
  extract_lets x250_0
  refine .ite (fun _ => ?_) (fun _ => ?_)
  · exact .refl _ _
  · split
    · unfold x250_0
      refine .foldl _ _ ?_ (fun u251 a251 => ?_)
      · exact .refl _ _
      · extract_lets x252_0
        exact .app (.refl _ _) (keeps_wrMem _ _ _) rfl
    · refine .ite (fun _ => ?_) (fun _ => ?_)
      · exact .app (.refl _ _) (State.refuseWrite_keeps _ _ _) rfl
      · refine .app ?_ (State.jrnl_keeps _ _) rfl
        unfold x250_0
        refine .foldl _ _ ?_ (fun u253 a253 => ?_)
        · exact .refl _ _
        · extract_lets x254_0
          exact .app (.refl _ _) (keeps_wrMem _ _ _) rfl
    · exact .app (.refl _ _) (State.refuseWrite_keeps _ _ _) rfl

theorem State.fdbOther4_keeps (s : State) (a1 : Copies) (a2 : Nat) (a3 : Nat) (a4 : Nat) (a5 : Nat) : Keeps 62513895909330588 s (@State.fdbOther4 s a1 a2 a3 a4 a5) := by
  unfold State.fdbOther4
  extract_lets x255_0
  refine .ite (fun _ => ?_) (fun _ => ?_)
  · exact .refl _ _
  · refine .ite (fun _ => ?_) (fun _ => ?_)
    · refine .foldl _ _ ?_ (fun u256 a256 => ?_)
      · exact .refl _ _
      · extract_lets x257_0
        exact .app (.refl _ _) (keeps_wrMem _ _ _) rfl
    · exact .app (.refl _ _) (State.refuseWrite_keeps _ _ _) rfl

theorem State.fdbWrite_keeps (s : State) (a1 : Nat) (a2 : Copies) (a3 : Nat) (a4 : Nat) : Keeps 62513895909854908 s (@State.fdbWrite s a1 a2 a3 a4) := by
  unfold State.fdbWrite
  refine .ite (fun _ => ?_) (fun _ => ?_)
  · exact .refl _ _
  · extract_lets x258_0 x258_1 x258_2 x258_3 x258_4 x258_5 x258_6
    refine .ite (fun _ => ?_) (fun _ => ?_)
    · refine .ite (fun _ => ?_) (fun _ => ?_)
      · exact .app (.refl _ _) (State.wrAll_keeps _ _ _ _) rfl
      · exact .app (.refl _ _) (State.objWrite_keeps rfl) rfl
    · refine .ite (fun _ => ?_) (fun _ => ?_)
      · exact .app (.refl _ _) (State.fdbWord_keeps _ _ _ _ _ _ _) rfl
      · exact .app (.app (.refl _ _) (State.fdbOther4_keeps _ _ _ _ _ _) rfl) (State.fdbLife_keeps _ _ _ _ _) rfl

theorem State.tileWrite_keeps (s : State) (a1 : Nat) (a2 : Nat) : Keeps 62654633398210236 s (@State.tileWrite s a1 a2) := by
  unfold State.tileWrite
  extract_lets x259_0 x259_1
  split
  · exact .app (.refl _ _) (keeps_wrMem _ _ _) rfl
  · split
    · exact .app (.refl _ _) (State.minor_keeps _ _) rfl
    · exact .app (.refl _ _) (keeps_wrMem _ _ _) rfl
    · exact .app (.refl _ _) (keeps_wrMem _ _ _) rfl
    · exact .app (.refl _ _) (keeps_wrMem _ _ _) rfl
    · split
      · exact .app (.refl _ _) (State.holdMem_keeps (by assumption)) rfl
      · exact .app (.refl _ _) (State.fdbWrite_keeps _ _ _ _ _) rfl
    · split
      · exact .app (.refl _ _) (State.holdMem_keeps (by assumption)) rfl
      · exact .app (.refl _ _) (State.objWrite_keeps rfl) rfl
    · split
      · exact .app (.refl _ _) (State.holdMem_keeps (by assumption)) rfl
      · exact .app (.refl _ _) (State.objWrite_keeps rfl) rfl

theorem State.refuseRead_keeps (s : State) (a1 : Copy) : Keeps 62513895909330572 s (@State.refuseRead s a1) := by
  unfold State.refuseRead
  extract_lets x260_0
  exact .app (.app (.app (.app (.refl _ _) (State.count_keeps _ _ _) rfl) (State.refuseBead_keeps _ _ _ _ _) rfl) (State.raiseBPM_keeps _ _) rfl) (State.event_keeps _ _ _) rfl

theorem State.treeInval_keeps (s : State) (a1 : Nat) : Keeps 8796093022208 s (@State.treeInval s a1) := by
  unfold State.treeInval
  exact .app (.refl _ _) (keeps_trees _ _) rfl

theorem State.dramWord_keeps (s : State) (a : Nat) (d : List Byte) (en : Nat) : Keeps 62654633398210236 s (s.dramWord a d en) := by
  unfold State.dramWord
  extract_lets n
  split
  · split
    · exact .app (.refl _ _) (State.holdMem_keeps (by assumption)) rfl
    · exact .app (.refl _ _) (State.objWrite_keeps0 _ _ _ _ _) rfl
  · exact .app (.app (.refl _ _) (State.wrDram_keeps _ _ _) rfl) (State.treeInval_keeps _ _) rfl
  · exact .refl _ _
  · exact .app (.refl _ _) (State.wrDram_keeps _ _ _) rfl

theorem State.dramWords_keeps (a0 : Nat) (s : State) (a2 : Nat) (a3 : List Byte) (a4 : Nat) : Keeps 62654633398210236 s (@State.dramWords a0 s a2 a3 a4) := by
  induction a0 generalizing s a2 a3 a4 with
  | zero =>
    simp only [State.dramWords]
    exact .refl _ _
  | succ n ih =>
    simp only [State.dramWords]
    refine .ite (fun _ => ?_) (fun _ => ?_)
    · exact .refl _ _
    · refine .app (k := 62654633398210236) ?_ (ih _ _ _ _) rfl
      refine .ite (fun _ => ?_) (fun _ => ?_)
      · exact .refl _ _
      · exact .app (.refl _ _) (State.dramWord_keeps _ _ _ _) rfl

theorem State.dramWrite_keeps (s : State) (a1 : Nat) (a2 : List Byte) (a3 : Nat) : Keeps 62654633398210236 s (@State.dramWrite s a1 a2 a3) := by
  unfold State.dramWrite
  extract_lets x261_0 x261_1 x261_2 x261_3 x261_4
  refine .ite (fun _ => ?_) (fun _ => ?_)
  · exact .app (.refl _ _) (State.minor_keeps _ _) rfl
  · exact .app (.refl _ _) (State.dramWords_keeps _ _ _ _ _) rfl

theorem State.tcamWrite_keeps (s : State) (a1 : Nat) (a2 : Nat) : Keeps 62657931933093564 s (@State.tcamWrite s a1 a2) := by
  unfold State.tcamWrite
  extract_lets x262_0 x262_1 x262_2 x262_3 x262_4 x262_5 x262_6 x262_7 x262_8
  have hx262_8 : Keeps 62657931933093564 s x262_8 := by
    unfold x262_8
    refine .foldl _ _ ?_ (fun u263 a263 => ?_)
    · unfold x262_7
      exact .app (.refl _ _) (State.objWrite_keeps rfl) rfl
    · exact .app (.refl _ _) (keeps_mirror _ _ (fun h => writeBytes_wf _ _ _ h.2.2.2.2.2.1)) rfl
  refine .ite (fun _ => ?_) (fun _ => ?_)
  · exact .refl _ _
  · refine .ite (fun _ => ?_) (fun _ => ?_)
    · exact .refl _ _
    · split
      · exact .app (.refl _ _) (State.holdMem_keeps (by assumption)) rfl
      · refine .ite (fun _ => ?_) (fun _ => ?_)
        · exact .app hx262_8 (keeps_lost _ _) rfl
        · unfold x262_7
          exact .app (.refl _ _) (State.objWrite_keeps rfl) rfl

theorem State.filterWrite_keeps (s : State) (a1 : Nat) (a2 : Nat) : Keeps 16 s (@State.filterWrite s a1 a2) := by
  unfold State.filterWrite
  extract_lets x264_0 x264_1 x264_2 x264_3
  refine .ite (fun _ => ?_) (fun _ => ?_)
  · exact .app (.refl _ _) (keeps_wrMem _ _ _) rfl
  · exact .app (.refl _ _) (keeps_wrMem _ _ _) rfl

theorem State.meterWrite_keeps (s : State) (a1 : Nat) (a2 : Nat) : Keeps 34359738384 s (@State.meterWrite s a1 a2) := by
  unfold State.meterWrite
  extract_lets x265_0 x265_1 x265_2
  have hx265_2 : Keeps 34359738384 s x265_2 := by
    unfold x265_2
    exact .app (.app (.refl _ _) (State.putBuckets_keeps _ _ _ _) rfl) (keeps_wrMem _ _ _) rfl
  refine .ite (fun _ => ?_) (fun _ => ?_)
  · exact .refl _ _
  · refine .ite (fun _ => ?_) (fun _ => ?_)
    · exact .app hx265_2 (keeps_meters _ _) rfl
    · exact hx265_2

theorem State.gateListWrite_keeps (s : State) (a1 : GateId) (a2 : Bool) (a3 : Nat) (a4 : Nat) : Keeps 62513895909330588 s (@State.gateListWrite s a1 a2 a3 a4) := by
  unfold State.gateListWrite
  refine .ite (fun _ => ?_) (fun _ => ?_)
  · exact .app (.refl _ _) (State.minor_keeps _ _) rfl
  · exact .app (.refl _ _) (keeps_wrMem _ _ _) rfl

theorem State.recoveryWrite_keeps (s : State) (a1 : Nat) (a2 : Nat) : Keeps 16 s (@State.recoveryWrite s a1 a2) := by
  unfold State.recoveryWrite
  extract_lets x266_0
  refine .ite (fun _ => ?_) (fun _ => ?_)
  · exact .app (.refl _ _) (State.setFrerFlag_keeps _ _ _ _) rfl
  · exact .refl _ _

theorem State.bar2Word_keeps (s : State) (a1 : Nat) (a2 : Nat) : Keeps 62657931933093564 s (@State.bar2Word s a1 a2) := by
  unfold State.bar2Word
  refine .ite (fun _ => ?_) (fun _ => ?_)
  · exact .app (.refl _ _) (State.tileWrite_keeps _ _ _) rfl
  · refine .ite (fun _ => ?_) (fun _ => ?_)
    · exact .app (.refl _ _) (State.tcamWrite_keeps _ _ _) rfl
    · refine .ite (fun _ => ?_) (fun _ => ?_)
      · exact .app (.refl _ _) (State.filterWrite_keeps _ _ _) rfl
      · refine .ite (fun _ => ?_) (fun _ => ?_)
        · exact .app (.refl _ _) (State.meterWrite_keeps _ _ _) rfl
        · refine .ite (fun _ => ?_) (fun _ => ?_)
          · exact .app (.refl _ _) (State.gateListWrite_keeps _ _ _ _ _) rfl
          · refine .ite (fun _ => ?_) (fun _ => ?_)
            · exact .app (.refl _ _) (State.gateListWrite_keeps _ _ _ _ _) rfl
            · refine .ite (fun _ => ?_) (fun _ => ?_)
              · exact .refl _ _
              · refine .ite (fun _ => ?_) (fun _ => ?_)
                · exact .app (.refl _ _) (keeps_wrMem _ _ _) rfl
                · refine .ite (fun _ => ?_) (fun _ => ?_)
                  · exact .app (.refl _ _) (State.recoveryWrite_keeps _ _ _) rfl
                  · refine .ite (fun _ => ?_) (fun _ => ?_)
                    · exact .app (.refl _ _) (keeps_wrMem _ _ _) rfl
                    · exact .app (.refl _ _) (State.minor_keeps _ _) rfl

theorem State.dmaBar2_keeps0 (n : Nat) (s : State) (a : Nat) (d : List Byte) (bad : List Bool) (b : Bool) :
    Keeps 62657931933093564 s (State.dmaBar2 n s a d bad b).1 := by
  induction n generalizing s a d bad b with
  | zero => exact .refl _ _
  | succ n ih =>
    unfold State.dmaBar2
    refine .iteP (fun r : State × Bool => r.1) (fun _ => .refl _ _) (fun _ => .iteP (fun r : State × Bool => r.1) (fun _ => ih _ _ _ _ _) (fun _ => ?_))
    extract_lets t r
    have ht : Keeps 62657931933093564 s t := .ite (fun _ => .app (.refl _ _) (State.dramWrite_keeps _ _ _ _) rfl)
      (fun _ => .app (.refl _ _) (State.bar2Word_keeps _ _ _) rfl)
    exact .app ht (ih _ _ _ _ _) rfl

theorem State.dmaBar2_keeps {n : Nat} {s : State} {a : Nat} {d : List Byte} {bad : List Bool} {b r : Bool} {t : State}
    (h : State.dmaBar2 n s a d bad b = (t, r)) : Keeps 62657931933093564 s t := by
  have h0 := State.dmaBar2_keeps0 n s a d bad b
  rw [h] at h0
  exact h0

theorem State.resPeak_keeps (s : State) (a1 : Nat) (a2 : Nat) : Keeps 131072 s (@State.resPeak s a1 a2) := by
  unfold State.resPeak
  exact .app (.refl _ _) (keeps_crn _ _ rfl) rfl

theorem State.threadResult_keeps (s : State) (a1 : Thread) (a2 : Nat) (a3 : Bool) : Keeps 62518293955841692 s (@State.threadResult s a1 a2 a3) := by
  unfold State.threadResult
  split
  · extract_lets x267_0 x267_1 x267_2 x267_3
    split
    · unfold x267_3
      refine .app ?_ (State.putThread_keeps _ _) rfl
      refine .ite (fun _ => ?_) (fun _ => ?_)
      · refine .app ?_ (State.evt_keeps _ _ _ _ _) rfl
        unfold x267_2
        exact .app (.refl _ _) (State.tableLookup_keeps rfl) rfl
      · unfold x267_2
        exact .app (.refl _ _) (State.tableLookup_keeps rfl) rfl
    · unfold x267_3
      refine .app ?_ (State.putThread_keeps _ _) rfl
      refine .ite (fun _ => ?_) (fun _ => ?_)
      · refine .app ?_ (State.evt_keeps _ _ _ _ _) rfl
        unfold x267_2
        exact .app (.refl _ _) (State.tableLookup_keeps rfl) rfl
      · unfold x267_2
        exact .app (.refl _ _) (State.tableLookup_keeps rfl) rfl
    · refine .app ?_ (State.loseTarget_keeps _ _) rfl
      unfold x267_2
      exact .app (.refl _ _) (State.tableLookup_keeps rfl) rfl
  · exact .refl _ _

theorem State.ppsLow_keeps (s : State) : Keeps 264192 s (@State.ppsLow s) := by
  unfold State.ppsLow
  refine .ite (fun _ => ?_) (fun _ => ?_)
  · extract_lets x268_0 x268_1
    have hx268_0 : Keeps 264192 s x268_0 := by
      unfold x268_0
      exact .app (.refl _ _) (keeps_emit _ _) rfl
    exact .app hx268_0 (keeps_time _ _) rfl
  · exact .refl _ _

theorem execGateEntryAdvance_keeps (a0 : GateId) (s : State) {t : State} (h : execGateEntryAdvance a0 s = .next t) : Keeps 25803360268 s t := by
  unfold execGateEntryAdvance at h
  cases h
  refine .ite (fun _ => ?_) (fun _ => ?_)
  · exact .app (.refl _ _) (State.gateApply_keeps _ _) rfl
  · exact .refl _ _

theorem State.waitEvents_keeps (s : State) (a1 : Nat) (a2 : List Nat) : Keeps 4 s (@State.waitEvents s a1 a2) := by
  induction a2 generalizing s a1 with
  | nil =>
    simp only [State.waitEvents]
    exact .refl _ _
  | cons b l ih =>
    simp only [State.waitEvents]
    refine .app (k := 4) ?_ (ih _ _) rfl
    refine .ite (fun _ => ?_) (fun _ => ?_)
    · exact .app (.refl _ _) (State.evt_keeps _ _ _ _ _) rfl
    · exact .refl _ _

theorem State.cycleEvents_keeps (s : State) (a1 : Nat) : Keeps 4 s (@State.cycleEvents s a1) := by
  unfold State.cycleEvents
  refine .ite (fun _ => ?_) (fun _ => ?_)
  · extract_lets x269_0
    have hx269_0 : Keeps 4 s x269_0 := by
      unfold x269_0
      exact .app (.refl _ _) (State.evt_keeps _ _ _ _ _) rfl
    refine .app ?_ (State.waitEvents_keeps _ _ _) rfl
    refine .ite (fun _ => ?_) (fun _ => ?_)
    · exact .app hx269_0 (State.evt_keeps _ _ _ _ _) rfl
    · exact hx269_0
  · exact .refl _ _

theorem execHoldSafetyRepeat_keeps (s : State) {t : State} (h : execHoldSafetyRepeat s = .next t) : Keeps 2048 s t := by
  unfold execHoldSafetyRepeat at h
  cases h
  refine .ite (fun _ => ?_) (fun _ => ?_)
  · exact .app (.refl _ _) (State.ropeSend_keeps _ _) rfl
  · exact .refl _ _

theorem State.loadRate_keeps (s : State) (a1 : PortRec) : Keeps 4 s (@State.loadRate s a1) := by
  unfold State.loadRate
  refine .ite (fun _ => ?_) (fun _ => ?_)
  · exact .refl _ _
  · exact .app (.refl _ _) (State.setF_keeps _ _ _) rfl

theorem State.dmaShut_keeps (s : State) (a1 : Nat) : Keeps 4 s (@State.dmaShut s a1) := by
  unfold State.dmaShut
  refine .ite (fun _ => ?_) (fun _ => ?_)
  · extract_lets x270_0
    have hx270_0 : Keeps 4 s x270_0 := by
      unfold x270_0
      exact .app (.refl _ _) (State.setF_keeps _ _ _) rfl
    refine .ite (fun _ => ?_) (fun _ => ?_)
    · exact .app (.app hx270_0 (State.setF_keeps _ _ _) rfl) (State.setF_keeps _ _ _) rfl
    · exact hx270_0
  · exact .refl _ _

theorem State.dmaEnd_keeps (s : State) (a1 : DmaRun) : Keeps 2251799813687308 s (@State.dmaEnd s a1) := by
  unfold State.dmaEnd
  extract_lets x271_0 x271_1
  have hx271_0 : Keeps 2251799813687308 s x271_0 := by
    unfold x271_0
    exact .app (.app (.refl _ _) (State.setF_keeps _ _ _) rfl) (State.setF_keeps _ _ _) rfl
  have hx271_1 : Keeps 2251799813687308 s x271_1 := by
    unfold x271_1
    exact .app hx271_0 (keeps_dma _ _) rfl
  exact .app (.app hx271_1 (State.dmaDone_keeps _ _) rfl) (State.dmaShut_keeps _ _) rfl

theorem execDmaRequestError_keeps (a0 : Nat) (a1 : Nat) (s : State) {t : State} (h : execDmaRequestError a0 a1 s = .next t) : Keeps 62513895909330572 s t := by
  unfold execDmaRequestError at h
  cases h
  refine .ite (fun _ => ?_) (fun _ => ?_)
  · exact .refl _ _
  · extract_lets x272_0 x272_1 x272_2
    have hx272_0 : Keeps 62513895909330572 s x272_0 := by
      unfold x272_0
      exact .app (.app (.refl _ _) (State.setF_keeps _ _ _) rfl) (State.setF_keeps _ _ _) rfl
    have hx272_1 : Keeps 62513895909330572 s x272_1 := by
      unfold x272_1
      exact .app (.app (.app hx272_0 (State.setF_keeps _ _ _) rfl) (State.count_keeps _ _ _) rfl) (State.raiseHDM_keeps _ _) rfl
    have hx272_2 : Keeps 62513895909330572 s x272_2 := by
      unfold x272_2
      split
      · exact .app (.app hx272_1 (State.setF_keeps _ _ _) rfl) (State.dmaEnd_keeps _ _) rfl
      · exact hx272_1
    exact .app hx272_2 (State.minor_keeps _ _) rfl

theorem State.takeLo_keeps0 (s : State) (a1 : Nat) : Keeps 512 s (@State.takeLo s a1).2 := by
  unfold State.takeLo
  refine .snd ?_
  exact .app (.refl _ _) (keeps_heldLo _ _) rfl

theorem State.takeLo_keeps {s : State} {a1 : Nat} {r0} {t : State} (h : @State.takeLo s a1 = (r0, t)) : Keeps 512 s t := by
  have h0 := State.takeLo_keeps0 s a1
  rw [h] at h0
  exact h0

theorem State.rails_keeps (s : State) (a1 : Bool) (a2 : List Nat) : Keeps 2048 s (@State.rails s a1 a2) := by
  induction a2 generalizing s a1 with
  | nil =>
    simp only [State.rails]
    exact .refl _ _
  | cons b l ih =>
    simp only [State.rails]
    refine .app (k := 2048) ?_ (ih _ _) rfl
    exact .app (.refl _ _) (keeps_emit _ _) rfl

theorem State.startShort_keeps (s : State) : Keeps 19703248369780748 s (@State.startShort s) := by
  unfold State.startShort
  extract_lets x273_0 x273_1 x273_2
  have hx273_0 : Keeps 19703248369780748 s x273_0 := by
    unfold x273_0
    exact .app (.app (.refl _ _) (State.enterMode_keeps _ _ _) rfl) (State.setF_keeps _ _ _) rfl
  have hx273_1 : Keeps 19703248369780748 s x273_1 := by
    unfold x273_1
    exact .app (.app (.app hx273_0 (State.resetCause_keeps _ _ _) rfl) (State.rails_keeps _ _ _) rfl) (State.ascend_keeps _ _ _) rfl
  exact .app hx273_1 (keeps_mode _ _) rfl

theorem State.beatGap_keeps (s : State) : Keeps 4 s (@State.beatGap s) := by
  unfold State.beatGap
  split
  · exact .refl _ _
  · extract_lets x274_0
    exact .app (.app (.refl _ _) (State.maxF_keeps _ _ _) rfl) (State.count_keeps _ _ _) rfl

theorem execRtcLoad_keeps (s : State) {t : State} (h : execRtcLoad s = .next t) : Keeps 262144 s t := by
  unfold execRtcLoad at h
  cases h
  exact .app (.refl _ _) (State.doRtcLoad_keeps _) rfl

theorem execMbOtpKey_keeps (s : State) {t : State} (h : execMbOtpKey s = .next t) : Keeps 62795370886057612 s t := by
  unfold execMbOtpKey at h
  cases h
  exact .app (.refl _ _) (State.mbRow_keeps _ _) rfl

theorem execExcursionRecovered_keeps (s : State) {t : State} (h : execExcursionRecovered s = .next t) : Keeps 18014398509481988 s t := by
  unfold execExcursionRecovered at h
  cases h
  refine .ite (fun _ => ?_) (fun _ => ?_)
  · exact .app (.app (.refl _ _) (keeps_age _ _) rfl) (State.replan_keeps _) rfl
  · exact .refl _ _

theorem State.swapWorn_keeps (s : State) (a1 : List Nat) : Keeps 36609382363040780 s (@State.swapWorn s a1) := by
  induction a1 generalizing s with
  | nil =>
    simp only [State.swapWorn]
    exact .refl _ _
  | cons b l ih =>
    simp only [State.swapWorn]
    refine .app (k := 36609382363040780) ?_ (ih _) rfl
    split
    · exact .app (.refl _ _) (State.askSwap_keeps _ _) rfl
    · exact .refl _ _

theorem State.setDeficit_keeps (s : State) (a1 : Nat) (a2 : Nat) (a3 : Int) : Keeps 4 s (@State.setDeficit s a1 a2 a3) := by
  unfold State.setDeficit
  exact .app (.refl _ _) (State.setF_keeps _ _ _) rfl

theorem State.txCharge_keeps (s : State) (a1 : Copy) (a2 : Nat) : Keeps 17592186044420 s (@State.txCharge s a1 a2) := by
  unfold State.txCharge
  exact .app (.app (.refl _ _) (State.setDeficit_keeps _ _ _ _) rfl) (State.bwAdd_keeps _ _ _ _) rfl

theorem State.maxTally_keeps (s : State) (a1 : Nat) (a2 : Nat) : Keeps 4 s (@State.maxTally s a1 a2) := by
  unfold State.maxTally
  refine .ite (fun _ => ?_) (fun _ => ?_)
  · exact .app (.refl _ _) (State.setTally_keeps _ _ _ _) rfl
  · exact .refl _ _

theorem State.txGood_keeps (s : State) (a1 : Frame) (a2 : Copy) (a3 : List Byte) (a4 : Nat) : Keeps 395276 s (@State.txGood s a1 a2 a3 a4) := by
  unfold State.txGood
  extract_lets x275_0 x275_1 x275_2 x275_3 x275_4 x275_5 x275_6 x275_7 x275_8
  have hx275_1 : Keeps 395276 s x275_1 := by
    unfold x275_1
    exact .app (.app (.refl _ _) (State.portTally_keeps _ _ _ _) rfl) (State.portTally_keeps _ _ _ _) rfl
  have hx275_3 : Keeps 395276 s x275_3 := by
    unfold x275_3
    refine .ite (fun _ => ?_) (fun _ => ?_)
    · exact .app hx275_1 (State.portTally_keeps _ _ _ _) rfl
    · refine .ite (fun _ => ?_) (fun _ => ?_)
      · exact .app hx275_1 (State.portTally_keeps _ _ _ _) rfl
      · exact .app hx275_1 (State.portTally_keeps _ _ _ _) rfl
  have hx275_4 : Keeps 395276 s x275_4 := by
    unfold x275_4
    exact .app hx275_3 (State.portTally_keeps _ _ _ _) rfl
  have hx275_5 : Keeps 395276 s x275_5 := by
    unfold x275_5
    exact .app (.app hx275_4 (State.portTally_keeps _ _ _ _) rfl) (State.portTally_keeps _ _ _ _) rfl
  have hx275_8 : Keeps 395276 s x275_8 := by
    unfold x275_8
    exact .app (.app (.app hx275_5 (State.portTally_keeps _ _ _ _) rfl) (State.portTally_keeps _ _ _ _) rfl) (State.maxTally_keeps _ _ _) rfl
  exact .app (.app hx275_8 (State.resPeak_keeps _ _ _) rfl) (State.txStamp_keeps _ _ _ _) rfl

theorem State.raiseSrcs_keeps (s : State) (a1 : List Nat) : Keeps 62513895909330572 s (@State.raiseSrcs s a1) := by
  induction a1 generalizing s with
  | nil =>
    simp only [State.raiseSrcs]
    exact .refl _ _
  | cons b l ih =>
    simp only [State.raiseSrcs]
    refine .app (k := 62513895909330572) ?_ (ih _) rfl
    exact .app (.refl _ _) (State.event_keeps _ _ _) rfl

theorem State.raiseFrees_keeps (s : State) : Keeps 62513895909330572 s (@State.raiseFrees s) := by
  unfold State.raiseFrees
  exact .app (.app (.refl _ _) (keeps_buf _ _) rfl) (State.raiseSrcs_keeps _ _) rfl

theorem execCopyTransmitEnd_keeps (a0 : Nat) (a1 : Nat) (s : State) {t : State} (h : execCopyTransmitEnd a0 a1 s = .next t) : Keeps 62513895909592716 s t := by
  unfold execCopyTransmitEnd at h
  cases h
  split
  · refine .ite (fun _ => ?_) (fun _ => ?_)
    · exact .refl _ _
    · extract_lets x276_0 x276_1 x276_2 x276_3 x276_4 x276_5 x276_6 x276_7 x276_8 x276_9 x276_10
      have hx276_4 : Keeps 62513895909592716 s x276_4 := by
        unfold x276_4
        refine .ite (fun _ => ?_) (fun _ => ?_)
        · exact .refl _ _
        · exact .app (.refl _ _) (State.refuseRead_keeps _ _) rfl
      have hx276_7 : Keeps 62513895909592716 s x276_7 := by
        unfold x276_7
        clear_value x276_5
        split
        · exact .app (.app hx276_4 (State.portTally_keeps _ _ _ _) rfl) (State.portTally_keeps _ _ _ _) rfl
        · exact hx276_4
      have hx276_8 : Keeps 62513895909592716 s x276_8 := by
        unfold x276_8
        refine .ite (fun _ => ?_) (fun _ => ?_)
        · exact hx276_7
        · exact .app hx276_7 (State.portTally_keeps _ _ _ _) rfl
      have hx276_9 : Keeps 62513895909592716 s x276_9 := by
        unfold x276_9
        exact .app (.app hx276_8 (State.txCharge_keeps _ _ _) rfl) (keeps_emit _ _) rfl
      have hx276_10 : Keeps 62513895909592716 s x276_10 := by
        unfold x276_10
        refine .ite (fun _ => ?_) (fun _ => ?_)
        · exact .app hx276_9 (State.portTally_keeps _ _ _ _) rfl
        · exact .app hx276_9 (State.txGood_keeps _ _ _ _ _) rfl
      exact .app (.app (.app (.app (.app hx276_10 (State.releaseCopy_keeps _ _) rfl) (State.settleFrame_keeps _ _) rfl) (State.cbsStep_keeps _ _ _) rfl) (State.fragResume_keeps _ _) rfl) (State.raiseFrees_keeps _) rfl
  · exact .refl _ _

theorem State.latchHi_keeps (s : State) (a1 : Nat) : Keeps 128 s (@State.latchHi s a1) := by
  unfold State.latchHi
  refine .ite (fun _ => ?_) (fun _ => ?_)
  · extract_lets x277_0
    have hx277_0 : Keeps 128 s x277_0 := by
      unfold x277_0
      exact .app (.refl _ _) (keeps_latch _ _) rfl
    refine .ite (fun _ => ?_) (fun _ => ?_)
    · exact .app hx277_0 (keeps_latch _ _) rfl
    · exact hx277_0
  · exact .refl _ _

theorem execCommitDiscard_keeps (s : State) {t : State} (h : execCommitDiscard s = .next t) : Keeps 524292 s t := by
  unfold execCommitDiscard at h
  cases h
  exact .app (.refl _ _) (State.doCommitDiscard_keeps _) rfl

theorem State.copyResult_keeps (s : State) (a1 : Frame) (a2 : Copy) (a3 : Bool) : Keeps 62518293955841692 s (@State.copyResult s a1 a2 a3) := by
  unfold State.copyResult
  extract_lets x278_0 x278_1
  split
  · exact .app (.app (.refl _ _) (State.station_keeps (by assumption)) rfl) (State.dropCopy_keeps _ _ _) rfl
  · extract_lets x279_0 x279_1
    have hx279_0 : Keeps 62518293955841692 s x279_0 := by
      unfold x279_0
      exact .app (.app (.app (.app (.refl _ _) (State.station_keeps (by assumption)) rfl) (State.works_keeps _ _ _) rfl) (State.putFrame_keeps _ _) rfl) (State.evt_keeps _ _ _ _ _) rfl
    refine .app ?_ (State.putCopy_keeps _ _) rfl
    unfold x279_1
    exact .app hx279_0 (State.combineAll_keeps rfl) rfl

theorem State.tick_keeps (s : State) : Keeps 2 s (@State.tick s) := by
  unfold State.tick
  exact .app (.refl _ _) (keeps_now _ _) rfl

theorem State.cycle_keeps (s : State) : Keeps 6 s (@State.cycle s) := by
  unfold State.cycle
  refine .foldS ?_ (fun u280 a280 => ?_)
  · exact .app (.refl _ _) (State.tick_keeps _) rfl
  · exact .app (.refl _ _) (State.cycleEvents_keeps _ _) rfl

theorem State.lockPorts_keeps (s : State) (a1 : List Nat) : Keeps 562950208358412 s (@State.lockPorts s a1) := by
  induction a1 generalizing s with
  | nil =>
    simp only [State.lockPorts]
    exact .refl _ _
  | cons b l ih =>
    simp only [State.lockPorts]
    refine .app (k := 562950208358412) ?_ (ih _) rfl
    refine .ite (fun _ => ?_) (fun _ => ?_)
    · exact .app (.refl _ _) (State.lockGained_keeps _ _) rfl
    · refine .ite (fun _ => ?_) (fun _ => ?_)
      · exact .app (.refl _ _) (State.portTally_keeps _ _ _ _) rfl
      · exact .refl _ _

theorem State.setGoal_keeps (s : State) (a1 : Nat) : Keeps 18014398509481988 s (@State.setGoal s a1) := by
  unfold State.setGoal
  refine .ite (fun _ => ?_) (fun _ => ?_)
  · extract_lets x281_0 x281_1
    have hx281_0 : Keeps 18014398509481988 s x281_0 := by
      unfold x281_0
      exact .app (.refl _ _) (State.setF_keeps _ _ _) rfl
    refine .ite (fun _ => ?_) (fun _ => ?_)
    · exact .app hx281_0 (State.voltageDone_keeps _) rfl
    · exact .app hx281_0 (keeps_age _ _) rfl
  · refine .ite (fun _ => ?_) (fun _ => ?_)
    · exact .app (.refl _ _) (keeps_age _ _) rfl
    · exact .refl _ _

theorem State.genReset_keeps (s : State) : Keeps 524292 s s.genReset := by
  unfold State.genReset
  have h := Keeps.app (.refl 524292 s) (keeps_regsFilter s (fun e => !(0x400000 ≤ e.1 && e.1 < 0x400044))) rfl
  exact h.upd (by intro p hp; cases p <;> first | exact absurd hp (by decide) | rfl) rfl rfl rfl rfl rfl rfl rfl rfl rfl

theorem State.reimage_keeps (s : State) (a1 : Nat) : Keeps 128351696148081180 s (s.reimage a1) := by
  unfold State.reimage
  extract_lets t0 t1 cur t2 _ t3 t4 _ _ _
  have h0 : Keeps 128351696148081180 s t0 := by
    unfold t0
    exact .app (.app (.refl _ _) (State.cutCopies_keeps _ _) rfl) (State.flushAll_keeps _) rfl
  clear_value t0
  have h1 : Keeps 128351696148081180 s t1 := by
    unfold t1
    exact .app (.app h0 (State.dropFrames_keeps _ _) rfl) (State.clearIso_keeps _) rfl
  have h2 : Keeps 128351696148081180 s t2 := by
    unfold t2
    exact .app (.app (.app h1 (State.unstageAll_keeps _ _) rfl) (State.genReset_keeps _) rfl) (State.talliesClear_keeps _) rfl
  clear_value t2
  have h3 : Keeps 128351696148081180 s t3 := by
    refine ⟨fun p hp => p.same_trans (h2.same p hp) (by cases p <;> first | exact absurd hp (by decide) | rfl), fun h => ?_, h2.outs, h2.ctr⟩
    have hc := h2.canon h
    exact ⟨swf_filter _ _ _ hc.1, hc.2.1, swf_filter _ _ _ hc.2.2.1, hc.2.2.2.1, hc.2.2.2.2.1, rfl, hc.2.2.2.2.2.2⟩
  clear_value t3
  have h4 : Keeps 128351696148081180 s t4 := by
    unfold t4
    exact .app (.app h3 (State.enterMode_keeps _ _ _) rfl) (State.ascend_keeps _ _ _) rfl
  clear_value t4
  exact h4.upd (by intro p hp; cases p <;> first | exact absurd hp (by decide) | rfl) rfl rfl rfl rfl rfl rfl rfl rfl rfl

theorem State.frerStart_keeps (s : State) : Keeps 824633720848 s s.frerStart := by
  unfold State.frerStart
  extract_lets t
  have ht : Keeps 824633720848 s t := by
    have h := Keeps.app (.refl 824633720848 s) (keeps_memFilter s (fun e => !(0x0F800000 ≤ e.1 && e.1 < 0x0FA00000) || s.replicated ((e.1 - 0x0F800000) / 32))) rfl
    exact h.upd (by intro p hp; cases p <;> first | exact absurd hp (by decide) | rfl) rfl rfl rfl rfl rfl rfl rfl rfl rfl
  exact .foldS ht (fun u a => .app (.refl _ _) (State.setFrerFlag_keeps _ _ _ _) rfl)

theorem State.genSync_keeps (s : State) : Keeps 524288 s (@State.genSync s) := by
  unfold State.genSync
  exact .app (.refl _ _) (keeps_gens _ _) rfl

theorem State.loadStation_keeps (s : State) (a1 : Image) (a2 : StationRec) : Keeps 4 s (@State.loadStation s a1 a2) := by
  unfold State.loadStation
  extract_lets x282_0 x282_1
  have hx282_1 : Keeps 4 s x282_1 := by
    unfold x282_1
    exact .app (.app (.app (.refl _ _) (State.setF_keeps _ _ _) rfl) (State.setF_keeps _ _ _) rfl) (State.setF_keeps _ _ _) rfl
  refine .ite (fun _ => ?_) (fun _ => ?_)
  · exact .app (.app hx282_1 (State.setF_keeps _ _ _) rfl) (State.setF_keeps _ _ _) rfl
  · exact hx282_1

theorem State.loadParse_keeps (s : State) (a1 : ParseRec) : Keeps 4 s (@State.loadParse s a1) := by
  unfold State.loadParse
  extract_lets x283_0
  have hx283_0 : Keeps 4 s x283_0 := by
    unfold x283_0
    exact .app (.app (.app (.refl _ _) (State.setF_keeps _ _ _) rfl) (State.setF_keeps _ _ _) rfl) (State.setF_keeps _ _ _) rfl
  refine .foldS ?_ (fun u284 a284 => ?_)
  · exact .app hx283_0 (State.setF_keeps _ _ _) rfl
  · split
    exact .app (.app (.refl _ _) (State.setF_keeps _ _ _) rfl) (State.setF_keeps _ _ _) rfl

theorem State.loadRegions_keeps (s : State) (a1 : Nat) (a2 : List (Nat × Nat)) : Keeps 4 s (@State.loadRegions s a1 a2) := by
  induction a2 generalizing s a1 with
  | nil =>
    simp only [State.loadRegions]
    exact .refl _ _
  | cons b l ih =>
    simp only [State.loadRegions]
    refine .app (k := 4) ?_ (ih _ _) rfl
    refine .ite (fun _ => ?_) (fun _ => ?_)
    · exact .app (.app (.refl _ _) (State.setF_keeps _ _ _) rfl) (State.setF_keeps _ _ _) rfl
    · exact .app (.app (.refl _ _) (State.setF_keeps _ _ _) rfl) (State.setF_keeps _ _ _) rfl

theorem State.loadBlock_keeps (s : State) (a1 : TileRec) (a2 : Bool) (a3 : Nat) (a4 : Nat) : Keeps 4 s (@State.loadBlock s a1 a2 a3 a4) := by
  unfold State.loadBlock
  refine .ite (fun _ => ?_) (fun _ => ?_)
  · exact .app (.app (.app (.refl _ _) (State.setF_keeps _ _ _) rfl) (State.setF_keeps _ _ _) rfl) (State.setB_keeps _ _ _) rfl
  · exact .refl _ _

theorem State.loadTile_keeps (s : State) (a1 : Bool) (a2 : TileRec) : Keeps 4 s (@State.loadTile s a1 a2) := by
  unfold State.loadTile
  extract_lets x285_0 x285_1 x285_2 x285_3 x285_4
  have hx285_1 : Keeps 4 s x285_1 := by
    unfold x285_1
    exact .app (.app (.app (.refl _ _) (State.setF_keeps _ _ _) rfl) (State.setB_keeps _ _ _) rfl) (State.setF_keeps _ _ _) rfl
  have hx285_2 : Keeps 4 s x285_2 := by
    unfold x285_2
    exact .app (.app (.app hx285_1 (State.setF_keeps _ _ _) rfl) (State.setF_keeps _ _ _) rfl) (State.setF_keeps _ _ _) rfl
  have hx285_3 : Keeps 4 s x285_3 := by
    unfold x285_3
    split
    · exact .app hx285_2 (State.setF_keeps _ _ _) rfl
    · exact .app hx285_2 (State.setF_keeps _ _ _) rfl
    · exact .app hx285_2 (State.setF_keeps _ _ _) rfl
    · exact .app hx285_2 (State.setF_keeps _ _ _) rfl
  have hx285_4 : Keeps 4 s x285_4 := by
    unfold x285_4
    exact .app (.app (.app hx285_3 (State.setB_keeps _ _ _) rfl) (State.setB_keeps _ _ _) rfl) (State.setF_keeps _ _ _) rfl
  refine .ite (fun _ => ?_) (fun _ => ?_)
  · refine .foldS ?_ (fun u286 a286 => ?_)
    · exact hx285_4
    · exact .app (.refl _ _) (State.loadBlock_keeps _ _ _ _ _) rfl
  · exact hx285_3

theorem State.loadPool_keeps (s : State) (a1 : PoolRec) (a2 : Nat) : Keeps 4 s (@State.loadPool s a1 a2) := by
  unfold State.loadPool
  extract_lets x287_0 x287_1 x287_2
  have hx287_0 : Keeps 4 s x287_0 := by
    unfold x287_0
    exact .app (.app (.app (.refl _ _) (State.setF_keeps _ _ _) rfl) (State.setB_keeps _ _ _) rfl) (State.setB_keeps _ _ _) rfl
  have hx287_1 : Keeps 4 s x287_1 := by
    unfold x287_1
    exact .app (.app hx287_0 (State.setF_keeps _ _ _) rfl) (State.setF_keeps _ _ _) rfl
  have hx287_2 : Keeps 4 s x287_2 := by
    unfold x287_2
    exact .app (.app hx287_1 (State.setF_keeps _ _ _) rfl) (State.setF_keeps _ _ _) rfl
  exact .app (.app (.app hx287_2 (State.setF_keeps _ _ _) rfl) (State.setF_keeps _ _ _) rfl) (State.setF_keeps _ _ _) rfl

theorem State.loadClass_keeps (s : State) (a1 : Nat) (a2 : Nat) (a3 : ClassRec) : Keeps 4 s (@State.loadClass s a1 a2 a3) := by
  unfold State.loadClass
  extract_lets x288_0 x288_1 x288_2
  have hx288_0 : Keeps 4 s x288_0 := by
    unfold x288_0
    exact .app (.app (.app (.refl _ _) (State.setF_keeps _ _ _) rfl) (State.setF_keeps _ _ _) rfl) (State.setF_keeps _ _ _) rfl
  have hx288_1 : Keeps 4 s x288_1 := by
    unfold x288_1
    exact .app (.app (.app hx288_0 (State.setF_keeps _ _ _) rfl) (State.setB_keeps _ _ _) rfl) (State.setF_keeps _ _ _) rfl
  have hx288_2 : Keeps 4 s x288_2 := by
    unfold x288_2
    exact .app (.app hx288_1 (State.setF_keeps _ _ _) rfl) (State.setF_keeps _ _ _) rfl
  exact .app (.app hx288_2 (State.setF_keeps _ _ _) rfl) (State.setF_keeps _ _ _) rfl

theorem State.loadSched_keeps (s : State) (a1 : SchedRec) : Keeps 20 s (@State.loadSched s a1) := by
  unfold State.loadSched
  extract_lets x289_0 x289_1 x289_2 x289_3 x289_4
  have hx289_1 : Keeps 20 s x289_1 := by
    unfold x289_1
    exact .app (.app (.refl _ _) (State.setF_keeps _ _ _) rfl) (State.setF_keeps _ _ _) rfl
  have hx289_2 : Keeps 20 s x289_2 := by
    unfold x289_2
    exact .app (.app hx289_1 (State.setB_keeps _ _ _) rfl) (State.setF_keeps _ _ _) rfl
  have hx289_3 : Keeps 20 s x289_3 := by
    unfold x289_3
    exact .app (.app hx289_2 (State.setF_keeps _ _ _) rfl) (State.setF_keeps _ _ _) rfl
  have hx289_4 : Keeps 20 s x289_4 := by
    unfold x289_4
    exact .app hx289_3 (keeps_wrMem _ _ _) rfl
  refine .foldS ?_ (fun u290 a290 => ?_)
  · exact hx289_4
  · split
    exact .app (.refl _ _) (State.loadClass_keeps _ _ _ _) rfl

theorem State.loadAgeing_keeps (s : State) (a1 : AgeingRec) : Keeps 4 s (@State.loadAgeing s a1) := by
  unfold State.loadAgeing
  extract_lets x291_0 x291_1 x291_2
  have hx291_0 : Keeps 4 s x291_0 := by
    unfold x291_0
    exact .app (.app (.refl _ _) (State.setB_keeps _ _ _) rfl) (State.setF_keeps _ _ _) rfl
  have hx291_1 : Keeps 4 s x291_1 := by
    unfold x291_1
    exact .app (.app hx291_0 (State.setF_keeps _ _ _) rfl) (State.setF_keeps _ _ _) rfl
  have hx291_2 : Keeps 4 s x291_2 := by
    unfold x291_2
    exact .app (.app hx291_1 (State.setF_keeps _ _ _) rfl) (State.setF_keeps _ _ _) rfl
  exact .app (.app (.app hx291_2 (State.setF_keeps _ _ _) rfl) (State.setF_keeps _ _ _) rfl) (State.setF_keeps _ _ _) rfl

theorem State.loadPatch_keeps (s : State) (a1 : PatchRec) : Keeps 4 s (@State.loadPatch s a1) := by
  unfold State.loadPatch
  extract_lets x292_0
  have hx292_0 : Keeps 4 s x292_0 := by
    unfold x292_0
    refine .foldS ?_ (fun u293 a293 => ?_)
    · exact .refl _ _
    · split
      exact .app (.refl _ _) (State.setF_keeps _ _ _) rfl
  refine .foldS ?_ (fun u294 a294 => ?_)
  · exact hx292_0
  · split
    exact .app (.app (.app (.refl _ _) (State.setF_keeps _ _ _) rfl) (State.setF_keeps _ _ _) rfl) (State.setF_keeps _ _ _) rfl

theorem State.loadImage_keeps (s : State) (a1 : Image) : Keeps 562950356211740 s (@State.loadImage s a1) := by
  unfold State.loadImage
  extract_lets x295_0 x295_1 x295_2 x295_3 x295_4 x295_5 x295_6 x295_7 x295_8 x295_9 x295_10
  have hx295_0 : Keeps 562950356211740 s x295_0 := by
    unfold x295_0
    exact .app (.refl _ _) (keeps_regsFilter _ _) rfl
  have hx295_1 : Keeps 562950356211740 s x295_1 := by
    unfold x295_1
    refine .upd (t := x295_0) ?_ (by intro p hp; cases p <;> first | exact absurd hp (by decide) | rfl) rfl rfl rfl rfl rfl rfl rfl rfl rfl
    exact hx295_0
  have hx295_2 : Keeps 562950356211740 s x295_2 := by
    unfold x295_2
    refine .foldS ?_ (fun u296 a296 => ?_)
    · exact .app hx295_1 (State.loadParse_keeps _ _) rfl
    · exact .app (.refl _ _) (State.loadStation_keeps _ _ _) rfl
  have hx295_3 : Keeps 562950356211740 s x295_3 := by
    unfold x295_3
    refine .app ?_ (State.loadRegions_keeps _ _ _) rfl
    refine .foldS ?_ (fun u297 a297 => ?_)
    · exact hx295_2
    · exact .app (.refl _ _) (State.loadTile_keeps _ _ _) rfl
  have hx295_4 : Keeps 562950356211740 s x295_4 := by
    unfold x295_4
    refine .foldS ?_ (fun u298 a298 => ?_)
    · exact hx295_3
    · exact .app (.app (.refl _ _) (State.setF_keeps _ _ _) rfl) (State.loadRate_keeps _ _) rfl
  have hx295_5 : Keeps 562950356211740 s x295_5 := by
    unfold x295_5
    refine .foldS ?_ (fun u299 a299 => ?_)
    · refine .foldS ?_ (fun u300 a300 => ?_)
      · exact hx295_4
      · exact .app (.refl _ _) (State.loadSched_keeps _ _) rfl
    · split
      exact .app (.refl _ _) (State.loadPool_keeps _ _ _) rfl
  have hx295_6 : Keeps 562950356211740 s x295_6 := by
    unfold x295_6
    exact .app (.app hx295_5 (State.setF_keeps _ _ _) rfl) (State.loadAgeing_keeps _ _) rfl
  have hx295_7 : Keeps 562950356211740 s x295_7 := by
    unfold x295_7
    refine .foldS ?_ (fun u301 a301 => ?_)
    · exact hx295_6
    · split
      exact .app (.app (.refl _ _) (State.setF_keeps _ _ _) rfl) (State.setF_keeps _ _ _) rfl
  have hx295_8 : Keeps 562950356211740 s x295_8 := by
    unfold x295_8
    refine .foldS ?_ (fun u302 a302 => ?_)
    · exact hx295_7
    · exact .app (.app (.refl _ _) (State.setF_keeps _ _ _) rfl) (State.setF_keeps _ _ _) rfl
  have hx295_9 : Keeps 562950356211740 s x295_9 := by
    unfold x295_9
    refine .app ?_ (State.setB_keeps _ _ _) rfl
    refine .foldS ?_ (fun u303 a303 => ?_)
    · exact hx295_8
    · exact .app (.refl _ _) (State.loadPatch_keeps _ _) rfl
  have hx295_10 : Keeps 562950356211740 s x295_10 := by
    unfold x295_10
    exact .app (.app hx295_9 (State.setF_keeps _ _ _) rfl) (State.setF_keeps _ _ _) rfl
  exact .app hx295_10 (State.setTwin_keeps _ _ _) rfl

theorem State.dropLanes_keeps (s : State) (a1 : Image) : Keeps 36609373772974092 s (@State.dropLanes s a1) := by
  unfold State.dropLanes
  extract_lets x304_0
  refine .foldS ?_ (fun u305 a305 => ?_)
  · exact .refl _ _
  · exact .app (.app (.refl _ _) (State.portsDown_keeps _ _) rfl) (keeps_wr _ _ _) rfl

theorem State.modeStep_keeps (s : State) (a1 : Nat) : Keeps 32768 s (@State.modeStep s a1) := by
  unfold State.modeStep
  exact .app (.refl _ _) (keeps_mode _ _) rfl

theorem State.loadRun_keeps (s : State) (a1 : Image) (a2 : Bool) (a3 : Bool) : Keeps 36891673652541500 s (@State.loadRun s a1 a2 a3) := by
  unfold State.loadRun
  extract_lets x306_0 x306_1 x306_2 x306_3 x306_4 x306_5 x306_6 x306_7
  have hx306_0 : Keeps 36891673652541500 s x306_0 := by
    unfold x306_0
    exact .app (.app (.app (.app (.refl _ _) (State.dropLanes_keeps _ _) rfl) (State.loadImage_keeps _ _) rfl) (State.genSync_keeps _) rfl) (State.frerStart_keeps _) rfl
  have hx306_1 : Keeps 36891673652541500 s x306_1 := by
    unfold x306_1
    refine .ite (fun _ => ?_) (fun _ => ?_)
    · exact hx306_0
    · exact .app hx306_0 (State.emptyFlows_keeps _) rfl
  have hx306_2 : Keeps 36891673652541500 s x306_2 := by
    unfold x306_2
    exact .app (.app (.app hx306_1 (State.setB_keeps _ _ _) rfl) (State.setB_keeps _ _ _) rfl) (State.setF_keeps _ _ _) rfl
  have hx306_4 : Keeps 36891673652541500 s x306_4 := by
    unfold x306_4
    exact .app hx306_2 (State.imgState_keeps _ _) rfl
  have hx306_5 : Keeps 36891673652541500 s x306_5 := by
    unfold x306_5
    exact .app hx306_4 (State.modeStep_keeps _ _) rfl
  have hx306_7 : Keeps 36891673652541500 s x306_7 := by
    unfold x306_7
    exact .app hx306_5 (keeps_load _ _) rfl
  refine .ite (fun _ => ?_) (fun _ => ?_)
  · exact .app hx306_7 (State.sealNow_keeps _) rfl
  · exact hx306_7

theorem State.readyLoad_keeps (s : State) : Keeps 36891673652541500 s (@State.readyLoad s) := by
  unfold State.readyLoad
  split
  · refine .ite (fun _ => ?_) (fun _ => ?_)
    · exact .app (.refl _ _) (State.loadRun_keeps _ _ _ _) rfl
    · exact .refl _ _
  · exact .refl _ _

theorem State.pushRun_keeps (s : State) (a1 : Image) : Keeps 128352555544328764 s (@State.pushRun s a1) := by
  unfold State.pushRun
  extract_lets x307_0 x307_1 x307_2 x307_3 x307_4
  have hx307_1 : Keeps 128352555544328764 s x307_1 := by
    unfold x307_1
    refine .app ?_ (State.failPush_keeps _ _) rfl
    refine .ite (fun _ => ?_) (fun _ => ?_)
    · exact .app (.app (.refl _ _) (State.reimage_keeps _ _) rfl) (State.setF_keeps _ _ _) rfl
    · exact .refl _ _
  have hx307_2 : Keeps 128352555544328764 s x307_2 := by
    unfold x307_2
    exact .app hx307_1 (State.loadRun_keeps _ _ _ _) rfl
  refine .ite (fun _ => ?_) (fun _ => ?_)
  · exact .app hx307_2 (keeps_load _ _) rfl
  · exact .app (.app (.app hx307_1 (keeps_load _ _) rfl) (State.imgState_keeps _ _) rfl) (State.readyLoad_keeps _) rfl

theorem State.romChecked_keeps (s : State) : Keeps 32772 s (@State.romChecked s) := by
  unfold State.romChecked
  refine .foldS ?_ (fun u308 a308 => ?_)
  · exact .app (.refl _ _) (keeps_mode _ _) rfl
  · exact .app (.refl _ _) (State.setF_keeps _ _ _) rfl

theorem State.latchCairn_keeps (s : State) : Keeps 165900 s (@State.latchCairn s) := by
  unfold State.latchCairn
  split
  · exact .refl _ _
  · extract_lets x309_0 x309_1
    exact .app (.app (.refl _ _) (keeps_mode _ _) rfl) (State.cairn_keeps _ _ _ _ _) rfl

theorem execAscentSelfCheckPass_keeps (s : State) {t : State} (h : execAscentSelfCheckPass s = .next t) : Keeps 281474976876556 s t := by
  unfold execAscentSelfCheckPass at h
  cases h
  refine .ite (fun _ => ?_) (fun _ => ?_)
  · extract_lets x310_0 x310_1 x310_2
    have hx310_0 : Keeps 281474976876556 s x310_0 := by
      unfold x310_0
      exact .app (.refl _ _) (State.romChecked_keeps _) rfl
    have hx310_2 : Keeps 281474976876556 s x310_2 := by
      unfold x310_2
      exact .app hx310_0 (keeps_mode _ _) rfl
    refine .ite (fun _ => ?_) (fun _ => ?_)
    · exact .app (.app hx310_2 (State.latchCairn_keeps _) rfl) (State.readSlots_keeps _) rfl
    · exact hx310_2
  · refine .ite (fun _ => ?_) (fun _ => ?_)
    · exact .app (.refl _ _) (State.romChecked_keeps _) rfl
    · exact .refl _ _

theorem execTimeSnapshot_keeps (s : State) {t : State} (h : execTimeSnapshot s = .next t) : Keeps 4 s t := by
  unfold execTimeSnapshot at h
  cases h
  exact .app (.refl _ _) (State.doTimeSnapshot_keeps _) rfl

theorem execPcieLinkChange_keeps (a0 : Nat) (a1 : Nat) (s : State) {t : State} (h : execPcieLinkChange a0 a1 s = .next t) : Keeps 8590067724 s t := by
  unfold execPcieLinkChange at h
  cases h
  refine .ite (fun _ => ?_) (fun _ => ?_)
  · exact .app (.refl _ _) (State.pcieLink_keeps _ _ _) rfl
  · exact .refl _ _

theorem execMbJtagUnlock_keeps (s : State) {t : State} (h : execMbJtagUnlock s = .next t) : Keeps 62795370886057612 s t := by
  unfold execMbJtagUnlock at h
  cases h
  exact .app (.refl _ _) (State.mbRow_keeps _ _) rfl

theorem execRtcLoadApply_keeps (s : State) {t : State} (h : execRtcLoadApply s = .next t) : Keeps 262144 s t := by
  unfold execRtcLoadApply at h
  cases h
  extract_lets x311_0 x311_1
  refine .ite (fun _ => ?_) (fun _ => ?_)
  · exact .app (.refl _ _) (keeps_time _ _) rfl
  · exact .refl _ _

theorem State.noteWhy_keeps0 (s : State) (a1 : Frame) (a2 : Nat) : Keeps 36028797018966028 s (@State.noteWhy s a1 a2).1 := by
  unfold State.noteWhy
  refine .iteP (fun r : State × Frame => r.1) (fun _ => ?_) (fun _ => ?_)
  · refine .fst ?_
    exact .refl _ _
  · refine .iteP (fun r : State × Frame => r.1) (fun _ => ?_) (fun _ => ?_)
    · refine .fst ?_
      exact .app (.refl _ _) (State.countWhy_keeps _ _ _) rfl
    · refine .fst ?_
      exact .refl _ _

theorem State.noteWhy_keeps {s : State} {a1 : Frame} {a2 : Nat} {r0} {t : State} (h : @State.noteWhy s a1 a2 = (t, r0)) : Keeps 36028797018966028 s t := by
  have h0 := State.noteWhy_keeps0 s a1 a2
  rw [h] at h0
  exact h0

theorem execRopeFcRelease_keeps (a0 : Nat) (s : State) {t : State} (h : execRopeFcRelease a0 s = .next t) : Keeps 562949953421316 s t := by
  unfold execRopeFcRelease at h
  cases h
  split
  · refine .ite (fun _ => ?_) (fun _ => ?_)
    · exact .app (.app (.refl _ _) (keeps_rope _ _) rfl) (State.clrBit_keeps _ _ _) rfl
    · exact .refl _ _
  · exact .refl _ _

theorem State.takeOver_keeps (s : State) (a1 : List StreamRec) : Keeps 16 s (@State.takeOver s a1) := by
  induction a1 generalizing s with
  | nil =>
    simp only [State.takeOver]
    exact .refl _ _
  | cons b l ih =>
    simp only [State.takeOver]
    refine .app (k := 16) ?_ (ih _) rfl
    refine .ite (fun _ => ?_) (fun _ => ?_)
    · exact .refl _ _
    · exact .app (.refl _ _) (State.putFrer_keeps _ _ _ _ _) rfl

theorem State.roTake_keeps (s : State) (a1 : RoReading) : Keeps 62513895909330572 s (@State.roTake s a1) := by
  unfold State.roTake
  refine .ite (fun _ => ?_) (fun _ => ?_)
  · exact .app (.refl _ _) (State.event_keeps _ _ _) rfl
  · exact .app (.app (.refl _ _) (State.setF_keeps _ _ _) rfl) (State.setF_keeps _ _ _) rfl

theorem State.roTakes_keeps (s : State) (a1 : List RoReading) : Keeps 62513895909330572 s (@State.roTakes s a1) := by
  induction a1 generalizing s with
  | nil =>
    simp only [State.roTakes]
    exact .refl _ _
  | cons b l ih =>
    simp only [State.roTakes]
    refine .app (k := 62513895909330572) ?_ (ih _) rfl
    exact .app (.refl _ _) (State.roTake_keeps _ _) rfl

theorem State.startCopy_keeps (s : State) (a1 : Frame) (a2 : Copy) : Keeps 8623491084 s (@State.startCopy s a1 a2) := by
  unfold State.startCopy
  extract_lets x312_0 x312_1 x312_2 x312_3 x312_4
  have hx312_0 : Keeps 8623491084 s x312_0 := by
    unfold x312_0
    exact .app (.refl _ _) (State.depthSub_keeps _ _) rfl
  have hx312_3 : Keeps 8623491084 s x312_3 := by
    unfold x312_3
    exact .app hx312_0 (State.putCopy_keeps _ _) rfl
  have hx312_4 : Keeps 8623491084 s x312_4 := by
    unfold x312_4
    refine .ite (fun _ => ?_) (fun _ => ?_)
    · exact .app (.app hx312_3 (State.portTally_keeps _ _ _ _) rfl) (State.evt_keeps _ _ _ _ _) rfl
    · exact .app hx312_3 (State.evt_keeps _ _ _ _ _) rfl
  exact .app hx312_4 (State.cbsStep_keeps _ _ _) rfl

theorem State.dequeue_keeps (s : State) (a1 : Nat) (a2 : Nat) : Keeps 62513895909330572 s (@State.dequeue s a1 a2) := by
  unfold State.dequeue
  split
  · exact .refl _ _
  · split
    · exact .refl _ _
    · refine .ite (fun _ => ?_) (fun _ => ?_)
      · exact .app (.app (.refl _ _) (State.count_keeps _ _ _) rfl) (State.dropCopy_keeps _ _ _) rfl
      · split
        · exact .app (.refl _ _) (State.dropCopy_keeps _ _ _) rfl
        · refine .ite (fun _ => ?_) (fun _ => ?_)
          · exact .app (.refl _ _) (State.startCopy_keeps _ _ _) rfl
          · exact .app (.app (.refl _ _) (State.refuseRead_keeps _ _) rfl) (State.dropCopy_keeps _ _ _) rfl

theorem State.depthAdd_keeps (s : State) (a1 : Copy) : Keeps 4 s (@State.depthAdd s a1) := by
  unfold State.depthAdd
  refine .ite (fun _ => ?_) (fun _ => ?_)
  · exact .app (.refl _ _) (State.setF_keeps _ _ _) rfl
  · exact .app (.refl _ _) (State.setF_keeps _ _ _) rfl

theorem State.linkCopy_keeps (s : State) (a1 : Frame) (a2 : CopyReq) (a3 : Nat) : Keeps 8690599948 s (@State.linkCopy s a1 a2 a3) := by
  unfold State.linkCopy
  extract_lets x313_0 x313_1 x313_2 x313_3 x313_4 x313_5 x313_6 x313_7
  have hx313_2 : Keeps 8690599948 s x313_2 := by
    unfold x313_2
    refine .ite (fun _ => ?_) (fun _ => ?_)
    · refine .ite (fun _ => ?_) (fun _ => ?_)
      · exact .refl _ _
      · exact .app (.app (.refl _ _) (State.uncharge_keeps _ _ _) rfl) (State.charge_keeps _ _ _) rfl
    · exact .app (.refl _ _) (State.charge_keeps _ _ _) rfl
  have hx313_5 : Keeps 8690599948 s x313_5 := by
    unfold x313_5
    exact .app hx313_2 (keeps_buf _ _) rfl
  exact .app (.app (.app hx313_5 (keeps_copies _ _) rfl) (State.depthAdd_keeps _ _) rfl) (State.cbsStep_keeps _ _ _) rfl

theorem State.admitAll_keeps0 (s : State) (a1 : Frame) (a2 : List CopyReq) (a3 : Nat) (a4 : List Nat) : Keeps 8690599948 s (@State.admitAll s a1 a2 a3 a4).1 := by
  induction a2 generalizing s a1 a3 a4 with
  | nil =>
    simp only [State.admitAll]
    exact .refl _ _
  | cons b l ih =>
    simp only [State.admitAll]
    split
    · exact .app (.app (.app (.refl _ _) (State.portTally_keeps _ _ _ _) rfl) (State.portTally_keeps _ _ _ _) rfl) (ih _ _ _ _) rfl
    · exact .app (.app (.refl _ _) (State.linkCopy_keeps _ _ _ _) rfl) (ih _ _ _ _) rfl

theorem State.admitAll_keeps {s : State} {a1 : Frame} {a2 : List CopyReq} {a3 : Nat} {a4 : List Nat} {r0} {t : State} (h : @State.admitAll s a1 a2 a3 a4 = (t, r0)) : Keeps 8690599948 s t := by
  have h0 := State.admitAll_keeps0 s a1 a2 a3 a4
  rw [h] at h0
  exact h0

theorem State.tallyPorts_keeps (s : State) (a1 : Nat) (a2 : List Nat) : Keeps 2060 s (@State.tallyPorts s a1 a2) := by
  induction a2 generalizing s a1 with
  | nil =>
    simp only [State.tallyPorts]
    exact .refl _ _
  | cons b l ih =>
    simp only [State.tallyPorts]
    refine .app (k := 2060) ?_ (ih _ _) rfl
    exact .app (.refl _ _) (State.portTally_keeps _ _ _ _) rfl

theorem State.enqueueFrame_keeps (s : State) (a1 : Frame) : Keeps 36028805726341132 s (@State.enqueueFrame s a1) := by
  unfold State.enqueueFrame
  extract_lets x314_0 x314_1 x314_2
  refine .ite (fun _ => ?_) (fun _ => ?_)
  · refine .app ?_ (State.settleFrame_keeps _ _) rfl
    refine .app ?_ (State.putFrame_keeps _ _) rfl
    refine .app ?_ (State.freeAll_keeps _ _ _) rfl
    unfold x314_1
    refine .app ?_ (State.noteWhy_keeps rfl) rfl
    unfold x314_0
    exact .app (.refl _ _) (State.admitAll_keeps rfl) rfl
  · refine .app ?_ (State.putFrame_keeps _ _) rfl
    refine .app ?_ (State.tallyPorts_keeps _ _ _) rfl
    unfold x314_0
    exact .app (.refl _ _) (State.admitAll_keeps rfl) rfl

theorem execLaneTrainLimitExpiry_keeps (a0 : Nat) (s : State) {t : State} (h : execLaneTrainLimitExpiry a0 s = .next t) : Keeps 36609374041409548 s t := by
  unfold execLaneTrainLimitExpiry at h
  cases h
  split
  · exact .refl _ _
  · split
    · exact .refl _ _
    · refine .ite (fun _ => ?_) (fun _ => ?_)
      · exact .refl _ _
      · extract_lets x315_0
        have hx315_0 : Keeps 36609374041409548 s x315_0 := by
          unfold x315_0
          exact .app (.app (.refl _ _) (State.setF_keeps _ _ _) rfl) (State.updLane_keeps _ _ _) rfl
        refine .ite (fun _ => ?_) (fun _ => ?_)
        · exact .app hx315_0 (State.portsDown_keeps _ _) rfl
        · refine .ite (fun _ => ?_) (fun _ => ?_)
          · exact .app hx315_0 (State.portDown_keeps _ _) rfl
          · exact hx315_0

theorem State.beginWait_keeps (s : State) (a1 : Thread) (a2 : Nat) (a3 : Nat) (a4 : Bool) (a5 : Bool) (a6 : Bool) (a7 : Nat) : Keeps 1048576 s (@State.beginWait s a1 a2 a3 a4 a5 a6 a7) := by
  unfold State.beginWait
  exact .app (.refl _ _) (State.putThread_keeps _ _) rfl

theorem Keeps.withHdr {m : Nat} {s t : State} {th : Thread} {addr o n : Nat} {act : State → Thread → List Byte → State}
    (h : Keeps m s t) (hm : 1049600 &&& m = 1049600) (hf : ∀ u a b, Keeps m u (act u a b)) : Keeps m s (t.withHdr th addr o n act) := by
  have up : ∀ {k : Nat}, k &&& 1049600 = k → k &&& m = k := fun {k} hk => by rw [← hk, Nat.and_assoc, hm]
  unfold State.withHdr
  split
  · exact h.app (State.beginWait_keeps _ _ _ _ _ _ _ _) (up rfl)
  · exact (h.app (State.fillBytes_keeps0 _ _) (up rfl)).app (hf _ _ _) (Nat.and_self m)

theorem State.putKeys_keeps (s : State) (a1 : Target) (a2 : List Byte) : Keeps 50331648 s (@State.putKeys s a1 a2) := by
  unfold State.putKeys
  split
  · split
    · exact .app (.refl _ _) (State.putFrame_keeps _ _) rfl
    · exact .refl _ _
  · split
    · exact .app (.refl _ _) (State.putCopy_keeps _ _) rfl
    · exact .refl _ _
  · exact .refl _ _

theorem State.keyWrite_keeps (s : State) (a1 : Thread) (a2 : Nat) (a3 : Nat) (a4 : List Byte) : Keeps 62513895917719180 s (@State.keyWrite s a1 a2 a3 a4) := by
  unfold State.keyWrite
  extract_lets x316_0
  refine .ite (fun _ => ?_) (fun _ => ?_)
  · exact .app (.refl _ _) (State.abort_keeps _ _ _ _) rfl
  · exact .app (.app (.refl _ _) (State.putKeys_keeps _ _ _) rfl) (State.putThread_keeps _ _) rfl

theorem execExk_keeps (a0 : Nat) (a1 : Nat) (a2 : Nat) (a3 : Nat) (a4 : Nat) (s : State) {t : State} (h : execExk a0 a1 a2 a3 a4 s = .next t) : Keeps 62513895921913484 s t := by
  unfold execExk at h
  cases h
  refine .issue ?_ rfl (fun u317 a317 b317 => ?_)
  · exact .refl _ _
  · refine .withHdr ?_ rfl (fun u318 a318 b318 => ?_)
    · exact .refl _ _
    · exact .app (.refl _ _) (State.keyWrite_keeps _ _ _ _ _) rfl

theorem State.slotLoad_keeps (s : State) (a1 : Bool) (a2 : Image) : Keeps 128352555544328764 s (@State.slotLoad s a1 a2) := by
  unfold State.slotLoad
  extract_lets x319_0 x319_1 x319_2 x319_3 x319_4
  have hx319_1 : Keeps 128352555544328764 s x319_1 := by
    unfold x319_1
    exact .app (.refl _ _) (keeps_load _ _) rfl
  have hx319_2 : Keeps 128352555544328764 s x319_2 := by
    unfold x319_2
    exact .app (.app hx319_1 (State.reimage_keeps _ _) rfl) (State.loadRun_keeps _ _ _ _) rfl
  refine .ite (fun _ => ?_) (fun _ => ?_)
  · exact .app hx319_2 (keeps_load _ _) rfl
  · exact .app (.app (.app hx319_1 (keeps_load _ _) rfl) (State.imgState_keeps _ _) rfl) (State.readyLoad_keeps _) rfl

theorem State.rebase_keeps (s : State) (a1 : Nat) : Keeps 262144 s (@State.rebase s a1) := by
  unfold State.rebase
  split
  · exact .refl _ _
  · exact .app (.refl _ _) (State.putDom_keeps _ _ _) rfl

theorem State.setRate_keeps (s : State) (a1 : Nat) (a2 : Nat) : Keeps 262148 s (@State.setRate s a1 a2) := by
  unfold State.setRate
  exact .app (.app (.refl _ _) (State.rebase_keeps _ _) rfl) (State.setF_keeps _ _ _) rfl

theorem execFloorRaise_keeps (s : State) {t : State} (h : execFloorRaise s = .next t) : Keeps 149516 s t := by
  unfold execFloorRaise at h
  cases h
  exact .app (.refl _ _) (State.doFloorRaise_keeps _) rfl

theorem State.ropeSolo_keeps (s : State) : Keeps 19140298416359436 s (@State.ropeSolo s) := by
  unfold State.ropeSolo
  refine .ite (fun _ => ?_) (fun _ => ?_)
  · exact .refl _ _
  · refine .ite (fun _ => ?_) (fun _ => ?_)
    · exact .app (.refl _ _) (State.enterMode_keeps _ _ _) rfl
    · refine .ite (fun _ => ?_) (fun _ => ?_)
      · exact .app (.refl _ _) (State.enterRun_keeps _ _ _) rfl
      · refine .ite (fun _ => ?_) (fun _ => ?_)
        · exact .app (.refl _ _) (keeps_mode _ _) rfl
        · exact .refl _ _

theorem execKeyi_keeps (a0 : Nat) (a1 : Nat) (a2 : Nat) (a3 : Nat) (s : State) {t : State} (h : execKeyi a0 a1 a2 a3 s = .next t) : Keeps 62513895921913484 s t := by
  unfold execKeyi at h
  cases h
  refine .issue ?_ rfl (fun u320 a320 b320 => ?_)
  · exact .refl _ _
  · exact .app (.refl _ _) (State.keyWrite_keeps _ _ _ _ _) rfl

theorem execSnapPeriodic_keeps (s : State) {t : State} (h : execSnapPeriodic s = .next t) : Keeps 36028797018966540 s t := by
  unfold execSnapPeriodic at h
  cases h
  extract_lets x321_0 x321_1
  refine .ite (fun _ => ?_) (fun _ => ?_)
  · exact .refl _ _
  · exact .app (.app (.refl _ _) (keeps_tly _ _) rfl) (State.snapStart_keeps _) rfl

theorem State.pushFail_keeps (s : State) (a1 : Nat) : Keeps 281474976745484 s (@State.pushFail s a1) := by
  unfold State.pushFail
  extract_lets x322_0 x322_1 x322_2
  have hx322_0 : Keeps 281474976745484 s x322_0 := by
    unfold x322_0
    exact .app (.refl _ _) (State.failPush_keeps _ _) rfl
  refine .ite (fun _ => ?_) (fun _ => ?_)
  · exact .app hx322_0 (State.readSlots_keeps _) rfl
  · refine .ite (fun _ => ?_) (fun _ => ?_)
    · refine .upd (t := x322_0) ?_ (by intro p hp; cases p <;> first | exact absurd hp (by decide) | rfl) rfl rfl rfl rfl rfl rfl rfl rfl rfl
      exact hx322_0
    · exact hx322_0

theorem State.slotFail_keeps (s : State) (a1 : Bool) (a2 : Nat) : Keeps 4 s (@State.slotFail s a1 a2) := by
  unfold State.slotFail
  refine .ite (fun _ => ?_) (fun _ => ?_)
  · exact .app (.refl _ _) (State.setF_keeps _ _ _) rfl
  · exact .app (.refl _ _) (State.setF_keeps _ _ _) rfl

theorem State.slotResult_keeps (s : State) (a1 : Bool) (a2 : Nat) (a3 : Image) : Keeps 281474976710660 s (@State.slotResult s a1 a2 a3) := by
  unfold State.slotResult
  extract_lets x323_0 x323_1 x323_2
  have hx323_1 : Keeps 281474976710660 s x323_1 := by
    unfold x323_1
    refine .ite (fun _ => ?_) (fun _ => ?_)
    · exact .app (.refl _ _) (State.setF_keeps _ _ _) rfl
    · exact .app (.refl _ _) (State.setF_keeps _ _ _) rfl
  refine .ite (fun _ => ?_) (fun _ => ?_)
  · exact .app hx323_1 (keeps_load _ _) rfl
  · exact .app hx323_1 (keeps_load _ _) rfl

theorem State.programStart_keeps (s : State) (a1 : Nat) : Keeps 281474976710660 s (@State.programStart s a1) := by
  unfold State.programStart
  extract_lets x324_0 x324_1
  have hx324_1 : Keeps 281474976710660 s x324_1 := by
    unfold x324_1
    exact .app (.refl _ _) (keeps_load _ _) rfl
  refine .ite (fun _ => ?_) (fun _ => ?_)
  · exact hx324_1
  · exact .app hx324_1 (State.setF_keeps _ _ _) rfl

theorem execPushVerifyDone_keeps (a0 : ImageFile) (a1 : Option ImageFile) (s : State) {t : State} (h : execPushVerifyDone a0 a1 s = .next t) : Keeps 128352555544328764 s t := by
  unfold execPushVerifyDone at h
  cases h
  split
  · exact .refl _ _
  · extract_lets x325_0 x325_1 x325_2 x325_3 x325_4 x325_5
    have hx325_1 : Keeps 128352555544328764 s x325_1 := by
      unfold x325_1
      exact .app (.refl _ _) (keeps_load _ _) rfl
    have hx325_5 : Keeps 128352555544328764 s x325_5 := by
      unfold x325_5
      split
      · exact .app (.app hx325_1 (State.slotResult_keeps _ _ _ _) rfl) (State.slotFail_keeps _ _ _) rfl
      · exact hx325_1
    refine .ite (fun _ => ?_) (fun _ => ?_)
    · refine .ite (fun _ => ?_) (fun _ => ?_)
      · exact .app hx325_1 (State.pushRun_keeps _ _) rfl
      · exact .app hx325_1 (State.pushFail_keeps _ _) rfl
    · refine .ite (fun _ => ?_) (fun _ => ?_)
      · exact .app hx325_1 (State.failPush_keeps _ _) rfl
      · refine .ite (fun _ => ?_) (fun _ => ?_)
        · exact .app hx325_5 (State.programStart_keeps _ _) rfl
        · exact .app hx325_5 (State.failPush_keeps _ _) rfl

theorem State.rootWrite_keeps (s : State) (a1 : Nat) (a2 : Nat) (a3 : Bool) (a4 : Nat) : Keeps 62513895909854860 s (@State.rootWrite s a1 a2 a3 a4) := by
  unfold State.rootWrite
  extract_lets x326_0 x326_1 x326_2
  refine .ite (fun _ => ?_) (fun _ => ?_)
  · split
    · exact .app (.refl _ _) (State.setF_keeps _ _ _) rfl
    · refine .ite (fun _ => ?_) (fun _ => ?_)
      · unfold x326_1
        exact .app (.app (.refl _ _) (State.free_keeps rfl) rfl) (State.refuseWrite_keeps _ _ _) rfl
      · exact .app (.app (.refl _ _) (State.setF_keeps _ _ _) rfl) (State.jrnl_keeps _ _) rfl
    · unfold x326_1
      exact .app (.app (.refl _ _) (State.free_keeps rfl) rfl) (State.refuseWrite_keeps _ _ _) rfl
  · refine .ite (fun _ => ?_) (fun _ => ?_)
    · exact .app (.refl _ _) (State.setF_keeps _ _ _) rfl
    · unfold x326_1
      exact .app (.app (.refl _ _) (State.free_keeps rfl) rfl) (State.refuseWrite_keeps _ _ _) rfl

theorem State.secStart_keeps {s : State} {p etype : Nat} {r0 : Option SecTx} {t : State} (h : s.secStart p etype = some (r0, t)) :
    Keeps 536870916 s t := by
  unfold State.secStart at h
  split at h
  · cases h; exact .refl _ _
  · simp only at h
    split at h
    · cases h
    · simp only [Option.some.injEq, Prod.mk.injEq] at h
      obtain ⟨_, rfl⟩ := h
      refine .ite (fun _ => .app ?_ (State.orF_keeps _ _ _) rfl) (fun _ => ?_)
      all_goals
        exact .ite (fun _ => .app (.app (.refl _ _) (State.putSa_keeps _ _) rfl) (State.orF_keeps _ _ _) rfl)
          (fun _ => .app (.refl _ _) (State.putSa_keeps _ _) rfl)

theorem State.loadLocal_keeps (s : State) : Keeps 262144 s (@State.loadLocal s) := by
  unfold State.loadLocal
  extract_lets x327_0 x327_1 x327_2
  exact .app (.app (.refl _ _) (keeps_time _ _) rfl) (State.domsStart_keeps _) rfl

theorem execShortAscentPwrgood_keeps (s : State) {t : State} (h : execShortAscentPwrgood s = .next t) : Keeps 294912 s t := by
  unfold execShortAscentPwrgood at h
  cases h
  refine .ite (fun _ => ?_) (fun _ => ?_)
  · exact .app (.app (.refl _ _) (keeps_mode _ _) rfl) (State.loadLocal_keeps _) rfl
  · exact .refl _ _

theorem State.stageReg_keeps (s : State) (a1 : Nat) (a2 : Nat) : Keeps 62513895909854860 s (@State.stageReg s a1 a2) := by
  unfold State.stageReg
  refine .ite (fun _ => ?_) (fun _ => ?_)
  · exact .app (.refl _ _) (State.rootWrite_keeps _ _ _ _ _) rfl
  · refine .ite (fun _ => ?_) (fun _ => ?_)
    · extract_lets x328_0 x328_1
      refine .ite (fun _ => ?_) (fun _ => ?_)
      · exact .refl _ _
      · refine .ite (fun _ => ?_) (fun _ => ?_)
        · exact .app (.app (.refl _ _) (State.stageFields_keeps _ _ _) rfl) (State.minor_keeps _ _) rfl
        · exact .app (.refl _ _) (State.stageFields_keeps _ _ _) rfl
    · refine .ite (fun _ => ?_) (fun _ => ?_)
      · refine .ite (fun _ => ?_) (fun _ => ?_)
        · exact .app (.refl _ _) (State.stageFields_keeps _ _ _) rfl
        · exact .refl _ _
      · exact .app (.refl _ _) (State.stageFields_keeps _ _ _) rfl

theorem State.stageWrite_keeps (s : State) (a1 : Nat) (a2 : Nat) : Keeps 62513895909854860 s (@State.stageWrite s a1 a2) := by
  unfold State.stageWrite
  refine .ite (fun _ => ?_) (fun _ => ?_)
  · exact .app (.refl _ _) (keeps_heldLo _ _) rfl
  · refine .ite (fun _ => ?_) (fun _ => ?_)
    · split
      · exact .app (.app (.app (.refl _ _) (keeps_heldLo _ _) rfl) (State.stageReg_keeps _ _ _) rfl) (State.stageReg_keeps _ _ _) rfl
      · exact .app (.refl _ _) (State.stageReg_keeps _ _ _) rfl
    · exact .app (.refl _ _) (State.stageReg_keeps _ _ _) rfl

theorem State.applyHeld_keeps (s : State) (a1 : HeldWrite) : Keeps 62693116305182396 s (@State.applyHeld s a1) := by
  unfold State.applyHeld
  split
  · exact .app (.refl _ _) (State.bar2Word_keeps _ _ _) rfl
  · exact .app (.refl _ _) (State.dramWord_keeps _ _ _ _) rfl
  · exact .app (.refl _ _) (State.stageWrite_keeps _ _ _) rfl
  · exact .app (.refl _ _) (State.cmdStart_keeps _ _ _ _ _ _) rfl

theorem State.applyHelds_keeps (s : State) (a1 : List HeldWrite) : Keeps 62693116305182396 s (@State.applyHelds s a1) := by
  induction a1 generalizing s with
  | nil =>
    simp only [State.applyHelds]
    exact .refl _ _
  | cons b l ih =>
    simp only [State.applyHelds]
    refine .app (k := 62693116305182396) ?_ (ih _) rfl
    exact .app (.refl _ _) (State.applyHeld_keeps _ _) rfl

theorem State.migHold_keeps (s : State) (a1 : Option Nat) : Keeps 1125899906842624 s (@State.migHold s a1) := by
  unfold State.migHold
  exact .app (.refl _ _) (keeps_dramc _ _) rfl

theorem State.armAll_keeps (s : State) : Keeps 32772 s (@State.armAll s) := by
  unfold State.armAll
  extract_lets x329_0 x329_1 x329_2
  have hx329_0 : Keeps 32772 s x329_0 := by
    unfold x329_0
    refine .foldS ?_ (fun u330 a330 => ?_)
    · exact .refl _ _
    · exact .app (.refl _ _) (State.setB_keeps _ _ _) rfl
  exact .app hx329_0 (keeps_mode _ _) rfl

theorem State.saveEq_keeps (s : State) : Keeps 32768 s (@State.saveEq s) := by
  unfold State.saveEq
  exact .app (.refl _ _) (keeps_mode _ _) rfl

theorem State.bivouacHolds_keeps (s : State) : Keeps 1125899906875392 s (@State.bivouacHolds s) := by
  unfold State.bivouacHolds
  refine .upd (t := s) ?_ (by intro p hp; cases p <;> first | exact absurd hp (by decide) | rfl) rfl rfl rfl rfl rfl rfl rfl rfl rfl
  exact .refl _ _

theorem State.bivouac_keeps (s : State) : Keeps 144115188075839484 s (@State.bivouac s) := by
  unfold State.bivouac
  extract_lets x331_0 x331_1 x331_2 x331_3 x331_4
  have hx331_1 : Keeps 144115188075839484 s x331_1 := by
    unfold x331_1
    exact .app (.app (.app (.app (.refl _ _) (State.takeSnap_keeps _) rfl) (State.saveEq_keeps _) rfl) (State.armAll_keeps _) rfl) (State.migHold_keeps _ _) rfl
  have hx331_2 : Keeps 144115188075839484 s x331_2 := by
    unfold x331_2
    exact .app hx331_1 (State.rails_keeps _ _ _) rfl
  have hx331_3 : Keeps 144115188075839484 s x331_3 := by
    unfold x331_3
    exact .app (.app hx331_2 (State.enterMode_keeps _ _ _) rfl) (State.restart_keeps _ _) rfl
  have hx331_4 : Keeps 144115188075839484 s x331_4 := by
    unfold x331_4
    exact .app (.app hx331_3 (State.setF_keeps _ _ _) rfl) (State.bivouacHolds_keeps _) rfl
  refine .ite (fun _ => ?_) (fun _ => ?_)
  · exact .app hx331_4 (State.startShort_keeps _) rfl
  · exact hx331_4

theorem execParkDrained_keeps (s : State) {t : State} (h : execParkDrained s = .next t) : Keeps 144115188075839484 s t := by
  unfold execParkDrained at h
  cases h
  refine .ite (fun _ => ?_) (fun _ => ?_)
  · exact .app (.refl _ _) (State.bivouac_keeps _) rfl
  · exact .refl _ _

theorem State.ringShut_keeps (s : State) (a1 : Nat) : Keeps 4503599627371012 s (@State.ringShut s a1) := by
  unfold State.ringShut
  refine .ite (fun _ => ?_) (fun _ => ?_)
  · extract_lets x332_0
    have hx332_0 : Keeps 4503599627371012 s x332_0 := by
      unfold x332_0
      exact .app (.refl _ _) (State.setF_keeps _ _ _) rfl
    refine .ite (fun _ => ?_) (fun _ => ?_)
    · exact .app (.app hx332_0 (State.setF_keeps _ _ _) rfl) (State.ringStart_keeps _ _) rfl
    · exact hx332_0
  · exact .refl _ _

theorem State.shortLost_keeps (s : State) : Keeps 9288674231486476 s s.shortLost := by
  unfold State.shortLost
  refine .app (t := { s with mode := _, snap := none }) ⟨fun p hp => by cases p <;> first | exact absurd hp (by decide) | rfl,
      fun hc => ?_, List.suffix_refl _, Nat.le_refl _⟩ (State.readSlots_keeps _) rfl
  exact ⟨hc.1, hc.2.1, hc.2.2.1, hc.2.2.2.1, hc.2.2.2.2.1, hc.2.2.2.2.2.1, fun y hy => by cases hy⟩

theorem State.shortLoad_keeps (s : State) (a1 : Bool) : Keeps 45898872907282492 s (@State.shortLoad s a1) := by
  unfold State.shortLoad
  split
  · refine .ite (fun _ => ?_) (fun _ => ?_)
    · exact .app (.refl _ _) (State.loadRun_keeps _ _ _ _) rfl
    · exact .app (.refl _ _) (State.shortLost_keeps _) rfl
  · exact .app (.refl _ _) (State.shortLost_keeps _) rfl

theorem execShadowEnd_keeps (a0 : Nat) (s : State) {t : State} (h : execShadowEnd a0 s = .next t) : Keeps 65540 s t := by
  unfold execShadowEnd at h
  cases h
  split
  · split
    · refine .ite (fun _ => ?_) (fun _ => ?_)
      · extract_lets x333_0 x333_1 x333_2
        have hx333_2 : Keeps 65540 s x333_2 := by
          unfold x333_2
          exact .app (.refl _ _) (keeps_flt _ _) rfl
        exact .app (.app hx333_2 (State.groupIdle_keeps _ _) rfl) (State.setB_keeps _ _ _) rfl
      · exact .refl _ _
    · exact .refl _ _
  · exact .refl _ _

theorem State.sendResume_keeps (a0 : Nat) (s : State) (a2 : List (Nat × Nat)) : Keeps 2048 s (@State.sendResume a0 s a2) := by
  induction a0 generalizing s a2 with
  | zero =>
    simp only [State.sendResume]
    exact .refl _ _
  | succ n ih =>
    simp only [State.sendResume]
    refine .ite (fun _ => ?_) (fun _ => ?_)
    · exact .app (.refl _ _) (State.tellState_keeps _ _ _ _) rfl
    · refine .app (k := 2048) ?_ (ih _ _) rfl
      exact .app (.refl _ _) (State.tellState_keeps _ _ _ _) rfl

theorem execReqService_keeps (a0 : Nat) (a1 : Bool) (s : State) {t : State} (h : execReqService a0 a1 s = .next t) : Keeps 19140298416359436 s t := by
  unfold execReqService at h
  cases h
  exact .app (.refl _ _) (State.doReqService_keeps _ _ _) rfl

theorem execPmbusAlert_keeps (a0 : Nat) (a1 : Bool) (s : State) {t : State} (h : execPmbusAlert a0 a1 s = .next t) : Keeps 62513895909330572 s t := by
  unfold execPmbusAlert at h
  cases h
  refine .ite (fun _ => ?_) (fun _ => ?_)
  · extract_lets x334_0
    have hx334_0 : Keeps 62513895909330572 s x334_0 := by
      unfold x334_0
      exact .app (.refl _ _) (keeps_emit _ _) rfl
    refine .ite (fun _ => ?_) (fun _ => ?_)
    · exact .app hx334_0 (State.event_keeps _ _ _) rfl
    · exact hx334_0
  · exact .refl _ _

theorem Keeps.foldlPair {α β : Type} {m : Nat} {s : State} (f : State × β → α → State × β) (l : List α) (x : State × β)
    (h : Keeps m s x.1) (hf : ∀ y a, Keeps m y.1 (f y a).1) : Keeps m s (l.foldl f x).1 := by
  induction l generalizing x with
  | nil => exact h
  | cons a l ih => exact ih _ (h.app (hf x a) (Nat.and_self m))

theorem State.rankFails_keeps (failed : List Nat) (x : State × Bool) (f : Nat) : Keeps 38017573559384124 x.1 (State.rankFails failed x f).1 := by
  unfold State.rankFails
  extract_lets s spare
  refine .iteP (fun r : State × Bool => r.1) (fun _ => .refl _ _) (fun _ => .iteP (fun r : State × Bool => r.1) (fun _ => .refl _ _) (fun _ =>
    .iteP (fun r : State × Bool => r.1) (fun _ => .app (.refl _ _) (State.toSpare_keeps _ _) rfl) (fun _ => .refl _ _)))

theorem State.trained_keeps (s : State) (a1 : List Nat) : Keeps 38017573559384124 s (s.trained a1) := by
  unfold State.trained
  refine .ite (fun _ => .app (.refl _ _) (State.setF_keeps _ _ _) rfl) (fun _ => ?_)
  extract_lets r
  have hr : Keeps 38017573559384124 s r.1 :=
    .foldlPair _ _ _ (.refl _ _) (fun y a => .app (.refl _ _) (State.rankFails_keeps _ _ _) rfl)
  split
  · rename_i t _ _ _ _
    have ht : Keeps 38017573559384124 s t := by
      unfold t
      exact .app hr (State.setF_keeps _ _ _) rfl
    exact .app ht (keeps_dramc _ _) rfl
  · rename_i t _ _
    have ht : Keeps 38017573559384124 s t := by
      unfold t
      exact .app (.app hr (State.setF_keeps _ _ _) rfl) (State.setF_keeps _ _ _) rfl
    exact .app (.app ht (keeps_mode _ _) rfl) (State.readyLoad_keeps _) rfl

theorem State.marginsDone_keeps (s : State) : Keeps 62513895909330572 s s.marginsDone := by
  unfold State.marginsDone
  extract_lets up f worst lane core sram dram a low b c d e g p q r st v
  have ha : Keeps 62513895909330572 s a := .ite (fun _ => .refl _ _) (fun _ => .app (.refl _ _) (keeps_free s) rfl)
  clear_value a
  have hb : Keeps 62513895909330572 s b := .app ha (State.setF_keeps _ _ _) rfl
  clear_value b
  have hc : Keeps 62513895909330572 s c := .app hb (State.setF_keeps _ _ _) rfl
  clear_value c
  have hd : Keeps 62513895909330572 s d := .app hc (State.marginFlag_keeps _ _ _ _) rfl
  clear_value d
  have he : Keeps 62513895909330572 s e := .app hd (State.marginFlag_keeps _ _ _ _) rfl
  clear_value e
  have hg : Keeps 62513895909330572 s g := .app he (State.marginFlag_keeps _ _ _ _) rfl
  clear_value g
  have hq : Keeps 62513895909330572 s q := .app (.app hg (State.setF_keeps _ _ _) rfl) (State.marginFlag_keeps _ _ _ _) rfl
  clear_value q
  have hr : Keeps 62513895909330572 s r := .app hq (State.swapWorn_keeps _ _) rfl
  clear_value r
  have hv : Keeps 62513895909330572 s v := .app hr (State.cairn_keeps _ _ _ _ _) rfl
  clear_value v
  exact .app (.app (.app hv (State.count_keeps _ _ _) rfl) (State.setF_keeps _ _ _) rfl) (State.setF_keeps _ _ _) rfl

theorem State.takeLate_keeps (s : State) (a1 : Frame) : Keeps 117442572 s (@State.takeLate s a1) := by
  unfold State.takeLate
  extract_lets x335_0 x335_1 x335_2 x335_3 x335_4
  have hx335_4 : Keeps 117442572 s x335_4 := by
    unfold x335_4
    refine .ite (fun _ => ?_) (fun _ => ?_)
    · exact .refl _ _
    · exact .app (.app (.refl _ _) (State.uncharge_keeps _ _ _) rfl) (State.charge_keeps _ _ _) rfl
  clear_value x335_1
  split
  · exact .app (.app (.refl _ _) (State.freeAll_keeps _ _ _) rfl) (State.putFrame_keeps _ _) rfl
  · extract_lets x336_0 x336_1 x336_2 x336_3
    have hx336_0 : Keeps 117442572 s x336_0 := by
      unfold x336_0
      exact .app hx335_4 (State.charge_keeps _ _ _) rfl
    have hx336_3 : Keeps 117442572 s x336_3 := by
      unfold x336_3
      exact .app hx336_0 (keeps_buf _ _) rfl
    refine .foldl _ _ ?_ (fun u337 a337 => ?_)
    · exact hx336_3
    · extract_lets x338_0 x338_1
      have hx338_1 : Keeps 117442572 u337 x338_1 := by
        unfold x338_1
        exact .app (.refl _ _) (State.putCopy_keeps _ _) rfl
      refine .ite (fun _ => ?_) (fun _ => ?_)
      · exact .app hx338_1 (State.setF_keeps _ _ _) rfl
      · exact hx338_1

theorem State.learnEvent_keeps (s : State) (a1 : Frame) (a2 : LearnEv) : Keeps 70368744177668 s (@State.learnEvent s a1 a2) := by
  unfold State.learnEvent
  split
  · refine .ite (fun _ => ?_) (fun _ => ?_)
    · exact .app (.refl _ _) (State.count_keeps _ _ _) rfl
    · extract_lets x339_0
      split
      · refine .app ?_ (State.count_keeps _ _ _) rfl
        unfold x339_0
        exact .app (.refl _ _) (keeps_filt _ _) rfl
      · refine .ite (fun _ => ?_) (fun _ => ?_)
        · exact .app (.refl _ _) (State.count_keeps _ _ _) rfl
        · unfold x339_0
          exact .app (.refl _ _) (keeps_filt _ _) rfl
  · refine .ite (fun _ => ?_) (fun _ => ?_)
    · exact .app (.refl _ _) (State.count_keeps _ _ _) rfl
    · extract_lets x340_0
      exact .app (.app (.refl _ _) (keeps_filt _ _) rfl) (State.setF_keeps _ _ _) rfl

theorem State.presentLearn_keeps (s : State) (a1 : Frame) : Keeps 70368744177668 s (@State.presentLearn s a1) := by
  unfold State.presentLearn
  split
  · refine .ite (fun _ => ?_) (fun _ => ?_)
    · exact .app (.refl _ _) (State.learnEvent_keeps _ _ _) rfl
    · exact .refl _ _
  · exact .refl _ _

theorem State.goodEnd_keeps (s : State) (a1 : Frame) : Keeps 36099165880584204 s (@State.goodEnd s a1) := by
  unfold State.goodEnd
  split
  · extract_lets x341_0 x341_1
    have hx341_0 : Keeps 36099165880584204 s x341_0 := by
      unfold x341_0
      exact .app (.refl _ _) (State.countWhy_keeps _ _ _) rfl
    refine .ite (fun _ => ?_) (fun _ => ?_)
    · exact .app hx341_0 (State.delFrame_keeps _ _) rfl
    · exact .app (.app (.app (.app hx341_0 (State.putFrame_keeps _ _) rfl) (State.presentLearn_keeps _ _) rfl) (State.takeLate_keeps _ _) rfl) (State.settleFrame_keeps _ _) rfl
  · extract_lets x342_0 x342_1
    have hx342_0 : Keeps 36099165880584204 s x342_0 := by
      unfold x342_0
      exact .app (.refl _ _) (State.putFrame_keeps _ _) rfl
    have hx342_1 : Keeps 36099165880584204 s x342_1 := by
      unfold x342_1
      refine .ite (fun _ => ?_) (fun _ => ?_)
      · exact .app hx342_0 (State.presentLearn_keeps _ _) rfl
      · exact hx342_0
    refine .app ?_ (State.settleFrame_keeps _ _) rfl
    refine .ite (fun _ => ?_) (fun _ => ?_)
    · exact .app hx342_1 (State.takeLate_keeps _ _) rfl
    · exact hx342_1

theorem State.loseLook_keeps (s : State) (a1 : Look) : Keeps 36028797139552268 s (@State.loseLook s a1) := by
  unfold State.loseLook
  split
  · exact .app (.refl _ _) (State.dropFrame_keeps _ _ _) rfl
  · split
    · exact .app (.refl _ _) (State.dropCopy_keeps _ _ _) rfl
    · exact .refl _ _
  · split
    · exact .app (.refl _ _) (State.loseTarget_keeps _ _) rfl
    · exact .refl _ _

theorem State.ueUser_keeps (s : State) (a1 : DramUser) : Keeps 62513895909330572 s (@State.ueUser s a1) := by
  unfold State.ueUser
  split
  · exact .app (.app (.refl _ _) (State.count_keeps _ _ _) rfl) (State.loseLook_keeps _ _) rfl
  · exact .app (.refl _ _) (State.loseLook_keeps _ _) rfl
  · refine .ite (fun _ => ?_) (fun _ => ?_)
    · exact .app (.refl _ _) (State.event_keeps _ _ _) rfl
    · exact .refl _ _
  · exact .refl _ _
  · exact .refl _ _
  · exact .refl _ _
  · exact .refl _ _

theorem State.spareFails_keeps (s : State) (a1 : Nat) : Keeps 1125899906975756 s (@State.spareFails s a1) := by
  unfold State.spareFails
  extract_lets x343_0 x343_1 x343_2 x343_3
  have hx343_3 : Keeps 1125899906975756 s x343_3 := by
    unfold x343_3
    exact .app (.app (.refl _ _) (keeps_dramc _ _) rfl) (State.setF_keeps _ _ _) rfl
  refine .ite (fun _ => ?_) (fun _ => ?_)
  · exact .app (.app (.app hx343_3 (State.setF_keeps _ _ _) rfl) (State.dramCairn_keeps _ _ _) rfl) (State.migEnd_keeps _) rfl
  · exact .app hx343_3 (State.dramCairn_keeps _ _ _) rfl

theorem State.dramUe_keeps (s : State) (a1 : DramDone) (a2 : Nat) : Keeps 62513895909330572 s (@State.dramUe s a1 a2) := by
  unfold State.dramUe
  extract_lets x344_0 x344_1 x344_2 x344_3 x344_4
  have hx344_1 : Keeps 62513895909330572 s x344_1 := by
    unfold x344_1
    exact .app (.refl _ _) (State.count_keeps _ _ _) rfl
  have hx344_2 : Keeps 62513895909330572 s x344_2 := by
    unfold x344_2
    exact .app (.app (.app hx344_1 (State.setF_keeps _ _ _) rfl) (State.setF_keeps _ _ _) rfl) (State.setB_keeps _ _ _) rfl
  have hx344_3 : Keeps 62513895909330572 s x344_3 := by
    unfold x344_3
    exact .app (.app (.app hx344_2 (State.setF_keeps _ _ _) rfl) (State.setF_keeps _ _ _) rfl) (State.raiseDRC_keeps _ _) rfl
  have hx344_4 : Keeps 62513895909330572 s x344_4 := by
    unfold x344_4
    exact .app (.app hx344_3 (State.event_keeps _ _ _) rfl) (State.ueUser_keeps _ _) rfl
  refine .ite (fun _ => ?_) (fun _ => ?_)
  · exact hx344_4
  · refine .ite (fun _ => ?_) (fun _ => ?_)
    · exact .app hx344_4 (State.spareFails_keeps _ _) rfl
    · exact .app hx344_4 (State.retireRank_keeps _ _) rfl

theorem execDramRequestTimeout_keeps (a0 : DramDone) (s : State) {t : State} (h : execDramRequestTimeout a0 s = .next t) : Keeps 62513895909330572 s t := by
  unfold execDramRequestTimeout at h
  cases h
  refine .ite (fun _ => ?_) (fun _ => ?_)
  · exact .app (.refl _ _) (State.dramUe_keeps _ _ _) rfl
  · exact .refl _ _

theorem execStamp_keeps (a0 : Nat) (a1 : Nat) (s : State) {t : State} (h : execStamp a0 a1 s = .next t) : Keeps 62513895921913484 s t := by
  unfold execStamp at h
  cases h
  refine .issue ?_ rfl (fun u345 a345 b345 => ?_)
  · exact .refl _ _
  · extract_lets x346_0
    have hx346_0 : Keeps 62513895921913484 u345 x346_0 := by
      unfold x346_0
      exact .app (.refl _ _) (State.putThread_keeps _ _) rfl
    split
    · refine .ite (fun _ => ?_) (fun _ => ?_)
      · exact hx346_0
      · exact .app hx346_0 (State.putFrame_keeps _ _) rfl
    · exact hx346_0

theorem Keeps.wake {m : Nat} {s t : State} {f : State → State} (h : Keeps m s t) (hm : 19703248369780748 &&& m = 19703248369780748)
    (hf : ∀ u, Keeps m u (f u)) : Keeps m s (t.wake f) := by
  have up : ∀ {k : Nat}, k &&& 19703248369780748 = k → k &&& m = k := fun {k} hk => by rw [← hk, Nat.and_assoc, hm]
  have hft : Keeps m s (f t) := h.app (hf t) (Nat.and_self m)
  unfold State.wake
  exact .ite (fun _ => h) (fun _ => .ite (fun _ => hft.app (State.startShort_keeps _) (up rfl)) (fun _ =>
    .ite (fun _ => hft.app (keeps_mode _ _) (up rfl)) (fun _ => .ite (fun _ => hft) (fun _ => h))))

theorem State.i2cWake_keeps (s : State) (a1 : Nat) : Keeps 19703248369780748 s (@State.i2cWake s a1) := by
  unfold State.i2cWake
  refine .ite (fun _ => ?_) (fun _ => ?_)
  · refine .wake ?_ rfl (fun u347 => ?_)
    · exact .refl _ _
    · exact .app (.refl _ _) (State.setF_keeps _ _ _) rfl
  · exact .refl _ _

theorem State.i2cTake_keeps (s : State) (a1 : Nat) (a2 : List Byte) : Keeps 144115188075839484 s (@State.i2cTake s a1 a2) := by
  unfold State.i2cTake
  refine .ite (fun _ => ?_) (fun _ => ?_)
  · refine .ite (fun _ => ?_) (fun _ => ?_)
    · exact .refl _ _
    · exact .app (.refl _ _) (State.modeReq_keeps _ _ _) rfl
  · refine .ite (fun _ => ?_) (fun _ => ?_)
    · exact .app (.refl _ _) (State.i2cWake_keeps _ _) rfl
    · exact .refl _ _

theorem execI2cWrite_keeps (a0 : Nat) (a1 : List Byte) (s : State) {t : State} (h : execI2cWrite a0 a1 s = .next t) : Keeps 144115188075839484 s t := by
  unfold execI2cWrite at h
  cases h
  refine .ite (fun _ => ?_) (fun _ => ?_)
  · exact .refl _ _
  · exact .app (.refl _ _) (State.i2cTake_keeps _ _ _) rfl

theorem execVerifyTimeout_keeps (a0 : Nat) (s : State) {t : State} (h : execVerifyTimeout a0 s = .next t) : Keeps 134219780 s t := by
  unfold execVerifyTimeout at h
  cases h
  split
  · refine .ite (fun _ => ?_) (fun _ => ?_)
    · refine .ite (fun _ => ?_) (fun _ => ?_)
      · exact .app (.app (.refl _ _) (State.setF_keeps _ _ _) rfl) (State.updPort_keeps _ _ _) rfl
      · exact .app (.app (.refl _ _) (State.macSend_keeps _ _ _ _) rfl) (State.updPort_keeps _ _ _) rfl
    · exact .refl _ _
  · exact .refl _ _

theorem execBeadFree_keeps (a0 : Nat) (a1 : Nat) (a2 : Look) (s : State) {t : State} (h : execBeadFree a0 a1 a2 s = .next t) : Keeps 62513895909330572 s t := by
  unfold execBeadFree at h
  cases h
  extract_lets x348_0 x348_1 x348_2
  have hx348_1 : Keeps 62513895909330572 s x348_1 := by
    unfold x348_1
    exact .app (.app (.app (.refl _ _) (State.count_keeps _ _ _) rfl) (State.refuseBead_keeps _ _ _ _ _) rfl) (State.raiseBPM_keeps _ _) rfl
  refine .ite (fun _ => ?_) (fun _ => ?_)
  · exact .app (.app hx348_1 (State.loseTarget_keeps _ _) rfl) (State.event_keeps _ _ _) rfl
  · refine .app ?_ (State.raiseFrees_keeps _) rfl
    refine .app ?_ (State.freeAs_keeps _ _ _) rfl
    refine .ite (fun _ => ?_) (fun _ => ?_)
    · exact .app (.refl _ _) (State.copyFrees_keeps _ _ _ _) rfl
    · exact .refl _ _

theorem State.rewriteEnd_keeps (s : State) (a1 : Frame) (a2 : Copy) : Keeps 657459212 s (@State.rewriteEnd s a1 a2) := by
  unfold State.rewriteEnd
  extract_lets x349_0 x349_1 x349_2
  have hx349_2 : Keeps 657459212 s x349_2 := by
    unfold x349_2
    exact .app (.refl _ _) (State.maxF_keeps _ _ _) rfl
  split
  · exact .app hx349_2 (State.dropCopy_keeps _ _ _) rfl
  · exact .app (.app (.app hx349_2 (State.secStart_keeps (by assumption)) rfl) (State.putCopy_keeps _ _) rfl) (State.endThreads_keeps _ _) rfl

theorem execDone_keeps (a0 : Nat) (a1 : Nat) (s : State) {t : State} (h : execDone a0 a1 s = .next t) : Keeps 62513896458784396 s t := by
  unfold execDone at h
  cases h
  refine .issue ?_ rfl (fun u350 a350 b350 => ?_)
  · exact .refl _ _
  · extract_lets x351_0
    have hx351_0 : Keeps 62513896458784396 u350 x351_0 := by
      unfold x351_0
      exact .app (.refl _ _) (State.endSamples_keeps _ _ _) rfl
    split
    · split
      · exact .app hx351_0 (State.endParse_keeps _ _) rfl
      · exact .app hx351_0 (State.endThreads_keeps _ _) rfl
    · split
      · exact .app hx351_0 (State.rewriteEnd_keeps _ _ _) rfl
      · exact .app hx351_0 (State.endThreads_keeps _ _) rfl
    · exact .app hx351_0 (keeps_threads _ _) rfl

theorem State.migResume_keeps (s : State) : Keeps 1125899906975756 s (@State.migResume s) := by
  unfold State.migResume
  split
  · exact .app (.app (.refl _ _) (keeps_dramc _ _) rfl) (State.retireRank_keeps _ _) rfl
  · exact .refl _ _

theorem State.ageEntries_keeps (s : State) (a1 : List Nat) : Keeps 16 s (@State.ageEntries s a1) := by
  induction a1 generalizing s with
  | nil =>
    simp only [State.ageEntries]
    exact .refl _ _
  | cons b l ih =>
    simp only [State.ageEntries]
    refine .app (k := 16) ?_ (ih _) rfl
    exact .app (.refl _ _) (keeps_wrMem _ _ _) rfl

theorem State.repairRows_keeps (s : State) (a1 : List Nat) : Keeps 16 s (@State.repairRows s a1) := by
  induction a1 generalizing s with
  | nil =>
    simp only [State.repairRows]
    exact .refl _ _
  | cons b l ih =>
    simp only [State.repairRows]
    refine .app (k := 16) ?_ (ih _) rfl
    refine .ite (fun _ => ?_) (fun _ => ?_)
    · exact .app (.app (.refl _ _) (State.repairRow_keeps _ _) rfl) (State.repairRow_keeps _ _) rfl
    · exact .app (.refl _ _) (State.repairRow_keeps _ _) rfl

theorem putCells_wf (x q : Nat) (m l : List Host.Cell) (h : Memory.wf m = true) : Memory.wf (putCells x q m l) = true := by
  induction l generalizing m with
  | nil => exact h
  | cons e l ih => exact ih _ (writeBytes_wf _ _ _ h)

theorem State.copyQuad_wf (s : State) (x q : Nat) (m : List Host.Cell) (h : Memory.wf m = true) : Memory.wf (s.copyQuad x q m) = true :=
  putCells_wf _ _ _ _ (swf_filter _ _ _ h)

theorem State.reloadQuad_keeps (s : State) (q : Nat) : Keeps 3298534883344 s (s.reloadQuad q) := by
  unfold State.reloadQuad
  refine .app ?_ (State.repairRows_keeps _ _) rfl
  split
  · exact .refl _ _
  · extract_lets u
    have hu : Keeps 3298534883344 s u :=
      ⟨by intro p hp; cases p <;> first | exact absurd hp (by decide) | rfl, fun h => ⟨h.1, h.2.1, State.copyQuad_wf _ _ _ _ h.2.2.1,
        h.2.2.2.1, h.2.2.2.2.1, State.copyQuad_wf _ _ _ _ h.2.2.2.2.2.1, h.2.2.2.2.2.2⟩, List.suffix_refl _, Nat.le_refl _⟩
    exact .app hu (State.ageEntries_keeps _ _) rfl

theorem execReqResume_keeps (a0 : Nat) (a1 : Bool) (s : State) {t : State} (h : execReqResume a0 a1 s = .next t) : Keeps 19703248369911820 s t := by
  unfold execReqResume at h
  cases h
  exact .app (.refl _ _) (State.doReqResume_keeps _ _ _) rfl

theorem State.resumeNow_keeps (s : State) : Keeps 562949953554444 s (@State.resumeNow s) := by
  unfold State.resumeNow
  extract_lets x352_0 x352_1 x352_2 x352_3
  have hx352_0 : Keeps 562949953554444 s x352_0 := by
    unfold x352_0
    exact .app (.refl _ _) (State.sendResume_keeps _ _ _) rfl
  have hx352_2 : Keeps 562949953554444 s x352_2 := by
    unfold x352_2
    exact .app hx352_0 (keeps_rope _ _) rfl
  refine .ite (fun _ => ?_) (fun _ => ?_)
  · exact .app (.app hx352_2 (keeps_rope _ _) rfl) (State.setTwin_keeps _ _ _) rfl
  · exact hx352_2

theorem execDescOtpBurn_keeps (s : State) {t : State} (h : execDescOtpBurn s = .next t) : Keeps 149516 s t := by
  unfold execDescOtpBurn at h
  cases h
  exact .app (.refl _ _) (State.doDescOtpBurn_keeps _) rfl

theorem execCairnExport_keeps (s : State) {t : State} (h : execCairnExport s = .next t) : Keeps 131588 s t := by
  unfold execCairnExport at h
  cases h
  exact .app (.refl _ _) (State.doCairnExport_keeps _) rfl

theorem execGateCancel_keeps (a0 : GateId) (s : State) {t : State} (h : execGateCancel a0 s = .next t) : Keeps 4294967300 s t := by
  unfold execGateCancel at h
  cases h
  exact .app (.refl _ _) (State.doGateCancel_keeps _ _) rfl

theorem State.rewriteStep_keeps (s : State) (a1 : Frame) (a2 : Copy) : Keeps 657459212 s (@State.rewriteStep s a1 a2) := by
  unfold State.rewriteStep
  extract_lets x353_0
  have hx353_0 : Keeps 657459212 s x353_0 := by
    unfold x353_0
    exact .app (.refl _ _) (State.rewriteGo_keeps _ _ _) rfl
  split
  · refine .ite (fun _ => ?_) (fun _ => ?_)
    · exact .app hx353_0 (State.rewriteEnd_keeps _ _ _) rfl
    · exact hx353_0
  · exact hx353_0

theorem execWaitSatisfied_keeps (a0 : Nat) (a1 : Nat) (s : State) {t : State} (h : execWaitSatisfied a0 a1 s = .next t) : Keeps 661653516 s t := by
  unfold execWaitSatisfied at h
  cases h
  split
  · exact .refl _ _
  · split
    · exact .refl _ _
    · split
      · exact .refl _ _
      · extract_lets x354_0 x354_1
        have hx354_0 : Keeps 661653516 s x354_0 := by
          unfold x354_0
          exact .app (.refl _ _) (State.putThread_keeps _ _) rfl
        have hx354_1 : Keeps 661653516 s x354_1 := by
          unfold x354_1
          refine .ite (fun _ => ?_) (fun _ => ?_)
          · exact .app hx354_0 (State.evtM_keeps _ _ _ _ _ _ _) rfl
          · exact hx354_0
        split
        · split
          · refine .ite (fun _ => ?_) (fun _ => ?_)
            · exact .app hx354_1 (State.rewriteStep_keeps _ _ _) rfl
            · exact hx354_1
          · exact hx354_1
        · exact hx354_1

theorem execWakeDetector_keeps (a0 : WakeHeard) (s : State) {t : State} (h : execWakeDetector a0 s = .next t) : Keeps 19703248369780748 s t := by
  unfold execWakeDetector at h
  cases h
  refine .ite (fun _ => ?_) (fun _ => ?_)
  · exact .refl _ _
  · refine .ite (fun _ => ?_) (fun _ => ?_)
    · refine .ite (fun _ => ?_) (fun _ => ?_)
      · refine .wake ?_ rfl (fun u355 => ?_)
        · exact .refl _ _
        · exact .app (.refl _ _) (State.orF_keeps _ _ _) rfl
      · exact .refl _ _
    · split
      · refine .ite (fun _ => ?_) (fun _ => ?_)
        · exact .refl _ _
        · exact .app (.refl _ _) (State.portTally_keeps _ _ _ _) rfl
      · exact .refl _ _

theorem execWakeBurstEnd_keeps (a0 : Nat) (s : State) {t : State} (h : execWakeBurstEnd a0 s = .next t) : Keeps 134217732 s t := by
  unfold execWakeBurstEnd at h
  cases h
  split
  · refine .ite (fun _ => ?_) (fun _ => ?_)
    · exact .app (.app (.refl _ _) (State.setF_keeps _ _ _) rfl) (State.updPort_keeps _ _ _) rfl
    · exact .refl _ _
  · exact .refl _ _

theorem execCall_keeps (a0 : Nat) (a1 : Nat) (a2 : Nat) (s : State) {t : State} (h : execCall a0 a1 a2 s = .next t) : Keeps 62513895921913484 s t := by
  unfold execCall at h
  cases h
  refine .issue ?_ rfl (fun u356 a356 b356 => ?_)
  · exact .refl _ _
  · refine .ite (fun _ => ?_) (fun _ => ?_)
    · exact .app (.refl _ _) (State.abort_keeps _ _ _ _) rfl
    · exact .app (.refl _ _) (State.putThread_keeps _ _) rfl

theorem State.releaseHeld_keeps (s : State) : Keeps 62693116305182396 s (@State.releaseHeld s) := by
  unfold State.releaseHeld
  exact .app (.app (.refl _ _) (keeps_gens _ _) rfl) (State.applyHelds_keeps _ _) rfl

theorem execDiscardComplete_keeps (s : State) {t : State} (h : execDiscardComplete s = .next t) : Keeps 62693116305182396 s t := by
  unfold execDiscardComplete at h
  cases h
  refine .ite (fun _ => ?_) (fun _ => ?_)
  · extract_lets x357_0 x357_1 x357_2 x357_3 x357_4
    have hx357_0 : Keeps 62693116305182396 s x357_0 := by
      unfold x357_0
      exact .app (.refl _ _) (State.recMaps_keeps _ _ _) rfl
    have hx357_2 : Keeps 62693116305182396 s x357_2 := by
      unfold x357_2
      exact .app hx357_0 (State.unstageAll_keeps _ _) rfl
    have hx357_4 : Keeps 62693116305182396 s x357_4 := by
      unfold x357_4
      refine .upd (t := x357_2) ?_ (by intro p hp; cases p <;> first | exact absurd hp (by decide) | rfl) rfl rfl rfl rfl rfl rfl rfl rfl rfl
      exact hx357_2
    exact .app (.app (.app hx357_4 (State.setF_keeps _ _ _) rfl) (State.setF_keeps _ _ _) rfl) (State.releaseHeld_keeps _) rfl
  · exact .refl _ _

theorem State.assist_keeps (s : State) (a1 : Margins) : Keeps 4 s (@State.assist s a1) := by
  unfold State.assist
  extract_lets x358_0 x358_1 x358_2
  refine .ite (fun _ => ?_) (fun _ => ?_)
  · exact .app (.app (.refl _ _) (State.setF_keeps _ _ _) rfl) (State.setF_keeps _ _ _) rfl
  · refine .ite (fun _ => ?_) (fun _ => ?_)
    · exact .app (.app (.refl _ _) (State.setF_keeps _ _ _) rfl) (State.setF_keeps _ _ _) rfl
    · refine .ite (fun _ => ?_) (fun _ => ?_)
      · exact .app (.app (.refl _ _) (State.setF_keeps _ _ _) rfl) (State.setF_keeps _ _ _) rfl
      · refine .ite (fun _ => ?_) (fun _ => ?_)
        · exact .app (.app (.refl _ _) (State.setF_keeps _ _ _) rfl) (State.setF_keeps _ _ _) rfl
        · exact .app (.refl _ _) (State.setF_keeps _ _ _) rfl

theorem State.readMax_keeps (s : State) (a1 : Nat) : Keeps 4 s (@State.readMax s a1) := by
  unfold State.readMax
  refine .ite (fun _ => ?_) (fun _ => ?_)
  · exact .app (.refl _ _) (State.setTally_keeps _ _ _ _) rfl
  · exact .refl _ _

theorem State.readClears_keeps (s : State) (a1 : Nat) (a2 : Nat) : Keeps 4 s (@State.readClears s a1 a2) := by
  unfold State.readClears
  extract_lets x359_0
  refine .ite (fun _ => ?_) (fun _ => ?_)
  · exact .app (.refl _ _) (keeps_wr _ _ _) rfl
  · exact .refl _ _

theorem State.readReg_keeps (s : State) (a1 : Nat) (a2 : Nat) : Keeps 62513895909592780 s (@State.readReg s a1 a2) := by
  unfold State.readReg
  refine .ite (fun _ => ?_) (fun _ => ?_)
  · exact .app (.app (.refl _ _) (keeps_readData _ _) rfl) (State.minor_keeps _ _) rfl
  · refine .ite (fun _ => ?_) (fun _ => ?_)
    · exact .app (.refl _ _) (State.doCairnWindowRead_keeps _ _) rfl
    · refine .ite (fun _ => ?_) (fun _ => ?_)
      · exact .app (.refl _ _) (State.doTsFifoPop_keeps _ _) rfl
      · refine .ite (fun _ => ?_) (fun _ => ?_)
        · exact .app (.refl _ _) (keeps_readData _ _) rfl
        · exact .app (.app (.app (.app (.refl _ _) (keeps_readData _ _) rfl) (State.latchHi_keeps _ _) rfl) (State.readClears_keeps _ _ _) rfl) (State.readMax_keeps _ _) rfl

theorem State.exportSlots_keeps (a0 : Nat) (s : State) : Keeps 133124 s (@State.exportSlots a0 s) := by
  induction a0 generalizing s with
  | zero =>
    simp only [State.exportSlots]
    exact .refl _ _
  | succ n ih =>
    simp only [State.exportSlots]
    refine .ite (fun _ => ?_) (fun _ => ?_)
    · refine .app (k := 133124) ?_ (ih _) rfl
      refine .app ?_ (State.setF_keeps _ _ _) rfl
      refine .app ?_ (keeps_crn _ _ rfl) rfl
      refine .ite (fun _ => ?_) (fun _ => ?_)
      · exact .app (.app (.refl _ _) (keeps_emit _ _) rfl) (State.count_keeps _ _ _) rfl
      · exact .app (.refl _ _) (keeps_emit _ _) rfl
    · exact .refl _ _

theorem execCairnExportDone_keeps (s : State) {t : State} (h : execCairnExportDone s = .next t) : Keeps 133132 s t := by
  unfold execCairnExportDone at h
  cases h
  refine .ite (fun _ => ?_) (fun _ => ?_)
  · exact .app (.app (.refl _ _) (State.exportSlots_keeps _ _) rfl) (State.exportEnds_keeps _) rfl
  · exact .refl _ _

theorem State.doorbell_keeps (s : State) (a1 : Nat) (a2 : Nat) : Keeps 62513895909330572 s (@State.doorbell s a1 a2) := by
  unfold State.doorbell
  refine .ite (fun _ => ?_) (fun _ => ?_)
  · exact .app (.refl _ _) (State.minor_keeps _ _) rfl
  · exact .app (.refl _ _) (keeps_wr4 _ _ _) rfl

theorem execDmaTransferDone_keeps (a0 : Nat) (s : State) {t : State} (h : execDmaTransferDone a0 s = .next t) : Keeps 62657931933093564 s t := by
  unfold execDmaTransferDone at h
  cases h
  split
  · exact .refl _ _
  · refine .ite (fun _ => ?_) (fun _ => ?_)
    · exact .refl _ _
    · extract_lets x360_0 x360_1 x360_2 x360_3 x360_4
      have hx360_1 : Keeps 62657931933093564 s x360_1 := by
        unfold x360_1
        exact .app (.refl _ _) (State.setF_keeps _ _ _) rfl
      have hx360_4 : Keeps 62657931933093564 s x360_4 := by
        unfold x360_4
        refine .ite (fun _ => ?_) (fun _ => ?_)
        · exact hx360_1
        · refine .ite (fun _ => ?_) (fun _ => ?_)
          · exact .app hx360_1 (keeps_emit _ _) rfl
          · refine .ite (fun _ => ?_) (fun _ => ?_)
            · refine .ite (fun _ => ?_) (fun _ => ?_)
              · refine .app ?_ (State.setF_keeps _ _ _) rfl
                unfold x360_3
                exact .app hx360_1 (State.dmaBar2_keeps rfl) rfl
              · unfold x360_3
                exact .app hx360_1 (State.dmaBar2_keeps rfl) rfl
            · exact .app hx360_1 (State.dramWrite_keeps _ _ _ _) rfl
      exact .app hx360_4 (State.dmaEnd_keeps _ _) rfl

theorem State.lateSdu_keeps (s : State) (a1 : Nat) (a2 : Nat) : Keeps 36029003297982492 s (@State.lateSdu s a1 a2) := by
  unfold State.lateSdu
  split
  · split
    · extract_lets x361_0 x361_1
      have hx361_1 : Keeps 36029003297982492 s x361_1 := by
        unfold x361_1
        exact .app (.app (.refl _ _) (State.dropFrame_keeps _ _ _) rfl) (State.strmTally_keeps _ _ _) rfl
      refine .ite (fun _ => ?_) (fun _ => ?_)
      · refine .ite (fun _ => ?_) (fun _ => ?_)
        · exact .app hx361_1 (State.blockFilter_keeps _ _) rfl
        · exact hx361_1
      · exact .refl _ _
    · exact .refl _ _
  · exact .refl _ _

theorem State.sweepOn_keeps (s : State) (a1 : Nat) (a2 : Nat) : Keeps 72057594037927936 s (@State.sweepOn s a1 a2) := by
  unfold State.sweepOn
  extract_lets x362_0 x362_1 x362_2
  exact .app (.refl _ _) (keeps_fwd _ _) rfl

theorem State.postLearn_keeps (s : State) (a1 : List Byte) : Keeps 72057594037929996 s (@State.postLearn s a1) := by
  unfold State.postLearn
  refine .ite (fun _ => ?_) (fun _ => ?_)
  · exact .app (.refl _ _) (State.writeLearn_keeps _ _) rfl
  · exact .app (.app (.refl _ _) (keeps_fwd _ _) rfl) (State.learnFlush_keeps _) rfl

theorem State.ageVisit_keeps (s : State) (a1 : Nat) (a2 : Nat) : Keeps 73183493945296956 s (@State.ageVisit s a1 a2) := by
  unfold State.ageVisit
  extract_lets x363_0 x363_1 x363_2 x363_3 x363_4 x363_5 x363_6 x363_7
  have hx363_6 : Keeps 73183493945296956 s x363_6 := by
    unfold x363_6
    exact .app (.app (.refl _ _) (State.wrAll_keeps _ _ _ _) rfl) (State.jrnl_keeps _ _) rfl
  have hx363_7 : Keeps 73183493945296956 s x363_7 := by
    unfold x363_7
    exact .app hx363_6 (State.postLearn_keeps _ _) rfl
  refine .ite (fun _ => ?_) (fun _ => ?_)
  · exact .refl _ _
  · refine .ite (fun _ => ?_) (fun _ => ?_)
    · exact .app (.refl _ _) (keeps_wrMem _ _ _) rfl
    · refine .ite (fun _ => ?_) (fun _ => ?_)
      · exact .app (.refl _ _) (State.raiseFWD_keeps _ _) rfl
      · exact .app hx363_7 (State.count_keeps _ _ _) rfl

theorem execAgeingVisit_keeps (a0 : Nat) (a1 : Nat) (s : State) {t : State} (h : execAgeingVisit a0 a1 s = .next t) : Keeps 73183493945296956 s t := by
  unfold execAgeingVisit at h
  cases h
  extract_lets x364_0
  refine .ite (fun _ => ?_) (fun _ => ?_)
  · exact .refl _ _
  · exact .app (.app (.refl _ _) (State.ageVisit_keeps _ _ _) rfl) (State.sweepOn_keeps _ _ _) rfl

theorem execRepl_keeps (a0 : Nat) (a1 : Nat) (a2 : Nat) (a3 : Nat) (a4 : Nat) (s : State) {t : State} (h : execRepl a0 a1 a2 a3 a4 s = .next t) : Keeps 62513895921913484 s t := by
  unfold execRepl at h
  cases h
  refine .issue ?_ rfl (fun u365 a365 b365 => ?_)
  · exact .refl _ _
  · extract_lets x366_0 x366_1
    refine .app ?_ (State.edit_keeps _ _ _ _) rfl
    unfold x366_0
    exact .app (.refl _ _) (State.keyBytes_keeps rfl) rfl

theorem execBeadQuarantineEnd_keeps (a0 : Nat) (s : State) {t : State} (h : execBeadQuarantineEnd a0 s = .next t) : Keeps 67110924 s t := by
  unfold execBeadQuarantineEnd at h
  cases h
  split
  · refine .ite (fun _ => ?_) (fun _ => ?_)
    · exact .refl _ _
    · extract_lets x367_0 x367_1
      have hx367_1 : Keeps 67110924 s x367_1 := by
        unfold x367_1
        exact .app (.refl _ _) (keeps_buf _ _) rfl
      refine .app ?_ (State.uncharge_keeps _ _ _) rfl
      refine .ite (fun _ => ?_) (fun _ => ?_)
      · exact .app hx367_1 (State.setF_keeps _ _ _) rfl
      · exact hx367_1
  · exact .refl _ _

theorem State.coldReset_keeps (s : State) (a1 : Bool) : Keeps 144115188075838460 s (s.coldReset a1) := by
  unfold State.coldReset
  extract_lets cycle t m t1 t2
  have ht : Keeps 144115188075838460 s t := by
    unfold t
    exact .ite (fun _ => .app (.refl _ _) (State.setF_keeps _ _ _) rfl) (fun _ => .refl _ _)
  have ht1 : Keeps 144115188075838460 s t1 := by
    unfold t1
    exact .app (.app ht (State.enterMode_keeps _ _ _) rfl) (State.restart_keeps _ _) rfl
  have ht2 : Keeps 144115188075838460 s t2 := by
    unfold t2
    exact .app (.app ht1 (State.setF_keeps _ _ _) rfl) (State.resetCause_keeps _ _ _) rfl
  have h3 : Keeps 144115188075838460 s { t2.refreshRules with out := s.out } := .outBack (.app ht2 (State.refreshRules_keeps _) rfl) rfl
  exact h3.upd (by intro p hp; cases p <;> first | exact absurd hp (by decide) | rfl) rfl rfl rfl rfl rfl rfl rfl rfl rfl

theorem execPwrgoodFall_keeps (s : State) {t : State} (h : execPwrgoodFall s = .next t) : Keeps 144115188075838460 s t := by
  unfold execPwrgoodFall at h
  cases h
  refine .ite (fun _ => ?_) (fun _ => ?_)
  · exact .refl _ _
  · extract_lets x368_0 x368_1
    have hx368_0 : Keeps 144115188075838460 s x368_0 := by
      unfold x368_0
      exact .app (.refl _ _) (State.coldReset_keeps _ _) rfl
    exact .app hx368_0 (keeps_mode _ _) rfl

theorem execPpsOutRise_keeps (s : State) {t : State} (h : execPpsOutRise s = .next t) : Keeps 264192 s t := by
  unfold execPpsOutRise at h
  cases h
  split
  · refine .ite (fun _ => ?_) (fun _ => ?_)
    · extract_lets x369_0 x369_1 x369_2 x369_3
      have hx369_1 : Keeps 264192 s x369_1 := by
        unfold x369_1
        exact .app (.refl _ _) (State.ppsArm_keeps _) rfl
      have hx369_2 : Keeps 264192 s x369_2 := by
        unfold x369_2
        exact .app hx369_1 (keeps_emit _ _) rfl
      refine .ite (fun _ => ?_) (fun _ => ?_)
      · exact hx369_1
      · exact .app hx369_2 (keeps_time _ _) rfl
    · exact .refl _ _
  · exact .app (.refl _ _) (State.ppsArm_keeps _) rfl

theorem State.listFrame_keeps (s : State) (a1 : Frame) (a2 : List CopyReq) : Keeps 83888140 s (@State.listFrame s a1 a2) := by
  unfold State.listFrame
  refine .ite (fun _ => ?_) (fun _ => ?_)
  · exact .app (.app (.app (.refl _ _) (State.freeAll_keeps _ _ _) rfl) (State.putFrame_keeps _ _) rfl) (State.settleFrame_keeps _ _) rfl
  · exact .app (.refl _ _) (State.putFrame_keeps _ _) rfl

theorem State.ruleDrop_keeps (s : State) (a1 : Frame) (a2 : Nat) (a3 : Bool) : Keeps 36028797102852108 s (@State.ruleDrop s a1 a2 a3) := by
  unfold State.ruleDrop
  extract_lets x370_0 x370_1
  refine .app ?_ (State.listFrame_keeps _ _ _) rfl
  unfold x370_1
  exact .app (.refl _ _) (State.noteWhy_keeps rfl) rfl

theorem State.unmask_keeps (s : State) (a1 : Nat) : Keeps 2056 s (@State.unmask s a1) := by
  unfold State.unmask
  extract_lets x371_0 x371_1
  have hx371_1 : Keeps 2056 s x371_1 := by
    unfold x371_1
    exact .app (.refl _ _) (keeps_wr4 _ _ _) rfl
  refine .ite (fun _ => ?_) (fun _ => ?_)
  · exact .app (.app hx371_1 (keeps_wr4 _ _ _) rfl) (keeps_emit _ _) rfl
  · exact hx371_1

theorem execMsixUnmask_keeps (a0 : Nat) (s : State) {t : State} (h : execMsixUnmask a0 s = .next t) : Keeps 2056 s t := by
  unfold execMsixUnmask at h
  cases h
  refine .ite (fun _ => ?_) (fun _ => ?_)
  · exact .refl _ _
  · exact .app (.refl _ _) (State.unmask_keeps _ _) rfl

theorem execHoldFlushComplete_keeps (a0 : Nat) (s : State) {t : State} (h : execHoldFlushComplete a0 s = .next t) : Keeps 120588300 s t := by
  unfold execHoldFlushComplete at h
  cases h
  refine .ite (fun _ => ?_) (fun _ => ?_)
  · exact .app (.app (.refl _ _) (State.flushPort_keeps _ _ _) rfl) (State.setF_keeps _ _ _) rfl
  · exact .refl _ _

theorem execWckOscRead_keeps (a0 : Nat) (s : State) {t : State} (h : execWckOscRead a0 s = .next t) : Keeps 2048 s t := by
  unfold execWckOscRead at h
  cases h
  refine .ite (fun _ => ?_) (fun _ => ?_)
  · exact .refl _ _
  · extract_lets x372_0
    have hx372_0 : Keeps 2048 s x372_0 := by
      unfold x372_0
      refine .ite (fun _ => ?_) (fun _ => ?_)
      · exact .app (.refl _ _) (keeps_emit _ _) rfl
      · exact .refl _ _
    refine .ite (fun _ => ?_) (fun _ => ?_)
    · exact .app hx372_0 (keeps_emit _ _) rfl
    · exact hx372_0

theorem State.ropeSpare_keeps (s : State) (a1 : Nat) : Keeps 562958798293004 s (@State.ropeSpare s a1) := by
  unfold State.ropeSpare
  extract_lets x373_0 x373_1 x373_2 x373_3
  have hx373_1 : Keeps 562958798293004 s x373_1 := by
    unfold x373_1
    exact .app (.app (.app (.refl _ _) (State.setF_keeps _ _ _) rfl) (State.setF_keeps _ _ _) rfl) (State.setF_keeps _ _ _) rfl
  have hx373_2 : Keeps 562958798293004 s x373_2 := by
    unfold x373_2
    exact .app hx373_1 (State.setF_keeps _ _ _) rfl
  exact .app (.app hx373_2 (keeps_rope _ _) rfl) (State.ropeActive_keeps _ _) rfl

theorem State.spareJoins_keeps (s : State) (a1 : Nat) : Keeps 562958798293004 s (@State.spareJoins s a1) := by
  unfold State.spareJoins
  refine .ite (fun _ => ?_) (fun _ => ?_)
  · exact .app (.app (.refl _ _) (State.ropeSpare_keeps _ _) rfl) (State.raiseTWN_keeps _ _) rfl
  · exact .app (.refl _ _) (State.ropeSpare_keeps _ _) rfl

theorem execSwapAtApply_keeps (a0 : Nat) (s : State) {t : State} (h : execSwapAtApply a0 s = .next t) : Keeps 562958798293004 s t := by
  unfold execSwapAtApply at h
  cases h
  refine .ite (fun _ => ?_) (fun _ => ?_)
  · exact .app (.app (.refl _ _) (keeps_rope _ _) rfl) (State.spareJoins_keeps _ _) rfl
  · exact .refl _ _

theorem execPortHoldExpiry_keeps (a0 : Nat) (s : State) {t : State} (h : execPortHoldExpiry a0 s = .next t) : Keeps 254806028 s t := by
  unfold execPortHoldExpiry at h
  cases h
  split
  · refine .ite (fun _ => ?_) (fun _ => ?_)
    · exact .app (.refl _ _) (State.expireHold_keeps _ _) rfl
    · exact .refl _ _
  · exact .refl _ _

theorem State.residency_keeps (s : State) (a1 : List (Nat × Nat)) : Keeps 62513895909330572 s (@State.residency s a1) := by
  induction a1 generalizing s with
  | nil =>
    simp only [State.residency]
    exact .refl _ _
  | cons b l ih =>
    simp only [State.residency]
    refine .app (k := 62513895909330572) ?_ (ih _) rfl
    exact .app (.refl _ _) (State.event_keeps _ _ _) rfl

theorem execCairnExportStop_keeps (s : State) {t : State} (h : execCairnExportStop s = .next t) : Keeps 2060 s t := by
  unfold execCairnExportStop at h
  cases h
  exact .app (.refl _ _) (State.doCairnExportStop_keeps _) rfl

theorem execFaultInject_keeps (a0 : Nat) (s : State) {t : State} (h : execFaultInject a0 s = .next t) : Keeps 62513895909330572 s t := by
  unfold execFaultInject at h
  cases h
  exact .app (.refl _ _) (State.doFaultInject_keeps _ _) rfl

theorem execClearStrm_keeps (s : State) {t : State} (h : execClearStrm s = .next t) : Keeps 206158430212 s t := by
  unfold execClearStrm at h
  cases h
  exact .app (.refl _ _) (State.clearStrm_keeps _) rfl

theorem State.leapLost_keeps (s : State) : Keeps 844424930166796 s (@State.leapLost s) := by
  unfold State.leapLost
  refine .ite (fun _ => ?_) (fun _ => ?_)
  · exact .app (.refl _ _) (State.leapAbort_keeps _ _) rfl
  · exact .refl _ _

theorem State.goAway_keeps (s : State) (a1 : Nat) : Keeps 19984723346622476 s (@State.goAway s a1) := by
  unfold State.goAway
  refine .ite (fun _ => ?_) (fun _ => ?_)
  · exact .refl _ _
  · extract_lets x374_0 x374_1 x374_2 x374_3
    have hx374_1 : Keeps 19984723346622476 s x374_1 := by
      unfold x374_1
      exact .app (.refl _ _) (keeps_rope _ _) rfl
    have hx374_2 : Keeps 19984723346622476 s x374_2 := by
      unfold x374_2
      refine .ite (fun _ => ?_) (fun _ => ?_)
      · exact .app hx374_1 (State.setF_keeps _ _ _) rfl
      · exact hx374_1
    have hx374_3 : Keeps 19984723346622476 s x374_3 := by
      unfold x374_3
      refine .ite (fun _ => ?_) (fun _ => ?_)
      · exact hx374_2
      · exact .app (.app hx374_2 (State.setTwin_keeps _ _ _) rfl) (State.raiseTWN_keeps _ _) rfl
    exact .app (.app hx374_3 (State.ropeSolo_keeps _) rfl) (State.leapLost_keeps _) rfl

theorem execParkMsgRx_keeps (a0 : Nat) (s : State) {t : State} (h : execParkMsgRx a0 s = .next t) : Keeps 62795370886041228 s t := by
  unfold execParkMsgRx at h
  cases h
  refine .stateRx ?_ rfl (fun u375 => ?_)
  · exact .refl _ _
  · exact .app (.refl _ _) (State.goAway_keeps _ _) rfl

theorem State.withFetchWord_keeps (s : State) (a1 : Nat) (a2 : Nat) : Keeps 1 s (@State.withFetchWord s a1 a2) := by
  unfold State.withFetchWord
  split
  · exact .app (.refl _ _) (keeps_pending _ _) rfl
  · exact .refl _ _

theorem State.loseVictim_keeps (s : State) (a1 : Option Look) : Keeps 36028797139552268 s (@State.loseVictim s a1) := by
  unfold State.loseVictim
  split
  · exact .refl _ _
  · exact .app (.refl _ _) (State.loseTarget_keeps _ _) rfl
  · exact .app (.refl _ _) (State.loseTarget_keeps _ _) rfl
  · split
    · exact .app (.refl _ _) (State.loseTarget_keeps _ _) rfl
    · exact .refl _ _

theorem execFaultEvent_keeps (a0 : Nat) (a1 : FaultAt) (s : State) {t : State} (h : execFaultEvent a0 a1 s = .next t) : Keeps 62513895917719180 s t := by
  unfold execFaultEvent at h
  cases h
  refine .ite (fun _ => ?_) (fun _ => ?_)
  · exact .refl _ _
  · split
    · exact .app (.refl _ _) (State.abort_keeps _ _ _ _) rfl
    · refine .app ?_ (State.event_keeps _ _ _) rfl
      refine .on ?_ (fun u376 => ?_)
      · exact .refl _ _
      · exact .app (.refl _ _) (State.loseVictim_keeps _ _) rfl

theorem State.gateTake_keeps (s : State) (a1 : GateId) : Keeps 4294967316 s (@State.gateTake s a1) := by
  unfold State.gateTake
  extract_lets x377_0 x377_1 x377_2 x377_3 x377_4 x377_5
  have hx377_3 : Keeps 4294967316 s x377_3 := by
    unfold x377_3
    exact .app (.refl _ _) (keeps_wrMem _ _ _) rfl
  have hx377_4 : Keeps 4294967316 s x377_4 := by
    unfold x377_4
    exact .app (.app hx377_3 (State.setF_keeps _ _ _) rfl) (State.setF_keeps _ _ _) rfl
  have hx377_5 : Keeps 4294967316 s x377_5 := by
    unfold x377_5
    exact .app (.app hx377_4 (State.setF_keeps _ _ _) rfl) (State.setF_keeps _ _ _) rfl
  exact .app (.app hx377_5 (State.setF_keeps _ _ _) rfl) (State.putGate_keeps _ _) rfl

theorem execGateSwitch_keeps (a0 : GateId) (s : State) {t : State} (h : execGateSwitch a0 s = .next t) : Keeps 30098327580 s t := by
  unfold execGateSwitch at h
  cases h
  split
  · refine .ite (fun _ => ?_) (fun _ => ?_)
    · exact .app (.app (.app (.refl _ _) (State.gateTake_keeps _ _) rfl) (State.gateApply_keeps _ _) rfl) (State.raiseSCH_keeps _ _) rfl
    · exact .refl _ _
  · exact .refl _ _

theorem State.frameLookup_keeps (s : State) (a1 : Frame) : Keeps 36028797035741188 s (@State.frameLookup s a1) := by
  unfold State.frameLookup
  extract_lets x378_0
  refine .ite (fun _ => ?_) (fun _ => ?_)
  · exact .refl _ _
  · exact .app (.app (.app (.refl _ _) (State.works_keeps _ _ _) rfl) (State.putFrame_keeps _ _) rfl) (State.evt_keeps _ _ _ _ _) rfl

theorem execStationLookup_keeps (a0 : Look) (s : State) {t : State} (h : execStationLookup a0 s = .next t) : Keeps 36028797069295620 s t := by
  unfold execStationLookup at h
  cases h
  split
  · split
    · exact .app (.refl _ _) (State.frameLookup_keeps _ _) rfl
    · exact .refl _ _
  · split
    · refine .ite (fun _ => ?_) (fun _ => ?_)
      · exact .app (.app (.app (.refl _ _) (State.works_keeps _ _ _) rfl) (State.putCopy_keeps _ _) rfl) (State.evt_keeps _ _ _ _ _) rfl
      · exact .refl _ _
    · exact .refl _ _
  · exact .refl _ _

theorem State.read_keeps (s : State) (a1 : Bar) (a2 : Nat) (a3 : Nat) (a4 : Nat) : Keeps 62513895909592780 s (@State.read s a1 a2 a3 a4) := by
  unfold State.read
  refine .ite (fun _ => ?_) (fun _ => ?_)
  · exact .app (.app (.refl _ _) (keeps_readData _ _) rfl) (State.minor_keeps _ _) rfl
  · split
    · exact .app (.refl _ _) (State.readReg_keeps _ _ _) rfl
    · exact .app (.refl _ _) (keeps_readData _ _) rfl

theorem execPairLoRead_keeps (a0 : Nat) (s : State) {t : State} (h : execPairLoRead a0 s = .next t) : Keeps 62513895909592780 s t := by
  unfold execPairLoRead at h
  cases h
  refine .ite (fun _ => ?_) (fun _ => ?_)
  · exact .app (.refl _ _) (State.read_keeps _ _ _ _ _) rfl
  · exact .refl _ _

theorem State.bar2Write_keeps (s : State) (a1 : Nat) (a2 : Nat) (a3 : Nat) : Keeps 62657931933093564 s (@State.bar2Write s a1 a2 a3) := by
  unfold State.bar2Write
  refine .ite (fun _ => ?_) (fun _ => ?_)
  · exact .app (.refl _ _) (State.bar2Word_keeps _ _ _) rfl
  · refine .ite (fun _ => ?_) (fun _ => ?_)
    · refine .ite (fun _ => ?_) (fun _ => ?_)
      · exact .app (.refl _ _) (State.minor_keeps _ _) rfl
      · exact .app (.app (.refl _ _) (State.bar2Word_keeps _ _ _) rfl) (State.bar2Word_keeps _ _ _) rfl
    · exact .app (.refl _ _) (State.minor_keeps _ _) rfl

theorem execRecoveryRecordWrite_keeps (a0 : Nat) (a1 : Nat) (s : State) {t : State} (h : execRecoveryRecordWrite a0 a1 s = .next t) : Keeps 62657931933093564 s t := by
  unfold execRecoveryRecordWrite at h
  cases h
  refine .ite (fun _ => ?_) (fun _ => ?_)
  · exact .app (.refl _ _) (State.bar2Write_keeps _ _ _ _) rfl
  · exact .refl _ _

theorem State.quadEvents_keeps (s : State) (a1 : Nat) (a2 : List Nat) : Keeps 62513895909330572 s (@State.quadEvents s a1 a2) := by
  induction a2 generalizing s a1 with
  | nil =>
    simp only [State.quadEvents]
    exact .refl _ _
  | cons b l ih =>
    simp only [State.quadEvents]
    refine .app (k := 62513895909330572) ?_ (ih _ _) rfl
    exact .app (.refl _ _) (State.event_keeps _ _ _) rfl

theorem execRwlCrcCheck_keeps (a0 : Nat) (s : State) {t : State} (h : execRwlCrcCheck a0 s = .next t) : Keeps 62513895909330572 s t := by
  unfold execRwlCrcCheck at h
  cases h
  refine .ite (fun _ => ?_) (fun _ => ?_)
  · exact .app (.refl _ _) (State.quadEvents_keeps _ _ _) rfl
  · exact .refl _ _

theorem State.filterStep_keeps0 (s : State) (a1 : Frame) : Keeps 240518170652 s (@State.filterStep s a1).2.2 := by
  unfold State.filterStep
  split
  · refine .iteP (fun r : Bool × Frame × State => r.2.2) (fun _ => ?_) (fun _ => ?_)
    · exact .app (.refl _ _) (State.streamFilter_keeps rfl) rfl
    · dsimp only
      exact .refl _ _
  · dsimp only
    exact .refl _ _

theorem State.filterStep_keeps {s : State} {a1 : Frame} {r0 r1} {t : State} (h : @State.filterStep s a1 = (r0, (r1, t))) : Keeps 240518170652 s t := by
  have h0 := State.filterStep_keeps0 s a1
  rw [h] at h0
  exact h0

theorem State.ropeFilter_keeps0 (s : State) (a1 : Frame) (a2 : Bool) (a3 : List CopyReq) : Keeps 4 s (@State.ropeFilter s a1 a2 a3).2 := by
  unfold State.ropeFilter
  refine .iteP (fun r : List CopyReq × State => r.2) (fun _ => ?_) (fun _ => ?_)
  · refine .snd ?_
    exact .refl _ _
  · extract_lets x379_0
    refine .snd ?_
    exact .app (.refl _ _) (State.count_keeps _ _ _) rfl

theorem State.ropeFilter_keeps {s : State} {a1 : Frame} {a2 : Bool} {a3 : List CopyReq} {r0} {t : State} (h : @State.ropeFilter s a1 a2 a3 = (r0, t)) : Keeps 4 s t := by
  have h0 := State.ropeFilter_keeps0 s a1 a2 a3
  rw [h] at h0
  exact h0

theorem State.sequence_keeps0 (s : State) (a1 : Frame) (a2 : StreamRec) : Keeps 549755813908 s (@State.sequence s a1 a2).2 := by
  unfold State.sequence
  refine .iteP (fun r : Option Nat × State => r.2) (fun _ => ?_) (fun _ => ?_)
  · refine .snd ?_
    exact .refl _ _
  · refine .iteP (fun r : Option Nat × State => r.2) (fun _ => ?_) (fun _ => ?_)
    · extract_lets x380_0
      refine .snd ?_
      exact .app (.refl _ _) (State.setFrerFlag_keeps _ _ _ _) rfl
    · refine .iteP (fun r : Option Nat × State => r.2) (fun _ => ?_) (fun _ => ?_)
      · extract_lets x381_0 x381_1
        have hx381_1 : Keeps 549755813908 s x381_1 := by
          unfold x381_1
          exact .app (.refl _ _) (State.putFrer_keeps _ _ _ _ _) rfl
        refine .snd ?_
        exact .app (.app hx381_1 (keeps_genUsed _ _) rfl) (State.setFrerFlag_keeps _ _ _ _) rfl
      · refine .snd ?_
        exact .app (.refl _ _) (State.count_keeps _ _ _) rfl

theorem State.sequence_keeps {s : State} {a1 : Frame} {a2 : StreamRec} {r0} {t : State} (h : @State.sequence s a1 a2 = (r0, t)) : Keeps 549755813908 s t := by
  have h0 := State.sequence_keeps0 s a1 a2
  rw [h] at h0
  exact h0

theorem State.frerPass_keeps (s : State) (a1 : Nat) : Keeps 274877906960 s (@State.frerPass s a1) := by
  unfold State.frerPass
  extract_lets x382_0
  have hx382_0 : Keeps 274877906960 s x382_0 := by
    unfold x382_0
    exact .app (.refl _ _) (State.countFrer_keeps _ _ _ _) rfl
  exact .app hx382_0 (keeps_frerAt _ _) rfl

theorem State.recover_keeps0 (s : State) (a1 : StreamRec) (a2 : Nat) : Keeps 274877909020 s (@State.recover s a1 a2).2 := by
  unfold State.recover
  extract_lets x383_0 x383_1 x383_2 x383_3 x383_4 x383_5 x383_6 x383_7
  have hx383_5 : Keeps 274877909020 s x383_5 := by
    unfold x383_5
    exact .app (.app (.refl _ _) (State.putFrer_keeps _ _ _ _ _) rfl) (State.putFrer_keeps _ _ _ _ _) rfl
  have hx383_6 : Keeps 274877909020 s x383_6 := by
    unfold x383_6
    exact .app hx383_5 (State.putFrer_keeps _ _ _ _ _) rfl
  have hx383_7 : Keeps 274877909020 s x383_7 := by
    unfold x383_7
    refine .ite (fun _ => ?_) (fun _ => ?_)
    · refine .ite (fun _ => ?_) (fun _ => ?_)
      · exact .app (.app (.app hx383_6 (State.setF_keeps _ _ _) rfl) (State.setF_keeps _ _ _) rfl) (State.raiseTWN_keeps _ _) rfl
      · exact hx383_6
    · exact hx383_5
  refine .iteP (fun r : Bool × State => r.2) (fun _ => ?_) (fun _ => ?_)
  · refine .snd ?_
    exact .app (.app (.app (.app (.refl _ _) (State.putFrer_keeps _ _ _ _ _) rfl) (State.putFrer_keeps _ _ _ _ _) rfl) (State.setFrerFlag_keeps _ _ _ _) rfl) (State.frerPass_keeps _ _) rfl
  · refine .iteP (fun r : Bool × State => r.2) (fun _ => ?_) (fun _ => ?_)
    · refine .iteP (fun r : Bool × State => r.2) (fun _ => ?_) (fun _ => ?_)
      · refine .snd ?_
        exact .app (.refl _ _) (State.countFrer_keeps _ _ _ _) rfl
      · refine .snd ?_
        exact .app (.app (.refl _ _) (State.putFrer_keeps _ _ _ _ _) rfl) (State.frerPass_keeps _ _) rfl
    · refine .iteP (fun r : Bool × State => r.2) (fun _ => ?_) (fun _ => ?_)
      · refine .snd ?_
        exact .app (.refl _ _) (State.countFrer_keeps _ _ _ _) rfl
      · refine .iteP (fun r : Bool × State => r.2) (fun _ => ?_) (fun _ => ?_)
        · refine .snd ?_
          exact .app hx383_7 (State.frerPass_keeps _ _) rfl
        · refine .iteP (fun r : Bool × State => r.2) (fun _ => ?_) (fun _ => ?_)
          · refine .snd ?_
            exact .app (.refl _ _) (State.countFrer_keeps _ _ _ _) rfl
          · refine .snd ?_
            exact .app (.app (.app (.refl _ _) (State.putFrer_keeps _ _ _ _ _) rfl) (State.putFrer_keeps _ _ _ _ _) rfl) (State.frerPass_keeps _ _) rfl

theorem State.recover_keeps {s : State} {a1 : StreamRec} {a2 : Nat} {r0} {t : State} (h : @State.recover s a1 a2 = (r0, t)) : Keeps 274877909020 s t := by
  have h0 := State.recover_keeps0 s a1 a2
  rw [h] at h0
  exact h0

theorem State.forward_keeps (s : State) (a1 : Frame) : Keeps 36029621736572956 s (@State.forward s a1) := by
  unfold State.forward
  extract_lets x384_0 x384_1
  refine .ite (fun _ => ?_) (fun _ => ?_)
  · exact .app (.refl _ _) (State.ruleDrop_keeps _ _ _ _) rfl
  · refine .ite (fun _ => ?_) (fun _ => ?_)
    · exact .app (.refl _ _) (State.ruleDrop_keeps _ _ _ _) rfl
    · split
      · exact .app (.app (.refl _ _) (State.ropeFilter_keeps rfl) rfl) (State.listFrame_keeps _ _ _) rfl
      · refine .ite (fun _ => ?_) (fun _ => ?_)
        · refine .ite (fun _ => ?_) (fun _ => ?_)
          · exact .app (.app (.refl _ _) (State.count_keeps _ _ _) rfl) (State.listFrame_keeps _ _ _) rfl
          · exact .app (.app (.refl _ _) (State.ropeFilter_keeps rfl) rfl) (State.listFrame_keeps _ _ _) rfl
        · refine .ite (fun _ => ?_) (fun _ => ?_)
          · exact .app (.refl _ _) (State.listFrame_keeps _ _ _) rfl
          · refine .ite (fun _ => ?_) (fun _ => ?_)
            · exact .app (.refl _ _) (State.listFrame_keeps _ _ _) rfl
            · split
              · exact .app (.app (.refl _ _) (State.sequence_keeps (by assumption)) rfl) (State.listFrame_keeps _ _ _) rfl
              · extract_lets x385_0
                split
                · exact .app (.app (.app (.refl _ _) (State.sequence_keeps (by assumption)) rfl) (State.recover_keeps (by assumption)) rfl) (State.listFrame_keeps _ _ _) rfl
                · extract_lets x386_0 x386_1
                  exact .app (.app (.app (.refl _ _) (State.sequence_keeps (by assumption)) rfl) (State.recover_keeps (by assumption)) rfl) (State.listFrame_keeps _ _ _) rfl

theorem State.resolve_keeps (s : State) (a1 : Frame) : Keeps 36029621736572956 s (@State.resolve s a1) := by
  unfold State.resolve
  extract_lets x387_0
  refine .ite (fun _ => ?_) (fun _ => ?_)
  · exact .app (.refl _ _) (State.ruleDrop_keeps _ _ _ _) rfl
  · refine .ite (fun _ => ?_) (fun _ => ?_)
    · exact .app (.refl _ _) (State.ruleDrop_keeps _ _ _ _) rfl
    · refine .ite (fun _ => ?_) (fun _ => ?_)
      · unfold x387_0
        extract_lets x388_0
        exact .app (.refl _ _) (State.listFrame_keeps _ _ _) rfl
      · refine .ite (fun _ => ?_) (fun _ => ?_)
        · refine .ite (fun _ => ?_) (fun _ => ?_)
          · refine .ite (fun _ => ?_) (fun _ => ?_)
            · unfold x387_0
              extract_lets x389_0
              exact .app (.refl _ _) (State.listFrame_keeps _ _ _) rfl
            · exact .app (.refl _ _) (State.ruleDrop_keeps _ _ _ _) rfl
          · exact .app (.app (.refl _ _) (State.count_keeps _ _ _) rfl) (State.ruleDrop_keeps _ _ _ _) rfl
        · exact .app (.refl _ _) (State.forward_keeps _ _) rfl

theorem execActionResolution_keeps (a0 : Nat) (s : State) {t : State} (h : execActionResolution a0 s = .next t) : Keeps 36100230998919196 s t := by
  unfold execActionResolution at h
  cases h
  split
  · exact .refl _ _
  · refine .ite (fun _ => ?_) (fun _ => ?_)
    · exact .refl _ _
    · extract_lets x390_0 x390_1
      have hx390_1 : Keeps 36100230998919196 s x390_1 := by
        unfold x390_1
        refine .ite (fun _ => ?_) (fun _ => ?_)
        · refine .app ?_ (State.ruleDrop_keeps _ _ _ _) rfl
          unfold x390_0
          exact .app (.refl _ _) (State.filterStep_keeps rfl) rfl
        · refine .app ?_ (State.resolve_keeps _ _) rfl
          unfold x390_0
          exact .app (.refl _ _) (State.filterStep_keeps rfl) rfl
      refine .ite (fun _ => ?_) (fun _ => ?_)
      · split
        · exact .app hx390_1 (State.presentLearn_keeps _ _) rfl
        · refine .ite (fun _ => ?_) (fun _ => ?_)
          · exact hx390_1
          · exact .app hx390_1 (State.presentLearn_keeps _ _) rfl
      · exact hx390_1

theorem State.lateBeads_keeps (s : State) (a1 : Nat) : Keeps 117442572 s (@State.lateBeads s a1) := by
  unfold State.lateBeads
  split
  · refine .ite (fun _ => ?_) (fun _ => ?_)
    · exact .app (.refl _ _) (State.takeLate_keeps _ _) rfl
    · exact .refl _ _
  · exact .refl _ _

theorem State.hostBeads_keeps (s : State) (a1 : List Frame) : Keeps 36028797139552268 s (@State.hostBeads s a1) := by
  induction a1 generalizing s with
  | nil =>
    simp only [State.hostBeads]
    exact .refl _ _
  | cons b l ih =>
    simp only [State.hostBeads]
    refine .app (k := 36028797139552268) ?_ (ih _) rfl
    refine .ite (fun _ => ?_) (fun _ => ?_)
    · exact .app (.refl _ _) (State.claimBeads_keeps _ _ _) rfl
    · exact .refl _ _

theorem execBeadWaitServed_keeps (a0 : Nat) (s : State) {t : State} (h : execBeadWaitServed a0 s = .next t) : Keeps 36028797139552268 s t := by
  unfold execBeadWaitServed at h
  cases h
  split
  · exact .refl _ _
  · extract_lets x391_0
    refine .ite (fun _ => ?_) (fun _ => ?_)
    · exact .refl _ _
    · split
      · exact .refl _ _
      · extract_lets x392_0 x392_1 x392_2 x392_3 x392_4
        have hx392_1 : Keeps 36028797139552268 s x392_1 := by
          unfold x392_1
          exact .app (.app (.refl _ _) (State.takeBead_keeps (by assumption)) rfl) (keeps_buf _ _) rfl
        have hx392_2 : Keeps 36028797139552268 s x392_2 := by
          unfold x392_2
          exact .app hx392_1 (State.dec_keeps _ _ _) rfl
        have hx392_4 : Keeps 36028797139552268 s x392_4 := by
          unfold x392_4
          split
          · exact .app (.app (.app hx392_2 (State.joinBead_keeps _ _ _) rfl) (State.claimBeads_keeps _ _ _) rfl) (State.lateBeads_keeps _ _) rfl
          · exact .app hx392_2 (State.beadToQuar_keeps _ _ _) rfl
        refine .ite (fun _ => ?_) (fun _ => ?_)
        · split
          · exact .app (.app hx392_2 (keeps_buf _ _) rfl) (State.putCopy_keeps _ _) rfl
          · exact .app hx392_2 (State.beadToQuar_keeps _ _ _) rfl
        · exact .app hx392_4 (State.hostBeads_keeps _ _) rfl

theorem State.vout_keeps (s : State) (a1 : Nat) : Keeps 2048 s (@State.vout s a1) := by
  unfold State.vout
  exact .app (.refl _ _) (keeps_emit _ _) rfl

theorem execPmbusNackRetry_keeps (a0 : Bool) (a1 : Nat) (a2 : Bool) (s : State) {t : State} (h : execPmbusNackRetry a0 a1 a2 s = .next t) : Keeps 62513895909330572 s t := by
  unfold execPmbusNackRetry at h
  cases h
  split
  · refine .ite (fun _ => ?_) (fun _ => ?_)
    · exact .refl _ _
    · extract_lets x393_0 x393_1 x393_2 x393_3
      have hx393_1 : Keeps 62513895909330572 s x393_1 := by
        unfold x393_1
        exact .app (.refl _ _) (State.vout_keeps _ _) rfl
      have hx393_3 : Keeps 62513895909330572 s x393_3 := by
        unfold x393_3
        exact .app hx393_1 (keeps_age _ _) rfl
      refine .ite (fun _ => ?_) (fun _ => ?_)
      · exact .app hx393_3 (State.voltageAt_keeps _ _ _ _ _) rfl
      · exact .app (.app hx393_3 (State.event_keeps _ _ _) rfl) (State.voltageDone_keeps _) rfl
  · exact .refl _ _

theorem execPpsOutFall_keeps (s : State) {t : State} (h : execPpsOutFall s = .next t) : Keeps 264192 s t := by
  unfold execPpsOutFall at h
  cases h
  refine .ite (fun _ => ?_) (fun _ => ?_)
  · exact .app (.refl _ _) (State.ppsLow_keeps _) rfl
  · exact .refl _ _

theorem State.pauseTimers_keeps (s : State) (a1 : Nat) (a2 : List (Nat × Nat)) : Keeps 134217728 s (@State.pauseTimers s a1 a2) := by
  induction a2 generalizing s a1 with
  | nil =>
    simp only [State.pauseTimers]
    exact .refl _ _
  | cons b l ih =>
    simp only [State.pauseTimers]
    refine .app (k := 134217728) ?_ (ih _ _) rfl
    exact .app (.refl _ _) (State.updPort_keeps _ _ _) rfl

theorem execRingShutdown_keeps (a0 : Nat) (s : State) {t : State} (h : execRingShutdown a0 s = .next t) : Keeps 4 s t := by
  unfold execRingShutdown at h
  cases h
  refine .ite (fun _ => ?_) (fun _ => ?_)
  · exact .refl _ _
  · exact .app (.refl _ _) (State.ringStop_keeps _ _) rfl

theorem State.aluAdd_keeps (s : State) (a1 : Thread) (a2 : Nat) (a3 : Nat) (a4 : Nat) : Keeps 1048576 s (@State.aluAdd s a1 a2 a3 a4) := by
  unfold State.aluAdd
  extract_lets x394_0
  exact .app (.refl _ _) (State.putThread_keeps _ _) rfl

theorem State.bwPort_keeps (s : State) (a1 : Nat) : Keeps 4 s (@State.bwPort s a1) := by
  unfold State.bwPort
  extract_lets x395_0 x395_1 x395_2
  exact .app (.app (.app (.app (.refl _ _) (State.setF_keeps _ _ _) rfl) (State.setF_keeps _ _ _) rfl) (State.maxF_keeps _ _ _) rfl) (State.maxF_keeps _ _ _) rfl

theorem execPortUp_keeps (a0 : Nat) (s : State) {t : State} (h : execPortUp a0 s = .next t) : Keeps 562950208358412 s t := by
  unfold execPortUp at h
  cases h
  split
  · split
    · refine .ite (fun _ => ?_) (fun _ => ?_)
      · exact .app (.refl _ _) (State.portUp_keeps _ _) rfl
      · exact .refl _ _
    · exact .refl _ _
  · exact .refl _ _

theorem State.dmaStopped_keeps (s : State) (a1 : DmaRun) : Keeps 2251799813687308 s (@State.dmaStopped s a1) := by
  unfold State.dmaStopped
  exact .app (.app (.refl _ _) (State.setF_keeps _ _ _) rfl) (State.dmaEnd_keeps _ _) rfl

theorem execMbJtagChallenge_keeps (s : State) {t : State} (h : execMbJtagChallenge s = .next t) : Keeps 62795370886057612 s t := by
  unfold execMbJtagChallenge at h
  cases h
  exact .app (.refl _ _) (State.mbRow_keeps _ _) rfl

theorem State.crevasse_keeps (s : State) : Keeps 19984723346622476 s (@State.crevasse s) := by
  unfold State.crevasse
  extract_lets x396_0
  have hx396_0 : Keeps 19984723346622476 s x396_0 := by
    unfold x396_0
    exact .app (.app (.refl _ _) (State.setTwin_keeps _ _ _) rfl) (State.raiseTWN_keeps _ _) rfl
  exact .app (.app (.app (.app hx396_0 (State.count_keeps _ _ _) rfl) (State.twinCairn_keeps _ _ _) rfl) (State.ropeSolo_keeps _) rfl) (State.leapLost_keeps _) rfl

theorem execCairnSampleTick_keeps (a0 : Nat) (a1 : Int) (s : State) {t : State} (h : execCairnSampleTick a0 a1 s = .next t) : Keeps 131072 s t := by
  unfold execCairnSampleTick at h
  cases h
  refine .ite (fun _ => ?_) (fun _ => ?_)
  · exact .refl _ _
  · extract_lets x397_0 x397_1
    exact .app (.refl _ _) (keeps_crn _ _ rfl) rfl

theorem execHelloSend_keeps (s : State) {t : State} (h : execHelloSend s = .next t) : Keeps 2048 s t := by
  unfold execHelloSend at h
  cases h
  refine .ite (fun _ => ?_) (fun _ => ?_)
  · exact .app (.refl _ _) (keeps_emit _ _) rfl
  · exact .refl _ _

theorem execRopeLaneLoss_keeps (a0 : Nat) (s : State) {t : State} (h : execRopeLaneLoss a0 s = .next t) : Keeps 36609382363039756 s t := by
  unfold execRopeLaneLoss at h
  cases h
  refine .ite (fun _ => ?_) (fun _ => ?_)
  · exact .app (.app (.refl _ _) (State.laneLoses_keeps _ _ _) rfl) (State.ropeUnlog_keeps _ _) rfl
  · exact .refl _ _

theorem execLaneBringupStart_keeps (a0 : Nat) (s : State) {t : State} (h : execLaneBringupStart a0 s = .next t) : Keeps 268435460 s t := by
  unfold execLaneBringupStart at h
  cases h
  split
  · refine .ite (fun _ => ?_) (fun _ => ?_)
    · exact .app (.refl _ _) (State.laneStart_keeps _ _) rfl
    · exact .refl _ _
  · exact .refl _ _

theorem execRefreshReadout_keeps (a0 : Nat) (a1 : Nat) (a2 : Nat) (a3 : Bool) (s : State) {t : State} (h : execRefreshReadout a0 a1 a2 a3 s = .next t) : Keeps 62513895909330572 s t := by
  unfold execRefreshReadout at h
  cases h
  extract_lets x398_0 x398_1 x398_2 x398_3 x398_4 x398_5
  have hx398_2 : Keeps 62513895909330572 s x398_2 := by
    unfold x398_2
    exact .app (.refl _ _) (State.setF_keeps _ _ _) rfl
  have hx398_3 : Keeps 62513895909330572 s x398_3 := by
    unfold x398_3
    refine .ite (fun _ => ?_) (fun _ => ?_)
    · exact .app hx398_2 (State.orF_keeps _ _ _) rfl
    · exact .app hx398_2 (State.clrBit_keeps _ _ _) rfl
  have hx398_4 : Keeps 62513895909330572 s x398_4 := by
    unfold x398_4
    exact .app hx398_3 (State.setF_keeps _ _ _) rfl
  have hx398_5 : Keeps 62513895909330572 s x398_5 := by
    unfold x398_5
    refine .ite (fun _ => ?_) (fun _ => ?_)
    · exact .app hx398_4 (State.raiseDRC_keeps _ _) rfl
    · exact hx398_4
  refine .ite (fun _ => ?_) (fun _ => ?_)
  · exact .refl _ _
  · refine .ite (fun _ => ?_) (fun _ => ?_)
    · exact .app hx398_5 (State.event_keeps _ _ _) rfl
    · exact hx398_5

theorem execStroke_keeps (s : State) {t : State} (h : execStroke s = .next t) : Keeps 134750710343110332 s t := by
  unfold execStroke at h
  cases h
  refine .ite (fun _ => ?_) (fun _ => ?_)
  · exact .app (.app (.refl _ _) (State.strike_keeps _) rfl) (State.releaseHeld_keeps _) rfl
  · exact .refl _ _

theorem execReqHold_keeps (a0 : Nat) (a1 : Bool) (s : State) {t : State} (h : execReqHold a0 a1 s = .next t) : Keeps 55169095555976204 s t := by
  unfold execReqHold at h
  cases h
  exact .app (.refl _ _) (State.doReqHold_keeps _ _ _) rfl

theorem State.flagWrite_keeps (s : State) (a1 : Target) (a2 : Nat) (a3 : Bool) : Keeps 50331648 s (@State.flagWrite s a1 a2 a3) := by
  unfold State.flagWrite
  split
  · split
    · exact .app (.refl _ _) (State.putFrame_keeps _ _) rfl
    · exact .refl _ _
  · extract_lets x399_0 x399_1
    exact .app (.refl _ _) (State.putKeys_keeps _ _ _) rfl
  · exact .refl _ _

theorem execSetf_keeps (a0 : Nat) (a1 : Nat) (a2 : Nat) (a3 : Bool) (s : State) {t : State} (h : execSetf a0 a1 a2 a3 s = .next t) : Keeps 62513895921913484 s t := by
  unfold execSetf at h
  cases h
  refine .issue ?_ rfl (fun u400 a400 b400 => ?_)
  · exact .refl _ _
  · exact .app (.app (.refl _ _) (State.putThread_keeps _ _) rfl) (State.flagWrite_keeps _ _ _ _) rfl

theorem State.stageOrHold_keeps (s : State) (a1 : Nat) (a2 : Nat) : Keeps 62654633398210188 s (@State.stageOrHold s a1 a2) := by
  unfold State.stageOrHold
  refine .ite (fun _ => ?_) (fun _ => ?_)
  · exact .app (.refl _ _) (keeps_gens _ _) rfl
  · split
    · refine .ite (fun _ => ?_) (fun _ => ?_)
      · exact .app (.refl _ _) (keeps_cmd _ _) rfl
      · exact .app (.refl _ _) (State.stageWrite_keeps _ _ _) rfl
    · exact .app (.refl _ _) (State.stageWrite_keeps _ _ _) rfl

theorem State.putSc_keeps (s : State) (a1 : ScSt) : Keeps 1073741824 s (@State.putSc s a1) := by
  unfold State.putSc
  exact .app (.refl _ _) (keeps_scs _ _) rfl

theorem State.secWrite_keeps (s : State) (a1 : Nat) (a2 : Nat) (a3 : Nat) : Keeps 62513897519943308 s (@State.secWrite s a1 a2 a3) := by
  unfold State.secWrite
  extract_lets x401_0 x401_1 x401_2 x401_3
  refine .ite (fun _ => ?_) (fun _ => ?_)
  · exact .app (.refl _ _) (State.minor_keeps _ _) rfl
  · refine .ite (fun _ => ?_) (fun _ => ?_)
    · exact .app (.refl _ _) (State.putSa_keeps _ _) rfl
    · refine .ite (fun _ => ?_) (fun _ => ?_)
      · exact .app (.refl _ _) (State.putSa_keeps _ _) rfl
      · refine .ite (fun _ => ?_) (fun _ => ?_)
        · exact .app (.refl _ _) (State.putSa_keeps _ _) rfl
        · refine .ite (fun _ => ?_) (fun _ => ?_)
          · refine .ite (fun _ => ?_) (fun _ => ?_)
            · exact .app (.refl _ _) (State.minor_keeps _ _) rfl
            · exact .app (.refl _ _) (keeps_heldLo _ _) rfl
          · refine .ite (fun _ => ?_) (fun _ => ?_)
            · refine .ite (fun _ => ?_) (fun _ => ?_)
              · exact .app (.refl _ _) (State.minor_keeps _ _) rfl
              · refine .app ?_ (State.setPn_keeps _ _ _) rfl
                unfold x401_3
                exact .app (.refl _ _) (State.takeLo_keeps rfl) rfl
            · refine .ite (fun _ => ?_) (fun _ => ?_)
              · exact .app (.refl _ _) (keeps_heldLo _ _) rfl
              · refine .ite (fun _ => ?_) (fun _ => ?_)
                · refine .app ?_ (State.putSc_keeps _ _) rfl
                  unfold x401_3
                  exact .app (.refl _ _) (State.takeLo_keeps rfl) rfl
                · exact .app (.refl _ _) (State.putSc_keeps _ _) rfl

theorem State.completePair_keeps (s : State) (a1 : Nat) : Keeps 516 s (@State.completePair s a1) := by
  unfold State.completePair
  refine .ite (fun _ => ?_) (fun _ => ?_)
  · exact .app (.refl _ _) (State.useLo_keeps _ _) rfl
  · exact .refl _ _

theorem State.usePn_keeps (s : State) (a1 : Nat) : Keeps 62513896446201484 s (@State.usePn s a1) := by
  unfold State.usePn
  split
  · refine .ite (fun _ => ?_) (fun _ => ?_)
    · exact .app (.app (.refl _ _) (State.takeLo_keeps (by assumption)) rfl) (State.minor_keeps _ _) rfl
    · exact .app (.app (.refl _ _) (State.takeLo_keeps (by assumption)) rfl) (State.setPn_keeps _ _ _) rfl
  · exact .refl _ _

theorem State.hostModified_keeps (s : State) (a1 : Nat) : Keeps 133132 s (@State.hostModified s a1) := by
  unfold State.hostModified
  refine .ite (fun _ => ?_) (fun _ => ?_)
  · exact .refl _ _
  · exact .app (.app (.refl _ _) (State.setF_keeps _ _ _) rfl) (State.cairn_keeps _ _ _ _ _) rfl

theorem State.writeFields_keeps (s : State) (a1 : Nat) (a2 : Nat) (a3 : Nat) : Keeps 62513895909330572 s (@State.writeFields s a1 a2 a3) := by
  unfold State.writeFields
  extract_lets x402_0 x402_1 x402_2 x402_3 x402_4
  have hx402_4 : Keeps 62513895909330572 s x402_4 := by
    unfold x402_4
    exact .app (.refl _ _) (keeps_wr _ _ _) rfl
  refine .ite (fun _ => ?_) (fun _ => ?_)
  · exact .app hx402_4 (State.minor_keeps _ _) rfl
  · refine .ite (fun _ => ?_) (fun _ => ?_)
    · exact .app hx402_4 (State.hostModified_keeps _ _) rfl
    · exact hx402_4

theorem State.writeTaken_keeps (s : State) (a1 : Nat) (a2 : Nat) (a3 : Nat) (a4 : Nat) : Keeps 144115188075855868 s (@State.writeTaken s a1 a2 a3 a4) := by
  unfold State.writeTaken
  refine .ite (fun _ => ?_) (fun _ => ?_)
  · exact .app (.refl _ _) (keeps_wr _ _ _) rfl
  · refine .ite (fun _ => ?_) (fun _ => ?_)
    · exact .app (.refl _ _) (State.setRate_keeps _ _ _) rfl
    · refine .ite (fun _ => ?_) (fun _ => ?_)
      · refine .ite (fun _ => ?_) (fun _ => ?_)
        · exact .app (.app (.refl _ _) (State.completePair_keeps _ _) rfl) (keeps_wr _ _ _) rfl
        · exact .refl _ _
      · extract_lets x403_0 x403_1 x403_2
        have hx403_0 : Keeps 144115188075855868 s x403_0 := by
          unfold x403_0
          refine .ite (fun _ => ?_) (fun _ => ?_)
          · exact .app (.refl _ _) (State.usePn_keeps _ _) rfl
          · exact .refl _ _
        have hx403_1 : Keeps 144115188075855868 s x403_1 := by
          unfold x403_1
          exact .app hx403_0 (State.completePair_keeps _ _) rfl
        have hx403_2 : Keeps 144115188075855868 s x403_2 := by
          unfold x403_2
          refine .ite (fun _ => ?_) (fun _ => ?_)
          · exact .app hx403_1 (State.stageOrHold_keeps _ _ _) rfl
          · exact hx403_1
        exact .app (.app hx403_2 (State.writeFields_keeps _ _ _ _) rfl) (State.commands_keeps _ _ _ _ _) rfl

theorem State.writeReg_keeps (s : State) (a1 : Nat) (a2 : Nat) (a3 : Nat) : Keeps 144115188075855868 s (@State.writeReg s a1 a2 a3) := by
  unfold State.writeReg
  refine .ite (fun _ => ?_) (fun _ => ?_)
  · exact .app (.refl _ _) (State.minor_keeps _ _) rfl
  · refine .ite (fun _ => ?_) (fun _ => ?_)
    · exact .refl _ _
    · refine .ite (fun _ => ?_) (fun _ => ?_)
      · exact .app (.refl _ _) (State.stageOrHold_keeps _ _ _) rfl
      · extract_lets x404_0 x404_1
        have hx404_1 : Keeps 144115188075855868 s x404_1 := by
          unfold x404_1
          refine .ite (fun _ => ?_) (fun _ => ?_)
          · exact .app (.refl _ _) (State.minor_keeps _ _) rfl
          · exact .refl _ _
        refine .ite (fun _ => ?_) (fun _ => ?_)
        · exact hx404_1
        · refine .ite (fun _ => ?_) (fun _ => ?_)
          · exact .app hx404_1 (State.secWrite_keeps _ _ _ _) rfl
          · refine .ite (fun _ => ?_) (fun _ => ?_)
            · exact .app hx404_1 (keeps_heldLo _ _) rfl
            · exact .app hx404_1 (State.writeTaken_keeps _ _ _ _ _) rfl

theorem State.msixWrite_keeps (s : State) (a1 : Nat) (a2 : Nat) : Keeps 2056 s (@State.msixWrite s a1 a2) := by
  unfold State.msixWrite
  extract_lets x405_0
  refine .ite (fun _ => ?_) (fun _ => ?_)
  · refine .ite (fun _ => ?_) (fun _ => ?_)
    · exact .app (.refl _ _) (keeps_wr4 _ _ _) rfl
    · exact .app (.refl _ _) (State.unmask_keeps _ _) rfl
  · exact .app (.refl _ _) (keeps_wr4 _ _ _) rfl

theorem State.writeReg4_keeps (s : State) (a1 : Nat) (a2 : Nat) (a3 : Nat) : Keeps 62795370886057612 s (@State.writeReg4 s a1 a2 a3) := by
  unfold State.writeReg4
  refine .ite (fun _ => ?_) (fun _ => ?_)
  · exact .app (.refl _ _) (State.doorbell_keeps _ _ _) rfl
  · refine .ite (fun _ => ?_) (fun _ => ?_)
    · exact .app (.refl _ _) (keeps_wr4 _ _ _) rfl
    · refine .ite (fun _ => ?_) (fun _ => ?_)
      · refine .on ?_ (fun u406 => ?_)
        · exact .refl _ _
        · exact .app (.refl _ _) (State.mbRing_keeps _) rfl
      · refine .ite (fun _ => ?_) (fun _ => ?_)
        · exact .app (.refl _ _) (keeps_wr4 _ _ _) rfl
        · refine .ite (fun _ => ?_) (fun _ => ?_)
          · exact .app (.refl _ _) (State.msixWrite_keeps _ _ _) rfl
          · exact .refl _ _

theorem State.write_keeps (s : State) (a1 : Bar) (a2 : Nat) (a3 : Nat) (a4 : Nat) (a5 : Nat) : Keeps 144115188075855868 s (@State.write s a1 a2 a3 a4 a5) := by
  unfold State.write
  refine .ite (fun _ => ?_) (fun _ => ?_)
  · exact .app (.refl _ _) (State.minor_keeps _ _) rfl
  · split
    · exact .app (.refl _ _) (State.writeReg_keeps _ _ _ _) rfl
    · exact .app (.refl _ _) (State.writeReg4_keeps _ _ _ _) rfl

theorem State.refuse_keeps (s : State) (a1 : Nat) : Keeps 19984723346622476 s (@State.refuse s a1) := by
  unfold State.refuse
  refine .ite (fun _ => ?_) (fun _ => ?_)
  · exact .refl _ _
  · extract_lets x407_0 x407_1
    have hx407_0 : Keeps 19984723346622476 s x407_0 := by
      unfold x407_0
      exact .app (.app (.refl _ _) (State.setF_keeps _ _ _) rfl) (State.setF_keeps _ _ _) rfl
    have hx407_1 : Keeps 19984723346622476 s x407_1 := by
      unfold x407_1
      exact .app (.app hx407_0 (State.setTwin_keeps _ _ _) rfl) (State.raiseTWN_keeps _ _) rfl
    exact .app (.app (.app hx407_1 (State.twinCairn_keeps _ _ _) rfl) (State.ropeSolo_keeps _) rfl) (State.leapLost_keeps _) rfl

theorem execDrainTimeout_keeps (a0 : Nat) (s : State) {t : State} (h : execDrainTimeout a0 s = .next t) : Keeps 62513895909330572 s t := by
  unfold execDrainTimeout at h
  cases h
  split
  · exact .refl _ _
  · split
    · exact .refl _ _
    · refine .ite (fun _ => ?_) (fun _ => ?_)
      · exact .refl _ _
      · exact .app (.app (.app (.refl _ _) (State.raiseCLS_keeps _ _) rfl) (State.residency_keeps _ _) rfl) (State.event_keeps _ _ _) rfl

theorem State.endTallies_keeps (s : State) (a1 : Frame) (a2 : FrameEndInfo) : Keeps 17592186046476 s (@State.endTallies s a1 a2) := by
  unfold State.endTallies
  extract_lets x408_0 x408_1 x408_2 x408_3
  have hx408_1 : Keeps 17592186046476 s x408_1 := by
    unfold x408_1
    exact .app (.refl _ _) (State.rxTally_keeps _ _ _) rfl
  have hx408_2 : Keeps 17592186046476 s x408_2 := by
    unfold x408_2
    refine .ite (fun _ => ?_) (fun _ => ?_)
    · exact .app hx408_1 (State.portTally_keeps _ _ _ _) rfl
    · exact hx408_1
  refine .ite (fun _ => ?_) (fun _ => ?_)
  · exact .app (.app (.app (.refl _ _) (State.portTally_keeps _ _ _ _) rfl) (State.portTally_keeps _ _ _ _) rfl) (State.bwAdd_keeps _ _ _ _) rfl
  · refine .ite (fun _ => ?_) (fun _ => ?_)
    · exact hx408_2
    · refine .ite (fun _ => ?_) (fun _ => ?_)
      · exact .app hx408_2 (State.portTally_keeps _ _ _ _) rfl
      · refine .ite (fun _ => ?_) (fun _ => ?_)
        · exact .app hx408_2 (State.portTally_keeps _ _ _ _) rfl
        · exact .app hx408_2 (State.portTally_keeps _ _ _ _) rfl

theorem execAdd_keeps (a0 : Nat) (a1 : Nat) (a2 : Nat) (a3 : Nat) (a4 : Nat) (s : State) {t : State} (h : execAdd a0 a1 a2 a3 a4 s = .next t) : Keeps 62513895921913484 s t := by
  unfold execAdd at h
  cases h
  refine .issue ?_ rfl (fun u409 a409 b409 => ?_)
  · exact .refl _ _
  · exact .app (.refl _ _) (State.aluAdd_keeps _ _ _ _ _) rfl

theorem execLdm_keeps (a0 : Nat) (a1 : Nat) (a2 : Nat) (s : State) {t : State} (h : execLdm a0 a1 a2 s = .next t) : Keeps 62513895921913484 s t := by
  unfold execLdm at h
  cases h
  refine .issue ?_ rfl (fun u410 a410 b410 => ?_)
  · exact .refl _ _
  · extract_lets x411_0
    exact .app (.refl _ _) (State.putThread_keeps _ _) rfl

theorem execOrW_keeps (a0 : Nat) (a1 : Nat) (a2 : Nat) (a3 : Nat) (a4 : Nat) (s : State) {t : State} (h : execOrW a0 a1 a2 a3 a4 s = .next t) : Keeps 62513895921913484 s t := by
  unfold execOrW at h
  cases h
  refine .issue ?_ rfl (fun u412 a412 b412 => ?_)
  · exact .refl _ _
  · exact .app (.refl _ _) (State.aluFree_keeps _ _ _ _) rfl

theorem execSlotProgramDone_keeps (a0 : ImageFile) (s : State) {t : State} (h : execSlotProgramDone a0 s = .next t) : Keeps 281474976710660 s t := by
  unfold execSlotProgramDone at h
  cases h
  refine .ite (fun _ => ?_) (fun _ => ?_)
  · exact .refl _ _
  · extract_lets x413_0 x413_1 x413_2 x413_3 x413_4 x413_5 x413_6
    have hx413_3 : Keeps 281474976710660 s x413_3 := by
      unfold x413_3
      exact .app (.refl _ _) (State.slotResult_keeps _ _ _ _) rfl
    have hx413_4 : Keeps 281474976710660 s x413_4 := by
      unfold x413_4
      refine .ite (fun _ => ?_) (fun _ => ?_)
      · exact hx413_3
      · exact .app hx413_3 (State.slotFail_keeps _ _ _) rfl
    have hx413_6 : Keeps 281474976710660 s x413_6 := by
      unfold x413_6
      exact .app hx413_4 (keeps_load _ _) rfl
    refine .app ?_ (State.failPush_keeps _ _) rfl
    refine .ite (fun _ => ?_) (fun _ => ?_)
    · exact .app hx413_6 (State.setF_keeps _ _ _) rfl
    · exact hx413_6

theorem State.eyeTake_keeps (s : State) (a1 : Nat × Nat × Nat) : Keeps 4 s (@State.eyeTake s a1) := by
  unfold State.eyeTake
  refine .ite (fun _ => ?_) (fun _ => ?_)
  · exact .app (.app (.refl _ _) (State.setF_keeps _ _ _) rfl) (State.setF_keeps _ _ _) rfl
  · exact .refl _ _

theorem State.retuneSteps_keeps (s : State) (a1 : Nat) (a2 : List RetuneStep) : Keeps 268435460 s (@State.retuneSteps s a1 a2) := by
  induction a2 generalizing s a1 with
  | nil =>
    simp only [State.retuneSteps]
    exact .refl _ _
  | cons b l ih =>
    simp only [State.retuneSteps]
    refine .ite (fun _ => ?_) (fun _ => ?_)
    · refine .app (k := 268435460) ?_ (ih _ _) rfl
      exact .app (.app (.app (.refl _ _) (State.count_keeps _ _ _) rfl) (keeps_lanes _ _) rfl) (State.eyeTake_keeps _ _) rfl
    · exact .app (.refl _ _) (State.count_keeps _ _ _) rfl

theorem State.retunes_keeps (s : State) (a1 : List (Nat × List RetuneStep)) : Keeps 268435460 s (@State.retunes s a1) := by
  induction a1 generalizing s with
  | nil =>
    simp only [State.retunes]
    exact .refl _ _
  | cons b l ih =>
    simp only [State.retunes]
    refine .app (k := 268435460) ?_ (ih _) rfl
    refine .ite (fun _ => ?_) (fun _ => ?_)
    · exact .app (.refl _ _) (State.retuneSteps_keeps _ _ _) rfl
    · exact .refl _ _

theorem State.takeBytes_keeps (s : State) (a1 : Frame) (a2 : List Byte) (a3 : Frame → Nat) : Keeps 36029003297982492 s (@State.takeBytes s a1 a2 a3) := by
  unfold State.takeBytes
  extract_lets x414_0
  exact .app (.app (.app (.refl _ _) (State.putFrame_keeps _ _) rfl) (State.claimBeads_keeps _ _ _) rfl) (State.lateSdu_keeps _ _ _) rfl

theorem execFrameDataBeadRequest_keeps (a0 : Nat) (a1 : List Byte) (s : State) {t : State} (h : execFrameDataBeadRequest a0 a1 s = .next t) : Keeps 36029003297982492 s t := by
  unfold execFrameDataBeadRequest at h
  cases h
  split
  · refine .ite (fun _ => ?_) (fun _ => ?_)
    · exact .refl _ _
    · exact .app (.refl _ _) (State.takeBytes_keeps _ _ _ _) rfl
  · exact .refl _ _

theorem State.imageWait_keeps (s : State) : Keeps 128351696148081180 s (@State.imageWait s) := by
  unfold State.imageWait
  extract_lets x415_0 x415_1 x415_2 x415_3
  have hx415_1 : Keeps 128351696148081180 s x415_1 := by
    unfold x415_1
    exact .app (.refl _ _) (keeps_load _ _) rfl
  have hx415_2 : Keeps 128351696148081180 s x415_2 := by
    unfold x415_2
    refine .ite (fun _ => ?_) (fun _ => ?_)
    · exact .app hx415_1 (State.reimage_keeps _ _) rfl
    · exact hx415_1
  exact .app (.app hx415_2 (keeps_load _ _) rfl) (State.imgState_keeps _ _) rfl

theorem State.adoptNext_keeps (s : State) (a1 : List (Nat × Nat)) : Keeps 16 s (@State.adoptNext s a1) := by
  induction a1 generalizing s with
  | nil =>
    simp only [State.adoptNext]
    exact .refl _ _
  | cons b l ih =>
    simp only [State.adoptNext]
    refine .app (k := 16) ?_ (ih _) rfl
    split
    · refine .ite (fun _ => ?_) (fun _ => ?_)
      · exact .app (.refl _ _) (State.putFrer_keeps _ _ _ _ _) rfl
      · exact .refl _ _
    · exact .refl _ _

theorem execWakeAlarm_keeps (s : State) {t : State} (h : execWakeAlarm s = .next t) : Keeps 19703248369780748 s t := by
  unfold execWakeAlarm at h
  cases h
  refine .ite (fun _ => ?_) (fun _ => ?_)
  · refine .wake ?_ rfl (fun u416 => ?_)
    · exact .refl _ _
    · exact .app (.refl _ _) (State.setF_keeps _ _ _) rfl
  · exact .refl _ _

theorem execDmaStop_keeps (a0 : Nat) (s : State) {t : State} (h : execDmaStop a0 s = .next t) : Keeps 2251799813685248 s t := by
  unfold execDmaStop at h
  cases h
  exact .app (.refl _ _) (State.dmaStop_keeps _ _) rfl

theorem State.grant_keeps (s : State) (a1 : Nat) (a2 : Nat) : Keeps 4 s (@State.grant s a1 a2) := by
  unfold State.grant
  extract_lets x417_0
  exact .app (.refl _ _) (State.setDeficit_keeps _ _ _ _) rfl

theorem execAscentLanesSettled_keeps (s : State) {t : State} (h : execAscentLanesSettled s = .next t) : Keeps 19703248369911820 s t := by
  unfold execAscentLanesSettled at h
  cases h
  refine .ite (fun _ => ?_) (fun _ => ?_)
  · extract_lets x418_0 x418_1 x418_2 x418_3 x418_4
    have hx418_2 : Keeps 19703248369911820 s x418_2 := by
      unfold x418_2
      refine .upd (t := s) ?_ (by intro p hp; cases p <;> first | exact absurd hp (by decide) | rfl) rfl rfl rfl rfl rfl rfl rfl rfl rfl
      exact .refl _ _
    refine .ite (fun _ => ?_) (fun _ => ?_)
    · refine .ite (fun _ => ?_) (fun _ => ?_)
      · exact hx418_2
      · exact .app hx418_2 (State.ropeBegins_keeps _) rfl
    · exact .app (.app hx418_2 (keeps_rope _ _) rfl) (State.enterRun_keeps _ _ _) rfl
  · exact .refl _ _

theorem execXtalStable_keeps (s : State) {t : State} (h : execXtalStable s = .next t) : Keeps 32768 s t := by
  unfold execXtalStable at h
  cases h
  refine .ite (fun _ => ?_) (fun _ => ?_)
  · exact .app (.refl _ _) (keeps_mode _ _) rfl
  · exact .refl _ _

theorem State.dramRead_keeps (s : State) (a1 : DramDone) : Keeps 62513895909330572 s (@State.dramRead s a1) := by
  unfold State.dramRead
  extract_lets x419_0 x419_1
  split
  · refine .ite (fun _ => ?_) (fun _ => ?_)
    · exact .app (.app (.refl _ _) (State.count_keeps _ _ _) rfl) (State.dramUe_keeps _ _ _) rfl
    · refine .ite (fun _ => ?_) (fun _ => ?_)
      · exact .app (.app (.refl _ _) (State.count_keeps _ _ _) rfl) (State.dramUe_keeps _ _ _) rfl
      · unfold x419_1
        split
        · exact .app (.app (.refl _ _) (State.count_keeps _ _ _) rfl) (State.dramUe_keeps _ _ _) rfl
        · exact .app (.app (.refl _ _) (State.count_keeps _ _ _) rfl) (State.dramUe_keeps _ _ _) rfl
        · refine .ite (fun _ => ?_) (fun _ => ?_)
          · exact .app (.app (.refl _ _) (State.count_keeps _ _ _) rfl) (State.dramUe_keeps _ _ _) rfl
          · exact .app (.app (.app (.refl _ _) (State.count_keeps _ _ _) rfl) (State.count_keeps _ _ _) rfl) (State.event_keeps _ _ _) rfl
        · refine .ite (fun _ => ?_) (fun _ => ?_)
          · exact .app (.app (.refl _ _) (State.count_keeps _ _ _) rfl) (State.dramUe_keeps _ _ _) rfl
          · exact .app (.refl _ _) (State.count_keeps _ _ _) rfl
  · refine .ite (fun _ => ?_) (fun _ => ?_)
    · exact .app (.refl _ _) (State.dramUe_keeps _ _ _) rfl
    · refine .ite (fun _ => ?_) (fun _ => ?_)
      · exact .app (.app (.refl _ _) (State.count_keeps _ _ _) rfl) (State.dramUe_keeps _ _ _) rfl
      · unfold x419_1
        split
        · exact .app (.refl _ _) (State.dramUe_keeps _ _ _) rfl
        · exact .app (.refl _ _) (State.dramUe_keeps _ _ _) rfl
        · refine .ite (fun _ => ?_) (fun _ => ?_)
          · exact .app (.refl _ _) (State.dramUe_keeps _ _ _) rfl
          · exact .app (.app (.refl _ _) (State.count_keeps _ _ _) rfl) (State.event_keeps _ _ _) rfl
        · refine .ite (fun _ => ?_) (fun _ => ?_)
          · exact .app (.refl _ _) (State.dramUe_keeps _ _ _) rfl
          · exact .refl _ _
  · unfold x419_1
    split
    · exact .app (.refl _ _) (State.dramUe_keeps _ _ _) rfl
    · exact .app (.refl _ _) (State.dramUe_keeps _ _ _) rfl
    · refine .ite (fun _ => ?_) (fun _ => ?_)
      · exact .app (.refl _ _) (State.dramUe_keeps _ _ _) rfl
      · exact .app (.app (.refl _ _) (State.count_keeps _ _ _) rfl) (State.event_keeps _ _ _) rfl
    · refine .ite (fun _ => ?_) (fun _ => ?_)
      · exact .app (.refl _ _) (State.dramUe_keeps _ _ _) rfl
      · exact .refl _ _

theorem execLanRetrain_keeps (a0 : Nat) (s : State) {t : State} (h : execLanRetrain a0 s = .next t) : Keeps 36609382631475212 s t := by
  unfold execLanRetrain at h
  cases h
  exact .app (.refl _ _) (State.doLanRetrain_keeps _ _) rfl

theorem State.localClear_keeps (s : State) (a1 : Nat) : Keeps 2052 s (@State.localClear s a1) := by
  unfold State.localClear
  refine .ite (fun _ => ?_) (fun _ => ?_)
  · exact .app (.app (.refl _ _) (State.setF_keeps _ _ _) rfl) (State.macSend_keeps _ _ _ _) rfl
  · exact .refl _ _

theorem State.eyeTakes_keeps (s : State) (a1 : List (Nat × Nat × Nat)) : Keeps 4 s (@State.eyeTakes s a1) := by
  induction a1 generalizing s with
  | nil =>
    simp only [State.eyeTakes]
    exact .refl _ _
  | cons b l ih =>
    simp only [State.eyeTakes]
    refine .app (k := 4) ?_ (ih _) rfl
    exact .app (.refl _ _) (State.eyeTake_keeps _ _) rfl

theorem State.restored_keeps (s : State) (a1 : Reaction) : Keeps 566248743241756 s (@State.restored s a1) := by
  unfold State.restored
  split
  · exact .app (.app (.refl _ _) (State.reloadQuad_keeps _ _) rfl) (State.portsUp_keeps _ _) rfl
  · exact .refl _ _

theorem execTwnSwap_keeps (a0 : Nat) (a1 : Bool) (s : State) {t : State} (h : execTwnSwap a0 a1 s = .next t) : Keeps 36609382363040780 s t := by
  unfold execTwnSwap at h
  cases h
  refine .app ?_ (State.askSwap_keeps _ _) rfl
  refine .ite (fun _ => ?_) (fun _ => ?_)
  · exact .refl _ _
  · exact .app (.refl _ _) (State.setF_keeps _ _ _) rfl

theorem execDramWindowWrite_keeps (a0 : Nat) (a1 : List Byte) (a2 : Nat) (s : State) {t : State} (h : execDramWindowWrite a0 a1 a2 s = .next t) : Keeps 62654633398210236 s t := by
  unfold execDramWindowWrite at h
  cases h
  refine .ite (fun _ => ?_) (fun _ => ?_)
  · exact .app (.refl _ _) (State.dramWrite_keeps _ _ _ _) rfl
  · exact .refl _ _

theorem execTableCommandComplete_keeps (s : State) {t : State} (h : execTableCommandComplete s = .next t) : Keeps 134750710343110332 s t := by
  unfold execTableCommandComplete at h
  cases h
  split
  · exact .refl _ _
  · extract_lets x420_0 x420_1 x420_2 x420_3 x420_4 x420_5
    have hx420_0 : Keeps 134750710343110332 s x420_0 := by
      unfold x420_0
      exact .app (.refl _ _) (keeps_cmd _ _) rfl
    have hx420_1 : Keeps 134750710343110332 s x420_1 := by
      unfold x420_1
      exact .app (.app hx420_0 (State.setF_keeps _ _ _) rfl) (State.setF_keeps _ _ _) rfl
    have hx420_2 : Keeps 134750710343110332 s x420_2 := by
      unfold x420_2
      split
      · exact .app (.app (.app hx420_1 (State.setF_keeps _ _ _) rfl) (State.setF_keeps _ _ _) rfl) (State.setF_keeps _ _ _) rfl
      · exact .app hx420_1 (State.setF_keeps _ _ _) rfl
    have hx420_3 : Keeps 134750710343110332 s x420_3 := by
      unfold x420_3
      exact .app hx420_2 (State.raiseFWD_keeps _ _) rfl
    have hx420_5 : Keeps 134750710343110332 s x420_5 := by
      unfold x420_5
      refine .ite (fun _ => ?_) (fun _ => ?_)
      · exact .app (.app hx420_3 (State.postLearn_keeps _ _) rfl) (State.raiseFWD_keeps _ _) rfl
      · exact hx420_3
    exact .app hx420_5 (State.applyHelds_keeps _ _) rfl

theorem State.pauseRx_keeps (s : State) (a1 : Nat) (a2 : Nat) (a3 : Nat) (a4 : Bool) (a5 : List (Nat × Nat)) : Keeps 17592320264204 s (@State.pauseRx s a1 a2 a3 a4 a5) := by
  unfold State.pauseRx
  refine .ite (fun _ => ?_) (fun _ => ?_)
  · exact .app (.app (.app (.refl _ _) (State.portTally_keeps _ _ _ _) rfl) (State.portTally_keeps _ _ _ _) rfl) (State.portTally_keeps _ _ _ _) rfl
  · extract_lets x421_0 x421_1 x421_2 x421_3 x421_4 x421_5 x421_6 x421_7
    have hx421_0 : Keeps 17592320264204 s x421_0 := by
      unfold x421_0
      exact .app (.refl _ _) (State.rxTally_keeps _ _ _) rfl
    have hx421_1 : Keeps 17592320264204 s x421_1 := by
      unfold x421_1
      exact .app hx421_0 (State.portTally_keeps _ _ _ _) rfl
    have hx421_2 : Keeps 17592320264204 s x421_2 := by
      unfold x421_2
      exact .app hx421_1 (State.portTally_keeps _ _ _ _) rfl
    have hx421_6 : Keeps 17592320264204 s x421_6 := by
      unfold x421_6
      exact .app (.app hx421_1 (State.portTally_keeps _ _ _ _) rfl) (State.pfcTallies_keeps _ _ _ _) rfl
    have hx421_7 : Keeps 17592320264204 s x421_7 := by
      unfold x421_7
      refine .ite (fun _ => ?_) (fun _ => ?_)
      · exact .app hx421_6 (State.portTally_keeps _ _ _ _) rfl
      · exact hx421_6
    refine .ite (fun _ => ?_) (fun _ => ?_)
    · exact .app hx421_0 (State.portTally_keeps _ _ _ _) rfl
    · refine .ite (fun _ => ?_) (fun _ => ?_)
      · exact .app hx421_1 (State.portTally_keeps _ _ _ _) rfl
      · refine .ite (fun _ => ?_) (fun _ => ?_)
        · refine .ite (fun _ => ?_) (fun _ => ?_)
          · exact .app (.app hx421_2 (State.pauseTimers_keeps _ _ _) rfl) (State.pauseShow_keeps _ _) rfl
          · exact hx421_2
        · refine .ite (fun _ => ?_) (fun _ => ?_)
          · exact .app (.app hx421_7 (State.pauseTimers_keeps _ _ _) rfl) (State.pauseShow_keeps _ _) rfl
          · exact hx421_7

theorem execPauseFrameRx_keeps (a0 : Nat) (a1 : Nat) (a2 : Bool) (a3 : List (Nat × Nat)) (s : State) {t : State} (h : execPauseFrameRx a0 a1 a2 a3 s = .next t) : Keeps 17592320264204 s t := by
  unfold execPauseFrameRx at h
  cases h
  refine .ite (fun _ => ?_) (fun _ => ?_)
  · exact .refl _ _
  · exact .app (.refl _ _) (State.pauseRx_keeps _ _ _ _ _ _) rfl

theorem State.advanceIndex_keeps (s : State) : Keeps 133132 s (@State.advanceIndex s) := by
  unfold State.advanceIndex
  extract_lets x422_0 x422_1 x422_2 x422_3 x422_4
  have hx422_1 : Keeps 133132 s x422_1 := by
    unfold x422_1
    exact .app (.refl _ _) (State.setF_keeps _ _ _) rfl
  have hx422_2 : Keeps 133132 s x422_2 := by
    unfold x422_2
    exact .app hx422_1 (State.raiseCRN_keeps _ _) rfl
  have hx422_4 : Keeps 133132 s x422_4 := by
    unfold x422_4
    refine .ite (fun _ => ?_) (fun _ => ?_)
    · exact .app hx422_2 (keeps_crn _ _ rfl) rfl
    · exact hx422_1
  refine .ite (fun _ => ?_) (fun _ => ?_)
  · exact .app (.app hx422_4 (State.setF_keeps _ _ _) rfl) (State.raiseCRN_keeps _ _) rfl
  · exact hx422_4

theorem State.putSlot_keeps (s : State) (a1 : Nat) (a2 : Cairn) (a3 : Bool) : Keeps 131072 s (s.putSlot a1 a2 a3) := by
  unfold State.putSlot
  exact keeps_mram s _ _

theorem execCairnWrite_keeps (a0 : Bool) (s : State) {t : State} (h : execCairnWrite a0 s = .next t) : Keeps 62513895909330572 s t := by
  unfold execCairnWrite at h
  cases h
  split
  · exact .refl _ _
  · refine .ite (fun _ => ?_) (fun _ => ?_)
    · exact .refl _ _
    · refine .ite (fun _ => ?_) (fun _ => ?_)
      · extract_lets x423_0 x423_1
        have hx423_0 : Keeps 62513895909330572 s x423_0 := by
          unfold x423_0
          exact .app (.refl _ _) (State.count_keeps _ _ _) rfl
        exact .app hx423_0 (keeps_crn _ _ rfl) rfl
      · extract_lets x424_0
        refine .ite (fun _ => ?_) (fun _ => ?_)
        · exact .app (.refl _ _) (State.advanceIndex_keeps _) rfl
        · refine .ite (fun _ => ?_) (fun _ => ?_)
          · exact .app (.app (.app (.refl _ _) (State.putSlot_keeps _ _ _ _) rfl) (State.advanceIndex_keeps _) rfl) (State.event_keeps _ _ _) rfl
          · exact .app (.app (.app (.refl _ _) (State.putSlot_keeps _ _ _ _) rfl) (State.recQueue_keeps _ _) rfl) (State.advanceIndex_keeps _) rfl

theorem State.joinSegments_keeps (s : State) (a1 : Nat) (a2 : Nat) : Keeps 33554432 s (@State.joinSegments s a1 a2) := by
  unfold State.joinSegments
  refine .ite (fun _ => ?_) (fun _ => ?_)
  · exact .app (.refl _ _) (keeps_copies _ _) rfl
  · exact .refl _ _

theorem execDqxRefill_keeps (a0 : Nat) (a1 : Nat) (a2 : Bool) (s : State) {t : State} (h : execDqxRefill a0 a1 a2 s = .next t) : Keeps 120588300 s t := by
  unfold execDqxRefill at h
  cases h
  extract_lets x425_0
  split
  · exact .refl _ _
  · refine .ite (fun _ => ?_) (fun _ => ?_)
    · exact .refl _ _
    · refine .ite (fun _ => ?_) (fun _ => ?_)
      · exact .app (.app (.app (.refl _ _) (State.count_keeps _ _ _) rfl) (State.dropCopy_keeps _ _ _) rfl) (State.joinSegments_keeps _ _ _) rfl
      · extract_lets x426_0
        have hx426_0 : Keeps 120588300 s x426_0 := by
          unfold x426_0
          exact .app (.refl _ _) (State.refillBeads_keeps _ _ _ _) rfl
        split
        · refine .ite (fun _ => ?_) (fun _ => ?_)
          · exact hx426_0
          · extract_lets x427_0 x427_1 x427_2 x427_3
            have hx427_0 : Keeps 120588300 s x427_0 := by
              unfold x427_0
              exact .app (.app hx426_0 (State.dec_keeps _ _ _) rfl) (State.dec_keeps _ _ _) rfl
            have hx427_3 : Keeps 120588300 s x427_3 := by
              unfold x427_3
              exact .app hx427_0 (keeps_buf _ _) rfl
            exact .app (.app (.app hx427_3 (State.putCopy_keeps _ _) rfl) (State.depthAdd_keeps _ _) rfl) (State.joinSegments_keeps _ _ _) rfl
        · exact hx426_0

theorem execHoldPendingExecute_keeps (s : State) {t : State} (h : execHoldPendingExecute s = .next t) : Keeps 55169095555976204 s t := by
  unfold execHoldPendingExecute at h
  cases h
  refine .ite (fun _ => ?_) (fun _ => ?_)
  · exact .app (.refl _ _) (State.hostHold_keeps _) rfl
  · exact .refl _ _

theorem execLeapMsgRx_keeps (a0 : Nat) (s : State) {t : State} (h : execLeapMsgRx a0 s = .next t) : Keeps 62795370886041244 s t := by
  unfold execLeapMsgRx at h
  cases h
  refine .stateRx ?_ rfl (fun u428 => ?_)
  · exact .refl _ _
  · refine .ite (fun _ => ?_) (fun _ => ?_)
    · exact .refl _ _
    · extract_lets x429_0 x429_1 x429_2 x429_3 x429_4 x429_5
      have hx429_0 : Keeps 62795370886041244 u428 x429_0 := by
        unfold x429_0
        exact .app (.app (.refl _ _) (State.imgState_keeps _ _) rfl) (State.setF_keeps _ _ _) rfl
      have hx429_3 : Keeps 62795370886041244 u428 x429_3 := by
        unfold x429_3
        refine .ite (fun _ => ?_) (fun _ => ?_)
        · refine .upd (t := x429_0) ?_ (by intro p hp; cases p <;> first | exact absurd hp (by decide) | rfl) rfl rfl rfl rfl rfl rfl rfl rfl rfl
          exact hx429_0
        · exact .refl _ _
      have hx429_4 : Keeps 62795370886041244 u428 x429_4 := by
        unfold x429_4
        exact .app (.app hx429_3 (State.takeOver_keeps _ _) rfl) (State.setTwin_keeps _ _ _) rfl
      exact .app (.app hx429_4 (keeps_rope _ _) rfl) (State.raiseTWN_keeps _ _) rfl

theorem execDramRetrain_keeps (s : State) {t : State} (h : execDramRetrain s = .next t) : Keeps 1125899906842624 s t := by
  unfold execDramRetrain at h
  cases h
  exact .app (.refl _ _) (State.doDramRetrain_keeps _) rfl

theorem execDequeueEgressPass_keeps (a0 : Nat) (a1 : Nat) (s : State) {t : State} (h : execDequeueEgressPass a0 a1 s = .next t) : Keeps 33554432 s t := by
  unfold execDequeueEgressPass at h
  cases h
  split
  · refine .ite (fun _ => ?_) (fun _ => ?_)
    · exact .app (.refl _ _) (State.putCopy_keeps _ _) rfl
    · exact .refl _ _
  · exact .refl _ _

theorem State.sourceCairns_keeps (s : State) (a1 : List (Nat × Nat × Nat × Nat)) : Keeps 133132 s (@State.sourceCairns s a1) := by
  induction a1 generalizing s with
  | nil =>
    simp only [State.sourceCairns]
    exact .refl _ _
  | cons b l ih =>
    simp only [State.sourceCairns]
    refine .app (k := 133132) ?_ (ih _) rfl
    refine .ite (fun _ => ?_) (fun _ => ?_)
    · exact .refl _ _
    · exact .app (.refl _ _) (State.cairn_keeps _ _ _ _ _) rfl

theorem execRopeFcRx_keeps (a0 : Nat) (s : State) {t : State} (h : execRopeFcRx a0 s = .next t) : Keeps 562949953421316 s t := by
  unfold execRopeFcRx at h
  cases h
  refine .ite (fun _ => ?_) (fun _ => ?_)
  · exact .refl _ _
  · extract_lets x430_0 x430_1 x430_2
    have hx430_2 : Keeps 562949953421316 s x430_2 := by
      unfold x430_2
      exact .app (.refl _ _) (keeps_rope _ _) rfl
    exact .app hx430_2 (State.setF_keeps _ _ _) rfl

theorem State.startThread_keeps (s : State) (a1 : Nat) (a2 : Nat) (a3 : Target) (a4 : Nat) : Keeps 1048580 s (@State.startThread s a1 a2 a3 a4) := by
  unfold State.startThread
  extract_lets x431_0
  have hx431_0 : Keeps 1048580 s x431_0 := by
    unfold x431_0
    exact .app (.refl _ _) (keeps_threads _ _) rfl
  exact .app hx431_0 (State.maxF_keeps _ _ _) rfl

theorem execRailRetry_keeps (s : State) {t : State} (h : execRailRetry s = .next t) : Keeps 34816 s t := by
  unfold execRailRetry at h
  cases h
  refine .ite (fun _ => ?_) (fun _ => ?_)
  · extract_lets x432_0 x432_1
    have hx432_0 : Keeps 34816 s x432_0 := by
      unfold x432_0
      exact .app (.app (.refl _ _) (State.rails_keeps _ _ _) rfl) (State.rails_keeps _ _ _) rfl
    exact .app hx432_0 (keeps_mode _ _) rfl
  · exact .refl _ _

theorem execDramTrainingDone_keeps (a0 : List Nat) (s : State) {t : State} (h : execDramTrainingDone a0 s = .next t) : Keeps 38017573559384124 s t := by
  unfold execDramTrainingDone at h
  cases h
  refine .ite (fun _ => ?_) (fun _ => ?_)
  · exact .app (.refl _ _) (State.trained_keeps _ _) rfl
  · exact .refl _ _

theorem execLearnHoldExpiry_keeps (a0 : Nat) (s : State) {t : State} (h : execLearnHoldExpiry a0 s = .next t) : Keeps 72127962782107660 s t := by
  unfold execLearnHoldExpiry at h
  cases h
  split
  · exact .refl _ _
  · refine .ite (fun _ => ?_) (fun _ => ?_)
    · exact .refl _ _
    · extract_lets x433_0 x433_1 x433_2
      have hx433_0 : Keeps 72127962782107660 s x433_0 := by
        unfold x433_0
        exact .app (.refl _ _) (keeps_filt _ _) rfl
      have hx433_1 : Keeps 72127962782107660 s x433_1 := by
        unfold x433_1
        exact .app hx433_0 (State.setF_keeps _ _ _) rfl
      exact .app hx433_1 (State.postLearn_keeps _ _) rfl

theorem State.helloAcked_keeps (s : State) : Keeps 19703248369911820 s (@State.helloAcked s) := by
  unfold State.helloAcked
  extract_lets x434_0 x434_1
  have hx434_1 : Keeps 19703248369911820 s x434_1 := by
    unfold x434_1
    exact .app (.refl _ _) (keeps_rope _ _) rfl
  refine .ite (fun _ => ?_) (fun _ => ?_)
  · exact .app hx434_1 (State.pairNow_keeps _) rfl
  · refine .app ?_ (State.pairWhenDone_keeps _) rfl
    refine .ite (fun _ => ?_) (fun _ => ?_)
    · exact hx434_1
    · exact .app hx434_1 (State.resumeNow_keeps _) rfl

theorem State.helloTake_keeps (s : State) (a1 : Hello) : Keeps 19703248369911820 s (@State.helloTake s a1) := by
  unfold State.helloTake
  extract_lets x435_0 x435_1 x435_2 x435_3 x435_4
  have hx435_0 : Keeps 19703248369911820 s x435_0 := by
    unfold x435_0
    exact .app (.refl _ _) (State.setF_keeps _ _ _) rfl
  have hx435_2 : Keeps 19703248369911820 s x435_2 := by
    unfold x435_2
    refine .ite (fun _ => ?_) (fun _ => ?_)
    · exact hx435_0
    · exact .app (.app hx435_0 (keeps_rope _ _) rfl) (State.setTwin_keeps _ _ _) rfl
  have hx435_4 : Keeps 19703248369911820 s x435_4 := by
    unfold x435_4
    exact .app hx435_2 (keeps_rope _ _) rfl
  refine .ite (fun _ => ?_) (fun _ => ?_)
  · exact .app hx435_4 (State.helloAcked_keeps _) rfl
  · exact hx435_4

theorem execCommitGo_keeps (s : State) {t : State} (h : execCommitGo s = .next t) : Keeps 526348 s t := by
  unfold execCommitGo at h
  cases h
  exact .app (.refl _ _) (State.doCommitGo_keeps _) rfl

theorem execReplanInterval_keeps (s : State) {t : State} (h : execReplanInterval s = .next t) : Keeps 18014398509481988 s t := by
  unfold execReplanInterval at h
  cases h
  extract_lets x436_0 x436_1
  refine .ite (fun _ => ?_) (fun _ => ?_)
  · exact .refl _ _
  · exact .app (.app (.refl _ _) (keeps_age _ _) rfl) (State.replan_keeps _) rfl

theorem execGateChange_keeps (a0 : GateId) (s : State) {t : State} (h : execGateChange a0 s = .next t) : Keeps 62513900204297868 s t := by
  unfold execGateChange at h
  cases h
  exact .app (.refl _ _) (State.doGateChange_keeps _ _) rfl

theorem execSampleRecord_keeps (a0 : Nat) (a1 : Nat) (s : State) {t : State} (h : execSampleRecord a0 a1 s = .next t) : Keeps 2097156 s t := by
  unfold execSampleRecord at h
  cases h
  split
  · exact .refl _ _
  · exact .app (.refl _ _) (State.writeSample_keeps _ _) rfl

theorem State.dramBack_keeps (s : State) : Keeps 1125899906875392 s (@State.dramBack s) := by
  unfold State.dramBack
  refine .upd (t := s) ?_ (by intro p hp; cases p <;> first | exact absurd hp (by decide) | rfl) rfl rfl rfl rfl rfl rfl rfl rfl rfl
  exact .refl _ _

theorem execClearPorts_keeps (s : State) {t : State} (h : execClearPorts s = .next t) : Keeps 4 s t := by
  unfold execClearPorts at h
  cases h
  exact .app (.refl _ _) (State.clearPorts_keeps _) rfl

theorem execDomainStep_keeps (a0 : Nat) (s : State) {t : State} (h : execDomainStep a0 s = .next t) : Keeps 62513895909592716 s t := by
  unfold execDomainStep at h
  cases h
  exact .app (.refl _ _) (State.doDomainStep_keeps _ _) rfl

theorem execDmaShutdown_keeps (a0 : Nat) (s : State) {t : State} (h : execDmaShutdown a0 s = .next t) : Keeps 2251799813685252 s t := by
  unfold execDmaShutdown at h
  cases h
  refine .ite (fun _ => ?_) (fun _ => ?_)
  · exact .refl _ _
  · exact .app (.refl _ _) (State.dmaShutdown_keeps _ _) rfl

theorem execAscentPllLock_keeps (s : State) {t : State} (h : execAscentPllLock s = .next t) : Keeps 294912 s t := by
  unfold execAscentPllLock at h
  cases h
  refine .ite (fun _ => ?_) (fun _ => ?_)
  · exact .app (.app (.refl _ _) (keeps_mode _ _) rfl) (State.loadLocal_keeps _) rfl
  · refine .ite (fun _ => ?_) (fun _ => ?_)
    · exact .app (.refl _ _) (keeps_mode _ _) rfl
    · exact .refl _ _

theorem execXor_keeps (a0 : Nat) (a1 : Nat) (a2 : Nat) (a3 : Nat) (a4 : Nat) (s : State) {t : State} (h : execXor a0 a1 a2 a3 a4 s = .next t) : Keeps 62513895921913484 s t := by
  unfold execXor at h
  cases h
  refine .issue ?_ rfl (fun u437 a437 b437 => ?_)
  · exact .refl _ _
  · exact .app (.refl _ _) (State.aluFree_keeps _ _ _ _) rfl

theorem execAonPowerOn_keeps (a0 : Bool) (s : State) {t : State} (h : execAonPowerOn a0 s = .next t) : Keeps 144115188075838460 s t := by
  unfold execAonPowerOn at h
  cases h
  extract_lets _ _ _ _ t
  have ht : Keeps 144115188075838460 s t := by
    refine ⟨by intro p hp; cases p <;> first | exact absurd hp (by decide) | rfl, fun h => ?_, List.suffix_refl _, Nat.le_refl _⟩
    exact ⟨rfl, rfl, rfl, rfl, h.2.2.2.2.1, rfl, fun x hx => by cases hx⟩
  clear_value t
  exact .app (.app ht (State.loadFixed_keeps _) rfl) (State.refreshRules_keeps _) rfl

theorem execRegisterWrite_keeps (a0 : Bar) (a1 : Nat) (a2 : Nat) (a3 : Nat) (a4 : Nat) (s : State) {t : State} (h : execRegisterWrite a0 a1 a2 a3 a4 s = .next t) : Keeps 144115188075855868 s t := by
  unfold execRegisterWrite at h
  cases h
  exact .app (.refl _ _) (State.write_keeps _ _ _ _ _ _) rfl

theorem execReadClear_keeps (a0 : Bar) (a1 : Nat) (a2 : Nat) (a3 : Nat) (s : State) {t : State} (h : execReadClear a0 a1 a2 a3 s = .next t) : Keeps 62513895909592780 s t := by
  unfold execReadClear at h
  cases h
  exact .app (.refl _ _) (State.read_keeps _ _ _ _ _) rfl

theorem execBar2Write_keeps (a0 : Nat) (a1 : Nat) (a2 : Nat) (s : State) {t : State} (h : execBar2Write a0 a1 a2 s = .next t) : Keeps 62657931933093564 s t := by
  unfold execBar2Write at h
  cases h
  refine .ite (fun _ => ?_) (fun _ => ?_)
  · refine .ite (fun _ => ?_) (fun _ => ?_)
    · exact .app (.refl _ _) (State.dramWrite_keeps _ _ _ _) rfl
    · exact .app (.refl _ _) (State.minor_keeps _ _) rfl
  · exact .app (.refl _ _) (State.bar2Write_keeps _ _ _ _) rfl

theorem execTcamRowWrite_keeps (a0 : Nat) (a1 : Nat) (s : State) {t : State} (h : execTcamRowWrite a0 a1 s = .next t) : Keeps 62657931933093564 s t := by
  unfold execTcamRowWrite at h
  cases h
  refine .ite (fun _ => ?_) (fun _ => ?_)
  · exact .app (.refl _ _) (State.bar2Write_keeps _ _ _ _) rfl
  · exact .refl _ _

theorem execMeterRecordWrite_keeps (a0 : Nat) (a1 : Nat) (s : State) {t : State} (h : execMeterRecordWrite a0 a1 s = .next t) : Keeps 62657931933093564 s t := by
  unfold execMeterRecordWrite at h
  cases h
  refine .ite (fun _ => ?_) (fun _ => ?_)
  · exact .app (.refl _ _) (State.bar2Write_keeps _ _ _ _) rfl
  · exact .refl _ _

theorem execFrameArrival_keeps (a0 : Nat) (a1 : Nat) (a2 : Bool) (a3 : Nat) (a4 : List Byte) (s : State) {t : State} (h : execFrameArrival a0 a1 a2 a3 a4 s = .next t) : Keeps 16777216 s t := by
  unfold execFrameArrival at h
  cases h
  refine .ite (fun _ => ?_) (fun _ => ?_)
  · exact .refl _ _
  · extract_lets x438_0 x438_1 x438_2
    split
    · exact .app (.refl _ _) (keeps_frames _ _) rfl
    · exact .app (.refl _ _) (keeps_frames _ _) rfl

theorem execParseThreadStart_keeps (a0 : Nat) (a1 : Nat) (s : State) {t : State} (h : execParseThreadStart a0 a1 s = .next t) : Keeps 17825796 s t := by
  unfold execParseThreadStart at h
  cases h
  split
  · exact .refl _ _
  · refine .ite (fun _ => ?_) (fun _ => ?_)
    · exact .refl _ _
    · extract_lets x439_0 x439_1 x439_2 x439_3
      split
      · exact .refl _ _
      · refine .ite (fun _ => ?_) (fun _ => ?_)
        · exact .refl _ _
        · extract_lets x440_0
          have hx440_0 : Keeps 17825796 s x440_0 := by
            unfold x440_0
            exact .app (.app (.refl _ _) (State.putFrame_keeps _ _) rfl) (State.startThread_keeps _ _ _ _ _) rfl
          exact .app (.app hx440_0 (State.count_keeps _ _ _) rfl) (State.evt_keeps _ _ _ _ _) rfl

theorem execParseSlotTimeout_keeps (a0 : Nat) (s : State) {t : State} (h : execParseSlotTimeout a0 s = .next t) : Keeps 36028797139552268 s t := by
  unfold execParseSlotTimeout at h
  cases h
  split
  · exact .refl _ _
  · extract_lets x441_0
    refine .ite (fun _ => ?_) (fun _ => ?_)
    · exact .app (.app (.refl _ _) (State.count_keeps _ _ _) rfl) (State.dropFrame_keeps _ _ _) rfl
    · exact .refl _ _

theorem execLookupResultReturn_keeps (a0 : Look) (a1 : Bool) (s : State) {t : State} (h : execLookupResultReturn a0 a1 s = .next t) : Keeps 62518293955841692 s t := by
  unfold execLookupResultReturn at h
  cases h
  split
  · split
    · refine .ite (fun _ => ?_) (fun _ => ?_)
      · exact .app (.refl _ _) (State.frameResult_keeps _ _ _) rfl
      · exact .refl _ _
    · exact .refl _ _
  · split
    · refine .ite (fun _ => ?_) (fun _ => ?_)
      · exact .app (.refl _ _) (State.copyResult_keeps _ _ _ _) rfl
      · exact .refl _ _
    · exact .refl _ _
  · split
    · refine .ite (fun _ => ?_) (fun _ => ?_)
      · exact .refl _ _
      · exact .app (.refl _ _) (State.threadResult_keeps _ _ _ _) rfl
    · exact .refl _ _

theorem execEnqueue_keeps (a0 : Nat) (s : State) {t : State} (h : execEnqueue a0 s = .next t) : Keeps 36028805726341132 s t := by
  unfold execEnqueue at h
  cases h
  split
  · refine .ite (fun _ => ?_) (fun _ => ?_)
    · exact .app (.refl _ _) (State.enqueueFrame_keeps _ _) rfl
    · exact .refl _ _
  · exact .refl _ _

theorem State.fecCount_keeps (s : State) (a1 : List (Nat × Nat × Nat)) : Keeps 4 s (@State.fecCount s a1) := by
  induction a1 generalizing s with
  | nil =>
    simp only [State.fecCount]
    exact .refl _ _
  | cons b l ih =>
    simp only [State.fecCount]
    refine .app (k := 4) ?_ (ih _) rfl
    exact .app (.app (.refl _ _) (State.count_keeps _ _ _) rfl) (State.count_keeps _ _ _) rfl

theorem State.macsecVerdict_keeps0 (s : State) (a1 : Frame) : Keeps 536870912 s (@State.macsecVerdict s a1).2 := by
  unfold State.macsecVerdict
  extract_lets x442_0 x442_1
  refine .iteP (fun r : Option Nat × State => r.2) (fun _ => ?_) (fun _ => ?_)
  · refine .snd ?_
    exact .refl _ _
  · split
    · refine .iteP (fun r : Option Nat × State => r.2) (fun _ => ?_) (fun _ => ?_)
      · refine .snd ?_
        exact .refl _ _
      · refine .iteP (fun r : Option Nat × State => r.2) (fun _ => ?_) (fun _ => ?_)
        · refine .snd ?_
          exact .refl _ _
        · refine .snd ?_
          exact .refl _ _
    · extract_lets x443_0 x443_1 x443_2
      refine .iteP (fun r : Option Nat × State => r.2) (fun _ => ?_) (fun _ => ?_)
      · refine .snd ?_
        exact .refl _ _
      · refine .iteP (fun r : Option Nat × State => r.2) (fun _ => ?_) (fun _ => ?_)
        · refine .snd ?_
          exact .refl _ _
        · refine .iteP (fun r : Option Nat × State => r.2) (fun _ => ?_) (fun _ => ?_)
          · refine .snd ?_
            exact .refl _ _
          · refine .snd ?_
            exact .app (.refl _ _) (State.putSa_keeps _ _) rfl

theorem State.macsecVerdict_keeps {s : State} {a1 : Frame} {r0} {t : State} (h : @State.macsecVerdict s a1 = (r0, t)) : Keeps 536870912 s t := by
  have h0 := State.macsecVerdict_keeps0 s a1
  rw [h] at h0
  exact h0

theorem State.endVerdict_keeps0 (s : State) (a1 : Frame) (a2 : FrameEndInfo) : Keeps 536872972 s (@State.endVerdict s a1 a2).2 := by
  unfold State.endVerdict
  refine .iteP (fun r : Option Nat × State => r.2) (fun _ => ?_) (fun _ => ?_)
  · refine .snd ?_
    exact .app (.refl _ _) (State.portTally_keeps _ _ _ _) rfl
  · refine .iteP (fun r : Option Nat × State => r.2) (fun _ => ?_) (fun _ => ?_)
    · refine .snd ?_
      exact .refl _ _
    · refine .iteP (fun r : Option Nat × State => r.2) (fun _ => ?_) (fun _ => ?_)
      · refine .snd ?_
        exact .refl _ _
      · refine .iteP (fun r : Option Nat × State => r.2) (fun _ => ?_) (fun _ => ?_)
        · refine .snd ?_
          exact .refl _ _
        · exact .app (.refl _ _) (State.macsecVerdict_keeps rfl) rfl

theorem State.endVerdict_keeps {s : State} {a1 : Frame} {a2 : FrameEndInfo} {r0} {t : State} (h : @State.endVerdict s a1 a2 = (r0, t)) : Keeps 536872972 s t := by
  have h0 := State.endVerdict_keeps0 s a1 a2
  rw [h] at h0
  exact h0

theorem State.endGood_keeps (s : State) (a1 : Frame) (a2 : Nat) : Keeps 36099165883729932 s (@State.endGood s a1 a2) := by
  unfold State.endGood
  extract_lets x444_0
  refine .ite (fun _ => ?_) (fun _ => ?_)
  · exact .app (.refl _ _) (State.putFrame_keeps _ _) rfl
  · split
    · exact .app (.app (.app (.refl _ _) (State.recordMal_keeps _ _ _) rfl) (State.putFrame_keeps _ _) rfl) (State.dropFrame_keeps _ _ _) rfl
    · extract_lets x445_0 x445_1
      have hx445_1 : Keeps 36099165883729932 s x445_1 := by
        unfold x445_1
        exact .app (.refl _ _) (State.reachCount_keeps _ _) rfl
      refine .ite (fun _ => ?_) (fun _ => ?_)
      · exact .app (.app hx445_1 (State.putFrame_keeps _ _) rfl) (State.dropFrame_keeps _ _ _) rfl
      · exact .app hx445_1 (State.goodEnd_keeps _ _) rfl

theorem execFrameEnd_keeps (a0 : Nat) (a1 : FrameEndInfo) (s : State) {t : State} (h : execFrameEnd a0 a1 s = .next t) : Keeps 36116999259031580 s t := by
  unfold execFrameEnd at h
  cases h
  split
  · exact .refl _ _
  · refine .ite (fun _ => ?_) (fun _ => ?_)
    · exact .refl _ _
    · extract_lets x446_0
      have hx446_0 : Keeps 36116999259031580 s x446_0 := by
        unfold x446_0
        exact .app (.app (.refl _ _) (State.fecCount_keeps _ _) rfl) (State.takeBytes_keeps _ _ _ _) rfl
      split
      · exact hx446_0
      · extract_lets x447_0 x447_1 x447_2 x447_3 x447_4
        have hx447_2 : Keeps 36116999259031580 s x447_2 := by
          unfold x447_2
          exact .app (.app (.app hx446_0 (State.putFrame_keeps _ _) rfl) (State.endTallies_keeps _ _ _) rfl) (State.meterCorrect_keeps _ _ _) rfl
        refine .ite (fun _ => ?_) (fun _ => ?_)
        · exact .app (.app hx446_0 (State.pauseRx_keeps _ _ _ _ _ _) rfl) (State.delFrame_keeps _ _) rfl
        · refine .ite (fun _ => ?_) (fun _ => ?_)
          · exact .app hx447_2 (State.goodEnd_keeps _ _) rfl
          · split
            · refine .app ?_ (State.dropFrame_keeps _ _ _) rfl
              refine .app ?_ (State.putFrame_keeps _ _) rfl
              refine .app ?_ (State.reachCount_keeps _ _) rfl
              unfold x447_4
              exact .app hx447_2 (State.endVerdict_keeps rfl) rfl
            · refine .app ?_ (State.endGood_keeps _ _ _) rfl
              unfold x447_4
              exact .app hx447_2 (State.endVerdict_keeps rfl) rfl

theorem execCutThroughStart_keeps (a0 : Nat) (a1 : Nat) (s : State) {t : State} (h : execCutThroughStart a0 a1 s = .next t) : Keeps 33554436 s t := by
  unfold execCutThroughStart at h
  cases h
  split
  · refine .ite (fun _ => ?_) (fun _ => ?_)
    · refine .ite (fun _ => ?_) (fun _ => ?_)
      · exact .app (.refl _ _) (State.putCopy_keeps _ _) rfl
      · exact .app (.app (.refl _ _) (State.putCopy_keeps _ _) rfl) (State.count_keeps _ _ _) rfl
    · exact .refl _ _
  · exact .refl _ _

theorem State.headsOf_keeps (s : State) (a1 : Nat) (a2 : List Nat) : Keeps 120588300 s (@State.headsOf s a1 a2) := by
  induction a2 generalizing s a1 with
  | nil =>
    simp only [State.headsOf]
    exact .refl _ _
  | cons b l ih =>
    simp only [State.headsOf]
    refine .app (k := 120588300) ?_ (ih _ _) rfl
    split
    · exact .refl _ _
    · split
      · exact .refl _ _
      · refine .ite (fun _ => ?_) (fun _ => ?_)
        · exact .refl _ _
        · refine .ite (fun _ => ?_) (fun _ => ?_)
          · exact .app (.refl _ _) (State.dropCopy_keeps _ _ _) rfl
          · refine .ite (fun _ => ?_) (fun _ => ?_)
            · exact .app (.app (.refl _ _) (State.putCopy_keeps _ _) rfl) (State.portTally_keeps _ _ _ _) rfl
            · exact .refl _ _

theorem State.weighted_keeps {n : Nat} {s : State} {p : Nat} {g : List Nat} {t : Nat} {v : Bool} {r0 : Nat} {u : State}
    (h : State.weighted n s p g t v = some (r0, u)) : Keeps 4 s u := by
  induction n generalizing s t v with
  | zero => simp [State.weighted] at h
  | succ n ih =>
    simp only [State.weighted] at h
    split at h
    · split at h
      · cases h; exact .refl _ _
      · exact ih h
    · split at h
      · split at h
        · cases h; exact .app (.refl _ _) (State.grant_keeps _ _ _) rfl
        · exact .app (k := 4) (.app (.refl _ _) (State.grant_keeps _ _ _) rfl) (ih h) rfl
      · split at h
        · exact ih h
        · exact .app (k := 4) (.app (.refl _ _) (State.grant_keeps _ _ _) rfl) (ih h) rfl

theorem State.pick_keeps {s : State} {p : Nat} {mine : Nat → Bool} {t : Nat} {v : Bool} {r0 r1 : Nat} {r2 : Bool} {u : State}
    (h : s.pick p mine t v = some (r0, r1, r2, u)) : Keeps 4 s u := by
  unfold State.pick at h
  simp only at h
  split at h
  · cases h; exact .refl _ _
  · split at h
    · split at h
      · next hw => cases h; exact .app (.refl _ _) (State.weighted_keeps hw) rfl
      · cases h
    · cases h

theorem execSchedulerSelect_keeps (a0 : Nat) (s : State) {t : State} (h : execSchedulerSelect a0 s = .next t) : Keeps 62513895909330572 s t := by
  unfold execSchedulerSelect at h
  cases h
  refine .ite (fun _ => ?_) (fun _ => ?_)
  · exact .refl _ _
  · extract_lets x448_0 x448_1 x448_2
    have hx448_0 : Keeps 62513895909330572 s x448_0 := by
      unfold x448_0
      exact .app (.app (.app (.refl _ _) (State.headsOf_keeps _ _ _) rfl) (State.cbsAll_keeps _ _) rfl) (State.raiseFrees_keeps _) rfl
    refine .ite (fun _ => ?_) (fun _ => ?_)
    · exact hx448_0
    · split
      · split
        · exact .app (.app (.app (.app hx448_0 (State.pick_keeps (by assumption)) rfl) (State.putSch_keeps _ _) rfl) (State.preemptOther_keeps (by assumption)) rfl) (State.dequeue_keeps _ _ _) rfl
        · exact hx448_0
      · refine .ite (fun _ => ?_) (fun _ => ?_)
        · exact hx448_0
        · split
          · exact .app (.app (.app hx448_0 (State.pick_keeps (by assumption)) rfl) (State.putSch_keeps _ _) rfl) (State.dequeue_keeps _ _ _) rfl
          · exact hx448_0

theorem State.addCopy_keeps (s : State) (a1 : Frame) (a2 : Copy) (a3 : CopyReq) (a4 : List Byte) : Keeps 100665356 s (@State.addCopy s a1 a2 a3 a4) := by
  unfold State.addCopy
  refine .ite (fun _ => ?_) (fun _ => ?_)
  · exact .refl _ _
  · split
    · exact .app (.app (.app (.refl _ _) (State.portTally_keeps _ _ _ _) rfl) (State.portTally_keeps _ _ _ _) rfl) (State.portTally_keeps _ _ _ _) rfl
    · extract_lets x449_0 x449_1 x449_2 x449_3 x449_4 x449_5 x449_6 x449_7
      have hx449_3 : Keeps 100665356 s x449_3 := by
        unfold x449_3
        exact .app (.app (.refl _ _) (keeps_buf _ _) rfl) (State.charge_keeps _ _ _) rfl
      exact .app (.app hx449_3 (keeps_copies _ _) rfl) (State.depthAdd_keeps _ _) rfl

theorem State.addedCopies_keeps (s : State) (a1 : Frame) (a2 : Copy) : Keeps 100665356 s (@State.addedCopies s a1 a2) := by
  unfold State.addedCopies
  refine .ite (fun _ => ?_) (fun _ => ?_)
  · exact .refl _ _
  · extract_lets x450_0
    have hx450_0 : Keeps 100665356 s x450_0 := by
      unfold x450_0
      refine .ite (fun _ => ?_) (fun _ => ?_)
      · exact .app (.refl _ _) (State.addCopy_keeps _ _ _ _ _) rfl
      · exact .refl _ _
    refine .ite (fun _ => ?_) (fun _ => ?_)
    · exact .app hx450_0 (State.addCopy_keeps _ _ _ _ _) rfl
    · exact hx450_0

theorem execEgressResolution_keeps (a0 : Nat) (a1 : Nat) (s : State) {t : State} (h : execEgressResolution a0 a1 s = .next t) : Keeps 120588300 s t := by
  unfold execEgressResolution at h
  cases h
  split
  · refine .ite (fun _ => ?_) (fun _ => ?_)
    · extract_lets x451_0
      have hx451_0 : Keeps 120588300 s x451_0 := by
        unfold x451_0
        exact .app (.refl _ _) (State.addedCopies_keeps _ _ _) rfl
      refine .ite (fun _ => ?_) (fun _ => ?_)
      · exact .app hx451_0 (State.dropCopy_keeps _ _ _) rfl
      · refine .ite (fun _ => ?_) (fun _ => ?_)
        · exact .app hx451_0 (State.dropCopy_keeps _ _ _) rfl
        · exact .app hx451_0 (State.putCopy_keeps _ _) rfl
    · exact .refl _ _
  · exact .refl _ _

theorem execRewriteThreadStart_keeps (a0 : Nat) (a1 : Nat) (a2 : Nat) (s : State) {t : State} (h : execRewriteThreadStart a0 a1 a2 s = .next t) : Keeps 657459212 s t := by
  unfold execRewriteThreadStart at h
  cases h
  split
  · extract_lets x452_0 x452_1 x452_2
    refine .ite (fun _ => ?_) (fun _ => ?_)
    · exact .refl _ _
    · split
      · exact .refl _ _
      · refine .ite (fun _ => ?_) (fun _ => ?_)
        · exact .refl _ _
        · extract_lets x453_0
          have hx453_0 : Keeps 657459212 s x453_0 := by
            unfold x453_0
            exact .app (.app (.refl _ _) (State.startThread_keeps _ _ _ _ _) rfl) (State.count_keeps _ _ _) rfl
          refine .ite (fun _ => ?_) (fun _ => ?_)
          · exact .app hx453_0 (State.rewriteStep_keeps _ _ _) rfl
          · split
            · exact .app hx453_0 (State.beginWait_keeps _ _ _ _ _ _ _ _) rfl
            · exact hx453_0
  · exact .refl _ _

theorem execRecirculateEntry_keeps (a0 : Nat) (a1 : Nat) (s : State) {t : State} (h : execRecirculateEntry a0 a1 s = .next t) : Keeps 62513895909592716 s t := by
  unfold execRecirculateEntry at h
  cases h
  split
  · refine .ite (fun _ => ?_) (fun _ => ?_)
    · exact .refl _ _
    · extract_lets x454_0 x454_1 x454_2 x454_3 x454_4 x454_5 x454_6 x454_7 x454_8 x454_9
      have hx454_2 : Keeps 62513895909592716 s x454_2 := by
        unfold x454_2
        refine .ite (fun _ => ?_) (fun _ => ?_)
        · exact .app (.refl _ _) (State.count_keeps _ _ _) rfl
        · exact .refl _ _
      have hx454_3 : Keeps 62513895909592716 s x454_3 := by
        unfold x454_3
        exact .app hx454_2 (State.txCharge_keeps _ _ _) rfl
      have hx454_4 : Keeps 62513895909592716 s x454_4 := by
        unfold x454_4
        refine .ite (fun _ => ?_) (fun _ => ?_)
        · exact hx454_3
        · exact .app hx454_3 (State.refuseRead_keeps _ _) rfl
      have hx454_5 : Keeps 62513895909592716 s x454_5 := by
        unfold x454_5
        exact .app (.app (.app (.app (.app hx454_3 (State.txGood_keeps _ _ _ _ _) rfl) (State.releaseCopy_keeps _ _) rfl) (State.settleFrame_keeps _ _) rfl) (State.cbsStep_keeps _ _ _) rfl) (State.raiseFrees_keeps _) rfl
      have hx454_9 : Keeps 62513895909592716 s x454_9 := by
        unfold x454_9
        refine .app ?_ (State.rxTally_keeps _ _ _) rfl
        unfold x454_6
        exact .app hx454_5 (State.free_keeps rfl) rfl
      refine .ite (fun _ => ?_) (fun _ => ?_)
      · exact .app (.app (.app (.app (.app hx454_4 (State.portTally_keeps _ _ _ _) rfl) (State.releaseCopy_keeps _ _) rfl) (State.settleFrame_keeps _ _) rfl) (State.cbsStep_keeps _ _ _) rfl) (State.raiseFrees_keeps _) rfl
      · split
        · exact hx454_9
        · exact .app hx454_9 (keeps_frames _ _) rfl
  · exact .refl _ _

theorem execNop_keeps (a0 : Nat) (a1 : Nat) (s : State) {t : State} (h : execNop a0 a1 s = .next t) : Keeps 62513895921913484 s t := by
  unfold execNop at h
  cases h
  refine .issue ?_ rfl (fun u455 a455 b455 => ?_)
  · exact .refl _ _
  · exact .app (.refl _ _) (State.putThread_keeps _ _) rfl

theorem execSub_keeps (a0 : Nat) (a1 : Nat) (a2 : Nat) (a3 : Nat) (a4 : Nat) (s : State) {t : State} (h : execSub a0 a1 a2 a3 a4 s = .next t) : Keeps 62513895921913484 s t := by
  unfold execSub at h
  cases h
  refine .issue ?_ rfl (fun u456 a456 b456 => ?_)
  · exact .refl _ _
  · exact .app (.refl _ _) (State.aluFree_keeps _ _ _ _) rfl

theorem execShf_keeps (a0 : Nat) (a1 : Nat) (a2 : Nat) (a3 : Nat) (a4 : Nat) (s : State) {t : State} (h : execShf a0 a1 a2 a3 a4 s = .next t) : Keeps 62513895921913484 s t := by
  unfold execShf at h
  cases h
  refine .issue ?_ rfl (fun u457 a457 b457 => ?_)
  · exact .refl _ _
  · exact .app (.refl _ _) (State.aluFree_keeps _ _ _ _) rfl

theorem execAddi_keeps (a0 : Nat) (a1 : Nat) (a2 : Nat) (a3 : Nat) (a4 : Nat) (s : State) {t : State} (h : execAddi a0 a1 a2 a3 a4 s = .next t) : Keeps 62513895921913484 s t := by
  unfold execAddi at h
  cases h
  refine .issue ?_ rfl (fun u458 a458 b458 => ?_)
  · exact .refl _ _
  · exact .app (.refl _ _) (State.aluAdd_keeps _ _ _ _ _) rfl

theorem execAndi_keeps (a0 : Nat) (a1 : Nat) (a2 : Nat) (a3 : Nat) (a4 : Nat) (s : State) {t : State} (h : execAndi a0 a1 a2 a3 a4 s = .next t) : Keeps 62513895921913484 s t := by
  unfold execAndi at h
  cases h
  refine .issue ?_ rfl (fun u459 a459 b459 => ?_)
  · exact .refl _ _
  · exact .app (.refl _ _) (State.aluFree_keeps _ _ _ _) rfl

theorem State.flagFree_keeps (s : State) (a1 : Thread) (a2 : Nat) : Keeps 1049600 s (@State.flagFree s a1 a2) := by
  unfold State.flagFree
  extract_lets x460_0
  refine .app ?_ (State.putThread_keeps _ _) rfl
  unfold x460_0
  exact .app (.refl _ _) (State.free_keeps rfl) rfl

theorem execCmp_keeps (a0 : Nat) (a1 : Nat) (a2 : Nat) (a3 : Nat) (s : State) {t : State} (h : execCmp a0 a1 a2 a3 s = .next t) : Keeps 62513895921913484 s t := by
  unfold execCmp at h
  cases h
  refine .issue ?_ rfl (fun u461 a461 b461 => ?_)
  · exact .refl _ _
  · exact .app (.refl _ _) (State.flagFree_keeps _ _ _) rfl

theorem execCmpi_keeps (a0 : Nat) (a1 : Nat) (a2 : Nat) (a3 : Nat) (s : State) {t : State} (h : execCmpi a0 a1 a2 a3 s = .next t) : Keeps 62513895921913484 s t := by
  unfold execCmpi at h
  cases h
  refine .issue ?_ rfl (fun u462 a462 b462 => ?_)
  · exact .refl _ _
  · exact .app (.refl _ _) (State.flagFree_keeps _ _ _) rfl

theorem execMovi_keeps (a0 : Nat) (a1 : Nat) (a2 : Nat) (a3 : Nat) (s : State) {t : State} (h : execMovi a0 a1 a2 a3 s = .next t) : Keeps 62513895921913484 s t := by
  unfold execMovi at h
  cases h
  refine .issue ?_ rfl (fun u463 a463 b463 => ?_)
  · exact .refl _ _
  · exact .app (.refl _ _) (State.putThread_keeps _ _) rfl

theorem execOrh_keeps (a0 : Nat) (a1 : Nat) (a2 : Nat) (a3 : Nat) (s : State) {t : State} (h : execOrh a0 a1 a2 a3 s = .next t) : Keeps 62513895921913484 s t := by
  unfold execOrh at h
  cases h
  refine .issue ?_ rfl (fun u464 a464 b464 => ?_)
  · exact .refl _ _
  · exact .app (.refl _ _) (State.putThread_keeps _ _) rfl

theorem execExr_keeps (a0 : Nat) (a1 : Nat) (a2 : Nat) (a3 : Nat) (a4 : Nat) (s : State) {t : State} (h : execExr a0 a1 a2 a3 a4 s = .next t) : Keeps 62513895921913484 s t := by
  unfold execExr at h
  cases h
  refine .issue ?_ rfl (fun u465 a465 b465 => ?_)
  · exact .refl _ _
  · refine .ite (fun _ => ?_) (fun _ => ?_)
    · refine .withHdr ?_ rfl (fun u466 a466 b466 => ?_)
      · exact .refl _ _
      · exact .app (.refl _ _) (State.putThread_keeps _ _) rfl
    · exact .app (.refl _ _) (State.abort_keeps _ _ _ _) rfl

theorem execKeyr_keeps (a0 : Nat) (a1 : Nat) (a2 : Nat) (a3 : Nat) (s : State) {t : State} (h : execKeyr a0 a1 a2 a3 s = .next t) : Keeps 62513895921913484 s t := by
  unfold execKeyr at h
  cases h
  refine .issue ?_ rfl (fun u467 a467 b467 => ?_)
  · exact .refl _ _
  · exact .app (.refl _ _) (State.keyWrite_keeps _ _ _ _ _) rfl

theorem execAdvh_keeps (a0 : Nat) (a1 : Nat) (a2 : Nat) (a3 : Nat) (s : State) {t : State} (h : execAdvh a0 a1 a2 a3 s = .next t) : Keeps 62513895921913484 s t := by
  unfold execAdvh at h
  cases h
  refine .issue ?_ rfl (fun u468 a468 b468 => ?_)
  · exact .refl _ _
  · extract_lets x469_0
    exact .app (.refl _ _) (State.putThread_keeps _ _) rfl

theorem execLkp_keeps (a0 : Nat) (a1 : Nat) (a2 : Nat) (a3 : Nat) (a4 : Nat) (s : State) {t : State} (h : execLkp a0 a1 a2 a3 a4 s = .next t) : Keeps 62513895921913484 s t := by
  unfold execLkp at h
  cases h
  refine .issue ?_ rfl (fun u470 a470 b470 => ?_)
  · exact .refl _ _
  · extract_lets x471_0 x471_1
    have hx471_0 : Keeps 62513895921913484 u470 x471_0 := by
      unfold x471_0
      exact .app (.refl _ _) (State.putThread_keeps _ _) rfl
    have hx471_1 : Keeps 62513895921913484 u470 x471_1 := by
      unfold x471_1
      exact .app hx471_0 (State.evtM_keeps _ _ _ _ _ _ _) rfl
    refine .ite (fun _ => ?_) (fun _ => ?_)
    · exact .app hx471_1 (State.evt_keeps _ _ _ _ _) rfl
    · exact hx471_1

theorem execLdt_keeps (a0 : Nat) (a1 : Nat) (a2 : Nat) (a3 : Nat) (a4 : Nat) (s : State) {t : State} (h : execLdt a0 a1 a2 a3 a4 s = .next t) : Keeps 62513895921913484 s t := by
  unfold execLdt at h
  cases h
  refine .issue ?_ rfl (fun u472 a472 b472 => ?_)
  · exact .refl _ _
  · split
    · split
      · exact .app (.refl _ _) (State.putThread_keeps _ _) rfl
      · exact .app (.app (.refl _ _) (State.free_keeps rfl) rfl) (State.putThread_keeps _ _) rfl
    · exact .app (.refl _ _) (State.beginWait_keeps _ _ _ _ _ _ _ _) rfl

theorem execStm_keeps (a0 : Nat) (a1 : Nat) (a2 : Nat) (s : State) {t : State} (h : execStm a0 a1 a2 s = .next t) : Keeps 62513895921913500 s t := by
  unfold execStm at h
  cases h
  refine .issue ?_ rfl (fun u473 a473 b473 => ?_)
  · exact .refl _ _
  · extract_lets x474_0
    refine .ite (fun _ => ?_) (fun _ => ?_)
    · exact .app (.app (.refl _ _) (keeps_wrMem _ _ _) rfl) (State.putThread_keeps _ _) rfl
    · exact .app (.refl _ _) (State.putThread_keeps _ _) rfl

theorem execBr_keeps (a0 : Nat) (a1 : Nat) (a2 : Nat) (a3 : Nat) (s : State) {t : State} (h : execBr a0 a1 a2 a3 s = .next t) : Keeps 62513895921913484 s t := by
  unfold execBr at h
  cases h
  refine .issue ?_ rfl (fun u475 a475 b475 => ?_)
  · exact .refl _ _
  · exact .app (.refl _ _) (State.putThread_keeps _ _) rfl

theorem execRet_keeps (a0 : Nat) (a1 : Nat) (s : State) {t : State} (h : execRet a0 a1 s = .next t) : Keeps 62513895921913484 s t := by
  unfold execRet at h
  cases h
  refine .issue ?_ rfl (fun u476 a476 b476 => ?_)
  · exact .refl _ _
  · split
    · exact .app (.refl _ _) (State.abort_keeps _ _ _ _) rfl
    · exact .app (.refl _ _) (State.putThread_keeps _ _) rfl

theorem State.dispatch_keeps (s : State) (a1 : Thread) (a2 : Frame) : Keeps 36028797139553292 s (@State.dispatch s a1 a2) := by
  unfold State.dispatch
  extract_lets x477_0
  split
  · exact .app (.refl _ _) (State.endParse_keeps _ _) rfl
  · split
    · exact .app (.refl _ _) (State.endParse_keeps _ _) rfl
    · extract_lets x478_0
      refine .ite (fun _ => ?_) (fun _ => ?_)
      · exact .app (.refl _ _) (State.endAtReach_keeps _ _) rfl
      · split
        · exact .app (.refl _ _) (State.endParse_keeps _ _) rfl
        · extract_lets x479_0
          refine .ite (fun _ => ?_) (fun _ => ?_)
          · refine .ite (fun _ => ?_) (fun _ => ?_)
            · exact .app (.refl _ _) (State.endAtLimit_keeps _ _) rfl
            · exact .app (.app (.refl _ _) (State.putFrame_keeps _ _) rfl) (State.putThread_keeps _ _) rfl
          · exact .app (.refl _ _) (State.putThread_keeps _ _) rfl

theorem execJx_keeps (a0 : Nat) (a1 : Nat) (a2 : Nat) (s : State) {t : State} (h : execJx a0 a1 a2 s = .next t) : Keeps 62513895921913484 s t := by
  unfold execJx at h
  cases h
  refine .issue ?_ rfl (fun u480 a480 b480 => ?_)
  · exact .refl _ _
  · split
    · refine .ite (fun _ => ?_) (fun _ => ?_)
      · exact .app (.app (.refl _ _) (State.putThread_keeps _ _) rfl) (State.dispatch_keeps _ _ _) rfl
      · exact .app (.refl _ _) (State.putThread_keeps _ _) rfl
    · exact .app (.refl _ _) (State.putThread_keeps _ _) rfl

theorem execWait_keeps (a0 : Nat) (a1 : Nat) (a2 : Nat) (a3 : Nat) (a4 : Bool) (a5 : Bool) (s : State) {t : State} (h : execWait a0 a1 a2 a3 a4 a5 s = .next t) : Keeps 62513895921913484 s t := by
  unfold execWait at h
  cases h
  refine .issue ?_ rfl (fun u481 a481 b481 => ?_)
  · exact .refl _ _
  · refine .ite (fun _ => ?_) (fun _ => ?_)
    · exact .app (.refl _ _) (State.abort_keeps _ _ _ _) rfl
    · refine .ite (fun _ => ?_) (fun _ => ?_)
      · exact .app (.refl _ _) (State.putThread_keeps _ _) rfl
      · extract_lets x482_0 x482_1
        split
        · exact .app (.refl _ _) (State.putThread_keeps _ _) rfl
        · exact .app (.refl _ _) (State.beginWait_keeps _ _ _ _ _ _ _ _) rfl

theorem execWaitTimeout_keeps (a0 : Nat) (a1 : Nat) (s : State) {t : State} (h : execWaitTimeout a0 a1 s = .next t) : Keeps 62513895921913484 s t := by
  unfold execWaitTimeout at h
  cases h
  split
  · exact .refl _ _
  · split
    · split
      · refine .ite (fun _ => ?_) (fun _ => ?_)
        · exact .app (.refl _ _) (State.abort_keeps _ _ _ _) rfl
        · exact .refl _ _
      · exact .refl _ _
    · refine .ite (fun _ => ?_) (fun _ => ?_)
      · refine .ite (fun _ => ?_) (fun _ => ?_)
        · exact .app (.app (.refl _ _) (State.putThread_keeps _ _) rfl) (State.evtM_keeps _ _ _ _ _ _ _) rfl
        · exact .app (.refl _ _) (State.abort_keeps _ _ _ _) rfl
      · exact .refl _ _

theorem execPop_keeps (a0 : Nat) (a1 : Nat) (a2 : Nat) (a3 : Nat) (a4 : Nat) (s : State) {t : State} (h : execPop a0 a1 a2 a3 a4 s = .next t) : Keeps 62513895921913484 s t := by
  unfold execPop at h
  cases h
  refine .issue ?_ rfl (fun u483 a483 b483 => ?_)
  · exact .refl _ _
  · refine .ite (fun _ => ?_) (fun _ => ?_)
    · exact .app (.refl _ _) (State.abort_keeps _ _ _ _) rfl
    · exact .app (.refl _ _) (State.edit_keeps _ _ _ _) rfl

theorem execCsum_keeps (a0 : Nat) (a1 : Nat) (a2 : Nat) (a3 : Nat) (a4 : Nat) (s : State) {t : State} (h : execCsum a0 a1 a2 a3 a4 s = .next t) : Keeps 62513895921913484 s t := by
  unfold execCsum at h
  cases h
  refine .issue ?_ rfl (fun u484 a484 b484 => ?_)
  · exact .refl _ _
  · extract_lets x485_0
    refine .ite (fun _ => ?_) (fun _ => ?_)
    · exact .app (.refl _ _) (State.edit_keeps _ _ _ _) rfl
    · refine .ite (fun _ => ?_) (fun _ => ?_)
      · exact .app (.refl _ _) (State.edit_keeps _ _ _ _) rfl
      · exact .app (.refl _ _) (State.abort_keeps _ _ _ _) rfl

theorem execDrop_keeps (a0 : Nat) (a1 : Nat) (a2 : Nat) (s : State) {t : State} (h : execDrop a0 a1 a2 s = .next t) : Keeps 62513895921913484 s t := by
  unfold execDrop at h
  cases h
  refine .issue ?_ rfl (fun u486 a486 b486 => ?_)
  · exact .refl _ _
  · extract_lets x487_0
    have hx487_0 : Keeps 62513895921913484 u486 x487_0 := by
      unfold x487_0
      exact .app (.refl _ _) (State.endSamples_keeps _ _ _) rfl
    split
    · split
      · exact .app (.app hx487_0 (State.putFrame_keeps _ _) rfl) (State.dropFrame_keeps _ _ _) rfl
      · exact .app hx487_0 (State.endThreads_keeps _ _) rfl
    · split
      · refine .ite (fun _ => ?_) (fun _ => ?_)
        · exact .app (.app hx487_0 (State.putCopy_keeps _ _) rfl) (State.endThreads_keeps _ _) rfl
        · exact .app hx487_0 (State.dropCopy_keeps _ _ _) rfl
      · exact .app hx487_0 (State.endThreads_keeps _ _) rfl
    · exact hx487_0

theorem execTrap_keeps (a0 : Nat) (a1 : Nat) (a2 : Nat) (s : State) {t : State} (h : execTrap a0 a1 a2 s = .next t) : Keeps 62513895921913484 s t := by
  unfold execTrap at h
  cases h
  refine .issue ?_ rfl (fun u488 a488 b488 => ?_)
  · exact .refl _ _
  · extract_lets x489_0
    have hx489_0 : Keeps 62513895921913484 u488 x489_0 := by
      unfold x489_0
      exact .app (.refl _ _) (State.endSamples_keeps _ _ _) rfl
    split
    · split
      · extract_lets x490_0 x490_1
        split
        · refine .app ?_ (State.dropFrame_keeps _ _ _) rfl
          refine .app ?_ (State.putFrame_keeps _ _) rfl
          unfold x490_0
          refine .iteP (fun r : Option Nat × Frame × State => r.2.2) (fun _ => ?_) (fun _ => ?_)
          · exact .app hx489_0 (State.judged_keeps rfl) rfl
          · dsimp only
            exact hx489_0
        · refine .app ?_ (State.claimBeads_keeps _ _ _) rfl
          refine .app ?_ (State.putFrame_keeps _ _) rfl
          refine .app ?_ (State.endThreads_keeps _ _) rfl
          unfold x490_0
          refine .iteP (fun r : Option Nat × Frame × State => r.2.2) (fun _ => ?_) (fun _ => ?_)
          · exact .app hx489_0 (State.judged_keeps rfl) rfl
          · dsimp only
            exact hx489_0
      · exact .app hx489_0 (State.endThreads_keeps _ _) rfl
    · split
      · extract_lets x491_0
        have hx491_0 : Keeps 62513895921913484 u488 x491_0 := by
          unfold x491_0
          exact .app hx489_0 (State.addCopy_keeps _ _ _ _ _) rfl
        refine .ite (fun _ => ?_) (fun _ => ?_)
        · exact .app (.app hx491_0 (State.putCopy_keeps _ _) rfl) (State.endThreads_keeps _ _) rfl
        · exact .app (.app hx491_0 (State.releaseCopy_keeps _ _) rfl) (State.settleFrame_keeps _ _) rfl
      · exact .app hx489_0 (State.endThreads_keeps _ _) rfl
    · exact hx489_0

theorem execHousekeepingTaskStart_keeps (a0 : Nat) (a1 : Nat) (a2 : Nat) (s : State) {t : State} (h : execHousekeepingTaskStart a0 a1 a2 s = .next t) : Keeps 9437188 s t := by
  unfold execHousekeepingTaskStart at h
  cases h
  extract_lets x492_0
  refine .ite (fun _ => ?_) (fun _ => ?_)
  · exact .refl _ _
  · refine .ite (fun _ => ?_) (fun _ => ?_)
    · exact .app (.refl _ _) (keeps_tasks _ _) rfl
    · refine .ite (fun _ => ?_) (fun _ => ?_)
      · exact .refl _ _
      · refine .ite (fun _ => ?_) (fun _ => ?_)
        · exact .app (.app (.refl _ _) (keeps_tasks _ _) rfl) (State.startThread_keeps _ _ _ _ _) rfl
        · exact .app (.refl _ _) (keeps_tasks _ _) rfl

theorem execPatchRamScrub_keeps (a0 : Nat) (a1 : Nat) (a2 : Nat) (s : State) {t : State} (h : execPatchRamScrub a0 a1 a2 s = .next t) : Keeps 62513895909330572 s t := by
  unfold execPatchRamScrub at h
  cases h
  refine .ite (fun _ => ?_) (fun _ => ?_)
  · exact .refl _ _
  · refine .ite (fun _ => ?_) (fun _ => ?_)
    · exact .app (.app (.refl _ _) (State.count_keeps _ _ _) rfl) (State.event_keeps _ _ _) rfl
    · extract_lets x493_0
      have hx493_0 : Keeps 62513895909330572 s x493_0 := by
        unfold x493_0
        exact .app (.refl _ _) (keeps_patchBad _ _) rfl
      exact .app (.app hx493_0 (State.count_keeps _ _ _) rfl) (State.event_keeps _ _ _) rfl

theorem execPatchWordRewrite_keeps (a0 : Nat) (a1 : Nat) (s : State) {t : State} (h : execPatchWordRewrite a0 a1 s = .next t) : Keeps 2147483652 s t := by
  unfold execPatchWordRewrite at h
  cases h
  refine .ite (fun _ => ?_) (fun _ => ?_)
  · extract_lets x494_0
    have hx494_0 : Keeps 2147483652 s x494_0 := by
      unfold x494_0
      exact .app (.refl _ _) (State.setF_keeps _ _ _) rfl
    exact .app hx494_0 (keeps_patchBad _ _) rfl
  · exact .refl _ _

theorem execRomSignatureRecheck_keeps (a0 : Nat) (a1 : Bool) (s : State) {t : State} (h : execRomSignatureRecheck a0 a1 s = .next t) : Keeps 62513895909330572 s t := by
  unfold execRomSignatureRecheck at h
  cases h
  refine .ite (fun _ => ?_) (fun _ => ?_)
  · exact .refl _ _
  · extract_lets x495_0
    have hx495_0 : Keeps 62513895909330572 s x495_0 := by
      unfold x495_0
      exact .app (.refl _ _) (State.setB_keeps _ _ _) rfl
    refine .ite (fun _ => ?_) (fun _ => ?_)
    · exact hx495_0
    · exact .app hx495_0 (State.event_keeps _ _ _) rfl

theorem State.updGen_keeps (s : State) (a1 : Nat) (a2 : GenSt → GenSt) : Keeps 524288 s (@State.updGen s a1 a2) := by
  unfold State.updGen
  exact .app (.refl _ _) (keeps_gens _ _) rfl

theorem execGenerationDrained_keeps (a0 : Nat) (s : State) {t : State} (h : execGenerationDrained a0 s = .next t) : Keeps 526348 s t := by
  unfold execGenerationDrained at h
  cases h
  split
  · exact .refl _ _
  · split
    · exact .refl _ _
    · refine .ite (fun _ => ?_) (fun _ => ?_)
      · exact .refl _ _
      · extract_lets x496_0
        have hx496_0 : Keeps 526348 s x496_0 := by
          unfold x496_0
          exact .app (.refl _ _) (State.updGen_keeps _ _ _) rfl
        exact .app (.app (.app hx496_0 (State.setF_keeps _ _ _) rfl) (State.maxF_keeps _ _ _) rfl) (State.raiseCLS_keeps _ _) rfl

theorem execGenerationRetired_keeps (a0 : Nat) (s : State) {t : State} (h : execGenerationRetired a0 s = .next t) : Keeps 1161084279457852 s t := by
  unfold execGenerationRetired at h
  cases h
  split
  · refine .ite (fun _ => ?_) (fun _ => ?_)
    · exact .refl _ _
    · extract_lets x497_0 x497_1 x497_2 x497_3 x497_4
      have hx497_0 : Keeps 1161084279457852 s x497_0 := by
        unfold x497_0
        exact .app (.refl _ _) (State.recMaps_keeps _ _ _) rfl
      have hx497_1 : Keeps 1161084279457852 s x497_1 := by
        unfold x497_1
        exact .app hx497_0 (State.updGen_keeps _ _ _) rfl
      have hx497_3 : Keeps 1161084279457852 s x497_3 := by
        unfold x497_3
        exact .app hx497_1 (keeps_gens _ _) rfl
      have hx497_4 : Keeps 1161084279457852 s x497_4 := by
        unfold x497_4
        exact .app (.app hx497_3 (State.setF_keeps _ _ _) rfl) (State.setF_keeps _ _ _) rfl
      exact .app (.app (.app hx497_4 (State.setF_keeps _ _ _) rfl) (State.genRegs_keeps _) rfl) (State.raiseCLS_keeps _ _) rfl
  · exact .refl _ _

theorem State.mirrorLost_keeps (s : State) (a1 : Nat) (a2 : Nat) (a3 : Nat) : Keeps 3298534883332 s (@State.mirrorLost s a1 a2 a3) := by
  unfold State.mirrorLost
  extract_lets x498_0 x498_1 x498_2 x498_3
  have hx498_3 : Keeps 3298534883332 s x498_3 := by
    unfold x498_3
    exact .app (.refl _ _) (keeps_lost _ _) rfl
  split
  · exact .app (.refl _ _) (keeps_mirror _ _ (fun h => writeBytes_wf _ _ _ h.2.2.2.2.2.1)) rfl
  · exact .app (.app (.app hx498_3 (State.setF_keeps _ _ _) rfl) (State.setF_keeps _ _ _) rfl) (State.setF_keeps _ _ _) rfl

theorem execTcamRowCheck_keeps (a0 : Nat) (a1 : Nat) (a2 : Nat) (a3 : Nat) (s : State) {t : State} (h : execTcamRowCheck a0 a1 a2 a3 s = .next t) : Keeps 62517194444213916 s t := by
  unfold execTcamRowCheck at h
  cases h
  refine .ite (fun _ => ?_) (fun _ => ?_)
  · exact .refl _ _
  · refine .ite (fun _ => ?_) (fun _ => ?_)
    · exact .app (.app (.app (.refl _ _) (State.repairRow_keeps _ _) rfl) (State.count_keeps _ _ _) rfl) (State.event_keeps _ _ _) rfl
    · refine .ite (fun _ => ?_) (fun _ => ?_)
      · exact .app (.refl _ _) (State.event_keeps _ _ _) rfl
      · refine .ite (fun _ => ?_) (fun _ => ?_)
        · exact .app (.app (.refl _ _) (State.mirrorLost_keeps _ _ _ _) rfl) (State.event_keeps _ _ _) rfl
        · exact .refl _ _

theorem execTableInsert_keeps (a0 : Nat) (a1 : Bool) (s : State) {t : State} (h : execTableInsert a0 a1 s = .next t) : Keeps 1301821767811124 s t := by
  unfold execTableInsert at h
  cases h
  exact .app (.refl _ _) (State.insCtl_keeps _ _ _ _) rfl

theorem execTableDelete_keeps (a0 : Nat) (a1 : Bool) (s : State) {t : State} (h : execTableDelete a0 a1 s = .next t) : Keeps 1301821767811124 s t := by
  unfold execTableDelete at h
  cases h
  exact .app (.refl _ _) (State.insCtl_keeps _ _ _ _) rfl

theorem execTableFind_keeps (a0 : Nat) (a1 : Bool) (s : State) {t : State} (h : execTableFind a0 a1 s = .next t) : Keeps 1301821767811124 s t := by
  unfold execTableFind at h
  cases h
  exact .app (.refl _ _) (State.insCtl_keeps _ _ _ _) rfl

theorem execShadowClear_keeps (a0 : Nat) (s : State) {t : State} (h : execShadowClear a0 s = .next t) : Keeps 72057594037927940 s t := by
  unfold execShadowClear at h
  cases h
  exact .app (.refl _ _) (State.doShadowClear_keeps _ _) rfl

theorem execShadowClearDone_keeps (a0 : Nat) (s : State) {t : State} (h : execShadowClearDone a0 s = .next t) : Keeps 72057594037927956 s t := by
  unfold execShadowClearDone at h
  cases h
  refine .ite (fun _ => ?_) (fun _ => ?_)
  · extract_lets x499_0 x499_1 x499_2
    have hx499_0 : Keeps 72057594037927956 s x499_0 := by
      unfold x499_0
      exact .app (.refl _ _) (State.setF_keeps _ _ _) rfl
    have hx499_2 : Keeps 72057594037927956 s x499_2 := by
      unfold x499_2
      exact .app hx499_0 (keeps_fwd _ _) rfl
    split
    · exact .app hx499_2 (by first | exact keeps_memFilter _ _ | exact keeps_wrMem _ _ _) rfl
    · exact hx499_2
  · exact .refl _ _

theorem execDqxSpill_keeps (a0 : Nat) (a1 : Nat) (s : State) {t : State} (h : execDqxSpill a0 a1 s = .next t) : Keeps 100665356 s t := by
  unfold execDqxSpill at h
  cases h
  split
  · exact .refl _ _
  · refine .ite (fun _ => ?_) (fun _ => ?_)
    · exact .refl _ _
    · refine .ite (fun _ => ?_) (fun _ => ?_)
      · exact .app (.refl _ _) (State.count_keeps _ _ _) rfl
      · extract_lets x500_0 x500_1 x500_2
        have hx500_0 : Keeps 100665356 s x500_0 := by
          unfold x500_0
          exact .app (.app (.refl _ _) (State.depthSub_keeps _ _) rfl) (State.freeAll_keeps _ _ _) rfl
        have hx500_2 : Keeps 100665356 s x500_2 := by
          unfold x500_2
          exact .app (.app (.app hx500_0 (State.putCopy_keeps _ _) rfl) (State.depthAdd_keeps _ _) rfl) (State.setF_keeps _ _ _) rfl
        exact .app hx500_2 (keeps_copies _ _) rfl

theorem execPortDown_keeps (a0 : Nat) (s : State) {t : State} (h : execPortDown a0 s = .next t) : Keeps 36609373772974092 s t := by
  unfold execPortDown at h
  cases h
  split
  · split
    · refine .ite (fun _ => ?_) (fun _ => ?_)
      · exact .app (.refl _ _) (State.portsDown_keeps _ _) rfl
      · exact .refl _ _
    · exact .refl _ _
  · exact .refl _ _

theorem State.ropeLock_keeps (s : State) (a1 : Nat) : Keeps 562958798293004 s (@State.ropeLock s a1) := by
  unfold State.ropeLock
  refine .ite (fun _ => ?_) (fun _ => ?_)
  · exact .refl _ _
  · refine .ite (fun _ => ?_) (fun _ => ?_)
    · exact .app (.refl _ _) (State.setF_keeps _ _ _) rfl
    · split
      · exact .app (.app (.refl _ _) (keeps_rope _ _) rfl) (State.ropeActive_keeps _ _) rfl
      · exact .refl _ _

theorem execLaneLock_keeps (a0 : Nat) (a1 : Nat) (a2 : LaneSeen) (s : State) {t : State} (h : execLaneLock a0 a1 a2 s = .next t) : Keeps 562959066728460 s t := by
  unfold execLaneLock at h
  cases h
  split
  · exact .refl _ _
  · split
    · exact .refl _ _
    · refine .ite (fun _ => ?_) (fun _ => ?_)
      · exact .refl _ _
      · refine .ite (fun _ => ?_) (fun _ => ?_)
        · exact .app (.app (.app (.refl _ _) (State.laneSteps_keeps _ _ _) rfl) (State.setF_keeps _ _ _) rfl) (State.updLane_keeps _ _ _) rfl
        · extract_lets x501_0 x501_1
          have hx501_0 : Keeps 562959066728460 s x501_0 := by
            unfold x501_0
            exact .app (.refl _ _) (State.laneSteps_keeps _ _ _) rfl
          have hx501_1 : Keeps 562959066728460 s x501_1 := by
            unfold x501_1
            exact .app hx501_0 (State.updLane_keeps _ _ _) rfl
          refine .ite (fun _ => ?_) (fun _ => ?_)
          · exact hx501_0
          · refine .ite (fun _ => ?_) (fun _ => ?_)
            · exact .app hx501_1 (State.ropeLock_keeps _ _) rfl
            · exact .app hx501_1 (State.lockPorts_keeps _ _) rfl

theorem execLaneRetry_keeps (a0 : Nat) (s : State) {t : State} (h : execLaneRetry a0 s = .next t) : Keeps 268435460 s t := by
  unfold execLaneRetry at h
  cases h
  refine .ite (fun _ => ?_) (fun _ => ?_)
  · exact .app (.refl _ _) (State.laneStart_keeps _ _) rfl
  · exact .refl _ _

theorem execAnRestart_keeps (a0 : Nat) (s : State) {t : State} (h : execAnRestart a0 s = .next t) : Keeps 268435460 s t := by
  unfold execAnRestart at h
  cases h
  refine .ite (fun _ => ?_) (fun _ => ?_)
  · exact .app (.refl _ _) (State.laneStart_keeps _ _) rfl
  · exact .refl _ _

theorem execPortShutdown_keeps (a0 : Nat) (s : State) {t : State} (h : execPortShutdown a0 s = .next t) : Keeps 4 s t := by
  unfold execPortShutdown at h
  cases h
  exact .app (.refl _ _) (State.shutdown_keeps _ _) rfl

theorem execPortShutdownComplete_keeps (a0 : Nat) (s : State) {t : State} (h : execPortShutdownComplete a0 s = .next t) : Keeps 36609373773105164 s t := by
  unfold execPortShutdownComplete at h
  cases h
  refine .ite (fun _ => ?_) (fun _ => ?_)
  · exact .refl _ _
  · extract_lets x502_0 x502_1 x502_2
    have hx502_1 : Keeps 36609373773105164 s x502_1 := by
      unfold x502_1
      exact .app (.app (.refl _ _) (State.portDown_keeps _ _) rfl) (State.expireHold_keeps _ _) rfl
    have hx502_2 : Keeps 36609373773105164 s x502_2 := by
      unfold x502_2
      exact .app (.app (.app hx502_1 (State.setF_keeps _ _ _) rfl) (State.setF_keeps _ _ _) rfl) (State.setF_keeps _ _ _) rfl
    refine .ite (fun _ => ?_) (fun _ => ?_)
    · exact .app hx502_2 (State.lockGained_keeps _ _) rfl
    · exact hx502_2

theorem execPauseTimerExpiry_keeps (a0 : Nat) (a1 : Nat) (s : State) {t : State} (h : execPauseTimerExpiry a0 a1 s = .next t) : Keeps 134217732 s t := by
  unfold execPauseTimerExpiry at h
  cases h
  exact .app (.app (.refl _ _) (State.updPort_keeps _ _ _) rfl) (State.pauseShow_keeps _ _) rfl

theorem execPauseFrameTx_keeps (a0 : Nat) (s : State) {t : State} (h : execPauseFrameTx a0 s = .next t) : Keeps 134219788 s t := by
  unfold execPauseFrameTx at h
  cases h
  extract_lets x503_0 x503_1
  refine .ite (fun _ => ?_) (fun _ => ?_)
  · exact .app (.refl _ _) (State.pauseSend_keeps _ _ _ _) rfl
  · exact .refl _ _

theorem execPauseRefresh_keeps (a0 : Nat) (s : State) {t : State} (h : execPauseRefresh a0 s = .next t) : Keeps 134219788 s t := by
  unfold execPauseRefresh at h
  cases h
  split
  · refine .ite (fun _ => ?_) (fun _ => ?_)
    · exact .app (.refl _ _) (State.pauseSend_keeps _ _ _ _) rfl
    · exact .refl _ _
  · exact .refl _ _

theorem execWakeTx_keeps (a0 : Nat) (s : State) {t : State} (h : execWakeTx a0 s = .next t) : Keeps 134219788 s t := by
  unfold execWakeTx at h
  cases h
  exact .app (.refl _ _) (State.doWakeTx_keeps _ _) rfl

theorem execReqPark_keeps (a0 : Nat) (a1 : Bool) (s : State) {t : State} (h : execReqPark a0 a1 s = .next t) : Keeps 34820 s t := by
  unfold execReqPark at h
  cases h
  exact .app (.refl _ _) (State.doReqPark_keeps _ _ _) rfl

theorem execParkSendTimeout_keeps (s : State) {t : State} (h : execParkSendTimeout s = .next t) : Keeps 120621068 s t := by
  unfold execParkSendTimeout at h
  cases h
  refine .ite (fun _ => ?_) (fun _ => ?_)
  · extract_lets x504_0 x504_1
    have hx504_0 : Keeps 120621068 s x504_0 := by
      unfold x504_0
      exact .app (.refl _ _) (State.flushAll_keeps _) rfl
    exact .app hx504_0 (keeps_mode _ _) rfl
  · exact .refl _ _

theorem execReqTest_keeps (a0 : Nat) (a1 : Bool) (s : State) {t : State} (h : execReqTest a0 a1 s = .next t) : Keeps 19421773393070092 s t := by
  unfold execReqTest at h
  cases h
  exact .app (.refl _ _) (State.doReqTest_keeps _ _ _) rfl

theorem execWakePin_keeps (a0 : Nat) (a1 : Nat) (a2 : Nat) (s : State) {t : State} (h : execWakePin a0 a1 a2 s = .next t) : Keeps 19703248369780748 s t := by
  unfold execWakePin at h
  cases h
  extract_lets x505_0
  refine .ite (fun _ => ?_) (fun _ => ?_)
  · exact .refl _ _
  · refine .wake ?_ rfl (fun u506 => ?_)
    · exact .refl _ _
    · exact .app (.refl _ _) (State.orF_keeps _ _ _) rfl

theorem execWakeI2c_keeps (a0 : Nat) (s : State) {t : State} (h : execWakeI2c a0 s = .next t) : Keeps 19703248369780748 s t := by
  unfold execWakeI2c at h
  cases h
  exact .app (.refl _ _) (State.i2cWake_keeps _ _) rfl

theorem execShortAscentDramReady_keeps (a0 : Bool) (s : State) {t : State} (h : execShortAscentDramReady a0 s = .next t) : Keeps 47024772814125116 s t := by
  unfold execShortAscentDramReady at h
  cases h
  refine .ite (fun _ => ?_) (fun _ => ?_)
  · exact .app (.app (.app (.app (.app (.refl _ _) (State.dramBack_keeps _) rfl) (State.setF_keeps _ _ _) rfl) (State.refreshRules_keeps _) rfl) (State.migResume_keeps _) rfl) (State.shortLoad_keeps _ _) rfl
  · exact .refl _ _

theorem execColdReset_keeps (a0 : Bool) (s : State) {t : State} (h : execColdReset a0 s = .next t) : Keeps 144115188075838460 s t := by
  unfold execColdReset at h
  cases h
  refine .ite (fun _ => ?_) (fun _ => ?_)
  · exact .refl _ _
  · exact .app (.refl _ _) (State.coldReset_keeps _ _) rfl

theorem execPorstRelease_keeps (a0 : Bool) (s : State) {t : State} (h : execPorstRelease a0 s = .next t) : Keeps 562949953454084 s t := by
  unfold execPorstRelease at h
  cases h
  refine .ite (fun _ => ?_) (fun _ => ?_)
  · extract_lets x507_0 x507_1 x507_2 x507_3 x507_4
    have hx507_1 : Keeps 562949953454084 s x507_1 := by
      unfold x507_1
      exact .app (.refl _ _) (keeps_mode _ _) rfl
    have hx507_2 : Keeps 562949953454084 s x507_2 := by
      unfold x507_2
      exact .app (.app hx507_1 (State.setB_keeps _ _ _) rfl) (State.count_keeps _ _ _) rfl
    have hx507_3 : Keeps 562949953454084 s x507_3 := by
      unfold x507_3
      exact .app hx507_2 (State.findIndex_keeps _) rfl
    refine .ite (fun _ => ?_) (fun _ => ?_)
    · exact .app hx507_2 (State.ascend_keeps _ _ _) rfl
    · exact .app hx507_3 (keeps_mode _ _) rfl
  · exact .refl _ _

theorem execArrayInitDone_keeps (s : State) {t : State} (h : execArrayInitDone s = .next t) : Keeps 36891673652541500 s t := by
  unfold execArrayInitDone at h
  cases h
  refine .ite (fun _ => ?_) (fun _ => ?_)
  · exact .app (.app (.refl _ _) (keeps_mode _ _) rfl) (State.readyLoad_keeps _) rfl
  · exact .refl _ _

theorem execPcieLinkUp_keeps (a0 : Nat) (a1 : Nat) (s : State) {t : State} (h : execPcieLinkUp a0 a1 s = .next t) : Keeps 8590100492 s t := by
  unfold execPcieLinkUp at h
  cases h
  refine .ite (fun _ => ?_) (fun _ => ?_)
  · exact .app (.app (.refl _ _) (keeps_mode _ _) rfl) (State.pcieLink_keeps _ _ _) rfl
  · exact .refl _ _

theorem execDramTrainingRetry_keeps (a0 : List Nat) (s : State) {t : State} (h : execDramTrainingRetry a0 s = .next t) : Keeps 38017573559384124 s t := by
  unfold execDramTrainingRetry at h
  cases h
  refine .ite (fun _ => ?_) (fun _ => ?_)
  · exact .app (.refl _ _) (State.trained_keeps _ _) rfl
  · exact .refl _ _

theorem execSlotVerifyDone_keeps (a0 : Bool) (a1 : ImageFile) (s : State) {t : State} (h : execSlotVerifyDone a0 a1 s = .next t) : Keeps 128352555544328764 s t := by
  unfold execSlotVerifyDone at h
  cases h
  refine .ite (fun _ => ?_) (fun _ => ?_)
  · extract_lets x508_0 x508_1 x508_2 x508_3 x508_4
    have hx508_2 : Keeps 128352555544328764 s x508_2 := by
      unfold x508_2
      exact .app (.refl _ _) (State.slotResult_keeps _ _ _ _) rfl
    have hx508_3 : Keeps 128352555544328764 s x508_3 := by
      unfold x508_3
      exact .app (.app (.app hx508_2 (State.slotFail_keeps _ _ _) rfl) (State.setF_keeps _ _ _) rfl) (State.cairn_keeps _ _ _ _ _) rfl
    refine .ite (fun _ => ?_) (fun _ => ?_)
    · exact .app hx508_2 (State.slotLoad_keeps _ _ _) rfl
    · refine .ite (fun _ => ?_) (fun _ => ?_)
      · exact .app (.app hx508_2 (State.slotFail_keeps _ _ _) rfl) (State.imageWait_keeps _) rfl
      · exact .app (.app hx508_3 (keeps_load _ _) rfl) (State.imgState_keeps _ _) rfl
  · exact .refl _ _

theorem execSeal_keeps (s : State) {t : State} (h : execSeal s = .next t) : Keeps 281475245189132 s t := by
  unfold execSeal at h
  cases h
  exact .app (.refl _ _) (State.doSeal_keeps _) rfl

theorem execSealTimeout_keeps (s : State) {t : State} (h : execSealTimeout s = .next t) : Keeps 281475245189132 s t := by
  unfold execSealTimeout at h
  cases h
  refine .ite (fun _ => ?_) (fun _ => ?_)
  · exact .app (.refl _ _) (State.sealNow_keeps _) rfl
  · exact .refl _ _

theorem execImgPush_keeps (s : State) {t : State} (h : execImgPush s = .next t) : Keeps 281474976743940 s t := by
  unfold execImgPush at h
  cases h
  exact .app (.refl _ _) (State.doImgPush_keeps _) rfl

theorem execLeap_keeps (s : State) {t : State} (h : execLeap s = .next t) : Keeps 844424930166796 s t := by
  unfold execLeap at h
  cases h
  exact .app (.refl _ _) (State.doLeap_keeps _) rfl

theorem execLeapAbort_keeps (s : State) {t : State} (h : execLeapAbort s = .next t) : Keeps 844424930166796 s t := by
  unfold execLeapAbort at h
  cases h
  exact .app (.refl _ _) (State.doLeapAbort_keeps _) rfl

theorem execLeapQueuesEmpty_keeps (s : State) {t : State} (h : execLeapQueuesEmpty s = .next t) : Keeps 19421773393070092 s t := by
  unfold execLeapQueuesEmpty at h
  cases h
  refine .ite (fun _ => ?_) (fun _ => ?_)
  · exact .app (.refl _ _) (State.leapService_keeps _) rfl
  · exact .refl _ _

theorem execLeapDrainMaxExpiry_keeps (s : State) {t : State} (h : execLeapDrainMaxExpiry s = .next t) : Keeps 55450570532620300 s t := by
  unfold execLeapDrainMaxExpiry at h
  cases h
  refine .ite (fun _ => ?_) (fun _ => ?_)
  · extract_lets x509_0
    have hx509_0 : Keeps 55450570532620300 s x509_0 := by
      unfold x509_0
      exact .app (.app (.refl _ _) (State.cutCopies_keeps _ _) rfl) (State.flushAll_keeps _) rfl
    exact .app (.app hx509_0 (State.dropFrames_keeps _ _) rfl) (State.leapService_keeps _) rfl
  · exact .refl _ _

theorem execDomainSet_keeps (a0 : Nat) (s : State) {t : State} (h : execDomainSet a0 s = .next t) : Keeps 62513895909592716 s t := by
  unfold execDomainSet at h
  cases h
  exact .app (.refl _ _) (State.doDomainSet_keeps _ _) rfl

theorem execDomainSlew_keeps (a0 : Nat) (s : State) {t : State} (h : execDomainSlew a0 s = .next t) : Keeps 262148 s t := by
  unfold execDomainSlew at h
  cases h
  exact .app (.refl _ _) (State.doDomainSlew_keeps _ _) rfl

theorem execSlewDone_keeps (a0 : Nat) (s : State) {t : State} (h : execSlewDone a0 s = .next t) : Keeps 264204 s t := by
  unfold execSlewDone at h
  cases h
  split
  · exact .refl _ _
  · refine .ite (fun _ => ?_) (fun _ => ?_)
    · exact .app (.app (.app (.refl _ _) (State.putDom_keeps _ _ _) rfl) (State.setF_keeps _ _ _) rfl) (State.raiseTSY_keeps _ _) rfl
    · exact .refl _ _

theorem execPpsInCapture_keeps (s : State) {t : State} (h : execPpsInCapture s = .next t) : Keeps 2060 s t := by
  unfold execPpsInCapture at h
  cases h
  extract_lets x510_0 x510_1 x510_2 x510_3
  have hx510_1 : Keeps 2060 s x510_1 := by
    unfold x510_1
    exact .app (.app (.refl _ _) (State.setF_keeps _ _ _) rfl) (State.setF_keeps _ _ _) rfl
  have hx510_2 : Keeps 2060 s x510_2 := by
    unfold x510_2
    exact .app hx510_1 (State.setF_keeps _ _ _) rfl
  have hx510_3 : Keeps 2060 s x510_3 := by
    unfold x510_3
    refine .ite (fun _ => ?_) (fun _ => ?_)
    · exact .app hx510_2 (State.setF_keeps _ _ _) rfl
    · exact hx510_2
  exact .app (.app hx510_3 (State.setF_keeps _ _ _) rfl) (State.raiseTSY_keeps _ _) rfl

theorem execHeartbeatSend_keeps (s : State) {t : State} (h : execHeartbeatSend s = .next t) : Keeps 562949953423360 s t := by
  unfold execHeartbeatSend at h
  cases h
  refine .ite (fun _ => ?_) (fun _ => ?_)
  · extract_lets x511_0 x511_1
    have hx511_0 : Keeps 562949953423360 s x511_0 := by
      unfold x511_0
      exact .app (.refl _ _) (keeps_emit _ _) rfl
    exact .app hx511_0 (keeps_rope _ _) rfl
  · exact .refl _ _

theorem State.beatTake_keeps (s : State) (a1 : Heartbeat) : Keeps 19984723346491404 s (@State.beatTake s a1) := by
  unfold State.beatTake
  extract_lets x512_0 x512_1 x512_2 x512_3 x512_4
  have hx512_0 : Keeps 19984723346491404 s x512_0 := by
    unfold x512_0
    exact .app (.refl _ _) (State.beatGap_keeps _) rfl
  have hx512_2 : Keeps 19984723346491404 s x512_2 := by
    unfold x512_2
    exact .app hx512_0 (keeps_rope _ _) rfl
  have hx512_3 : Keeps 19984723346491404 s x512_3 := by
    unfold x512_3
    exact .app (.app hx512_2 (State.setF_keeps _ _ _) rfl) (State.setF_keeps _ _ _) rfl
  have hx512_4 : Keeps 19984723346491404 s x512_4 := by
    unfold x512_4
    refine .ite (fun _ => ?_) (fun _ => ?_)
    · exact .app hx512_3 (State.ropeSolo_keeps _) rfl
    · exact hx512_3
  refine .ite (fun _ => ?_) (fun _ => ?_)
  · exact .app hx512_4 (State.leapAbort_keeps _ _) rfl
  · exact hx512_4

theorem execHeartbeatRx_keeps (a0 : Heartbeat) (s : State) {t : State} (h : execHeartbeatRx a0 s = .next t) : Keeps 62795370886041228 s t := by
  unfold execHeartbeatRx at h
  cases h
  refine .ite (fun _ => ?_) (fun _ => ?_)
  · exact .refl _ _
  · refine .ite (fun _ => ?_) (fun _ => ?_)
    · exact .app (.app (.refl _ _) (State.portTally_keeps _ _ _ _) rfl) (State.event_keeps _ _ _) rfl
    · refine .ite (fun _ => ?_) (fun _ => ?_)
      · exact .app (.refl _ _) (State.beatTake_keeps _ _) rfl
      · exact .refl _ _

theorem execRopeLost_keeps (s : State) {t : State} (h : execRopeLost s = .next t) : Keeps 62795370886041228 s t := by
  unfold execRopeLost at h
  cases h
  refine .ite (fun _ => ?_) (fun _ => ?_)
  · extract_lets x513_0 x513_1 x513_2
    have hx513_1 : Keeps 62795370886041228 s x513_1 := by
      unfold x513_1
      refine .ite (fun _ => ?_) (fun _ => ?_)
      · exact .refl _ _
      · exact .app (.app (.refl _ _) (State.count_keeps _ _ _) rfl) (State.event_keeps _ _ _) rfl
    have hx513_2 : Keeps 62795370886041228 s x513_2 := by
      unfold x513_2
      refine .ite (fun _ => ?_) (fun _ => ?_)
      · exact .app hx513_1 (State.portDown_keeps _ _) rfl
      · exact hx513_1
    refine .ite (fun _ => ?_) (fun _ => ?_)
    · exact .app hx513_2 (State.crevasse_keeps _) rfl
    · exact hx513_2
  · exact .refl _ _

theorem execHelloRx_keeps (a0 : Hello) (s : State) {t : State} (h : execHelloRx a0 s = .next t) : Keeps 62795370886041228 s t := by
  unfold execHelloRx at h
  cases h
  refine .ite (fun _ => ?_) (fun _ => ?_)
  · exact .refl _ _
  · refine .ite (fun _ => ?_) (fun _ => ?_)
    · refine .ite (fun _ => ?_) (fun _ => ?_)
      · exact .refl _ _
      · exact .app (.refl _ _) (State.event_keeps _ _ _) rfl
    · extract_lets x514_0
      have hx514_0 : Keeps 62795370886041228 s x514_0 := by
        unfold x514_0
        exact .app (.app (.refl _ _) (State.setF_keeps _ _ _) rfl) (State.setF_keeps _ _ _) rfl
      refine .ite (fun _ => ?_) (fun _ => ?_)
      · exact hx514_0
      · refine .ite (fun _ => ?_) (fun _ => ?_)
        · exact .app hx514_0 (State.helloTake_keeps _ _) rfl
        · exact .app hx514_0 (State.refuse_keeps _ _) rfl

theorem execSeqResumeRx_keeps (a0 : SeqResume) (s : State) {t : State} (h : execSeqResumeRx a0 s = .next t) : Keeps 62513895909330588 s t := by
  unfold execSeqResumeRx at h
  cases h
  refine .stateRx ?_ rfl (fun u515 => ?_)
  · exact .refl _ _
  · extract_lets x516_0 x516_1 x516_2
    have hx516_0 : Keeps 62513895909330588 u515 x516_0 := by
      unfold x516_0
      exact .app (.refl _ _) (State.adoptNext_keeps _ _) rfl
    have hx516_2 : Keeps 62513895909330588 u515 x516_2 := by
      unfold x516_2
      exact .app hx516_0 (keeps_rope _ _) rfl
    refine .ite (fun _ => ?_) (fun _ => ?_)
    · exact hx516_0
    · refine .ite (fun _ => ?_) (fun _ => ?_)
      · exact .app hx516_2 (State.pairWhenDone_keeps _) rfl
      · exact hx516_2

theorem execServiceMsgRx_keeps (a0 : Nat) (a1 : Bool) (s : State) {t : State} (h : execServiceMsgRx a0 a1 s = .next t) : Keeps 62795370886041228 s t := by
  unfold execServiceMsgRx at h
  cases h
  refine .stateRx ?_ rfl (fun u517 => ?_)
  · exact .refl _ _
  · refine .ite (fun _ => ?_) (fun _ => ?_)
    · exact .app (.refl _ _) (State.ropeSolo_keeps _) rfl
    · refine .ite (fun _ => ?_) (fun _ => ?_)
      · exact .refl _ _
      · exact .app (.refl _ _) (State.goAway_keeps _ _) rfl

theorem execLeapAbortMsgRx_keeps (a0 : Nat) (s : State) {t : State} (h : execLeapAbortMsgRx a0 s = .next t) : Keeps 62513895909330572 s t := by
  unfold execLeapAbortMsgRx at h
  cases h
  refine .stateRx ?_ rfl (fun u518 => ?_)
  · exact .refl _ _
  · refine .ite (fun _ => ?_) (fun _ => ?_)
    · exact .refl _ _
    · extract_lets x519_0
      have hx519_0 : Keeps 62513895909330572 u518 x519_0 := by
        unfold x519_0
        refine .ite (fun _ => ?_) (fun _ => ?_)
        · exact .app (.refl _ _) (State.sendResume_keeps _ _ _) rfl
        · exact .refl _ _
      exact .app hx519_0 (State.pairNow_keeps _) rfl

theorem execSafetyMsgRx_keeps (a0 : List Byte) (s : State) {t : State} (h : execSafetyMsgRx a0 s = .next t) : Keeps 19984723346622476 s t := by
  unfold execSafetyMsgRx at h
  cases h
  refine .ite (fun _ => ?_) (fun _ => ?_)
  · exact .refl _ _
  · extract_lets x520_0 x520_1 x520_2
    have hx520_1 : Keeps 19984723346622476 s x520_1 := by
      unfold x520_1
      exact .app (.app (.refl _ _) (State.setF_keeps _ _ _) rfl) (State.setF_keeps _ _ _) rfl
    have hx520_2 : Keeps 19984723346622476 s x520_2 := by
      unfold x520_2
      exact .app (.app hx520_1 (State.setF_keeps _ _ _) rfl) (State.raiseTWN_keeps _ _) rfl
    refine .ite (fun _ => ?_) (fun _ => ?_)
    · exact .app hx520_2 (State.goAway_keeps _ _) rfl
    · exact hx520_2

theorem State.timeResult_keeps (s : State) (a1 : Nat) (a2 : Nat) (a3 : Nat) (a4 : Nat) : Keeps 1028 s (@State.timeResult s a1 a2 a3 a4) := by
  unfold State.timeResult
  extract_lets x521_0 x521_1 x521_2 x521_3 x521_4
  have hx521_4 : Keeps 1028 s x521_4 := by
    unfold x521_4
    refine .app ?_ (State.setF_keeps _ _ _) rfl
    refine .app ?_ (State.setF_keeps _ _ _) rfl
    unfold x521_1
    refine .app ?_ (State.free_keeps rfl) rfl
    unfold x521_0
    exact .app (.refl _ _) (State.free_keeps rfl) rfl
  exact .app hx521_4 (State.setF_keeps _ _ _) rfl

theorem execTimeMsgRx_keeps (a0 : List Byte) (s : State) {t : State} (h : execTimeMsgRx a0 s = .next t) : Keeps 562949953422340 s t := by
  unfold execTimeMsgRx at h
  cases h
  refine .ite (fun _ => ?_) (fun _ => ?_)
  · exact .refl _ _
  · extract_lets x522_0 x522_1 x522_2 x522_3 x522_4 x522_5 x522_6 x522_7 x522_8
    have hx522_4 : Keeps 562949953422340 s x522_4 := by
      unfold x522_4
      split
      · refine .ite (fun _ => ?_) (fun _ => ?_)
        · exact .refl _ _
        · exact .app (.refl _ _) (State.timeResult_keeps _ _ _ _ _) rfl
      · exact .refl _ _
    have hx522_5 : Keeps 562949953422340 s x522_5 := by
      unfold x522_5
      exact .app (.app hx522_4 (State.setF_keeps _ _ _) rfl) (State.setF_keeps _ _ _) rfl
    have hx522_6 : Keeps 562949953422340 s x522_6 := by
      unfold x522_6
      exact .app (.app hx522_5 (State.setF_keeps _ _ _) rfl) (State.setF_keeps _ _ _) rfl
    have hx522_7 : Keeps 562949953422340 s x522_7 := by
      unfold x522_7
      exact .app (.app hx522_6 (State.setF_keeps _ _ _) rfl) (State.setF_keeps _ _ _) rfl
    exact .app hx522_7 (keeps_rope _ _) rfl

theorem execRopeFcSend_keeps (s : State) {t : State} (h : execRopeFcSend s = .next t) : Keeps 2052 s t := by
  unfold execRopeFcSend at h
  cases h
  refine .ite (fun _ => ?_) (fun _ => ?_)
  · exact .app (.app (.refl _ _) (keeps_emit _ _) rfl) (State.setF_keeps _ _ _) rfl
  · exact .refl _ _

theorem execRopeReformDone_keeps (s : State) {t : State} (h : execRopeReformDone s = .next t) : Keeps 562958798293004 s t := by
  unfold execRopeReformDone at h
  cases h
  refine .ite (fun _ => ?_) (fun _ => ?_)
  · exact .app (.refl _ _) (State.ropeActive_keeps _ _) rfl
  · refine .ite (fun _ => ?_) (fun _ => ?_)
    · exact .refl _ _
    · split
      · exact .app (.refl _ _) (State.spareJoins_keeps _ _) rfl
      · exact .refl _ _

theorem execRoleTake_keeps (s : State) {t : State} (h : execRoleTake s = .next t) : Keeps 562949953421316 s t := by
  unfold execRoleTake at h
  cases h
  exact .app (.refl _ _) (State.doRoleTake_keeps _) rfl

theorem execRankRetire_keeps (a0 : Nat) (a1 : Bool) (s : State) {t : State} (h : execRankRetire a0 a1 s = .next t) : Keeps 1125899906975756 s t := by
  unfold execRankRetire at h
  cases h
  exact .app (.refl _ _) (State.doRankRetire_keeps _ _ _) rfl

theorem execDramRequestComplete_keeps (a0 : DramDone) (s : State) {t : State} (h : execDramRequestComplete a0 s = .next t) : Keeps 62513895909330572 s t := by
  unfold execDramRequestComplete at h
  cases h
  refine .ite (fun _ => ?_) (fun _ => ?_)
  · exact .refl _ _
  · refine .ite (fun _ => ?_) (fun _ => ?_)
    · exact .refl _ _
    · refine .app ?_ (State.dramRead_keeps _ _) rfl
      refine .ite (fun _ => ?_) (fun _ => ?_)
      · exact .app (.refl _ _) (State.maxF_keeps _ _ _) rfl
      · exact .refl _ _

theorem execPatrolScrub_keeps (a0 : DramDone) (s : State) {t : State} (h : execPatrolScrub a0 s = .next t) : Keeps 62513895909330572 s t := by
  unfold execPatrolScrub at h
  cases h
  refine .ite (fun _ => ?_) (fun _ => ?_)
  · exact .app (.refl _ _) (State.dramRead_keeps _ _) rfl
  · exact .refl _ _

theorem execMbHello_keeps (s : State) {t : State} (h : execMbHello s = .next t) : Keeps 62795370886057612 s t := by
  unfold execMbHello at h
  cases h
  exact .app (.refl _ _) (State.mbRow_keeps _ _) rfl

theorem execMbEcho_keeps (s : State) {t : State} (h : execMbEcho s = .next t) : Keeps 62795370886057612 s t := by
  unfold execMbEcho at h
  cases h
  exact .app (.refl _ _) (State.mbRow_keeps _ _) rfl

theorem execMbOtpRevoke_keeps (s : State) {t : State} (h : execMbOtpRevoke s = .next t) : Keeps 62795370886057612 s t := by
  unfold execMbOtpRevoke at h
  cases h
  exact .app (.refl _ _) (State.mbRow_keeps _ _) rfl

theorem execDmaGo_keeps (a0 : Nat) (s : State) {t : State} (h : execDmaGo a0 s = .next t) : Keeps 62513895909330572 s t := by
  unfold execDmaGo at h
  cases h
  refine .ite (fun _ => ?_) (fun _ => ?_)
  · exact .refl _ _
  · exact .app (.refl _ _) (State.dmaGo_keeps _ _) rfl

theorem execDmaBurstDone_keeps (a0 : Nat) (a1 : List Byte) (a2 : List Nat) (s : State) {t : State} (h : execDmaBurstDone a0 a1 a2 s = .next t) : Keeps 62657931933093564 s t := by
  unfold execDmaBurstDone at h
  cases h
  split
  · exact .refl _ _
  · refine .ite (fun _ => ?_) (fun _ => ?_)
    · exact .refl _ _
    · extract_lets x523_0 x523_1 x523_2 x523_3 x523_4 x523_5 x523_6 x523_7 x523_8 x523_9 x523_10 x523_11 x523_12 x523_13 x523_14 x523_15
      have hx523_7 : Keeps 62657931933093564 s x523_7 := by
        unfold x523_7
        exact .app (.refl _ _) (State.dramWrite_keeps _ _ _ _) rfl
      have hx523_11 : Keeps 62657931933093564 s x523_11 := by
        unfold x523_11
        refine .ite (fun _ => ?_) (fun _ => ?_)
        · refine .app ?_ (State.setF_keeps _ _ _) rfl
          unfold x523_10
          refine .iteP (fun r : State × Bool => r.1) (fun _ => ?_) (fun _ => ?_)
          · refine .fst ?_
            exact .app (.refl _ _) (keeps_emit _ _) rfl
          · refine .iteP (fun r : State × Bool => r.1) (fun _ => ?_) (fun _ => ?_)
            · exact .app (.refl _ _) (State.dmaBar2_keeps rfl) rfl
            · refine .fst ?_
              exact .app hx523_7 (keeps_dramc _ _) rfl
        · unfold x523_10
          refine .iteP (fun r : State × Bool => r.1) (fun _ => ?_) (fun _ => ?_)
          · refine .fst ?_
            exact .app (.refl _ _) (keeps_emit _ _) rfl
          · refine .iteP (fun r : State × Bool => r.1) (fun _ => ?_) (fun _ => ?_)
            · exact .app (.refl _ _) (State.dmaBar2_keeps rfl) rfl
            · refine .fst ?_
              exact .app hx523_7 (keeps_dramc _ _) rfl
      have hx523_12 : Keeps 62657931933093564 s x523_12 := by
        unfold x523_12
        refine .ite (fun _ => ?_) (fun _ => ?_)
        · exact .app hx523_11 (State.setF_keeps _ _ _) rfl
        · exact hx523_11
      have hx523_14 : Keeps 62657931933093564 s x523_14 := by
        unfold x523_14
        exact .app hx523_12 (keeps_dma _ _) rfl
      have hx523_15 : Keeps 62657931933093564 s x523_15 := by
        unfold x523_15
        exact .app hx523_14 (State.setF_keeps _ _ _) rfl
      refine .ite (fun _ => ?_) (fun _ => ?_)
      · exact .app hx523_15 (State.dmaStopped_keeps _ _) rfl
      · exact hx523_15

theorem execRingDoorbell_keeps (a0 : Nat) (a1 : Nat) (s : State) {t : State} (h : execRingDoorbell a0 a1 s = .next t) : Keeps 62513895909330572 s t := by
  unfold execRingDoorbell at h
  cases h
  refine .ite (fun _ => ?_) (fun _ => ?_)
  · exact .refl _ _
  · exact .app (.refl _ _) (State.doorbell_keeps _ _ _) rfl

theorem State.ringAdvance_keeps (s : State) (a1 : Nat) : Keeps 4 s (@State.ringAdvance s a1) := by
  unfold State.ringAdvance
  extract_lets x524_0 x524_1
  have hx524_1 : Keeps 4 s x524_1 := by
    unfold x524_1
    exact .app (.refl _ _) (State.setF_keeps _ _ _) rfl
  refine .ite (fun _ => ?_) (fun _ => ?_)
  · exact .app hx524_1 (State.setF_keeps _ _ _) rfl
  · exact hx524_1

theorem State.txAdvance_keeps (s : State) (a1 : Nat) : Keeps 4503599627372556 s (@State.txAdvance s a1) := by
  unfold State.txAdvance
  extract_lets x525_0 x525_1 x525_2
  have hx525_0 : Keeps 4503599627372556 s x525_0 := by
    unfold x525_0
    exact .app (.refl _ _) (State.ringAdvance_keeps _ _) rfl
  have hx525_2 : Keeps 4503599627372556 s x525_2 := by
    unfold x525_2
    refine .ite (fun _ => ?_) (fun _ => ?_)
    · exact hx525_0
    · exact .app hx525_0 (keeps_emit _ _) rfl
  exact .app hx525_2 (State.ringComplete_keeps _ _) rfl

theorem execTxDescriptorProcess_keeps (a0 : Nat) (a1 : Nat) (a2 : List Byte) (a3 : List Byte) (s : State) {t : State} (h : execTxDescriptorProcess a0 a1 a2 a3 s = .next t) : Keeps 4503599644149772 s t := by
  unfold execTxDescriptorProcess at h
  cases h
  extract_lets x526_0 x526_1 x526_2 x526_3 x526_4 x526_5 x526_6
  refine .ite (fun _ => ?_) (fun _ => ?_)
  · exact .refl _ _
  · refine .ite (fun _ => ?_) (fun _ => ?_)
    · exact .app (.app (.refl _ _) (State.count_keeps _ _ _) rfl) (State.txAdvance_keeps _ _) rfl
    · exact .app (.app (.app (.refl _ _) (keeps_frames _ _) rfl) (State.count_keeps _ _ _) rfl) (State.txAdvance_keeps _ _) rfl

theorem execRxCompletion_keeps (a0 : Nat) (a1 : List Byte) (a2 : Bool) (s : State) {t : State} (h : execRxCompletion a0 a1 a2 s = .next t) : Keeps 62513895909592716 s t := by
  unfold execRxCompletion at h
  cases h
  split
  · extract_lets x527_0 x527_1 x527_2 x527_3 x527_4 x527_5 x527_6 x527_7 x527_8 x527_9 x527_10 x527_11 x527_12 x527_13 x527_14 x527_15
    have hx527_7 : Keeps 62513895909592716 s x527_7 := by
      unfold x527_7
      refine .ite (fun _ => ?_) (fun _ => ?_)
      · exact .refl _ _
      · exact .app (.refl _ _) (State.refuseRead_keeps _ _) rfl
    have hx527_10 : Keeps 62513895909592716 s x527_10 := by
      unfold x527_10
      exact .app (.app hx527_7 (keeps_emit _ _) rfl) (keeps_emit _ _) rfl
    have hx527_11 : Keeps 62513895909592716 s x527_11 := by
      unfold x527_11
      exact .app (.app hx527_10 (keeps_emit _ _) rfl) (keeps_emit _ _) rfl
    have hx527_13 : Keeps 62513895909592716 s x527_13 := by
      unfold x527_13
      exact .app (.app hx527_11 (State.txCharge_keeps _ _ _) rfl) (State.count_keeps _ _ _) rfl
    have hx527_14 : Keeps 62513895909592716 s x527_14 := by
      unfold x527_14
      refine .ite (fun _ => ?_) (fun _ => ?_)
      · exact .app hx527_13 (State.portTally_keeps _ _ _ _) rfl
      · exact .app hx527_13 (State.txGood_keeps _ _ _ _ _) rfl
    have hx527_15 : Keeps 62513895909592716 s x527_15 := by
      unfold x527_15
      exact .app (.app hx527_14 (State.ringAdvance_keeps _ _) rfl) (State.ringComplete_keeps _ _) rfl
    refine .ite (fun _ => ?_) (fun _ => ?_)
    · exact .refl _ _
    · exact .app (.app (.app (.app (.app hx527_15 (State.releaseCopy_keeps _ _) rfl) (State.settleFrame_keeps _ _) rfl) (State.cbsStep_keeps _ _ _) rfl) (State.ringShut_keeps _ _) rfl) (State.raiseFrees_keeps _) rfl
  · exact .refl _ _

theorem execRingCoalTimeout_keeps (a0 : Nat) (s : State) {t : State} (h : execRingCoalTimeout a0 s = .next t) : Keeps 4503599627372552 s t := by
  unfold execRingCoalTimeout at h
  cases h
  extract_lets x528_0 x528_1
  refine .ite (fun _ => ?_) (fun _ => ?_)
  · exact .app (.app (.refl _ _) (State.putRing_keeps _ _) rfl) (State.sendVec_keeps _ _) rfl
  · exact .refl _ _

theorem execHostInterfaceReset_keeps (a0 : Bool) (s : State) {t : State} (h : execHostInterfaceReset a0 s = .next t) : Keeps 42784205170674316 s t := by
  unfold execHostInterfaceReset at h
  cases h
  refine .ite (fun _ => ?_) (fun _ => ?_)
  · exact .refl _ _
  · extract_lets x529_0
    have hx529_0 : Keeps 42784205170674316 s x529_0 := by
      unfold x529_0
      exact .app (.refl _ _) (State.hostReset_keeps _) rfl
    refine .ite (fun _ => ?_) (fun _ => ?_)
    · exact .app (.app (.app hx529_0 (State.setF_keeps _ _ _) rfl) (State.setF_keeps _ _ _) rfl) (State.regrant_keeps _ _ _) rfl
    · exact hx529_0

theorem execFaultAckHandled_keeps (a0 : Nat) (s : State) {t : State} (h : execFaultAckHandled a0 s = .next t) : Keeps 62513895909330572 s t := by
  unfold execFaultAckHandled at h
  cases h
  exact .app (.refl _ _) (State.doFaultAckHandled_keeps _ _) rfl

theorem execFaultAckReact_keeps (a0 : Nat) (s : State) {t : State} (h : execFaultAckReact a0 s = .next t) : Keeps 62513895909330572 s t := by
  unfold execFaultAckReact at h
  cases h
  exact .app (.refl _ _) (State.doFaultAckReact_keeps _ _) rfl

theorem State.nextRestart_keeps (s : State) (a1 : Nat) : Keeps 62513895909330572 s (@State.nextRestart s a1) := by
  unfold State.nextRestart
  split
  · exact .refl _ _
  · extract_lets x530_0 x530_1 x530_2
    have hx530_1 : Keeps 62513895909330572 s x530_1 := by
      unfold x530_1
      exact .app (.refl _ _) (keeps_flt _ _) rfl
    exact .app (.app hx530_1 (State.setF_keeps _ _ _) rfl) (State.react_keeps _ _ _ _ _ _) rfl

theorem execReactionComplete_keeps (a0 : Nat) (s : State) {t : State} (h : execReactionComplete a0 s = .next t) : Keeps 62517194444213916 s t := by
  unfold execReactionComplete at h
  cases h
  split
  · refine .ite (fun _ => ?_) (fun _ => ?_)
    · exact .refl _ _
    · extract_lets x531_0 x531_1 x531_2 x531_3 x531_4 x531_5
      have hx531_1 : Keeps 62517194444213916 s x531_1 := by
        unfold x531_1
        exact .app (.refl _ _) (keeps_flt _ _) rfl
      have hx531_2 : Keeps 62517194444213916 s x531_2 := by
        unfold x531_2
        exact .app (.app hx531_1 (State.setF_keeps _ _ _) rfl) (State.restored_keeps _ _) rfl
      have hx531_3 : Keeps 62517194444213916 s x531_3 := by
        unfold x531_3
        split
        · exact .app hx531_2 (State.refreshRules_keeps _) rfl
        · exact hx531_2
      have hx531_4 : Keeps 62517194444213916 s x531_4 := by
        unfold x531_4
        refine .ite (fun _ => ?_) (fun _ => ?_)
        · exact .app hx531_3 (State.ropeSend_keeps _ _) rfl
        · exact hx531_3
      have hx531_5 : Keeps 62517194444213916 s x531_5 := by
        unfold x531_5
        split
        · refine .ite (fun _ => ?_) (fun _ => ?_)
          · exact .app hx531_4 (State.nextRestart_keeps _ _) rfl
          · exact hx531_4
        · exact hx531_4
      refine .ite (fun _ => ?_) (fun _ => ?_)
      · exact .app hx531_5 (State.parkStart_keeps _) rfl
      · exact hx531_5
  · exact .refl _ _

theorem execReactionTimeout_keeps (a0 : Nat) (s : State) {t : State} (h : execReactionTimeout a0 s = .next t) : Keeps 62513895909330572 s t := by
  unfold execReactionTimeout at h
  cases h
  split
  · refine .ite (fun _ => ?_) (fun _ => ?_)
    · split
      · extract_lets x532_0 x532_1
        have hx532_1 : Keeps 62513895909330572 s x532_1 := by
          unfold x532_1
          exact .app (.refl _ _) (keeps_flt _ _) rfl
        exact .app hx532_1 (State.react_keeps _ _ _ _ _ _) rfl
      · exact .refl _ _
    · exact .refl _ _
  · exact .refl _ _

theorem execProbeSend_keeps (s : State) {t : State} (h : execProbeSend s = .next t) : Keeps 65536 s t := by
  unfold execProbeSend at h
  cases h
  exact .app (.refl _ _) (keeps_flt _ _) rfl

theorem execQuadrantHeartbeatTimeout_keeps (a0 : Nat) (s : State) {t : State} (h : execQuadrantHeartbeatTimeout a0 s = .next t) : Keeps 62513895909330572 s t := by
  unfold execQuadrantHeartbeatTimeout at h
  cases h
  refine .ite (fun _ => ?_) (fun _ => ?_)
  · exact .app (.refl _ _) (State.event_keeps _ _ _) rfl
  · exact .refl _ _

theorem execTempExcursion_keeps (a0 : Nat) (a1 : Int) (s : State) {t : State} (h : execTempExcursion a0 a1 s = .next t) : Keeps 18014398509615116 s t := by
  unfold execTempExcursion at h
  cases h
  refine .ite (fun _ => ?_) (fun _ => ?_)
  · extract_lets x533_0 x533_1
    have hx533_0 : Keeps 18014398509615116 s x533_0 := by
      unfold x533_0
      exact .app (.app (.refl _ _) (State.setF_keeps _ _ _) rfl) (State.raiseAGE_keeps _ _) rfl
    exact .app (.app hx533_0 (keeps_age _ _) rfl) (State.cairn_keeps _ _ _ _ _) rfl
  · exact .refl _ _

theorem execReplanAfterEntry_keeps (s : State) {t : State} (h : execReplanAfterEntry s = .next t) : Keeps 18014398509481988 s t := by
  unfold execReplanAfterEntry at h
  cases h
  refine .ite (fun _ => ?_) (fun _ => ?_)
  · exact .app (.app (.refl _ _) (keeps_age _ _) rfl) (State.replan_keeps _) rfl
  · exact .refl _ _

theorem execAgeRun_keeps (s : State) {t : State} (h : execAgeRun s = .next t) : Keeps 4 s t := by
  unfold execAgeRun at h
  cases h
  exact .app (.refl _ _) (State.replan_keeps _) rfl

theorem State.dramEyes_keeps (s : State) (a1 : List (Nat × Nat)) : Keeps 18014398509484044 s (@State.dramEyes s a1) := by
  unfold State.dramEyes
  extract_lets x534_0 x534_1 x534_2
  have hx534_0 : Keeps 18014398509484044 s x534_0 := by
    unfold x534_0
    refine .foldS ?_ (fun u535 a535 => ?_)
    · exact .refl _ _
    · refine .ite (fun _ => ?_) (fun _ => ?_)
      · exact .app (.app (.refl _ _) (State.setF_keeps _ _ _) rfl) (State.setF_keeps _ _ _) rfl
      · exact .refl _ _
  have hx534_2 : Keeps 18014398509484044 s x534_2 := by
    unfold x534_2
    exact .app hx534_0 (keeps_age _ _) rfl
  exact .app hx534_2 (State.raiseDRC_keeps _ _) rfl

theorem execReplanDone_keeps (a0 : Margins) (s : State) {t : State} (h : execReplanDone a0 s = .next t) : Keeps 62513895909330572 s t := by
  unfold execReplanDone at h
  cases h
  refine .ite (fun _ => ?_) (fun _ => ?_)
  · extract_lets x536_0
    have hx536_0 : Keeps 62513895909330572 s x536_0 := by
      unfold x536_0
      exact .app (.app (.app (.app (.app (.refl _ _) (State.assist_keeps _ _) rfl) (State.eyeTakes_keeps _ _) rfl) (State.retunes_keeps _ _) rfl) (State.dramEyes_keeps _ _) rfl) (State.marginsDone_keeps _) rfl
    exact .app (.app hx536_0 (State.raiseAGE_keeps _ _) rfl) (State.replanPending_keeps _) rfl
  · exact .refl _ _

theorem execAvsStep_keeps (a0 : Bool) (a1 : Nat) (a2 : Bool) (s : State) {t : State} (h : execAvsStep a0 a1 a2 s = .next t) : Keeps 62513895909330572 s t := by
  unfold execAvsStep at h
  cases h
  split
  · exact .refl _ _
  · refine .ite (fun _ => ?_) (fun _ => ?_)
    · exact .refl _ _
    · extract_lets x537_0 x537_1 x537_2 x537_3 x537_4
      have hx537_1 : Keeps 62513895909330572 s x537_1 := by
        unfold x537_1
        exact .app (.refl _ _) (State.vout_keeps _ _) rfl
      have hx537_3 : Keeps 62513895909330572 s x537_3 := by
        unfold x537_3
        exact .app hx537_1 (keeps_age _ _) rfl
      refine .ite (fun _ => ?_) (fun _ => ?_)
      · exact .app hx537_3 (State.voltageAt_keeps _ _ _ _ _) rfl
      · exact .app hx537_3 (keeps_age _ _) rfl

theorem State.vcoreLimit_keeps (s : State) (a1 : Bool) (a2 : Bool) : Keeps 62513895909330572 s (@State.vcoreLimit s a1 a2) := by
  unfold State.vcoreLimit
  extract_lets x538_0
  have hx538_0 : Keeps 62513895909330572 s x538_0 := by
    unfold x538_0
    exact .app (.refl _ _) (State.limitFlag_keeps _ _ _) rfl
  refine .ite (fun _ => ?_) (fun _ => ?_)
  · exact .app hx538_0 (State.event_keeps _ _ _) rfl
  · exact hx538_0

theorem execRoRead_keeps (a0 : List RoReading) (s : State) {t : State} (h : execRoRead a0 s = .next t) : Keeps 62513895909330572 s t := by
  unfold execRoRead at h
  cases h
  refine .ite (fun _ => ?_) (fun _ => ?_)
  · exact .refl _ _
  · extract_lets x539_0 x539_1 x539_2
    have hx539_1 : Keeps 62513895909330572 s x539_1 := by
      unfold x539_1
      exact .app (.refl _ _) (State.roTakes_keeps _ _) rfl
    split
    · exact hx539_1
    · extract_lets x540_0 x540_1 x540_2
      have hx540_2 : Keeps 62513895909330572 s x540_2 := by
        unfold x540_2
        exact .app (.app hx539_1 (State.setF_keeps _ _ _) rfl) (State.setF_keeps _ _ _) rfl
      refine .ite (fun _ => ?_) (fun _ => ?_)
      · exact hx540_2
      · exact .app (.app hx540_2 (State.vcoreLimit_keeps _ _ _) rfl) (State.setGoal_keeps _ _) rfl

theorem execEyeRead_keeps (a0 : Nat) (a1 : Nat) (a2 : Nat) (s : State) {t : State} (h : execEyeRead a0 a1 a2 s = .next t) : Keeps 4 s t := by
  unfold execEyeRead at h
  cases h
  exact .app (.refl _ _) (State.eyeTake_keeps _ _) rfl

theorem State.portCairns_keeps (s : State) (a1 : List Nat) : Keeps 133132 s (@State.portCairns s a1) := by
  induction a1 generalizing s with
  | nil =>
    simp only [State.portCairns]
    exact .refl _ _
  | cons b l ih =>
    simp only [State.portCairns]
    refine .app (k := 133132) ?_ (ih _) rfl
    exact .app (.refl _ _) (State.cairn_keeps _ _ _ _ _) rfl

theorem State.clearAccum_keeps (s : State) : Keeps 196608 s (@State.clearAccum s) := by
  unfold State.clearAccum
  refine .upd (t := s) ?_ (by intro p hp; cases p <;> first | exact absurd hp (by decide) | rfl) rfl rfl rfl rfl rfl rfl rfl rfl rfl
  exact .refl _ _

theorem execCairnIntervalEnd_keeps (s : State) {t : State} (h : execCairnIntervalEnd s = .next t) : Keeps 198668 s t := by
  unfold execCairnIntervalEnd at h
  cases h
  refine .ite (fun _ => ?_) (fun _ => ?_)
  · exact .refl _ _
  · extract_lets x541_0 x541_1 x541_2
    have hx541_0 : Keeps 198668 s x541_0 := by
      unfold x541_0
      exact .app (.refl _ _) (State.portCairns_keeps _ _) rfl
    have hx541_2 : Keeps 198668 s x541_2 := by
      unfold x541_2
      exact .app hx541_0 (State.cairn_keeps _ _ _ _ _) rfl
    exact .app (.app hx541_2 (State.sourceCairns_keeps _ _) rfl) (State.clearAccum_keeps _) rfl

theorem execCairnKeyBurn_keeps (s : State) {t : State} (h : execCairnKeyBurn s = .next t) : Keeps 149516 s t := by
  unfold execCairnKeyBurn at h
  cases h
  exact .app (.refl _ _) (State.doCairnKeyBurn_keeps _) rfl

theorem execCairnClearDone_keeps (s : State) {t : State} (h : execCairnClearDone s = .next t) : Keeps 133132 s t := by
  unfold execCairnClearDone at h
  cases h
  refine .ite (fun _ => ?_) (fun _ => .refl _ _)
  extract_lets c _ t u
  have ht : Keeps 133132 s t := .app (.refl _ _) (keeps_crnWf _ _ rfl) rfl
  clear_value t
  have hu : Keeps 133132 s u := by
    unfold u
    exact .app (.app (.app ht (State.setF_keeps _ _ _) rfl) (State.setF_keeps _ _ _) rfl) (State.putSlot_keeps _ _ _ _) rfl
  exact .app (.app hu (State.setF_keeps _ _ _) rfl) (State.raiseCRN_keeps _ _) rfl

theorem execSnapGo_keeps (s : State) {t : State} (h : execSnapGo s = .next t) : Keeps 36028797018966540 s t := by
  unfold execSnapGo at h
  cases h
  exact .app (.refl _ _) (State.snapStart_keeps _) rfl

theorem execSnapDone_keeps (s : State) {t : State} (h : execSnapDone s = .next t) : Keeps 36028797018966028 s t := by
  unfold execSnapDone at h
  cases h
  split
  · exact .refl _ _
  · refine .ite (fun _ => ?_) (fun _ => ?_)
    · exact .refl _ _
    · extract_lets x542_0 x542_1 x542_2 x542_3
      have hx542_1 : Keeps 36028797018966028 s x542_1 := by
        unfold x542_1
        exact .app (.app (.refl _ _) (keeps_emit _ _) rfl) (keeps_emit _ _) rfl
      have hx542_2 : Keeps 36028797018966028 s x542_2 := by
        unfold x542_2
        exact .app (.app (.app hx542_1 (State.setF_keeps _ _ _) rfl) (State.setF_keeps _ _ _) rfl) (State.setF_keeps _ _ _) rfl
      exact .app (.app hx542_2 (keeps_tly _ _) rfl) (State.raiseTLY_keeps _ _) rfl

theorem execBwWindowEnd_keeps (s : State) {t : State} (h : execBwWindowEnd s = .next t) : Keeps 36046389205008388 s t := by
  unfold execBwWindowEnd at h
  cases h
  extract_lets x543_0 x543_1 x543_2
  have hx543_1 : Keeps 36046389205008388 s x543_1 := by
    unfold x543_1
    refine .ite (fun _ => ?_) (fun _ => ?_)
    · exact .refl _ _
    · refine .foldS ?_ (fun u544 a544 => ?_)
      · exact .refl _ _
      · exact .app (.refl _ _) (State.bwPort_keeps _ _) rfl
  refine .ite (fun _ => ?_) (fun _ => ?_)
  · exact .refl _ _
  · refine .upd (t := x543_1) ?_ (by intro p hp; cases p <;> first | exact absurd hp (by decide) | rfl) rfl rfl rfl rfl rfl rfl rfl rfl rfl
    exact hx543_1

theorem execStrmSel_keeps (a0 : Nat) (s : State) {t : State} (h : execStrmSel a0 s = .next t) : Keeps 4 s t := by
  unfold execStrmSel at h
  cases h
  exact .app (.refl _ _) (State.selStrm_keeps _ _) rfl

theorem execDramRetrainDone_keeps (a0 : List (Nat × Nat)) (s : State) {t : State} (h : execDramRetrainDone a0 s = .next t) : Keeps 1125899906844684 s t := by
  unfold execDramRetrainDone at h
  cases h
  refine .ite (fun _ => ?_) (fun _ => ?_)
  · extract_lets x545_0 x545_1 x545_2
    have hx545_2 : Keeps 1125899906844684 s x545_2 := by
      unfold x545_2
      refine .foldl _ _ ?_ (fun u546 a546 => ?_)
      · exact .app (.refl _ _) (keeps_dramc _ _) rfl
      · unfold x545_0
        split
        · exact .app (.app (.refl _ _) (State.setF_keeps _ _ _) rfl) (State.setF_keeps _ _ _) rfl
        · exact .refl _ _
    exact .app hx545_2 (State.raiseDRC_keeps _ _) rfl
  · exact .refl _ _

theorem State.relock_keeps (s : State) (a1 : List LaneSt) : Keeps 4 s (@State.relock s a1) := by
  induction a1 generalizing s with
  | nil =>
    simp only [State.relock]
    exact .refl _ _
  | cons b l ih =>
    simp only [State.relock]
    refine .app (k := 4) ?_ (ih _) rfl
    exact .app (.app (.app (.refl _ _) (State.setF_keeps _ _ _) rfl) (State.setF_keeps _ _ _) rfl) (State.setF_keeps _ _ _) rfl

theorem execLockRegained_keeps (a0 : Nat) (s : State) {t : State} (h : execLockRegained a0 s = .next t) : Keeps 562950208358412 s t := by
  unfold execLockRegained at h
  cases h
  extract_lets x547_0 x547_1
  have hx547_0 : Keeps 562950208358412 s x547_0 := by
    unfold x547_0
    exact .app (.app (.app (.refl _ _) (State.localClear_keeps _ _) rfl) (State.setF_keeps _ _ _) rfl) (State.updPort_keeps _ _ _) rfl
  have hx547_1 : Keeps 562950208358412 s x547_1 := by
    unfold x547_1
    refine .ite (fun _ => ?_) (fun _ => ?_)
    · exact .app hx547_0 (State.relock_keeps _ _) rfl
    · exact hx547_0
  refine .ite (fun _ => ?_) (fun _ => ?_)
  · exact .app hx547_1 (State.lockGained_keeps _ _) rfl
  · exact .refl _ _

theorem State.setRtc_keeps (s : State) (a1 : Nat) : Keeps 262144 s (@State.setRtc s a1) := by
  unfold State.setRtc
  exact .app (.refl _ _) (keeps_time _ _) rfl


end Sys2Proof.Machine
end

