-- ==== Sys2Proof/Laws/State.lean ====
section
/-!
SUPPORT. Laws/State.lean: one lemma for each field of the state and each basic update: what the update leaves in the field, by rfl.
-/

namespace Sys2Proof.Machine

/-! ### wr -/

@[simp] theorem State.wr_pending (s : State) (o : Nat) (w : Word) : (s.wr o w).pending = s.pending := rfl
@[simp] theorem State.wr_now (s : State) (o : Nat) (w : Word) : (s.wr o w).now = s.now := rfl
@[simp] theorem State.wr_bar4 (s : State) (o : Nat) (w : Word) : (s.wr o w).bar4 = s.bar4 := rfl
@[simp] theorem State.wr_mem (s : State) (o : Nat) (w : Word) : (s.wr o w).mem = s.mem := rfl
@[simp] theorem State.wr_dram (s : State) (o : Nat) (w : Word) : (s.wr o w).dram = s.dram := rfl
@[simp] theorem State.wr_readData (s : State) (o : Nat) (w : Word) : (s.wr o w).readData = s.readData := rfl
@[simp] theorem State.wr_latch (s : State) (o : Nat) (w : Word) : (s.wr o w).latch = s.latch := rfl
@[simp] theorem State.wr_latchI2c (s : State) (o : Nat) (w : Word) : (s.wr o w).latchI2c = s.latchI2c := rfl
@[simp] theorem State.wr_heldLo (s : State) (o : Nat) (w : Word) : (s.wr o w).heldLo = s.heldLo := rfl
@[simp] theorem State.wr_freeCtr (s : State) (o : Nat) (w : Word) : (s.wr o w).freeCtr = s.freeCtr := rfl
@[simp] theorem State.wr_out (s : State) (o : Nat) (w : Word) : (s.wr o w).out = s.out := rfl
@[simp] theorem State.wr_img (s : State) (o : Nat) (w : Word) : (s.wr o w).img = s.img := rfl
@[simp] theorem State.wr_isSealed (s : State) (o : Nat) (w : Word) : (s.wr o w).isSealed = s.isSealed := rfl
@[simp] theorem State.wr_otp (s : State) (o : Nat) (w : Word) : (s.wr o w).otp = s.otp := rfl
@[simp] theorem State.wr_mode (s : State) (o : Nat) (w : Word) : (s.wr o w).mode = s.mode := rfl
@[simp] theorem State.wr_flt (s : State) (o : Nat) (w : Word) : (s.wr o w).flt = s.flt := rfl
@[simp] theorem State.wr_crn (s : State) (o : Nat) (w : Word) : (s.wr o w).crn = s.crn := rfl
@[simp] theorem State.wr_time (s : State) (o : Nat) (w : Word) : (s.wr o w).time = s.time := rfl
@[simp] theorem State.wr_gens (s : State) (o : Nat) (w : Word) : (s.wr o w).gens = s.gens := rfl
@[simp] theorem State.wr_threads (s : State) (o : Nat) (w : Word) : (s.wr o w).threads = s.threads := rfl
@[simp] theorem State.wr_samples (s : State) (o : Nat) (w : Word) : (s.wr o w).samples = s.samples := rfl
@[simp] theorem State.wr_evtCount (s : State) (o : Nat) (w : Word) : (s.wr o w).evtCount = s.evtCount := rfl
@[simp] theorem State.wr_tasks (s : State) (o : Nat) (w : Word) : (s.wr o w).tasks = s.tasks := rfl
@[simp] theorem State.wr_frames (s : State) (o : Nat) (w : Word) : (s.wr o w).frames = s.frames := rfl
@[simp] theorem State.wr_copies (s : State) (o : Nat) (w : Word) : (s.wr o w).copies = s.copies := rfl
@[simp] theorem State.wr_buf (s : State) (o : Nat) (w : Word) : (s.wr o w).buf = s.buf := rfl
@[simp] theorem State.wr_ports (s : State) (o : Nat) (w : Word) : (s.wr o w).ports = s.ports := rfl
@[simp] theorem State.wr_lanes (s : State) (o : Nat) (w : Word) : (s.wr o w).lanes = s.lanes := rfl
@[simp] theorem State.wr_sas (s : State) (o : Nat) (w : Word) : (s.wr o w).sas = s.sas := rfl
@[simp] theorem State.wr_scs (s : State) (o : Nat) (w : Word) : (s.wr o w).scs = s.scs := rfl
@[simp] theorem State.wr_patchBad (s : State) (o : Nat) (w : Word) : (s.wr o w).patchBad = s.patchBad := rfl
@[simp] theorem State.wr_gates (s : State) (o : Nat) (w : Word) : (s.wr o w).gates = s.gates := rfl
@[simp] theorem State.wr_shapers (s : State) (o : Nat) (w : Word) : (s.wr o w).shapers = s.shapers := rfl
@[simp] theorem State.wr_scheds (s : State) (o : Nat) (w : Word) : (s.wr o w).scheds = s.scheds := rfl
@[simp] theorem State.wr_meters (s : State) (o : Nat) (w : Word) : (s.wr o w).meters = s.meters := rfl
@[simp] theorem State.wr_strm (s : State) (o : Nat) (w : Word) : (s.wr o w).strm = s.strm := rfl
@[simp] theorem State.wr_strmCarry (s : State) (o : Nat) (w : Word) : (s.wr o w).strmCarry = s.strmCarry := rfl
@[simp] theorem State.wr_frerAt (s : State) (o : Nat) (w : Word) : (s.wr o w).frerAt = s.frerAt := rfl
@[simp] theorem State.wr_genUsed (s : State) (o : Nat) (w : Word) : (s.wr o w).genUsed = s.genUsed := rfl
@[simp] theorem State.wr_mirror (s : State) (o : Nat) (w : Word) : (s.wr o w).mirror = s.mirror := rfl
@[simp] theorem State.wr_lost (s : State) (o : Nat) (w : Word) : (s.wr o w).lost = s.lost := rfl
@[simp] theorem State.wr_asmRem (s : State) (o : Nat) (w : Word) : (s.wr o w).asmRem = s.asmRem := rfl
@[simp] theorem State.wr_trees (s : State) (o : Nat) (w : Word) : (s.wr o w).trees = s.trees := rfl
@[simp] theorem State.wr_bw (s : State) (o : Nat) (w : Word) : (s.wr o w).bw = s.bw := rfl
@[simp] theorem State.wr_lpm (s : State) (o : Nat) (w : Word) : (s.wr o w).lpm = s.lpm := rfl
@[simp] theorem State.wr_filt (s : State) (o : Nat) (w : Word) : (s.wr o w).filt = s.filt := rfl
@[simp] theorem State.wr_cmd (s : State) (o : Nat) (w : Word) : (s.wr o w).cmd = s.cmd := rfl
@[simp] theorem State.wr_load (s : State) (o : Nat) (w : Word) : (s.wr o w).load = s.load := rfl
@[simp] theorem State.wr_rope (s : State) (o : Nat) (w : Word) : (s.wr o w).rope = s.rope := rfl
@[simp] theorem State.wr_dramc (s : State) (o : Nat) (w : Word) : (s.wr o w).dramc = s.dramc := rfl
@[simp] theorem State.wr_dma (s : State) (o : Nat) (w : Word) : (s.wr o w).dma = s.dma := rfl
@[simp] theorem State.wr_rings (s : State) (o : Nat) (w : Word) : (s.wr o w).rings = s.rings := rfl
@[simp] theorem State.wr_snap (s : State) (o : Nat) (w : Word) : (s.wr o w).snap = s.snap := rfl
@[simp] theorem State.wr_age (s : State) (o : Nat) (w : Word) : (s.wr o w).age = s.age := rfl
@[simp] theorem State.wr_tly (s : State) (o : Nat) (w : Word) : (s.wr o w).tly = s.tly := rfl
@[simp] theorem State.wr_fwd (s : State) (o : Nat) (w : Word) : (s.wr o w).fwd = s.fwd := rfl
theorem State.wr_regs (s : State) (o : Nat) (w : Word) : (s.wr o w).regs = sset resetWord s.regs o w := rfl

/-! ### wr4 -/

@[simp] theorem State.wr4_pending (s : State) (o : Nat) (w : Word) : (s.wr4 o w).pending = s.pending := rfl
@[simp] theorem State.wr4_now (s : State) (o : Nat) (w : Word) : (s.wr4 o w).now = s.now := rfl
@[simp] theorem State.wr4_regs (s : State) (o : Nat) (w : Word) : (s.wr4 o w).regs = s.regs := rfl
@[simp] theorem State.wr4_mem (s : State) (o : Nat) (w : Word) : (s.wr4 o w).mem = s.mem := rfl
@[simp] theorem State.wr4_dram (s : State) (o : Nat) (w : Word) : (s.wr4 o w).dram = s.dram := rfl
@[simp] theorem State.wr4_readData (s : State) (o : Nat) (w : Word) : (s.wr4 o w).readData = s.readData := rfl
@[simp] theorem State.wr4_latch (s : State) (o : Nat) (w : Word) : (s.wr4 o w).latch = s.latch := rfl
@[simp] theorem State.wr4_latchI2c (s : State) (o : Nat) (w : Word) : (s.wr4 o w).latchI2c = s.latchI2c := rfl
@[simp] theorem State.wr4_heldLo (s : State) (o : Nat) (w : Word) : (s.wr4 o w).heldLo = s.heldLo := rfl
@[simp] theorem State.wr4_freeCtr (s : State) (o : Nat) (w : Word) : (s.wr4 o w).freeCtr = s.freeCtr := rfl
@[simp] theorem State.wr4_out (s : State) (o : Nat) (w : Word) : (s.wr4 o w).out = s.out := rfl
@[simp] theorem State.wr4_img (s : State) (o : Nat) (w : Word) : (s.wr4 o w).img = s.img := rfl
@[simp] theorem State.wr4_isSealed (s : State) (o : Nat) (w : Word) : (s.wr4 o w).isSealed = s.isSealed := rfl
@[simp] theorem State.wr4_otp (s : State) (o : Nat) (w : Word) : (s.wr4 o w).otp = s.otp := rfl
@[simp] theorem State.wr4_mode (s : State) (o : Nat) (w : Word) : (s.wr4 o w).mode = s.mode := rfl
@[simp] theorem State.wr4_flt (s : State) (o : Nat) (w : Word) : (s.wr4 o w).flt = s.flt := rfl
@[simp] theorem State.wr4_crn (s : State) (o : Nat) (w : Word) : (s.wr4 o w).crn = s.crn := rfl
@[simp] theorem State.wr4_time (s : State) (o : Nat) (w : Word) : (s.wr4 o w).time = s.time := rfl
@[simp] theorem State.wr4_gens (s : State) (o : Nat) (w : Word) : (s.wr4 o w).gens = s.gens := rfl
@[simp] theorem State.wr4_threads (s : State) (o : Nat) (w : Word) : (s.wr4 o w).threads = s.threads := rfl
@[simp] theorem State.wr4_samples (s : State) (o : Nat) (w : Word) : (s.wr4 o w).samples = s.samples := rfl
@[simp] theorem State.wr4_evtCount (s : State) (o : Nat) (w : Word) : (s.wr4 o w).evtCount = s.evtCount := rfl
@[simp] theorem State.wr4_tasks (s : State) (o : Nat) (w : Word) : (s.wr4 o w).tasks = s.tasks := rfl
@[simp] theorem State.wr4_frames (s : State) (o : Nat) (w : Word) : (s.wr4 o w).frames = s.frames := rfl
@[simp] theorem State.wr4_copies (s : State) (o : Nat) (w : Word) : (s.wr4 o w).copies = s.copies := rfl
@[simp] theorem State.wr4_buf (s : State) (o : Nat) (w : Word) : (s.wr4 o w).buf = s.buf := rfl
@[simp] theorem State.wr4_ports (s : State) (o : Nat) (w : Word) : (s.wr4 o w).ports = s.ports := rfl
@[simp] theorem State.wr4_lanes (s : State) (o : Nat) (w : Word) : (s.wr4 o w).lanes = s.lanes := rfl
@[simp] theorem State.wr4_sas (s : State) (o : Nat) (w : Word) : (s.wr4 o w).sas = s.sas := rfl
@[simp] theorem State.wr4_scs (s : State) (o : Nat) (w : Word) : (s.wr4 o w).scs = s.scs := rfl
@[simp] theorem State.wr4_patchBad (s : State) (o : Nat) (w : Word) : (s.wr4 o w).patchBad = s.patchBad := rfl
@[simp] theorem State.wr4_gates (s : State) (o : Nat) (w : Word) : (s.wr4 o w).gates = s.gates := rfl
@[simp] theorem State.wr4_shapers (s : State) (o : Nat) (w : Word) : (s.wr4 o w).shapers = s.shapers := rfl
@[simp] theorem State.wr4_scheds (s : State) (o : Nat) (w : Word) : (s.wr4 o w).scheds = s.scheds := rfl
@[simp] theorem State.wr4_meters (s : State) (o : Nat) (w : Word) : (s.wr4 o w).meters = s.meters := rfl
@[simp] theorem State.wr4_strm (s : State) (o : Nat) (w : Word) : (s.wr4 o w).strm = s.strm := rfl
@[simp] theorem State.wr4_strmCarry (s : State) (o : Nat) (w : Word) : (s.wr4 o w).strmCarry = s.strmCarry := rfl
@[simp] theorem State.wr4_frerAt (s : State) (o : Nat) (w : Word) : (s.wr4 o w).frerAt = s.frerAt := rfl
@[simp] theorem State.wr4_genUsed (s : State) (o : Nat) (w : Word) : (s.wr4 o w).genUsed = s.genUsed := rfl
@[simp] theorem State.wr4_mirror (s : State) (o : Nat) (w : Word) : (s.wr4 o w).mirror = s.mirror := rfl
@[simp] theorem State.wr4_lost (s : State) (o : Nat) (w : Word) : (s.wr4 o w).lost = s.lost := rfl
@[simp] theorem State.wr4_asmRem (s : State) (o : Nat) (w : Word) : (s.wr4 o w).asmRem = s.asmRem := rfl
@[simp] theorem State.wr4_trees (s : State) (o : Nat) (w : Word) : (s.wr4 o w).trees = s.trees := rfl
@[simp] theorem State.wr4_bw (s : State) (o : Nat) (w : Word) : (s.wr4 o w).bw = s.bw := rfl
@[simp] theorem State.wr4_lpm (s : State) (o : Nat) (w : Word) : (s.wr4 o w).lpm = s.lpm := rfl
@[simp] theorem State.wr4_filt (s : State) (o : Nat) (w : Word) : (s.wr4 o w).filt = s.filt := rfl
@[simp] theorem State.wr4_cmd (s : State) (o : Nat) (w : Word) : (s.wr4 o w).cmd = s.cmd := rfl
@[simp] theorem State.wr4_load (s : State) (o : Nat) (w : Word) : (s.wr4 o w).load = s.load := rfl
@[simp] theorem State.wr4_rope (s : State) (o : Nat) (w : Word) : (s.wr4 o w).rope = s.rope := rfl
@[simp] theorem State.wr4_dramc (s : State) (o : Nat) (w : Word) : (s.wr4 o w).dramc = s.dramc := rfl
@[simp] theorem State.wr4_dma (s : State) (o : Nat) (w : Word) : (s.wr4 o w).dma = s.dma := rfl
@[simp] theorem State.wr4_rings (s : State) (o : Nat) (w : Word) : (s.wr4 o w).rings = s.rings := rfl
@[simp] theorem State.wr4_snap (s : State) (o : Nat) (w : Word) : (s.wr4 o w).snap = s.snap := rfl
@[simp] theorem State.wr4_age (s : State) (o : Nat) (w : Word) : (s.wr4 o w).age = s.age := rfl
@[simp] theorem State.wr4_tly (s : State) (o : Nat) (w : Word) : (s.wr4 o w).tly = s.tly := rfl
@[simp] theorem State.wr4_fwd (s : State) (o : Nat) (w : Word) : (s.wr4 o w).fwd = s.fwd := rfl
theorem State.wr4_bar4 (s : State) (o : Nat) (w : Word) : (s.wr4 o w).bar4 = sset resetWord4 s.bar4 o w := rfl

/-! ### setF -/

@[simp] theorem State.setF_pending (s : State) (f : Fld) (v : Nat) : (s.setF f v).pending = s.pending := rfl
@[simp] theorem State.setF_now (s : State) (f : Fld) (v : Nat) : (s.setF f v).now = s.now := rfl
@[simp] theorem State.setF_bar4 (s : State) (f : Fld) (v : Nat) : (s.setF f v).bar4 = s.bar4 := rfl
@[simp] theorem State.setF_mem (s : State) (f : Fld) (v : Nat) : (s.setF f v).mem = s.mem := rfl
@[simp] theorem State.setF_dram (s : State) (f : Fld) (v : Nat) : (s.setF f v).dram = s.dram := rfl
@[simp] theorem State.setF_readData (s : State) (f : Fld) (v : Nat) : (s.setF f v).readData = s.readData := rfl
@[simp] theorem State.setF_latch (s : State) (f : Fld) (v : Nat) : (s.setF f v).latch = s.latch := rfl
@[simp] theorem State.setF_latchI2c (s : State) (f : Fld) (v : Nat) : (s.setF f v).latchI2c = s.latchI2c := rfl
@[simp] theorem State.setF_heldLo (s : State) (f : Fld) (v : Nat) : (s.setF f v).heldLo = s.heldLo := rfl
@[simp] theorem State.setF_freeCtr (s : State) (f : Fld) (v : Nat) : (s.setF f v).freeCtr = s.freeCtr := rfl
@[simp] theorem State.setF_out (s : State) (f : Fld) (v : Nat) : (s.setF f v).out = s.out := rfl
@[simp] theorem State.setF_img (s : State) (f : Fld) (v : Nat) : (s.setF f v).img = s.img := rfl
@[simp] theorem State.setF_isSealed (s : State) (f : Fld) (v : Nat) : (s.setF f v).isSealed = s.isSealed := rfl
@[simp] theorem State.setF_otp (s : State) (f : Fld) (v : Nat) : (s.setF f v).otp = s.otp := rfl
@[simp] theorem State.setF_mode (s : State) (f : Fld) (v : Nat) : (s.setF f v).mode = s.mode := rfl
@[simp] theorem State.setF_flt (s : State) (f : Fld) (v : Nat) : (s.setF f v).flt = s.flt := rfl
@[simp] theorem State.setF_crn (s : State) (f : Fld) (v : Nat) : (s.setF f v).crn = s.crn := rfl
@[simp] theorem State.setF_time (s : State) (f : Fld) (v : Nat) : (s.setF f v).time = s.time := rfl
@[simp] theorem State.setF_gens (s : State) (f : Fld) (v : Nat) : (s.setF f v).gens = s.gens := rfl
@[simp] theorem State.setF_threads (s : State) (f : Fld) (v : Nat) : (s.setF f v).threads = s.threads := rfl
@[simp] theorem State.setF_samples (s : State) (f : Fld) (v : Nat) : (s.setF f v).samples = s.samples := rfl
@[simp] theorem State.setF_evtCount (s : State) (f : Fld) (v : Nat) : (s.setF f v).evtCount = s.evtCount := rfl
@[simp] theorem State.setF_tasks (s : State) (f : Fld) (v : Nat) : (s.setF f v).tasks = s.tasks := rfl
@[simp] theorem State.setF_frames (s : State) (f : Fld) (v : Nat) : (s.setF f v).frames = s.frames := rfl
@[simp] theorem State.setF_copies (s : State) (f : Fld) (v : Nat) : (s.setF f v).copies = s.copies := rfl
@[simp] theorem State.setF_buf (s : State) (f : Fld) (v : Nat) : (s.setF f v).buf = s.buf := rfl
@[simp] theorem State.setF_ports (s : State) (f : Fld) (v : Nat) : (s.setF f v).ports = s.ports := rfl
@[simp] theorem State.setF_lanes (s : State) (f : Fld) (v : Nat) : (s.setF f v).lanes = s.lanes := rfl
@[simp] theorem State.setF_sas (s : State) (f : Fld) (v : Nat) : (s.setF f v).sas = s.sas := rfl
@[simp] theorem State.setF_scs (s : State) (f : Fld) (v : Nat) : (s.setF f v).scs = s.scs := rfl
@[simp] theorem State.setF_patchBad (s : State) (f : Fld) (v : Nat) : (s.setF f v).patchBad = s.patchBad := rfl
@[simp] theorem State.setF_gates (s : State) (f : Fld) (v : Nat) : (s.setF f v).gates = s.gates := rfl
@[simp] theorem State.setF_shapers (s : State) (f : Fld) (v : Nat) : (s.setF f v).shapers = s.shapers := rfl
@[simp] theorem State.setF_scheds (s : State) (f : Fld) (v : Nat) : (s.setF f v).scheds = s.scheds := rfl
@[simp] theorem State.setF_meters (s : State) (f : Fld) (v : Nat) : (s.setF f v).meters = s.meters := rfl
@[simp] theorem State.setF_strm (s : State) (f : Fld) (v : Nat) : (s.setF f v).strm = s.strm := rfl
@[simp] theorem State.setF_strmCarry (s : State) (f : Fld) (v : Nat) : (s.setF f v).strmCarry = s.strmCarry := rfl
@[simp] theorem State.setF_frerAt (s : State) (f : Fld) (v : Nat) : (s.setF f v).frerAt = s.frerAt := rfl
@[simp] theorem State.setF_genUsed (s : State) (f : Fld) (v : Nat) : (s.setF f v).genUsed = s.genUsed := rfl
@[simp] theorem State.setF_mirror (s : State) (f : Fld) (v : Nat) : (s.setF f v).mirror = s.mirror := rfl
@[simp] theorem State.setF_lost (s : State) (f : Fld) (v : Nat) : (s.setF f v).lost = s.lost := rfl
@[simp] theorem State.setF_asmRem (s : State) (f : Fld) (v : Nat) : (s.setF f v).asmRem = s.asmRem := rfl
@[simp] theorem State.setF_trees (s : State) (f : Fld) (v : Nat) : (s.setF f v).trees = s.trees := rfl
@[simp] theorem State.setF_bw (s : State) (f : Fld) (v : Nat) : (s.setF f v).bw = s.bw := rfl
@[simp] theorem State.setF_lpm (s : State) (f : Fld) (v : Nat) : (s.setF f v).lpm = s.lpm := rfl
@[simp] theorem State.setF_filt (s : State) (f : Fld) (v : Nat) : (s.setF f v).filt = s.filt := rfl
@[simp] theorem State.setF_cmd (s : State) (f : Fld) (v : Nat) : (s.setF f v).cmd = s.cmd := rfl
@[simp] theorem State.setF_load (s : State) (f : Fld) (v : Nat) : (s.setF f v).load = s.load := rfl
@[simp] theorem State.setF_rope (s : State) (f : Fld) (v : Nat) : (s.setF f v).rope = s.rope := rfl
@[simp] theorem State.setF_dramc (s : State) (f : Fld) (v : Nat) : (s.setF f v).dramc = s.dramc := rfl
@[simp] theorem State.setF_dma (s : State) (f : Fld) (v : Nat) : (s.setF f v).dma = s.dma := rfl
@[simp] theorem State.setF_rings (s : State) (f : Fld) (v : Nat) : (s.setF f v).rings = s.rings := rfl
@[simp] theorem State.setF_snap (s : State) (f : Fld) (v : Nat) : (s.setF f v).snap = s.snap := rfl
@[simp] theorem State.setF_age (s : State) (f : Fld) (v : Nat) : (s.setF f v).age = s.age := rfl
@[simp] theorem State.setF_tly (s : State) (f : Fld) (v : Nat) : (s.setF f v).tly = s.tly := rfl
@[simp] theorem State.setF_fwd (s : State) (f : Fld) (v : Nat) : (s.setF f v).fwd = s.fwd := rfl

/-! ### setB -/

@[simp] theorem State.setB_pending (s : State) (f : Fld) (b : Bool) : (s.setB f b).pending = s.pending := rfl
@[simp] theorem State.setB_now (s : State) (f : Fld) (b : Bool) : (s.setB f b).now = s.now := rfl
@[simp] theorem State.setB_bar4 (s : State) (f : Fld) (b : Bool) : (s.setB f b).bar4 = s.bar4 := rfl
@[simp] theorem State.setB_mem (s : State) (f : Fld) (b : Bool) : (s.setB f b).mem = s.mem := rfl
@[simp] theorem State.setB_dram (s : State) (f : Fld) (b : Bool) : (s.setB f b).dram = s.dram := rfl
@[simp] theorem State.setB_readData (s : State) (f : Fld) (b : Bool) : (s.setB f b).readData = s.readData := rfl
@[simp] theorem State.setB_latch (s : State) (f : Fld) (b : Bool) : (s.setB f b).latch = s.latch := rfl
@[simp] theorem State.setB_latchI2c (s : State) (f : Fld) (b : Bool) : (s.setB f b).latchI2c = s.latchI2c := rfl
@[simp] theorem State.setB_heldLo (s : State) (f : Fld) (b : Bool) : (s.setB f b).heldLo = s.heldLo := rfl
@[simp] theorem State.setB_freeCtr (s : State) (f : Fld) (b : Bool) : (s.setB f b).freeCtr = s.freeCtr := rfl
@[simp] theorem State.setB_out (s : State) (f : Fld) (b : Bool) : (s.setB f b).out = s.out := rfl
@[simp] theorem State.setB_img (s : State) (f : Fld) (b : Bool) : (s.setB f b).img = s.img := rfl
@[simp] theorem State.setB_isSealed (s : State) (f : Fld) (b : Bool) : (s.setB f b).isSealed = s.isSealed := rfl
@[simp] theorem State.setB_otp (s : State) (f : Fld) (b : Bool) : (s.setB f b).otp = s.otp := rfl
@[simp] theorem State.setB_mode (s : State) (f : Fld) (b : Bool) : (s.setB f b).mode = s.mode := rfl
@[simp] theorem State.setB_flt (s : State) (f : Fld) (b : Bool) : (s.setB f b).flt = s.flt := rfl
@[simp] theorem State.setB_crn (s : State) (f : Fld) (b : Bool) : (s.setB f b).crn = s.crn := rfl
@[simp] theorem State.setB_time (s : State) (f : Fld) (b : Bool) : (s.setB f b).time = s.time := rfl
@[simp] theorem State.setB_gens (s : State) (f : Fld) (b : Bool) : (s.setB f b).gens = s.gens := rfl
@[simp] theorem State.setB_threads (s : State) (f : Fld) (b : Bool) : (s.setB f b).threads = s.threads := rfl
@[simp] theorem State.setB_samples (s : State) (f : Fld) (b : Bool) : (s.setB f b).samples = s.samples := rfl
@[simp] theorem State.setB_evtCount (s : State) (f : Fld) (b : Bool) : (s.setB f b).evtCount = s.evtCount := rfl
@[simp] theorem State.setB_tasks (s : State) (f : Fld) (b : Bool) : (s.setB f b).tasks = s.tasks := rfl
@[simp] theorem State.setB_frames (s : State) (f : Fld) (b : Bool) : (s.setB f b).frames = s.frames := rfl
@[simp] theorem State.setB_copies (s : State) (f : Fld) (b : Bool) : (s.setB f b).copies = s.copies := rfl
@[simp] theorem State.setB_buf (s : State) (f : Fld) (b : Bool) : (s.setB f b).buf = s.buf := rfl
@[simp] theorem State.setB_ports (s : State) (f : Fld) (b : Bool) : (s.setB f b).ports = s.ports := rfl
@[simp] theorem State.setB_lanes (s : State) (f : Fld) (b : Bool) : (s.setB f b).lanes = s.lanes := rfl
@[simp] theorem State.setB_sas (s : State) (f : Fld) (b : Bool) : (s.setB f b).sas = s.sas := rfl
@[simp] theorem State.setB_scs (s : State) (f : Fld) (b : Bool) : (s.setB f b).scs = s.scs := rfl
@[simp] theorem State.setB_patchBad (s : State) (f : Fld) (b : Bool) : (s.setB f b).patchBad = s.patchBad := rfl
@[simp] theorem State.setB_gates (s : State) (f : Fld) (b : Bool) : (s.setB f b).gates = s.gates := rfl
@[simp] theorem State.setB_shapers (s : State) (f : Fld) (b : Bool) : (s.setB f b).shapers = s.shapers := rfl
@[simp] theorem State.setB_scheds (s : State) (f : Fld) (b : Bool) : (s.setB f b).scheds = s.scheds := rfl
@[simp] theorem State.setB_meters (s : State) (f : Fld) (b : Bool) : (s.setB f b).meters = s.meters := rfl
@[simp] theorem State.setB_strm (s : State) (f : Fld) (b : Bool) : (s.setB f b).strm = s.strm := rfl
@[simp] theorem State.setB_strmCarry (s : State) (f : Fld) (b : Bool) : (s.setB f b).strmCarry = s.strmCarry := rfl
@[simp] theorem State.setB_frerAt (s : State) (f : Fld) (b : Bool) : (s.setB f b).frerAt = s.frerAt := rfl
@[simp] theorem State.setB_genUsed (s : State) (f : Fld) (b : Bool) : (s.setB f b).genUsed = s.genUsed := rfl
@[simp] theorem State.setB_mirror (s : State) (f : Fld) (b : Bool) : (s.setB f b).mirror = s.mirror := rfl
@[simp] theorem State.setB_lost (s : State) (f : Fld) (b : Bool) : (s.setB f b).lost = s.lost := rfl
@[simp] theorem State.setB_asmRem (s : State) (f : Fld) (b : Bool) : (s.setB f b).asmRem = s.asmRem := rfl
@[simp] theorem State.setB_trees (s : State) (f : Fld) (b : Bool) : (s.setB f b).trees = s.trees := rfl
@[simp] theorem State.setB_bw (s : State) (f : Fld) (b : Bool) : (s.setB f b).bw = s.bw := rfl
@[simp] theorem State.setB_lpm (s : State) (f : Fld) (b : Bool) : (s.setB f b).lpm = s.lpm := rfl
@[simp] theorem State.setB_filt (s : State) (f : Fld) (b : Bool) : (s.setB f b).filt = s.filt := rfl
@[simp] theorem State.setB_cmd (s : State) (f : Fld) (b : Bool) : (s.setB f b).cmd = s.cmd := rfl
@[simp] theorem State.setB_load (s : State) (f : Fld) (b : Bool) : (s.setB f b).load = s.load := rfl
@[simp] theorem State.setB_rope (s : State) (f : Fld) (b : Bool) : (s.setB f b).rope = s.rope := rfl
@[simp] theorem State.setB_dramc (s : State) (f : Fld) (b : Bool) : (s.setB f b).dramc = s.dramc := rfl
@[simp] theorem State.setB_dma (s : State) (f : Fld) (b : Bool) : (s.setB f b).dma = s.dma := rfl
@[simp] theorem State.setB_rings (s : State) (f : Fld) (b : Bool) : (s.setB f b).rings = s.rings := rfl
@[simp] theorem State.setB_snap (s : State) (f : Fld) (b : Bool) : (s.setB f b).snap = s.snap := rfl
@[simp] theorem State.setB_age (s : State) (f : Fld) (b : Bool) : (s.setB f b).age = s.age := rfl
@[simp] theorem State.setB_tly (s : State) (f : Fld) (b : Bool) : (s.setB f b).tly = s.tly := rfl
@[simp] theorem State.setB_fwd (s : State) (f : Fld) (b : Bool) : (s.setB f b).fwd = s.fwd := rfl

/-! ### orF -/

@[simp] theorem State.orF_pending (s : State) (f : Fld) (m : Nat) : (s.orF f m).pending = s.pending := rfl
@[simp] theorem State.orF_now (s : State) (f : Fld) (m : Nat) : (s.orF f m).now = s.now := rfl
@[simp] theorem State.orF_bar4 (s : State) (f : Fld) (m : Nat) : (s.orF f m).bar4 = s.bar4 := rfl
@[simp] theorem State.orF_mem (s : State) (f : Fld) (m : Nat) : (s.orF f m).mem = s.mem := rfl
@[simp] theorem State.orF_dram (s : State) (f : Fld) (m : Nat) : (s.orF f m).dram = s.dram := rfl
@[simp] theorem State.orF_readData (s : State) (f : Fld) (m : Nat) : (s.orF f m).readData = s.readData := rfl
@[simp] theorem State.orF_latch (s : State) (f : Fld) (m : Nat) : (s.orF f m).latch = s.latch := rfl
@[simp] theorem State.orF_latchI2c (s : State) (f : Fld) (m : Nat) : (s.orF f m).latchI2c = s.latchI2c := rfl
@[simp] theorem State.orF_heldLo (s : State) (f : Fld) (m : Nat) : (s.orF f m).heldLo = s.heldLo := rfl
@[simp] theorem State.orF_freeCtr (s : State) (f : Fld) (m : Nat) : (s.orF f m).freeCtr = s.freeCtr := rfl
@[simp] theorem State.orF_out (s : State) (f : Fld) (m : Nat) : (s.orF f m).out = s.out := rfl
@[simp] theorem State.orF_img (s : State) (f : Fld) (m : Nat) : (s.orF f m).img = s.img := rfl
@[simp] theorem State.orF_isSealed (s : State) (f : Fld) (m : Nat) : (s.orF f m).isSealed = s.isSealed := rfl
@[simp] theorem State.orF_otp (s : State) (f : Fld) (m : Nat) : (s.orF f m).otp = s.otp := rfl
@[simp] theorem State.orF_mode (s : State) (f : Fld) (m : Nat) : (s.orF f m).mode = s.mode := rfl
@[simp] theorem State.orF_flt (s : State) (f : Fld) (m : Nat) : (s.orF f m).flt = s.flt := rfl
@[simp] theorem State.orF_crn (s : State) (f : Fld) (m : Nat) : (s.orF f m).crn = s.crn := rfl
@[simp] theorem State.orF_time (s : State) (f : Fld) (m : Nat) : (s.orF f m).time = s.time := rfl
@[simp] theorem State.orF_gens (s : State) (f : Fld) (m : Nat) : (s.orF f m).gens = s.gens := rfl
@[simp] theorem State.orF_threads (s : State) (f : Fld) (m : Nat) : (s.orF f m).threads = s.threads := rfl
@[simp] theorem State.orF_samples (s : State) (f : Fld) (m : Nat) : (s.orF f m).samples = s.samples := rfl
@[simp] theorem State.orF_evtCount (s : State) (f : Fld) (m : Nat) : (s.orF f m).evtCount = s.evtCount := rfl
@[simp] theorem State.orF_tasks (s : State) (f : Fld) (m : Nat) : (s.orF f m).tasks = s.tasks := rfl
@[simp] theorem State.orF_frames (s : State) (f : Fld) (m : Nat) : (s.orF f m).frames = s.frames := rfl
@[simp] theorem State.orF_copies (s : State) (f : Fld) (m : Nat) : (s.orF f m).copies = s.copies := rfl
@[simp] theorem State.orF_buf (s : State) (f : Fld) (m : Nat) : (s.orF f m).buf = s.buf := rfl
@[simp] theorem State.orF_ports (s : State) (f : Fld) (m : Nat) : (s.orF f m).ports = s.ports := rfl
@[simp] theorem State.orF_lanes (s : State) (f : Fld) (m : Nat) : (s.orF f m).lanes = s.lanes := rfl
@[simp] theorem State.orF_sas (s : State) (f : Fld) (m : Nat) : (s.orF f m).sas = s.sas := rfl
@[simp] theorem State.orF_scs (s : State) (f : Fld) (m : Nat) : (s.orF f m).scs = s.scs := rfl
@[simp] theorem State.orF_patchBad (s : State) (f : Fld) (m : Nat) : (s.orF f m).patchBad = s.patchBad := rfl
@[simp] theorem State.orF_gates (s : State) (f : Fld) (m : Nat) : (s.orF f m).gates = s.gates := rfl
@[simp] theorem State.orF_shapers (s : State) (f : Fld) (m : Nat) : (s.orF f m).shapers = s.shapers := rfl
@[simp] theorem State.orF_scheds (s : State) (f : Fld) (m : Nat) : (s.orF f m).scheds = s.scheds := rfl
@[simp] theorem State.orF_meters (s : State) (f : Fld) (m : Nat) : (s.orF f m).meters = s.meters := rfl
@[simp] theorem State.orF_strm (s : State) (f : Fld) (m : Nat) : (s.orF f m).strm = s.strm := rfl
@[simp] theorem State.orF_strmCarry (s : State) (f : Fld) (m : Nat) : (s.orF f m).strmCarry = s.strmCarry := rfl
@[simp] theorem State.orF_frerAt (s : State) (f : Fld) (m : Nat) : (s.orF f m).frerAt = s.frerAt := rfl
@[simp] theorem State.orF_genUsed (s : State) (f : Fld) (m : Nat) : (s.orF f m).genUsed = s.genUsed := rfl
@[simp] theorem State.orF_mirror (s : State) (f : Fld) (m : Nat) : (s.orF f m).mirror = s.mirror := rfl
@[simp] theorem State.orF_lost (s : State) (f : Fld) (m : Nat) : (s.orF f m).lost = s.lost := rfl
@[simp] theorem State.orF_asmRem (s : State) (f : Fld) (m : Nat) : (s.orF f m).asmRem = s.asmRem := rfl
@[simp] theorem State.orF_trees (s : State) (f : Fld) (m : Nat) : (s.orF f m).trees = s.trees := rfl
@[simp] theorem State.orF_bw (s : State) (f : Fld) (m : Nat) : (s.orF f m).bw = s.bw := rfl
@[simp] theorem State.orF_lpm (s : State) (f : Fld) (m : Nat) : (s.orF f m).lpm = s.lpm := rfl
@[simp] theorem State.orF_filt (s : State) (f : Fld) (m : Nat) : (s.orF f m).filt = s.filt := rfl
@[simp] theorem State.orF_cmd (s : State) (f : Fld) (m : Nat) : (s.orF f m).cmd = s.cmd := rfl
@[simp] theorem State.orF_load (s : State) (f : Fld) (m : Nat) : (s.orF f m).load = s.load := rfl
@[simp] theorem State.orF_rope (s : State) (f : Fld) (m : Nat) : (s.orF f m).rope = s.rope := rfl
@[simp] theorem State.orF_dramc (s : State) (f : Fld) (m : Nat) : (s.orF f m).dramc = s.dramc := rfl
@[simp] theorem State.orF_dma (s : State) (f : Fld) (m : Nat) : (s.orF f m).dma = s.dma := rfl
@[simp] theorem State.orF_rings (s : State) (f : Fld) (m : Nat) : (s.orF f m).rings = s.rings := rfl
@[simp] theorem State.orF_snap (s : State) (f : Fld) (m : Nat) : (s.orF f m).snap = s.snap := rfl
@[simp] theorem State.orF_age (s : State) (f : Fld) (m : Nat) : (s.orF f m).age = s.age := rfl
@[simp] theorem State.orF_tly (s : State) (f : Fld) (m : Nat) : (s.orF f m).tly = s.tly := rfl
@[simp] theorem State.orF_fwd (s : State) (f : Fld) (m : Nat) : (s.orF f m).fwd = s.fwd := rfl

/-! ### count -/

@[simp] theorem State.count_pending (s : State) (f : Fld) (n : Nat) : (s.count f n).pending = s.pending := rfl
@[simp] theorem State.count_now (s : State) (f : Fld) (n : Nat) : (s.count f n).now = s.now := rfl
@[simp] theorem State.count_bar4 (s : State) (f : Fld) (n : Nat) : (s.count f n).bar4 = s.bar4 := rfl
@[simp] theorem State.count_mem (s : State) (f : Fld) (n : Nat) : (s.count f n).mem = s.mem := rfl
@[simp] theorem State.count_dram (s : State) (f : Fld) (n : Nat) : (s.count f n).dram = s.dram := rfl
@[simp] theorem State.count_readData (s : State) (f : Fld) (n : Nat) : (s.count f n).readData = s.readData := rfl
@[simp] theorem State.count_latch (s : State) (f : Fld) (n : Nat) : (s.count f n).latch = s.latch := rfl
@[simp] theorem State.count_latchI2c (s : State) (f : Fld) (n : Nat) : (s.count f n).latchI2c = s.latchI2c := rfl
@[simp] theorem State.count_heldLo (s : State) (f : Fld) (n : Nat) : (s.count f n).heldLo = s.heldLo := rfl
@[simp] theorem State.count_freeCtr (s : State) (f : Fld) (n : Nat) : (s.count f n).freeCtr = s.freeCtr := rfl
@[simp] theorem State.count_out (s : State) (f : Fld) (n : Nat) : (s.count f n).out = s.out := rfl
@[simp] theorem State.count_img (s : State) (f : Fld) (n : Nat) : (s.count f n).img = s.img := rfl
@[simp] theorem State.count_isSealed (s : State) (f : Fld) (n : Nat) : (s.count f n).isSealed = s.isSealed := rfl
@[simp] theorem State.count_otp (s : State) (f : Fld) (n : Nat) : (s.count f n).otp = s.otp := rfl
@[simp] theorem State.count_mode (s : State) (f : Fld) (n : Nat) : (s.count f n).mode = s.mode := rfl
@[simp] theorem State.count_flt (s : State) (f : Fld) (n : Nat) : (s.count f n).flt = s.flt := rfl
@[simp] theorem State.count_crn (s : State) (f : Fld) (n : Nat) : (s.count f n).crn = s.crn := rfl
@[simp] theorem State.count_time (s : State) (f : Fld) (n : Nat) : (s.count f n).time = s.time := rfl
@[simp] theorem State.count_gens (s : State) (f : Fld) (n : Nat) : (s.count f n).gens = s.gens := rfl
@[simp] theorem State.count_threads (s : State) (f : Fld) (n : Nat) : (s.count f n).threads = s.threads := rfl
@[simp] theorem State.count_samples (s : State) (f : Fld) (n : Nat) : (s.count f n).samples = s.samples := rfl
@[simp] theorem State.count_evtCount (s : State) (f : Fld) (n : Nat) : (s.count f n).evtCount = s.evtCount := rfl
@[simp] theorem State.count_tasks (s : State) (f : Fld) (n : Nat) : (s.count f n).tasks = s.tasks := rfl
@[simp] theorem State.count_frames (s : State) (f : Fld) (n : Nat) : (s.count f n).frames = s.frames := rfl
@[simp] theorem State.count_copies (s : State) (f : Fld) (n : Nat) : (s.count f n).copies = s.copies := rfl
@[simp] theorem State.count_buf (s : State) (f : Fld) (n : Nat) : (s.count f n).buf = s.buf := rfl
@[simp] theorem State.count_ports (s : State) (f : Fld) (n : Nat) : (s.count f n).ports = s.ports := rfl
@[simp] theorem State.count_lanes (s : State) (f : Fld) (n : Nat) : (s.count f n).lanes = s.lanes := rfl
@[simp] theorem State.count_sas (s : State) (f : Fld) (n : Nat) : (s.count f n).sas = s.sas := rfl
@[simp] theorem State.count_scs (s : State) (f : Fld) (n : Nat) : (s.count f n).scs = s.scs := rfl
@[simp] theorem State.count_patchBad (s : State) (f : Fld) (n : Nat) : (s.count f n).patchBad = s.patchBad := rfl
@[simp] theorem State.count_gates (s : State) (f : Fld) (n : Nat) : (s.count f n).gates = s.gates := rfl
@[simp] theorem State.count_shapers (s : State) (f : Fld) (n : Nat) : (s.count f n).shapers = s.shapers := rfl
@[simp] theorem State.count_scheds (s : State) (f : Fld) (n : Nat) : (s.count f n).scheds = s.scheds := rfl
@[simp] theorem State.count_meters (s : State) (f : Fld) (n : Nat) : (s.count f n).meters = s.meters := rfl
@[simp] theorem State.count_strm (s : State) (f : Fld) (n : Nat) : (s.count f n).strm = s.strm := rfl
@[simp] theorem State.count_strmCarry (s : State) (f : Fld) (n : Nat) : (s.count f n).strmCarry = s.strmCarry := rfl
@[simp] theorem State.count_frerAt (s : State) (f : Fld) (n : Nat) : (s.count f n).frerAt = s.frerAt := rfl
@[simp] theorem State.count_genUsed (s : State) (f : Fld) (n : Nat) : (s.count f n).genUsed = s.genUsed := rfl
@[simp] theorem State.count_mirror (s : State) (f : Fld) (n : Nat) : (s.count f n).mirror = s.mirror := rfl
@[simp] theorem State.count_lost (s : State) (f : Fld) (n : Nat) : (s.count f n).lost = s.lost := rfl
@[simp] theorem State.count_asmRem (s : State) (f : Fld) (n : Nat) : (s.count f n).asmRem = s.asmRem := rfl
@[simp] theorem State.count_trees (s : State) (f : Fld) (n : Nat) : (s.count f n).trees = s.trees := rfl
@[simp] theorem State.count_bw (s : State) (f : Fld) (n : Nat) : (s.count f n).bw = s.bw := rfl
@[simp] theorem State.count_lpm (s : State) (f : Fld) (n : Nat) : (s.count f n).lpm = s.lpm := rfl
@[simp] theorem State.count_filt (s : State) (f : Fld) (n : Nat) : (s.count f n).filt = s.filt := rfl
@[simp] theorem State.count_cmd (s : State) (f : Fld) (n : Nat) : (s.count f n).cmd = s.cmd := rfl
@[simp] theorem State.count_load (s : State) (f : Fld) (n : Nat) : (s.count f n).load = s.load := rfl
@[simp] theorem State.count_rope (s : State) (f : Fld) (n : Nat) : (s.count f n).rope = s.rope := rfl
@[simp] theorem State.count_dramc (s : State) (f : Fld) (n : Nat) : (s.count f n).dramc = s.dramc := rfl
@[simp] theorem State.count_dma (s : State) (f : Fld) (n : Nat) : (s.count f n).dma = s.dma := rfl
@[simp] theorem State.count_rings (s : State) (f : Fld) (n : Nat) : (s.count f n).rings = s.rings := rfl
@[simp] theorem State.count_snap (s : State) (f : Fld) (n : Nat) : (s.count f n).snap = s.snap := rfl
@[simp] theorem State.count_age (s : State) (f : Fld) (n : Nat) : (s.count f n).age = s.age := rfl
@[simp] theorem State.count_tly (s : State) (f : Fld) (n : Nat) : (s.count f n).tly = s.tly := rfl
@[simp] theorem State.count_fwd (s : State) (f : Fld) (n : Nat) : (s.count f n).fwd = s.fwd := rfl

/-! ### emit -/

@[simp] theorem State.emit_pending (s : State) (o : Out) : (s.emit o).pending = s.pending := rfl
@[simp] theorem State.emit_now (s : State) (o : Out) : (s.emit o).now = s.now := rfl
@[simp] theorem State.emit_regs (s : State) (o : Out) : (s.emit o).regs = s.regs := rfl
@[simp] theorem State.emit_bar4 (s : State) (o : Out) : (s.emit o).bar4 = s.bar4 := rfl
@[simp] theorem State.emit_mem (s : State) (o : Out) : (s.emit o).mem = s.mem := rfl
@[simp] theorem State.emit_dram (s : State) (o : Out) : (s.emit o).dram = s.dram := rfl
@[simp] theorem State.emit_readData (s : State) (o : Out) : (s.emit o).readData = s.readData := rfl
@[simp] theorem State.emit_latch (s : State) (o : Out) : (s.emit o).latch = s.latch := rfl
@[simp] theorem State.emit_latchI2c (s : State) (o : Out) : (s.emit o).latchI2c = s.latchI2c := rfl
@[simp] theorem State.emit_heldLo (s : State) (o : Out) : (s.emit o).heldLo = s.heldLo := rfl
@[simp] theorem State.emit_freeCtr (s : State) (o : Out) : (s.emit o).freeCtr = s.freeCtr := rfl
@[simp] theorem State.emit_img (s : State) (o : Out) : (s.emit o).img = s.img := rfl
@[simp] theorem State.emit_isSealed (s : State) (o : Out) : (s.emit o).isSealed = s.isSealed := rfl
@[simp] theorem State.emit_otp (s : State) (o : Out) : (s.emit o).otp = s.otp := rfl
@[simp] theorem State.emit_mode (s : State) (o : Out) : (s.emit o).mode = s.mode := rfl
@[simp] theorem State.emit_flt (s : State) (o : Out) : (s.emit o).flt = s.flt := rfl
@[simp] theorem State.emit_crn (s : State) (o : Out) : (s.emit o).crn = s.crn := rfl
@[simp] theorem State.emit_time (s : State) (o : Out) : (s.emit o).time = s.time := rfl
@[simp] theorem State.emit_gens (s : State) (o : Out) : (s.emit o).gens = s.gens := rfl
@[simp] theorem State.emit_threads (s : State) (o : Out) : (s.emit o).threads = s.threads := rfl
@[simp] theorem State.emit_samples (s : State) (o : Out) : (s.emit o).samples = s.samples := rfl
@[simp] theorem State.emit_evtCount (s : State) (o : Out) : (s.emit o).evtCount = s.evtCount := rfl
@[simp] theorem State.emit_tasks (s : State) (o : Out) : (s.emit o).tasks = s.tasks := rfl
@[simp] theorem State.emit_frames (s : State) (o : Out) : (s.emit o).frames = s.frames := rfl
@[simp] theorem State.emit_copies (s : State) (o : Out) : (s.emit o).copies = s.copies := rfl
@[simp] theorem State.emit_buf (s : State) (o : Out) : (s.emit o).buf = s.buf := rfl
@[simp] theorem State.emit_ports (s : State) (o : Out) : (s.emit o).ports = s.ports := rfl
@[simp] theorem State.emit_lanes (s : State) (o : Out) : (s.emit o).lanes = s.lanes := rfl
@[simp] theorem State.emit_sas (s : State) (o : Out) : (s.emit o).sas = s.sas := rfl
@[simp] theorem State.emit_scs (s : State) (o : Out) : (s.emit o).scs = s.scs := rfl
@[simp] theorem State.emit_patchBad (s : State) (o : Out) : (s.emit o).patchBad = s.patchBad := rfl
@[simp] theorem State.emit_gates (s : State) (o : Out) : (s.emit o).gates = s.gates := rfl
@[simp] theorem State.emit_shapers (s : State) (o : Out) : (s.emit o).shapers = s.shapers := rfl
@[simp] theorem State.emit_scheds (s : State) (o : Out) : (s.emit o).scheds = s.scheds := rfl
@[simp] theorem State.emit_meters (s : State) (o : Out) : (s.emit o).meters = s.meters := rfl
@[simp] theorem State.emit_strm (s : State) (o : Out) : (s.emit o).strm = s.strm := rfl
@[simp] theorem State.emit_strmCarry (s : State) (o : Out) : (s.emit o).strmCarry = s.strmCarry := rfl
@[simp] theorem State.emit_frerAt (s : State) (o : Out) : (s.emit o).frerAt = s.frerAt := rfl
@[simp] theorem State.emit_genUsed (s : State) (o : Out) : (s.emit o).genUsed = s.genUsed := rfl
@[simp] theorem State.emit_mirror (s : State) (o : Out) : (s.emit o).mirror = s.mirror := rfl
@[simp] theorem State.emit_lost (s : State) (o : Out) : (s.emit o).lost = s.lost := rfl
@[simp] theorem State.emit_asmRem (s : State) (o : Out) : (s.emit o).asmRem = s.asmRem := rfl
@[simp] theorem State.emit_trees (s : State) (o : Out) : (s.emit o).trees = s.trees := rfl
@[simp] theorem State.emit_bw (s : State) (o : Out) : (s.emit o).bw = s.bw := rfl
@[simp] theorem State.emit_lpm (s : State) (o : Out) : (s.emit o).lpm = s.lpm := rfl
@[simp] theorem State.emit_filt (s : State) (o : Out) : (s.emit o).filt = s.filt := rfl
@[simp] theorem State.emit_cmd (s : State) (o : Out) : (s.emit o).cmd = s.cmd := rfl
@[simp] theorem State.emit_load (s : State) (o : Out) : (s.emit o).load = s.load := rfl
@[simp] theorem State.emit_rope (s : State) (o : Out) : (s.emit o).rope = s.rope := rfl
@[simp] theorem State.emit_dramc (s : State) (o : Out) : (s.emit o).dramc = s.dramc := rfl
@[simp] theorem State.emit_dma (s : State) (o : Out) : (s.emit o).dma = s.dma := rfl
@[simp] theorem State.emit_rings (s : State) (o : Out) : (s.emit o).rings = s.rings := rfl
@[simp] theorem State.emit_snap (s : State) (o : Out) : (s.emit o).snap = s.snap := rfl
@[simp] theorem State.emit_age (s : State) (o : Out) : (s.emit o).age = s.age := rfl
@[simp] theorem State.emit_tly (s : State) (o : Out) : (s.emit o).tly = s.tly := rfl
@[simp] theorem State.emit_fwd (s : State) (o : Out) : (s.emit o).fwd = s.fwd := rfl
@[simp] theorem State.emit_out (s : State) (o : Out) : (s.emit o).out = o :: s.out := rfl

/-! ### free -/

@[simp] theorem State.free_pending (s : State) : (s.free.2).pending = s.pending := rfl
@[simp] theorem State.free_now (s : State) : (s.free.2).now = s.now := rfl
@[simp] theorem State.free_regs (s : State) : (s.free.2).regs = s.regs := rfl
@[simp] theorem State.free_bar4 (s : State) : (s.free.2).bar4 = s.bar4 := rfl
@[simp] theorem State.free_mem (s : State) : (s.free.2).mem = s.mem := rfl
@[simp] theorem State.free_dram (s : State) : (s.free.2).dram = s.dram := rfl
@[simp] theorem State.free_readData (s : State) : (s.free.2).readData = s.readData := rfl
@[simp] theorem State.free_latch (s : State) : (s.free.2).latch = s.latch := rfl
@[simp] theorem State.free_latchI2c (s : State) : (s.free.2).latchI2c = s.latchI2c := rfl
@[simp] theorem State.free_heldLo (s : State) : (s.free.2).heldLo = s.heldLo := rfl
@[simp] theorem State.free_out (s : State) : (s.free.2).out = s.out := rfl
@[simp] theorem State.free_img (s : State) : (s.free.2).img = s.img := rfl
@[simp] theorem State.free_isSealed (s : State) : (s.free.2).isSealed = s.isSealed := rfl
@[simp] theorem State.free_otp (s : State) : (s.free.2).otp = s.otp := rfl
@[simp] theorem State.free_mode (s : State) : (s.free.2).mode = s.mode := rfl
@[simp] theorem State.free_flt (s : State) : (s.free.2).flt = s.flt := rfl
@[simp] theorem State.free_crn (s : State) : (s.free.2).crn = s.crn := rfl
@[simp] theorem State.free_time (s : State) : (s.free.2).time = s.time := rfl
@[simp] theorem State.free_gens (s : State) : (s.free.2).gens = s.gens := rfl
@[simp] theorem State.free_threads (s : State) : (s.free.2).threads = s.threads := rfl
@[simp] theorem State.free_samples (s : State) : (s.free.2).samples = s.samples := rfl
@[simp] theorem State.free_evtCount (s : State) : (s.free.2).evtCount = s.evtCount := rfl
@[simp] theorem State.free_tasks (s : State) : (s.free.2).tasks = s.tasks := rfl
@[simp] theorem State.free_frames (s : State) : (s.free.2).frames = s.frames := rfl
@[simp] theorem State.free_copies (s : State) : (s.free.2).copies = s.copies := rfl
@[simp] theorem State.free_buf (s : State) : (s.free.2).buf = s.buf := rfl
@[simp] theorem State.free_ports (s : State) : (s.free.2).ports = s.ports := rfl
@[simp] theorem State.free_lanes (s : State) : (s.free.2).lanes = s.lanes := rfl
@[simp] theorem State.free_sas (s : State) : (s.free.2).sas = s.sas := rfl
@[simp] theorem State.free_scs (s : State) : (s.free.2).scs = s.scs := rfl
@[simp] theorem State.free_patchBad (s : State) : (s.free.2).patchBad = s.patchBad := rfl
@[simp] theorem State.free_gates (s : State) : (s.free.2).gates = s.gates := rfl
@[simp] theorem State.free_shapers (s : State) : (s.free.2).shapers = s.shapers := rfl
@[simp] theorem State.free_scheds (s : State) : (s.free.2).scheds = s.scheds := rfl
@[simp] theorem State.free_meters (s : State) : (s.free.2).meters = s.meters := rfl
@[simp] theorem State.free_strm (s : State) : (s.free.2).strm = s.strm := rfl
@[simp] theorem State.free_strmCarry (s : State) : (s.free.2).strmCarry = s.strmCarry := rfl
@[simp] theorem State.free_frerAt (s : State) : (s.free.2).frerAt = s.frerAt := rfl
@[simp] theorem State.free_genUsed (s : State) : (s.free.2).genUsed = s.genUsed := rfl
@[simp] theorem State.free_mirror (s : State) : (s.free.2).mirror = s.mirror := rfl
@[simp] theorem State.free_lost (s : State) : (s.free.2).lost = s.lost := rfl
@[simp] theorem State.free_asmRem (s : State) : (s.free.2).asmRem = s.asmRem := rfl
@[simp] theorem State.free_trees (s : State) : (s.free.2).trees = s.trees := rfl
@[simp] theorem State.free_bw (s : State) : (s.free.2).bw = s.bw := rfl
@[simp] theorem State.free_lpm (s : State) : (s.free.2).lpm = s.lpm := rfl
@[simp] theorem State.free_filt (s : State) : (s.free.2).filt = s.filt := rfl
@[simp] theorem State.free_cmd (s : State) : (s.free.2).cmd = s.cmd := rfl
@[simp] theorem State.free_load (s : State) : (s.free.2).load = s.load := rfl
@[simp] theorem State.free_rope (s : State) : (s.free.2).rope = s.rope := rfl
@[simp] theorem State.free_dramc (s : State) : (s.free.2).dramc = s.dramc := rfl
@[simp] theorem State.free_dma (s : State) : (s.free.2).dma = s.dma := rfl
@[simp] theorem State.free_rings (s : State) : (s.free.2).rings = s.rings := rfl
@[simp] theorem State.free_snap (s : State) : (s.free.2).snap = s.snap := rfl
@[simp] theorem State.free_age (s : State) : (s.free.2).age = s.age := rfl
@[simp] theorem State.free_tly (s : State) : (s.free.2).tly = s.tly := rfl
@[simp] theorem State.free_fwd (s : State) : (s.free.2).fwd = s.fwd := rfl
@[simp] theorem State.free_freeCtr (s : State) : (s.free.2).freeCtr = s.freeCtr + 1 := rfl

/-! ### wrMem -/

@[simp] theorem State.wrMem_pending (s : State) (a : Nat) (l : List Byte) : (s.wrMem a l).pending = s.pending := rfl
@[simp] theorem State.wrMem_now (s : State) (a : Nat) (l : List Byte) : (s.wrMem a l).now = s.now := rfl
@[simp] theorem State.wrMem_regs (s : State) (a : Nat) (l : List Byte) : (s.wrMem a l).regs = s.regs := rfl
@[simp] theorem State.wrMem_bar4 (s : State) (a : Nat) (l : List Byte) : (s.wrMem a l).bar4 = s.bar4 := rfl
@[simp] theorem State.wrMem_dram (s : State) (a : Nat) (l : List Byte) : (s.wrMem a l).dram = s.dram := rfl
@[simp] theorem State.wrMem_readData (s : State) (a : Nat) (l : List Byte) : (s.wrMem a l).readData = s.readData := rfl
@[simp] theorem State.wrMem_latch (s : State) (a : Nat) (l : List Byte) : (s.wrMem a l).latch = s.latch := rfl
@[simp] theorem State.wrMem_latchI2c (s : State) (a : Nat) (l : List Byte) : (s.wrMem a l).latchI2c = s.latchI2c := rfl
@[simp] theorem State.wrMem_heldLo (s : State) (a : Nat) (l : List Byte) : (s.wrMem a l).heldLo = s.heldLo := rfl
@[simp] theorem State.wrMem_freeCtr (s : State) (a : Nat) (l : List Byte) : (s.wrMem a l).freeCtr = s.freeCtr := rfl
@[simp] theorem State.wrMem_out (s : State) (a : Nat) (l : List Byte) : (s.wrMem a l).out = s.out := rfl
@[simp] theorem State.wrMem_img (s : State) (a : Nat) (l : List Byte) : (s.wrMem a l).img = s.img := rfl
@[simp] theorem State.wrMem_isSealed (s : State) (a : Nat) (l : List Byte) : (s.wrMem a l).isSealed = s.isSealed := rfl
@[simp] theorem State.wrMem_otp (s : State) (a : Nat) (l : List Byte) : (s.wrMem a l).otp = s.otp := rfl
@[simp] theorem State.wrMem_mode (s : State) (a : Nat) (l : List Byte) : (s.wrMem a l).mode = s.mode := rfl
@[simp] theorem State.wrMem_flt (s : State) (a : Nat) (l : List Byte) : (s.wrMem a l).flt = s.flt := rfl
@[simp] theorem State.wrMem_crn (s : State) (a : Nat) (l : List Byte) : (s.wrMem a l).crn = s.crn := rfl
@[simp] theorem State.wrMem_time (s : State) (a : Nat) (l : List Byte) : (s.wrMem a l).time = s.time := rfl
@[simp] theorem State.wrMem_gens (s : State) (a : Nat) (l : List Byte) : (s.wrMem a l).gens = s.gens := rfl
@[simp] theorem State.wrMem_threads (s : State) (a : Nat) (l : List Byte) : (s.wrMem a l).threads = s.threads := rfl
@[simp] theorem State.wrMem_samples (s : State) (a : Nat) (l : List Byte) : (s.wrMem a l).samples = s.samples := rfl
@[simp] theorem State.wrMem_evtCount (s : State) (a : Nat) (l : List Byte) : (s.wrMem a l).evtCount = s.evtCount := rfl
@[simp] theorem State.wrMem_tasks (s : State) (a : Nat) (l : List Byte) : (s.wrMem a l).tasks = s.tasks := rfl
@[simp] theorem State.wrMem_frames (s : State) (a : Nat) (l : List Byte) : (s.wrMem a l).frames = s.frames := rfl
@[simp] theorem State.wrMem_copies (s : State) (a : Nat) (l : List Byte) : (s.wrMem a l).copies = s.copies := rfl
@[simp] theorem State.wrMem_buf (s : State) (a : Nat) (l : List Byte) : (s.wrMem a l).buf = s.buf := rfl
@[simp] theorem State.wrMem_ports (s : State) (a : Nat) (l : List Byte) : (s.wrMem a l).ports = s.ports := rfl
@[simp] theorem State.wrMem_lanes (s : State) (a : Nat) (l : List Byte) : (s.wrMem a l).lanes = s.lanes := rfl
@[simp] theorem State.wrMem_sas (s : State) (a : Nat) (l : List Byte) : (s.wrMem a l).sas = s.sas := rfl
@[simp] theorem State.wrMem_scs (s : State) (a : Nat) (l : List Byte) : (s.wrMem a l).scs = s.scs := rfl
@[simp] theorem State.wrMem_patchBad (s : State) (a : Nat) (l : List Byte) : (s.wrMem a l).patchBad = s.patchBad := rfl
@[simp] theorem State.wrMem_gates (s : State) (a : Nat) (l : List Byte) : (s.wrMem a l).gates = s.gates := rfl
@[simp] theorem State.wrMem_shapers (s : State) (a : Nat) (l : List Byte) : (s.wrMem a l).shapers = s.shapers := rfl
@[simp] theorem State.wrMem_scheds (s : State) (a : Nat) (l : List Byte) : (s.wrMem a l).scheds = s.scheds := rfl
@[simp] theorem State.wrMem_meters (s : State) (a : Nat) (l : List Byte) : (s.wrMem a l).meters = s.meters := rfl
@[simp] theorem State.wrMem_strm (s : State) (a : Nat) (l : List Byte) : (s.wrMem a l).strm = s.strm := rfl
@[simp] theorem State.wrMem_strmCarry (s : State) (a : Nat) (l : List Byte) : (s.wrMem a l).strmCarry = s.strmCarry := rfl
@[simp] theorem State.wrMem_frerAt (s : State) (a : Nat) (l : List Byte) : (s.wrMem a l).frerAt = s.frerAt := rfl
@[simp] theorem State.wrMem_genUsed (s : State) (a : Nat) (l : List Byte) : (s.wrMem a l).genUsed = s.genUsed := rfl
@[simp] theorem State.wrMem_mirror (s : State) (a : Nat) (l : List Byte) : (s.wrMem a l).mirror = s.mirror := rfl
@[simp] theorem State.wrMem_lost (s : State) (a : Nat) (l : List Byte) : (s.wrMem a l).lost = s.lost := rfl
@[simp] theorem State.wrMem_asmRem (s : State) (a : Nat) (l : List Byte) : (s.wrMem a l).asmRem = s.asmRem := rfl
@[simp] theorem State.wrMem_trees (s : State) (a : Nat) (l : List Byte) : (s.wrMem a l).trees = s.trees := rfl
@[simp] theorem State.wrMem_bw (s : State) (a : Nat) (l : List Byte) : (s.wrMem a l).bw = s.bw := rfl
@[simp] theorem State.wrMem_lpm (s : State) (a : Nat) (l : List Byte) : (s.wrMem a l).lpm = s.lpm := rfl
@[simp] theorem State.wrMem_filt (s : State) (a : Nat) (l : List Byte) : (s.wrMem a l).filt = s.filt := rfl
@[simp] theorem State.wrMem_cmd (s : State) (a : Nat) (l : List Byte) : (s.wrMem a l).cmd = s.cmd := rfl
@[simp] theorem State.wrMem_load (s : State) (a : Nat) (l : List Byte) : (s.wrMem a l).load = s.load := rfl
@[simp] theorem State.wrMem_rope (s : State) (a : Nat) (l : List Byte) : (s.wrMem a l).rope = s.rope := rfl
@[simp] theorem State.wrMem_dramc (s : State) (a : Nat) (l : List Byte) : (s.wrMem a l).dramc = s.dramc := rfl
@[simp] theorem State.wrMem_dma (s : State) (a : Nat) (l : List Byte) : (s.wrMem a l).dma = s.dma := rfl
@[simp] theorem State.wrMem_rings (s : State) (a : Nat) (l : List Byte) : (s.wrMem a l).rings = s.rings := rfl
@[simp] theorem State.wrMem_snap (s : State) (a : Nat) (l : List Byte) : (s.wrMem a l).snap = s.snap := rfl
@[simp] theorem State.wrMem_age (s : State) (a : Nat) (l : List Byte) : (s.wrMem a l).age = s.age := rfl
@[simp] theorem State.wrMem_tly (s : State) (a : Nat) (l : List Byte) : (s.wrMem a l).tly = s.tly := rfl
@[simp] theorem State.wrMem_fwd (s : State) (a : Nat) (l : List Byte) : (s.wrMem a l).fwd = s.fwd := rfl
@[simp] theorem State.wrMem_mem (s : State) (a : Nat) (l : List Byte) : (s.wrMem a l).mem = writeBytes s.mem a l := rfl

/-! ### wrDram -/

@[simp] theorem State.wrDram_pending (s : State) (a : Nat) (l : List Byte) : (s.wrDram a l).pending = s.pending := rfl
@[simp] theorem State.wrDram_now (s : State) (a : Nat) (l : List Byte) : (s.wrDram a l).now = s.now := rfl
@[simp] theorem State.wrDram_regs (s : State) (a : Nat) (l : List Byte) : (s.wrDram a l).regs = s.regs := rfl
@[simp] theorem State.wrDram_bar4 (s : State) (a : Nat) (l : List Byte) : (s.wrDram a l).bar4 = s.bar4 := rfl
@[simp] theorem State.wrDram_mem (s : State) (a : Nat) (l : List Byte) : (s.wrDram a l).mem = s.mem := rfl
@[simp] theorem State.wrDram_readData (s : State) (a : Nat) (l : List Byte) : (s.wrDram a l).readData = s.readData := rfl
@[simp] theorem State.wrDram_latch (s : State) (a : Nat) (l : List Byte) : (s.wrDram a l).latch = s.latch := rfl
@[simp] theorem State.wrDram_latchI2c (s : State) (a : Nat) (l : List Byte) : (s.wrDram a l).latchI2c = s.latchI2c := rfl
@[simp] theorem State.wrDram_heldLo (s : State) (a : Nat) (l : List Byte) : (s.wrDram a l).heldLo = s.heldLo := rfl
@[simp] theorem State.wrDram_freeCtr (s : State) (a : Nat) (l : List Byte) : (s.wrDram a l).freeCtr = s.freeCtr := rfl
@[simp] theorem State.wrDram_out (s : State) (a : Nat) (l : List Byte) : (s.wrDram a l).out = s.out := rfl
@[simp] theorem State.wrDram_img (s : State) (a : Nat) (l : List Byte) : (s.wrDram a l).img = s.img := rfl
@[simp] theorem State.wrDram_isSealed (s : State) (a : Nat) (l : List Byte) : (s.wrDram a l).isSealed = s.isSealed := rfl
@[simp] theorem State.wrDram_otp (s : State) (a : Nat) (l : List Byte) : (s.wrDram a l).otp = s.otp := rfl
@[simp] theorem State.wrDram_mode (s : State) (a : Nat) (l : List Byte) : (s.wrDram a l).mode = s.mode := rfl
@[simp] theorem State.wrDram_flt (s : State) (a : Nat) (l : List Byte) : (s.wrDram a l).flt = s.flt := rfl
@[simp] theorem State.wrDram_crn (s : State) (a : Nat) (l : List Byte) : (s.wrDram a l).crn = s.crn := rfl
@[simp] theorem State.wrDram_time (s : State) (a : Nat) (l : List Byte) : (s.wrDram a l).time = s.time := rfl
@[simp] theorem State.wrDram_gens (s : State) (a : Nat) (l : List Byte) : (s.wrDram a l).gens = s.gens := rfl
@[simp] theorem State.wrDram_threads (s : State) (a : Nat) (l : List Byte) : (s.wrDram a l).threads = s.threads := rfl
@[simp] theorem State.wrDram_samples (s : State) (a : Nat) (l : List Byte) : (s.wrDram a l).samples = s.samples := rfl
@[simp] theorem State.wrDram_evtCount (s : State) (a : Nat) (l : List Byte) : (s.wrDram a l).evtCount = s.evtCount := rfl
@[simp] theorem State.wrDram_tasks (s : State) (a : Nat) (l : List Byte) : (s.wrDram a l).tasks = s.tasks := rfl
@[simp] theorem State.wrDram_frames (s : State) (a : Nat) (l : List Byte) : (s.wrDram a l).frames = s.frames := rfl
@[simp] theorem State.wrDram_copies (s : State) (a : Nat) (l : List Byte) : (s.wrDram a l).copies = s.copies := rfl
@[simp] theorem State.wrDram_buf (s : State) (a : Nat) (l : List Byte) : (s.wrDram a l).buf = s.buf := rfl
@[simp] theorem State.wrDram_ports (s : State) (a : Nat) (l : List Byte) : (s.wrDram a l).ports = s.ports := rfl
@[simp] theorem State.wrDram_lanes (s : State) (a : Nat) (l : List Byte) : (s.wrDram a l).lanes = s.lanes := rfl
@[simp] theorem State.wrDram_sas (s : State) (a : Nat) (l : List Byte) : (s.wrDram a l).sas = s.sas := rfl
@[simp] theorem State.wrDram_scs (s : State) (a : Nat) (l : List Byte) : (s.wrDram a l).scs = s.scs := rfl
@[simp] theorem State.wrDram_patchBad (s : State) (a : Nat) (l : List Byte) : (s.wrDram a l).patchBad = s.patchBad := rfl
@[simp] theorem State.wrDram_gates (s : State) (a : Nat) (l : List Byte) : (s.wrDram a l).gates = s.gates := rfl
@[simp] theorem State.wrDram_shapers (s : State) (a : Nat) (l : List Byte) : (s.wrDram a l).shapers = s.shapers := rfl
@[simp] theorem State.wrDram_scheds (s : State) (a : Nat) (l : List Byte) : (s.wrDram a l).scheds = s.scheds := rfl
@[simp] theorem State.wrDram_meters (s : State) (a : Nat) (l : List Byte) : (s.wrDram a l).meters = s.meters := rfl
@[simp] theorem State.wrDram_strm (s : State) (a : Nat) (l : List Byte) : (s.wrDram a l).strm = s.strm := rfl
@[simp] theorem State.wrDram_strmCarry (s : State) (a : Nat) (l : List Byte) : (s.wrDram a l).strmCarry = s.strmCarry := rfl
@[simp] theorem State.wrDram_frerAt (s : State) (a : Nat) (l : List Byte) : (s.wrDram a l).frerAt = s.frerAt := rfl
@[simp] theorem State.wrDram_genUsed (s : State) (a : Nat) (l : List Byte) : (s.wrDram a l).genUsed = s.genUsed := rfl
@[simp] theorem State.wrDram_mirror (s : State) (a : Nat) (l : List Byte) : (s.wrDram a l).mirror = s.mirror := rfl
@[simp] theorem State.wrDram_lost (s : State) (a : Nat) (l : List Byte) : (s.wrDram a l).lost = s.lost := rfl
@[simp] theorem State.wrDram_asmRem (s : State) (a : Nat) (l : List Byte) : (s.wrDram a l).asmRem = s.asmRem := rfl
@[simp] theorem State.wrDram_trees (s : State) (a : Nat) (l : List Byte) : (s.wrDram a l).trees = s.trees := rfl
@[simp] theorem State.wrDram_bw (s : State) (a : Nat) (l : List Byte) : (s.wrDram a l).bw = s.bw := rfl
@[simp] theorem State.wrDram_lpm (s : State) (a : Nat) (l : List Byte) : (s.wrDram a l).lpm = s.lpm := rfl
@[simp] theorem State.wrDram_filt (s : State) (a : Nat) (l : List Byte) : (s.wrDram a l).filt = s.filt := rfl
@[simp] theorem State.wrDram_cmd (s : State) (a : Nat) (l : List Byte) : (s.wrDram a l).cmd = s.cmd := rfl
@[simp] theorem State.wrDram_load (s : State) (a : Nat) (l : List Byte) : (s.wrDram a l).load = s.load := rfl
@[simp] theorem State.wrDram_rope (s : State) (a : Nat) (l : List Byte) : (s.wrDram a l).rope = s.rope := rfl
@[simp] theorem State.wrDram_dma (s : State) (a : Nat) (l : List Byte) : (s.wrDram a l).dma = s.dma := rfl
@[simp] theorem State.wrDram_rings (s : State) (a : Nat) (l : List Byte) : (s.wrDram a l).rings = s.rings := rfl
@[simp] theorem State.wrDram_snap (s : State) (a : Nat) (l : List Byte) : (s.wrDram a l).snap = s.snap := rfl
@[simp] theorem State.wrDram_age (s : State) (a : Nat) (l : List Byte) : (s.wrDram a l).age = s.age := rfl
@[simp] theorem State.wrDram_tly (s : State) (a : Nat) (l : List Byte) : (s.wrDram a l).tly = s.tly := rfl
@[simp] theorem State.wrDram_fwd (s : State) (a : Nat) (l : List Byte) : (s.wrDram a l).fwd = s.fwd := rfl
@[simp] theorem State.wrDram_dram (s : State) (a : Nat) (l : List Byte) : (s.wrDram a l).dram = writeBytes s.dram a l := rfl

/-! ### tick -/

@[simp] theorem State.tick_pending (s : State) : (s.tick).pending = s.pending := rfl
@[simp] theorem State.tick_regs (s : State) : (s.tick).regs = s.regs := rfl
@[simp] theorem State.tick_bar4 (s : State) : (s.tick).bar4 = s.bar4 := rfl
@[simp] theorem State.tick_mem (s : State) : (s.tick).mem = s.mem := rfl
@[simp] theorem State.tick_dram (s : State) : (s.tick).dram = s.dram := rfl
@[simp] theorem State.tick_readData (s : State) : (s.tick).readData = s.readData := rfl
@[simp] theorem State.tick_latch (s : State) : (s.tick).latch = s.latch := rfl
@[simp] theorem State.tick_latchI2c (s : State) : (s.tick).latchI2c = s.latchI2c := rfl
@[simp] theorem State.tick_heldLo (s : State) : (s.tick).heldLo = s.heldLo := rfl
@[simp] theorem State.tick_freeCtr (s : State) : (s.tick).freeCtr = s.freeCtr := rfl
@[simp] theorem State.tick_out (s : State) : (s.tick).out = s.out := rfl
@[simp] theorem State.tick_img (s : State) : (s.tick).img = s.img := rfl
@[simp] theorem State.tick_isSealed (s : State) : (s.tick).isSealed = s.isSealed := rfl
@[simp] theorem State.tick_otp (s : State) : (s.tick).otp = s.otp := rfl
@[simp] theorem State.tick_mode (s : State) : (s.tick).mode = s.mode := rfl
@[simp] theorem State.tick_flt (s : State) : (s.tick).flt = s.flt := rfl
@[simp] theorem State.tick_crn (s : State) : (s.tick).crn = s.crn := rfl
@[simp] theorem State.tick_time (s : State) : (s.tick).time = s.time := rfl
@[simp] theorem State.tick_gens (s : State) : (s.tick).gens = s.gens := rfl
@[simp] theorem State.tick_threads (s : State) : (s.tick).threads = s.threads := rfl
@[simp] theorem State.tick_samples (s : State) : (s.tick).samples = s.samples := rfl
@[simp] theorem State.tick_evtCount (s : State) : (s.tick).evtCount = s.evtCount := rfl
@[simp] theorem State.tick_tasks (s : State) : (s.tick).tasks = s.tasks := rfl
@[simp] theorem State.tick_frames (s : State) : (s.tick).frames = s.frames := rfl
@[simp] theorem State.tick_copies (s : State) : (s.tick).copies = s.copies := rfl
@[simp] theorem State.tick_buf (s : State) : (s.tick).buf = s.buf := rfl
@[simp] theorem State.tick_ports (s : State) : (s.tick).ports = s.ports := rfl
@[simp] theorem State.tick_lanes (s : State) : (s.tick).lanes = s.lanes := rfl
@[simp] theorem State.tick_sas (s : State) : (s.tick).sas = s.sas := rfl
@[simp] theorem State.tick_scs (s : State) : (s.tick).scs = s.scs := rfl
@[simp] theorem State.tick_patchBad (s : State) : (s.tick).patchBad = s.patchBad := rfl
@[simp] theorem State.tick_gates (s : State) : (s.tick).gates = s.gates := rfl
@[simp] theorem State.tick_shapers (s : State) : (s.tick).shapers = s.shapers := rfl
@[simp] theorem State.tick_scheds (s : State) : (s.tick).scheds = s.scheds := rfl
@[simp] theorem State.tick_meters (s : State) : (s.tick).meters = s.meters := rfl
@[simp] theorem State.tick_strm (s : State) : (s.tick).strm = s.strm := rfl
@[simp] theorem State.tick_strmCarry (s : State) : (s.tick).strmCarry = s.strmCarry := rfl
@[simp] theorem State.tick_frerAt (s : State) : (s.tick).frerAt = s.frerAt := rfl
@[simp] theorem State.tick_genUsed (s : State) : (s.tick).genUsed = s.genUsed := rfl
@[simp] theorem State.tick_mirror (s : State) : (s.tick).mirror = s.mirror := rfl
@[simp] theorem State.tick_lost (s : State) : (s.tick).lost = s.lost := rfl
@[simp] theorem State.tick_asmRem (s : State) : (s.tick).asmRem = s.asmRem := rfl
@[simp] theorem State.tick_trees (s : State) : (s.tick).trees = s.trees := rfl
@[simp] theorem State.tick_bw (s : State) : (s.tick).bw = s.bw := rfl
@[simp] theorem State.tick_lpm (s : State) : (s.tick).lpm = s.lpm := rfl
@[simp] theorem State.tick_filt (s : State) : (s.tick).filt = s.filt := rfl
@[simp] theorem State.tick_cmd (s : State) : (s.tick).cmd = s.cmd := rfl
@[simp] theorem State.tick_load (s : State) : (s.tick).load = s.load := rfl
@[simp] theorem State.tick_rope (s : State) : (s.tick).rope = s.rope := rfl
@[simp] theorem State.tick_dramc (s : State) : (s.tick).dramc = s.dramc := rfl
@[simp] theorem State.tick_dma (s : State) : (s.tick).dma = s.dma := rfl
@[simp] theorem State.tick_rings (s : State) : (s.tick).rings = s.rings := rfl
@[simp] theorem State.tick_snap (s : State) : (s.tick).snap = s.snap := rfl
@[simp] theorem State.tick_age (s : State) : (s.tick).age = s.age := rfl
@[simp] theorem State.tick_tly (s : State) : (s.tick).tly = s.tly := rfl
@[simp] theorem State.tick_fwd (s : State) : (s.tick).fwd = s.fwd := rfl
@[simp] theorem State.tick_now (s : State) : (s.tick).now = s.now + 20 := rfl

/-! ### putThread -/

@[simp] theorem State.putThread_pending (s : State) (x : Thread) : (s.putThread x).pending = s.pending := rfl
@[simp] theorem State.putThread_now (s : State) (x : Thread) : (s.putThread x).now = s.now := rfl
@[simp] theorem State.putThread_regs (s : State) (x : Thread) : (s.putThread x).regs = s.regs := rfl
@[simp] theorem State.putThread_bar4 (s : State) (x : Thread) : (s.putThread x).bar4 = s.bar4 := rfl
@[simp] theorem State.putThread_mem (s : State) (x : Thread) : (s.putThread x).mem = s.mem := rfl
@[simp] theorem State.putThread_dram (s : State) (x : Thread) : (s.putThread x).dram = s.dram := rfl
@[simp] theorem State.putThread_readData (s : State) (x : Thread) : (s.putThread x).readData = s.readData := rfl
@[simp] theorem State.putThread_latch (s : State) (x : Thread) : (s.putThread x).latch = s.latch := rfl
@[simp] theorem State.putThread_latchI2c (s : State) (x : Thread) : (s.putThread x).latchI2c = s.latchI2c := rfl
@[simp] theorem State.putThread_heldLo (s : State) (x : Thread) : (s.putThread x).heldLo = s.heldLo := rfl
@[simp] theorem State.putThread_freeCtr (s : State) (x : Thread) : (s.putThread x).freeCtr = s.freeCtr := rfl
@[simp] theorem State.putThread_out (s : State) (x : Thread) : (s.putThread x).out = s.out := rfl
@[simp] theorem State.putThread_img (s : State) (x : Thread) : (s.putThread x).img = s.img := rfl
@[simp] theorem State.putThread_isSealed (s : State) (x : Thread) : (s.putThread x).isSealed = s.isSealed := rfl
@[simp] theorem State.putThread_otp (s : State) (x : Thread) : (s.putThread x).otp = s.otp := rfl
@[simp] theorem State.putThread_mode (s : State) (x : Thread) : (s.putThread x).mode = s.mode := rfl
@[simp] theorem State.putThread_flt (s : State) (x : Thread) : (s.putThread x).flt = s.flt := rfl
@[simp] theorem State.putThread_crn (s : State) (x : Thread) : (s.putThread x).crn = s.crn := rfl
@[simp] theorem State.putThread_time (s : State) (x : Thread) : (s.putThread x).time = s.time := rfl
@[simp] theorem State.putThread_gens (s : State) (x : Thread) : (s.putThread x).gens = s.gens := rfl
@[simp] theorem State.putThread_samples (s : State) (x : Thread) : (s.putThread x).samples = s.samples := rfl
@[simp] theorem State.putThread_evtCount (s : State) (x : Thread) : (s.putThread x).evtCount = s.evtCount := rfl
@[simp] theorem State.putThread_tasks (s : State) (x : Thread) : (s.putThread x).tasks = s.tasks := rfl
@[simp] theorem State.putThread_frames (s : State) (x : Thread) : (s.putThread x).frames = s.frames := rfl
@[simp] theorem State.putThread_copies (s : State) (x : Thread) : (s.putThread x).copies = s.copies := rfl
@[simp] theorem State.putThread_buf (s : State) (x : Thread) : (s.putThread x).buf = s.buf := rfl
@[simp] theorem State.putThread_ports (s : State) (x : Thread) : (s.putThread x).ports = s.ports := rfl
@[simp] theorem State.putThread_lanes (s : State) (x : Thread) : (s.putThread x).lanes = s.lanes := rfl
@[simp] theorem State.putThread_sas (s : State) (x : Thread) : (s.putThread x).sas = s.sas := rfl
@[simp] theorem State.putThread_scs (s : State) (x : Thread) : (s.putThread x).scs = s.scs := rfl
@[simp] theorem State.putThread_patchBad (s : State) (x : Thread) : (s.putThread x).patchBad = s.patchBad := rfl
@[simp] theorem State.putThread_gates (s : State) (x : Thread) : (s.putThread x).gates = s.gates := rfl
@[simp] theorem State.putThread_shapers (s : State) (x : Thread) : (s.putThread x).shapers = s.shapers := rfl
@[simp] theorem State.putThread_scheds (s : State) (x : Thread) : (s.putThread x).scheds = s.scheds := rfl
@[simp] theorem State.putThread_meters (s : State) (x : Thread) : (s.putThread x).meters = s.meters := rfl
@[simp] theorem State.putThread_strm (s : State) (x : Thread) : (s.putThread x).strm = s.strm := rfl
@[simp] theorem State.putThread_strmCarry (s : State) (x : Thread) : (s.putThread x).strmCarry = s.strmCarry := rfl
@[simp] theorem State.putThread_frerAt (s : State) (x : Thread) : (s.putThread x).frerAt = s.frerAt := rfl
@[simp] theorem State.putThread_genUsed (s : State) (x : Thread) : (s.putThread x).genUsed = s.genUsed := rfl
@[simp] theorem State.putThread_mirror (s : State) (x : Thread) : (s.putThread x).mirror = s.mirror := rfl
@[simp] theorem State.putThread_lost (s : State) (x : Thread) : (s.putThread x).lost = s.lost := rfl
@[simp] theorem State.putThread_asmRem (s : State) (x : Thread) : (s.putThread x).asmRem = s.asmRem := rfl
@[simp] theorem State.putThread_trees (s : State) (x : Thread) : (s.putThread x).trees = s.trees := rfl
@[simp] theorem State.putThread_bw (s : State) (x : Thread) : (s.putThread x).bw = s.bw := rfl
@[simp] theorem State.putThread_lpm (s : State) (x : Thread) : (s.putThread x).lpm = s.lpm := rfl
@[simp] theorem State.putThread_filt (s : State) (x : Thread) : (s.putThread x).filt = s.filt := rfl
@[simp] theorem State.putThread_cmd (s : State) (x : Thread) : (s.putThread x).cmd = s.cmd := rfl
@[simp] theorem State.putThread_load (s : State) (x : Thread) : (s.putThread x).load = s.load := rfl
@[simp] theorem State.putThread_rope (s : State) (x : Thread) : (s.putThread x).rope = s.rope := rfl
@[simp] theorem State.putThread_dramc (s : State) (x : Thread) : (s.putThread x).dramc = s.dramc := rfl
@[simp] theorem State.putThread_dma (s : State) (x : Thread) : (s.putThread x).dma = s.dma := rfl
@[simp] theorem State.putThread_rings (s : State) (x : Thread) : (s.putThread x).rings = s.rings := rfl
@[simp] theorem State.putThread_snap (s : State) (x : Thread) : (s.putThread x).snap = s.snap := rfl
@[simp] theorem State.putThread_age (s : State) (x : Thread) : (s.putThread x).age = s.age := rfl
@[simp] theorem State.putThread_tly (s : State) (x : Thread) : (s.putThread x).tly = s.tly := rfl
@[simp] theorem State.putThread_fwd (s : State) (x : Thread) : (s.putThread x).fwd = s.fwd := rfl

/-! ### putFrame -/

@[simp] theorem State.putFrame_pending (s : State) (x : Frame) : (s.putFrame x).pending = s.pending := rfl
@[simp] theorem State.putFrame_now (s : State) (x : Frame) : (s.putFrame x).now = s.now := rfl
@[simp] theorem State.putFrame_regs (s : State) (x : Frame) : (s.putFrame x).regs = s.regs := rfl
@[simp] theorem State.putFrame_bar4 (s : State) (x : Frame) : (s.putFrame x).bar4 = s.bar4 := rfl
@[simp] theorem State.putFrame_mem (s : State) (x : Frame) : (s.putFrame x).mem = s.mem := rfl
@[simp] theorem State.putFrame_dram (s : State) (x : Frame) : (s.putFrame x).dram = s.dram := rfl
@[simp] theorem State.putFrame_readData (s : State) (x : Frame) : (s.putFrame x).readData = s.readData := rfl
@[simp] theorem State.putFrame_latch (s : State) (x : Frame) : (s.putFrame x).latch = s.latch := rfl
@[simp] theorem State.putFrame_latchI2c (s : State) (x : Frame) : (s.putFrame x).latchI2c = s.latchI2c := rfl
@[simp] theorem State.putFrame_heldLo (s : State) (x : Frame) : (s.putFrame x).heldLo = s.heldLo := rfl
@[simp] theorem State.putFrame_freeCtr (s : State) (x : Frame) : (s.putFrame x).freeCtr = s.freeCtr := rfl
@[simp] theorem State.putFrame_out (s : State) (x : Frame) : (s.putFrame x).out = s.out := rfl
@[simp] theorem State.putFrame_img (s : State) (x : Frame) : (s.putFrame x).img = s.img := rfl
@[simp] theorem State.putFrame_isSealed (s : State) (x : Frame) : (s.putFrame x).isSealed = s.isSealed := rfl
@[simp] theorem State.putFrame_otp (s : State) (x : Frame) : (s.putFrame x).otp = s.otp := rfl
@[simp] theorem State.putFrame_mode (s : State) (x : Frame) : (s.putFrame x).mode = s.mode := rfl
@[simp] theorem State.putFrame_flt (s : State) (x : Frame) : (s.putFrame x).flt = s.flt := rfl
@[simp] theorem State.putFrame_crn (s : State) (x : Frame) : (s.putFrame x).crn = s.crn := rfl
@[simp] theorem State.putFrame_time (s : State) (x : Frame) : (s.putFrame x).time = s.time := rfl
@[simp] theorem State.putFrame_gens (s : State) (x : Frame) : (s.putFrame x).gens = s.gens := rfl
@[simp] theorem State.putFrame_threads (s : State) (x : Frame) : (s.putFrame x).threads = s.threads := rfl
@[simp] theorem State.putFrame_samples (s : State) (x : Frame) : (s.putFrame x).samples = s.samples := rfl
@[simp] theorem State.putFrame_evtCount (s : State) (x : Frame) : (s.putFrame x).evtCount = s.evtCount := rfl
@[simp] theorem State.putFrame_tasks (s : State) (x : Frame) : (s.putFrame x).tasks = s.tasks := rfl
@[simp] theorem State.putFrame_copies (s : State) (x : Frame) : (s.putFrame x).copies = s.copies := rfl
@[simp] theorem State.putFrame_buf (s : State) (x : Frame) : (s.putFrame x).buf = s.buf := rfl
@[simp] theorem State.putFrame_ports (s : State) (x : Frame) : (s.putFrame x).ports = s.ports := rfl
@[simp] theorem State.putFrame_lanes (s : State) (x : Frame) : (s.putFrame x).lanes = s.lanes := rfl
@[simp] theorem State.putFrame_sas (s : State) (x : Frame) : (s.putFrame x).sas = s.sas := rfl
@[simp] theorem State.putFrame_scs (s : State) (x : Frame) : (s.putFrame x).scs = s.scs := rfl
@[simp] theorem State.putFrame_patchBad (s : State) (x : Frame) : (s.putFrame x).patchBad = s.patchBad := rfl
@[simp] theorem State.putFrame_gates (s : State) (x : Frame) : (s.putFrame x).gates = s.gates := rfl
@[simp] theorem State.putFrame_shapers (s : State) (x : Frame) : (s.putFrame x).shapers = s.shapers := rfl
@[simp] theorem State.putFrame_scheds (s : State) (x : Frame) : (s.putFrame x).scheds = s.scheds := rfl
@[simp] theorem State.putFrame_meters (s : State) (x : Frame) : (s.putFrame x).meters = s.meters := rfl
@[simp] theorem State.putFrame_strm (s : State) (x : Frame) : (s.putFrame x).strm = s.strm := rfl
@[simp] theorem State.putFrame_strmCarry (s : State) (x : Frame) : (s.putFrame x).strmCarry = s.strmCarry := rfl
@[simp] theorem State.putFrame_frerAt (s : State) (x : Frame) : (s.putFrame x).frerAt = s.frerAt := rfl
@[simp] theorem State.putFrame_genUsed (s : State) (x : Frame) : (s.putFrame x).genUsed = s.genUsed := rfl
@[simp] theorem State.putFrame_mirror (s : State) (x : Frame) : (s.putFrame x).mirror = s.mirror := rfl
@[simp] theorem State.putFrame_lost (s : State) (x : Frame) : (s.putFrame x).lost = s.lost := rfl
@[simp] theorem State.putFrame_asmRem (s : State) (x : Frame) : (s.putFrame x).asmRem = s.asmRem := rfl
@[simp] theorem State.putFrame_trees (s : State) (x : Frame) : (s.putFrame x).trees = s.trees := rfl
@[simp] theorem State.putFrame_bw (s : State) (x : Frame) : (s.putFrame x).bw = s.bw := rfl
@[simp] theorem State.putFrame_lpm (s : State) (x : Frame) : (s.putFrame x).lpm = s.lpm := rfl
@[simp] theorem State.putFrame_filt (s : State) (x : Frame) : (s.putFrame x).filt = s.filt := rfl
@[simp] theorem State.putFrame_cmd (s : State) (x : Frame) : (s.putFrame x).cmd = s.cmd := rfl
@[simp] theorem State.putFrame_load (s : State) (x : Frame) : (s.putFrame x).load = s.load := rfl
@[simp] theorem State.putFrame_rope (s : State) (x : Frame) : (s.putFrame x).rope = s.rope := rfl
@[simp] theorem State.putFrame_dramc (s : State) (x : Frame) : (s.putFrame x).dramc = s.dramc := rfl
@[simp] theorem State.putFrame_dma (s : State) (x : Frame) : (s.putFrame x).dma = s.dma := rfl
@[simp] theorem State.putFrame_rings (s : State) (x : Frame) : (s.putFrame x).rings = s.rings := rfl
@[simp] theorem State.putFrame_snap (s : State) (x : Frame) : (s.putFrame x).snap = s.snap := rfl
@[simp] theorem State.putFrame_age (s : State) (x : Frame) : (s.putFrame x).age = s.age := rfl
@[simp] theorem State.putFrame_tly (s : State) (x : Frame) : (s.putFrame x).tly = s.tly := rfl
@[simp] theorem State.putFrame_fwd (s : State) (x : Frame) : (s.putFrame x).fwd = s.fwd := rfl

/-! ### putCopy -/

@[simp] theorem State.putCopy_pending (s : State) (x : Copy) : (s.putCopy x).pending = s.pending := rfl
@[simp] theorem State.putCopy_now (s : State) (x : Copy) : (s.putCopy x).now = s.now := rfl
@[simp] theorem State.putCopy_regs (s : State) (x : Copy) : (s.putCopy x).regs = s.regs := rfl
@[simp] theorem State.putCopy_bar4 (s : State) (x : Copy) : (s.putCopy x).bar4 = s.bar4 := rfl
@[simp] theorem State.putCopy_mem (s : State) (x : Copy) : (s.putCopy x).mem = s.mem := rfl
@[simp] theorem State.putCopy_dram (s : State) (x : Copy) : (s.putCopy x).dram = s.dram := rfl
@[simp] theorem State.putCopy_readData (s : State) (x : Copy) : (s.putCopy x).readData = s.readData := rfl
@[simp] theorem State.putCopy_latch (s : State) (x : Copy) : (s.putCopy x).latch = s.latch := rfl
@[simp] theorem State.putCopy_latchI2c (s : State) (x : Copy) : (s.putCopy x).latchI2c = s.latchI2c := rfl
@[simp] theorem State.putCopy_heldLo (s : State) (x : Copy) : (s.putCopy x).heldLo = s.heldLo := rfl
@[simp] theorem State.putCopy_freeCtr (s : State) (x : Copy) : (s.putCopy x).freeCtr = s.freeCtr := rfl
@[simp] theorem State.putCopy_out (s : State) (x : Copy) : (s.putCopy x).out = s.out := rfl
@[simp] theorem State.putCopy_img (s : State) (x : Copy) : (s.putCopy x).img = s.img := rfl
@[simp] theorem State.putCopy_isSealed (s : State) (x : Copy) : (s.putCopy x).isSealed = s.isSealed := rfl
@[simp] theorem State.putCopy_otp (s : State) (x : Copy) : (s.putCopy x).otp = s.otp := rfl
@[simp] theorem State.putCopy_mode (s : State) (x : Copy) : (s.putCopy x).mode = s.mode := rfl
@[simp] theorem State.putCopy_flt (s : State) (x : Copy) : (s.putCopy x).flt = s.flt := rfl
@[simp] theorem State.putCopy_crn (s : State) (x : Copy) : (s.putCopy x).crn = s.crn := rfl
@[simp] theorem State.putCopy_time (s : State) (x : Copy) : (s.putCopy x).time = s.time := rfl
@[simp] theorem State.putCopy_gens (s : State) (x : Copy) : (s.putCopy x).gens = s.gens := rfl
@[simp] theorem State.putCopy_threads (s : State) (x : Copy) : (s.putCopy x).threads = s.threads := rfl
@[simp] theorem State.putCopy_samples (s : State) (x : Copy) : (s.putCopy x).samples = s.samples := rfl
@[simp] theorem State.putCopy_evtCount (s : State) (x : Copy) : (s.putCopy x).evtCount = s.evtCount := rfl
@[simp] theorem State.putCopy_tasks (s : State) (x : Copy) : (s.putCopy x).tasks = s.tasks := rfl
@[simp] theorem State.putCopy_frames (s : State) (x : Copy) : (s.putCopy x).frames = s.frames := rfl
@[simp] theorem State.putCopy_buf (s : State) (x : Copy) : (s.putCopy x).buf = s.buf := rfl
@[simp] theorem State.putCopy_ports (s : State) (x : Copy) : (s.putCopy x).ports = s.ports := rfl
@[simp] theorem State.putCopy_lanes (s : State) (x : Copy) : (s.putCopy x).lanes = s.lanes := rfl
@[simp] theorem State.putCopy_sas (s : State) (x : Copy) : (s.putCopy x).sas = s.sas := rfl
@[simp] theorem State.putCopy_scs (s : State) (x : Copy) : (s.putCopy x).scs = s.scs := rfl
@[simp] theorem State.putCopy_patchBad (s : State) (x : Copy) : (s.putCopy x).patchBad = s.patchBad := rfl
@[simp] theorem State.putCopy_gates (s : State) (x : Copy) : (s.putCopy x).gates = s.gates := rfl
@[simp] theorem State.putCopy_shapers (s : State) (x : Copy) : (s.putCopy x).shapers = s.shapers := rfl
@[simp] theorem State.putCopy_scheds (s : State) (x : Copy) : (s.putCopy x).scheds = s.scheds := rfl
@[simp] theorem State.putCopy_meters (s : State) (x : Copy) : (s.putCopy x).meters = s.meters := rfl
@[simp] theorem State.putCopy_strm (s : State) (x : Copy) : (s.putCopy x).strm = s.strm := rfl
@[simp] theorem State.putCopy_strmCarry (s : State) (x : Copy) : (s.putCopy x).strmCarry = s.strmCarry := rfl
@[simp] theorem State.putCopy_frerAt (s : State) (x : Copy) : (s.putCopy x).frerAt = s.frerAt := rfl
@[simp] theorem State.putCopy_genUsed (s : State) (x : Copy) : (s.putCopy x).genUsed = s.genUsed := rfl
@[simp] theorem State.putCopy_mirror (s : State) (x : Copy) : (s.putCopy x).mirror = s.mirror := rfl
@[simp] theorem State.putCopy_lost (s : State) (x : Copy) : (s.putCopy x).lost = s.lost := rfl
@[simp] theorem State.putCopy_asmRem (s : State) (x : Copy) : (s.putCopy x).asmRem = s.asmRem := rfl
@[simp] theorem State.putCopy_trees (s : State) (x : Copy) : (s.putCopy x).trees = s.trees := rfl
@[simp] theorem State.putCopy_bw (s : State) (x : Copy) : (s.putCopy x).bw = s.bw := rfl
@[simp] theorem State.putCopy_lpm (s : State) (x : Copy) : (s.putCopy x).lpm = s.lpm := rfl
@[simp] theorem State.putCopy_filt (s : State) (x : Copy) : (s.putCopy x).filt = s.filt := rfl
@[simp] theorem State.putCopy_cmd (s : State) (x : Copy) : (s.putCopy x).cmd = s.cmd := rfl
@[simp] theorem State.putCopy_load (s : State) (x : Copy) : (s.putCopy x).load = s.load := rfl
@[simp] theorem State.putCopy_rope (s : State) (x : Copy) : (s.putCopy x).rope = s.rope := rfl
@[simp] theorem State.putCopy_dramc (s : State) (x : Copy) : (s.putCopy x).dramc = s.dramc := rfl
@[simp] theorem State.putCopy_dma (s : State) (x : Copy) : (s.putCopy x).dma = s.dma := rfl
@[simp] theorem State.putCopy_rings (s : State) (x : Copy) : (s.putCopy x).rings = s.rings := rfl
@[simp] theorem State.putCopy_snap (s : State) (x : Copy) : (s.putCopy x).snap = s.snap := rfl
@[simp] theorem State.putCopy_age (s : State) (x : Copy) : (s.putCopy x).age = s.age := rfl
@[simp] theorem State.putCopy_tly (s : State) (x : Copy) : (s.putCopy x).tly = s.tly := rfl
@[simp] theorem State.putCopy_fwd (s : State) (x : Copy) : (s.putCopy x).fwd = s.fwd := rfl

end Sys2Proof.Machine
end

