-- ==== Sys2Proof/Laws/Ops.lean ====
section
/-!
SUPPORT. Laws/Ops.lean: what each shared operation does, said once: frames in the words of Safety.lean, counters, flags, vectors, interrupt
bits, events that are minor.
-/

namespace Sys2Proof.Machine

/-! ### Frames -/

theorem SameBut.refl (l : List Part) (s : State) : SameBut l s s := fun p _ => p.same_refl s

theorem SameBut.trans {l : List Part} {s t u : State} (h : SameBut l s t) (h' : SameBut l t u) : SameBut l s u :=
  fun p hp => p.same_trans (h p hp) (h' p hp)

theorem SameBut.mono {l l' : List Part} {s t : State} (h : SameBut l s t) (hl : ∀ p ∈ l, p ∈ l') : SameBut l' s t :=
  fun p hp => h p (fun hm => hp (hl p hm))

theorem RegsBut.refl (l : List Nat) (s : State) : RegsBut l s s := fun _ _ => rfl

theorem RegsBut.trans {l : List Nat} {s t u : State} (h : RegsBut l s t) (h' : RegsBut l t u) : RegsBut l s u :=
  fun o ho => (h' o ho).trans (h o ho)

theorem RegsBut.mono {l l' : List Nat} {s t : State} (h : RegsBut l s t) (hl : ∀ o ∈ l, o ∈ l') : RegsBut l' s t :=
  fun o ho => h o (fun hm => ho (hl o hm))

/-- A state with the same register words has no register changed. -/
theorem RegsBut.of_regs {l : List Nat} {s t : State} (h : t.regs = s.regs) : RegsBut l s t := fun o _ => by rw [State.rd, h, State.rd]

/-- What `Keeps` says of a mask, in the words of `SameBut`. -/
theorem Keeps.sameBut {m : Nat} {s t : State} (h : Keeps m s t) (l : List Part) (hl : ∀ p : Part, p ∉ l → m.testBit p.idx = false) :
    SameBut l s t := fun p hp => h.same p (hl p hp)

/-! ### Register words and fields -/

theorem State.wr_regsBut (s : State) (o : Nat) (w : Word) : RegsBut [o] s (s.wr o w) :=
  fun _ hx => s.rd_wr_other w (fun he => hx (he ▸ List.mem_singleton.2 rfl))

theorem State.setF_regsBut (s : State) (f : Fld) (v : Nat) : RegsBut [f.off] s (s.setF f v) := s.wr_regsBut _ _

theorem State.setF_sameBut (s : State) (f : Fld) (v : Nat) : SameBut [.regs] s (s.setF f v) := by
  intro p hp; cases p <;> first | exact absurd (by decide) hp | rfl

theorem State.count_regsBut (s : State) (f : Fld) (n : Nat) : RegsBut [f.off] s (s.count f n) := s.setF_regsBut _ _

theorem State.count_sameBut (s : State) (f : Fld) (n : Nat) : SameBut [.regs] s (s.count f n) := s.setF_sameBut _ _

/-- A saturating counter has counted. -/
theorem State.count_countedBy (s : State) (f : Fld) (n : Nat) (hf : f.fits) : CountedBy f n s (s.count f n) := by
  unfold CountedBy State.count
  rw [s.getF_setF_same f _ hf, Nat.mod_eq_of_lt]
  have := Nat.two_pow_pos f.width
  omega

/-- A flag that has been set or cleared. -/
theorem State.flag_setB_same (s : State) (f : Fld) (b : Bool) (hf : f.fits) (hw : 0 < f.width) : (s.setB f b).flag f = b := by
  have h2 : 2 ≤ 2 ^ f.width := by
    calc 2 = 2 ^ 1 := rfl
      _ ≤ 2 ^ f.width := Nat.pow_le_pow_right (by omega) hw
  rw [State.flag_eq, State.setB, s.getF_setF_same f _ hf]
  cases b
  · simp [b2n]
  · simp only [b2n, if_pos]
    rw [Nat.mod_eq_of_lt (by omega)]
    rfl

/-! ### Vectors and interrupt bits (R424) -/

/-- A vector's message goes out, has gone out in this cycle already, or its PBA bit is set while it is masked; nothing else changes. -/
theorem State.sendVec_cases (s : State) (v : Nat) :
    ((s.rd4 (rMSIX_CTL v)).getLsbD 0 = false ∧ s.out.contains (.msix v s.now) = true ∧ s.sendVec v = s) ∨
    ((s.rd4 (rMSIX_CTL v)).getLsbD 0 = false ∧ s.out.contains (.msix v s.now) = false ∧ s.sendVec v = s.emit (.msix v s.now)) ∨
    ((s.rd4 (rMSIX_CTL v)).getLsbD 0 = true ∧ s.sendVec v = s.wr4 (rMSIX_PBA v) (s.rd4 (rMSIX_PBA v) ||| (1#32 <<< (v % 32)))) := by
  unfold State.sendVec
  by_cases h : (s.rd4 (rMSIX_CTL v)).getLsbD 0 = true
  · exact .inr (.inr ⟨h, by rw [if_pos h]⟩)
  · by_cases hc : s.out.contains (.msix v s.now) = true
    · exact .inl ⟨by simpa using h, hc, by rw [if_neg h, if_pos hc]⟩
    · exact .inr (.inl ⟨by simpa using h, by simpa using hc, by rw [if_neg h, if_neg hc]⟩)

theorem State.sendVec_regs (s : State) (v : Nat) : (s.sendVec v).regs = s.regs := by
  rcases s.sendVec_cases v with ⟨_, _, h⟩ | ⟨_, _, h⟩ | ⟨_, h⟩ <;> rw [h] <;> rfl

theorem State.sendVec_sameBut (s : State) (v : Nat) : SameBut [.bar4, .out] s (s.sendVec v) := by
  intro p hp
  rcases s.sendVec_cases v with ⟨_, _, h⟩ | ⟨_, _, h⟩ | ⟨_, h⟩ <;> rw [h] <;> cases p <;> first | exact absurd (by decide) hp | rfl

/-- A status bit that is raised: set already, or set now, with its vector where it is enabled. -/
theorem State.raise_cases (s : State) (f : Fld) (en v : Nat) :
    (s.flag f = true ∧ s.raise f en v = s) ∨
    (s.flag f = false ∧ (s.rd en).getLsbD f.lo = true ∧ s.raise f en v = (s.setF f 1).sendVec v) ∨
    (s.flag f = false ∧ (s.rd en).getLsbD f.lo = false ∧ s.raise f en v = s.setF f 1) := by
  unfold State.raise
  by_cases h : s.flag f = true
  · exact .inl ⟨h, by rw [if_pos h]⟩
  · by_cases he : (s.rd en).getLsbD f.lo = true
    · exact .inr (.inl ⟨by simpa using h, he, by simp only [if_neg h, if_pos he]⟩)
    · exact .inr (.inr ⟨by simpa using h, by simpa using he, by simp only [if_neg h, if_neg he]⟩)

theorem State.raise_regsBut (s : State) (f : Fld) (en v : Nat) : RegsBut [f.off] s (s.raise f en v) := by
  rcases s.raise_cases f en v with ⟨_, h⟩ | ⟨_, _, h⟩ | ⟨_, _, h⟩ <;> rw [h]
  · exact .refl _ _
  · exact (s.setF_regsBut f 1).trans (.of_regs ((s.setF f 1).sendVec_regs v))
  · exact s.setF_regsBut f 1

theorem State.raise_sameBut (s : State) (f : Fld) (en v : Nat) : SameBut [.regs, .bar4, .out] s (s.raise f en v) := by
  rcases s.raise_cases f en v with ⟨_, h⟩ | ⟨_, _, h⟩ | ⟨_, _, h⟩ <;> rw [h]
  · exact .refl _ _
  · exact ((s.setF_sameBut f 1).mono (by simp)).trans (((s.setF f 1).sendVec_sameBut v).mono (by simp))
  · exact (s.setF_sameBut f 1).mono (by simp)

theorem State.getF_sendVec (s : State) (v : Nat) (f : Fld) : (s.sendVec v).getF f = s.getF f := by
  rw [State.getF, State.rd, s.sendVec_regs v, State.getF, State.rd]

theorem State.raise_flag (s : State) (f : Fld) (en v : Nat) (hf : f.fits) (hw : f.width = 1) : (s.raise f en v).flag f = true := by
  have h1 : (s.setF f 1).flag f = true := by rw [State.flag_eq, s.getF_setF_same f 1 hf, hw]; rfl
  rcases s.raise_cases f en v with ⟨h0, h⟩ | ⟨_, _, h⟩ | ⟨_, _, h⟩ <;> rw [h]
  · exact h0
  · rw [State.flag_eq, State.getF_sendVec, ← State.flag_eq, h1]
  · exact h1

/-! ### Events (R455) -/

theorem State.flt_sameBut (s : State) (v : FaultSt) : SameBut [.regs, .flt] s { s with flt := v } := by
  intro p hp; cases p <;> first | exact absurd (by decide) hp | rfl

theorem State.accum_sameBut (s : State) (src e c v : Nat) : SameBut [.regs, .flt] s (s.accum src e c v) := s.flt_sameBut _

theorem State.accum_regs (s : State) (src e c v : Nat) : (s.accum src e c v).regs = s.regs := rfl

/-- What a minor event leaves: the count, the window's start where it begins anew, the window count. -/
theorem State.countEvent_quiet (s : State) (src : Nat) (h : s.quiet src) :
    ∃ (t : State) (k : Nat), s.countEvent src = (t.setF (FLT_SRC_STATE_WIN_COUNT src) k, false) ∧
      t.regs = (s.count (FLT_SRC_CNT_EVENTS src) 1).regs ∧ SameBut [.regs, .flt] s t := by
  obtain ⟨h1, h2⟩ := h
  have hs : SameBut [.regs, .flt] s ((s.count (FLT_SRC_CNT_EVENTS src) 1).accum src 1 0 0) :=
    ((s.count_sameBut _ 1).mono (by simp)).trans (State.accum_sameBut _ src 1 0 0)
  have hr := (s.count (FLT_SRC_CNT_EVENTS src) 1).accum_regs src 1 0 0
  unfold State.countEvent
  rw [h1]
  generalize (s.count (FLT_SRC_CNT_EVENTS src) 1).accum src 1 0 0 = c at hs hr
  dsimp only
  by_cases hf : s.getF (FLT_SRC_STATE_WIN_COUNT src) = 0 ∨
      (s.flt.winStart.lookup src).getD 0 + tUs (s.getF (FLT_SRC_CFG_W_US src)) ≤ s.now
  · have hk : ¬ s.getF (FLT_SRC_CFG_N src) ≤ 0 + 1 := by omega
    rw [if_pos hf, if_pos hf, if_neg hk]
    exact ⟨_, _, rfl, hr, hs.trans (State.flt_sameBut c _)⟩
  · have hk : ¬ s.getF (FLT_SRC_CFG_N src) ≤ s.getF (FLT_SRC_STATE_WIN_COUNT src) + 1 := by omega
    rw [if_neg hf, if_neg hf, if_neg hk]
    exact ⟨_, _, rfl, hr, hs⟩

/-- An event that is minor raises nothing: it is only counted. -/
theorem State.event_quiet (s : State) (src : Nat) (u : FUnit) (h : s.quiet src) (hg : s.gatedSource src u = false) :
    s.event src u = (s.countEvent src).1 := by
  obtain ⟨t, k, he, _, _⟩ := s.countEvent_quiet src h
  unfold State.event
  rw [he, hg]
  rfl

/-- A source whose unit lies in no quadrant is never power-gated (R24). -/
theorem State.gatedSource_of_none (s : State) (src : Nat) (u : FUnit) (h : s.unitQuad (eventUnit src u) = none) : s.gatedSource src u = false := by
  unfold State.gatedSource
  rw [h]
  simp

/-- A source whose unit is power-gated reports nothing (R24). -/
theorem State.event_gated (s : State) (src : Nat) (u : FUnit) (h : s.gatedSource src u = true) : s.event src u = s := by
  unfold State.event
  rw [h]
  rfl

theorem FLT_SRC_CNT_fits (n : Nat) : (FLT_SRC_CNT_EVENTS n).fits := by show 0 + 32 ≤ 32; omega

/-- An event that is minor: counted at its source, its window moved on, nothing else. -/
theorem State.event_minor (s : State) (src : Nat) (u : FUnit) (h : s.quiet src) (hg : s.gatedSource src u = false) :
    Minor src [] s (s.event src u) ∧ SameBut [.regs, .flt] s (s.event src u) := by
  obtain ⟨t, k, he, hr, hs⟩ := s.countEvent_quiet src h
  rw [s.event_quiet src u h hg, he]
  have hrd : ∀ o, t.rd o = (s.count (FLT_SRC_CNT_EVENTS src) 1).rd o := fun o => by rw [State.rd, hr, State.rd]
  refine ⟨⟨?_, ?_⟩, hs.trans ((t.setF_sameBut _ k).mono (by simp))⟩
  · have hc := s.count_countedBy (FLT_SRC_CNT_EVENTS src) 1 (FLT_SRC_CNT_fits src)
    unfold CountedBy at hc ⊢
    rw [t.getF_setF_other _ _ k (by show rFLT_SRC_CNT src ≠ rFLT_SRC_STATE src; unfold rFLT_SRC_CNT rFLT_SRC_STATE; omega), State.getF, hrd]
    exact hc
  · intro o ho
    rw [t.setF_regsBut _ k o (by simp_all), hrd, s.count_regsBut _ 1 o (by simp_all)]

end Sys2Proof.Machine
end

