-- ==== Sys2Proof/Tests/Slice0.lean ====
section
/-!
SUPPORT. Tests/Slice0.lean: small states built for the tests, the checks of well-formedness, microwords written out from R134, single
operations whose results the spec states, and for every statement with hypotheses states and operands that meet them.
-/

-- The kernel checks these theorems one after another: checked side by side they need more threads than the limits leave.
set_option Elab.async false

namespace Sys2Proof.Tests

open Sys2Proof Sys2Proof.Machine

/-! ### Small states -/

/-- The state after reset. -/
def w0 : State := State.reset

/-- Its parse graph: an Ethernet node with an edge to an IPv4 node. -/
def wParse : ParseRec :=
  { reach16 := 24, layers := 8, reachAction := 0, wins := [⟨0, 0⟩, ⟨0, 2⟩],
    nodes := [⟨0, 1, 0x10, true, [⟨0x800, 0xFFFF, 1, 7⟩]⟩, ⟨1, 4, 0x20, true, []⟩] }

/-- A small image: two front ports with one lane each, the host, housekeeping and rope ports, one FDB, one replicated stream. -/
def wImage : Image :=
  { formOk := true, injEn := true, readOk := true, magic := 0, fmtVer := 2, fmtMin := 1, epoch := 3, compatEpoch := 2, stepMask := 0xFFFF, variantMask := 3, keySlot := 0,
    length := 4096, sectionCount := 0, flags := 0, buildId := 1, drainMax := 10, sections := [], sigForm := true, pubKey := [1], signature := [2],
    digest := [3, 4], streamsDigest := [5],
    lanes := [⟨0, 2, 0, 0, 0, 4⟩, ⟨1, 2, 1, 0, 0, 0⟩],
    ports := [⟨0, 2, 0, 1, 1518, 5, 0⟩, ⟨1, 2, 0, 0, 1518, 0, 0⟩, ⟨64, 0, 1, 0, 9216, 0, 0⟩, ⟨65, 0, 2, 0, 9216, 0, 0⟩],
    parse := wParse,
    stations := [{ quadrant := 0, position := 0, kind := 4, table := 3, keySel := 1 }],
    tiles := [⟨3, .fdb, false, [1, 0, 0, 0], [0, 0, 0, 0], 256, 0, 1, 2, 300⟩],
    sched := [], pools := [], dqxMib := 0, groups := [], sources := [],
    ageing := { replanCode := 1, intervalH := 24, tLow := 0, tHigh := 90, avsMin := 700, avsMax := 900, laneFloorMv := 10, laneFloorMui := 10, sramFloorMv := 5 },
    streams := [{ handle := 7, home := 0, replicateCode := 1, criticalCode := 1, algCode := 0, history := 8, rank := 0, admitAt := none }],
    patches := [] }

/-- An image as a slot presents it, of which only the bytes and the read's outcome matter. -/
def wFile (b : List Byte) (ok : Bool) : ImageFile :=
  { readOk := ok, bytes := b, tiles := [], sched := [], pools := [], dqxMib := 0, groups := [], sources := [], ageing := wImage.ageing, streams := [],
    patches := [], injEn := false }

/-- A sealed device that holds that image. -/
def wImg : State := { w0 with img := some wImage, isSealed := true }

/-- Two front ports with 10 Gbit/s, up, the host port and P66, P67. -/
def wPort (p q : Nat) : PortSt :=
  { port := p, faultAt := none, lockAt := none, holdEnd := none, pauseEnd := [], genPause := 0, refreshAt := 0, verifyLeft := 0,
    verifyAt := 0, wakeEnd := none, verifyFails := 0, ctlDown := false, mode := 2, quad := q, macsec := false, maxFrame := 1518, nominal := 10000 }

/-- A device whose ports 0 and 1 are up. -/
def wNet : State :=
  (((((({ wImg with now := 10000000, mode := { ModeSt.reset with porst := false, pwrgood := true, step := 12 }, ports := [wPort 0 0, wPort 1 0, wPort 64 1, wPort 65 2, wPort 66 1, wPort 67 3] } : State).setF GLB_MODE_MODE 3).setF
    (MAC_STATUS_LINK 0) 1).setF (MAC_CTL_EN 0) 1).setF (MAC_STATUS_LINK 1) 1).setF (MAC_CTL_EN 1) 1).setF (BPM_POOL_CFG_TCS 0) 255

/-- A frame at its first bit, with 100 bytes. -/
def wF (fid port : Nat) : Frame := { newFrame fid port 0 0 (0x300) with bytes := List.replicate 100 0x11, raw := List.replicate 100 0x11 }

/-- A copy of it for a port. -/
def wC (fid port : Nat) : Copy := newCopy (wF fid 0) { port := port, why := 0, reason := 0, replica := false } 0

/-- That device with frames and copies. -/
def wFr (fs : List Frame) (cs : List Copy) : State := { wNet with frames := fs, copies := cs }

/-- Powered engines, and a pool of 1000 beads. -/
def wEng (s : State) : State :=
  ((((s.setF (HSQ_ENG_STATUS_POWERED 0) 1).setF (HSQ_ENG_STATUS_POWERED 1) 1).setF (HSQ_ENG_STATUS_POWERED 2) 1).setF
    (HSQ_ENG_STATUS_POWERED 3) 1).setF (HSQ_ENG_STATUS_POWERED 16) 1
def wPool (s : State) : State :=
  ((((s.setF (BPM_POOL_BEADS_QUOTA 0) 1000).setF (BPM_POOL_FULL_BEADS 0) 900).setF (BPM_POOL_WARN1_BEADS 0) 800).setF
    (BPM_POOL_WARN2_BEADS 0) 850).setF BPM_FREE_COUNT 262144

/-- A device whose station 0 of quadrant 0 searches exact flow table 2, which holds one record for the key of zeros. -/
def wFlow (fs : List Frame) : State :=
  let i := { wImage with tiles := [⟨2, .exactFlow, false, [1, 0, 0, 0], [0, 0, 0, 0], 1, 0, 0, 0, 0⟩] }
  let s := ({ wFr fs [] with img := some i } : State)
  let s := (((s.setF (CLS_Q_POS_KIND 0 0) 1).setF (CLS_Q_POS_TABLE 0 0) 2).setF (FWD_TBL_GEOM_KIND 2) 3).setF (FWD_TBL_GEOM_BUCKETS 2) 1
  s.wrMem 32 (List.replicate 22 0 ++ [1, 0] ++ leBytes 8 0x0001000A00000521)

/-- A copy in a queue of port 1, which serves all its classes strictly. -/
def wSch : State :=
  let s := wFr [{ wF 1 0 with phase := .enqueued, ended := true, wire := 104, beads := [0] }] [{ wC 1 1 with beads := 1, tc := 7 }]
  let s := ({ s with buf := { BufSt.empty with fresh := 1, held := [(0, ⟨none, 15, 1, 0⟩)] } } : State)
  ((s.setF (SCH_PORT_CFG_STRICT 1) 2).setF (SCH_PORT_QCFG_MAX_SDU 1 7) 9216).setF (SCH_PORT_QRES_MAX_RES_US 1 7) 1000000

/-- The deep queue extension with frames 1 and 2 whole, and copies of port 1. -/
def wDqx (cs : List Copy) : State :=
  let s := wPool (wFr [{ wF 1 0 with ended := true, phase := .enqueued }, { wF 2 0 with ended := true, phase := .enqueued }] cs)
  let s := (((s.setF SWC_DQX_CFG_EN 1).setF SWC_DQX_CFG_SIZE_MIB 1).setF SWC_DQX_THR_SPILL 2).setF SWC_DQX_THR_REFILL 2
  (s.setF (SWC_PORT_QDEPTH_BEADS 1 0) 3).setF (BPM_POOL_CFG_DQX_OK 0) 1

/-- A thread at word 0x100 with registers set. -/
def wTh (e : Nat) (tg : Target) : Thread :=
  { newThread e 5 tg 0x100 0 false with g := [1, 2, 0x8000, 0xFFFF, 5, 6, 7, 8, 9, 10, 11, 12, 13, 14, 15, 16], hp := 4, kc := 8 }

/-- A frame in its parse and a copy in its rewrite, with that thread. -/
def wFp : Frame := { wF 1 0 with phase := .parsing, gen := 1 }
def wCr : Copy := { wC 1 1 with phase := .rewriting, window := List.replicate 20 7, layers := [⟨4, 0⟩] }
def wWord (th : Thread) : State :=
  ({ (wFr [wFp] [wCr]) with threads := [th] } : State).setF PRS_CFG_REACH 384 |>.setF PRS_CFG_LAYERS 16

/-- An FDB, table 3, with one bucket in each bank, in tile 0 of every quadrant. -/
def wFdb : State :=
  let i := { wImage with tiles := [⟨3, .fdb, true, [1, 1, 1, 1], [0, 0, 0, 0], 1, 0, 1, 2, 300⟩] }
  (({ wNet with img := some i, gens := genFirst, isSealed := true } : State).setF (FWD_TBL_GEOM_KIND 3) 1).setF (FWD_TBL_GEOM_BUCKETS 3) 1

/-- That FDB with a settled entry of key 0 in its first slot, in both copies, AGE = 1. -/
def wFdb1 : State :=
  ((wFdb.wrMem 8 [1, 0, 1, 0, 1, 0]).wrMem 0xC00008 [1, 0, 1, 0, 1, 0]).wrMem 0x2400008 [1, 0, 1, 0, 1, 0]

/-- An exact flow table, table 2, in tile 0 of quadrant 0. -/
def wExact : State := { wFlow [] with gens := genFirst }

/-- Ports 0 and 1 with a lane each, both lanes bound, down and waiting. -/
def wLane (c p : Nat) : LaneSt := { lane := c, rate := 2, port := p, position := 0, polarity := 0, eqPreset := 4, began := none, retryAt := none, skew := 0, taps := [] }
def wLinks : State := { wNet with lanes := [wLane 0 0, wLane 1 1, { wLane 64 65 with rate := 5 }, { wLane 65 65 with rate := 5 }] }

/-- The device in a mode with PORST_N released, sealed. -/
def wMode (m : Nat) : State := ({ wImg with mode := { ModeSt.reset with porst := false, pwrgood := true, step := 12, ascent := .none }, now := 10000000 } : State).setF GLB_MODE_MODE m
/-- A step of an Ascent. -/
def wAsc (k : AscentKind) (n : Nat) : State :=
  let s := wMode 1
  { s with mode := { s.mode with ascent := k, step := n }, isSealed := false, img := none }

/-- A device with an accepted memory descriptor of one rank per channel. -/
def wDesc (s : State) : State :=
  let s := ((s.setF DRC_GEOM_RANKS 1).setF DRC_GEOM_ROW_BITS 15).setF DRC_GEOM_RANK_128M 0x10
  let s := ((s.setF DRC_MAP_CFG_COL_LO 11).setF DRC_MAP_CFG_ROW_LO 18 |>.setF DRC_GEOM_SPARE_EN 0)
  ((List.range 7).zip [6, 7, 40, 8, 9, 10, 17]).foldl (fun u x => if x.2 < 40 then u.setF (DRC_MAP_MASK_LO_MASK x.1) (2 ^ x.2) else u.setF (DRC_MAP_MASK_LO_MASK x.1) 0) s

/-- Two good entries in the admin list of port 67, with a base in the past. -/
def wGate : State :=
  let b := gateBlock (.port 67)
  let s := ((wNet.setF (GATE_ADMIN_CYCLE_NS_NS b) 1000).setF (GATE_GCTL_ADMIN_LEN b) 2).setF (GATE_ADMIN_BASE_NS_NS b) 5
  ({ s with now := 27000000 } : State).wrMem (adminList (.port 67)) [0xFF, 0, 0, 0, 100, 0, 0, 0, 1, 2, 0, 0, 200]

/-- A twin with the rope up, in a twin state, under a version, in a mode. -/
def wTwin (m tw v : Nat) : State :=
  let s := { wMode m with img := some { wImage with flags := 4, streams := [] }, rope := { RopeSt.reset with started := true }, ports := [wPort 65 2] }
  ((((s.setF (MAC_STATUS_LINK 65) 1).setF TWN_STATUS_STATE tw).setF TWN_STATUS_VIRAM v).setF TWN_STATUS_LANES 4).setF TWN_LANE_MAP_ACTIVE 15
/-- Its partner's heartbeat and HELLO. -/
def wBeat : Heartbeat := ⟨true, 2, 2, 3, false, false, 9, 1, 0, 31, 3⟩
def wHello : Hello := ⟨1, 1, 2, true, false, true, 3, 2, [5]⟩

/-- The replicated stream of the small image. -/
def wStream : StreamRec := { handle := 7, home := 0, replicateCode := 1, criticalCode := 1, algCode := 0, history := 8, rank := 0, admitAt := none }

/-- A device whose DRAM runs, with a descriptor of one rank per channel and spares, in a mode. -/
def wDram (m : Nat) : State :=
  let s := (wDesc { wMode m with mode := { (wMode m).mode with dramOpen := true } }).setF DRC_GEOM_SPARE_EN 1
  ((s.setF DRC_STATUS_TRAINED 1).setF DRC_MAPPED_MIB 7680).setF (DRC_CH_STATE_RK1 0) 3
/-- A read of logical rank 2 that ends. -/
def wDone : DramDone := { rank := 2, band := false, line := 77, addr := 0x1000, spare := false, write := false, ns := 300, first := .ok, again := .ok, user := .host }
/-- A request in the mailbox: version, opcode and payload. -/
def wMb (s : State) (ver op : Nat) (pay : List Byte) : State :=
  let b := [BitVec.ofNat 8 ver, BitVec.ofNat 8 op, 9, 0] ++ leBytes 2 pay.length ++ [0, 0] ++ leBytes 4 (if ver = 2 then crc32c pay else 0) ++ [0, 0, 0, 0] ++ pay
  State.putBar4 256 (if op = 0 then s else s.setMbVer ver) 0x1000 b
/-- A DMA channel that moves bytes. -/
def wDma (c ss ds n : Nat) : State :=
  ((((wMode 3).setF (HDM_DMA_CTL_EN c) 1).setF (HDM_DMA_CNT_BYTES c) n).setF (HDM_DMA_CTL_SRC_SPACE c) ss).setF (HDM_DMA_CTL_DST_SPACE c) ds
def wRun (c n k : Nat) (d : List Byte) : DmaRun :=
  { chan := c, src := 0x1000, dst := 0x2000, cnt := n, srcSpace := 0, dstSpace := 0, crcWr := false, desc := false, moved := k, data := d, stop := false }
/-- A ring of 64 descriptors that runs. -/
def wRing (n : Nat) : State :=
  let s := wPool { wNet with frames := [], copies := [] }
  ((s.setF (HDM_RING_CFG_EN n) 1).setF (HDM_RING_CFG_SIZE_LOG2 n) 6).wr4 (rHDM_RING_TAIL n) 5

/-! ### Well-formedness -/

/-- One ill-formed word for each check of `wordWf`, and one thread outside the engines. -/
theorem test_wf_refuses_words :
    ([.add 0 0 16 0 0, .sub 0 0 0 16 0, .xor 0 0 0 0 16, .shf 0 0 0 0 64, .addi 0 0 0 0 1024, .cmp 0 0 16 0, .cmpi 0 0 0 1024, .movi 0 0 0 16384,
      .orh 0 0 0 256, .exr 0 0 0 256 1, .exr 0 0 0 0 0, .exr 0 0 0 0 17, .exk 0 0 256 1 0, .push 0 0 0 17 0, .csum 0 0 0 1 64, .keyr 0 0 0 64,
      .keyi 0 0 256 0, .setl 0 0 1024, .setf 0 0 64 true, .lkp 0 0 64 0 0, .lkp 0 0 0 8 0, .lkp 0 0 0 0 4, .ldt 0 0 0 8 0, .ldm 0 0 64,
      .br 0 0 8 0, .br 0 0 0 32768, .call 0 0 32768, .jx 0 0 65536, .wait 0 0 4 0 true true, .wait 0 0 0 256 true true, .drop 0 0 256,
      .trap 0 0 256, .nop 17 0, .nop 0 64] : List Instr).all (fun i => !i.wf) = true := by decide

/-- One ill-formed command for each check of `operandsWf`. -/
theorem test_wf_refuses_commands :
    ([.registerWrite .bar0 (2 ^ 24) 4 0 0, .registerWrite .bar0 0 9 0 0, .readClear .bar0 (2 ^ 24) 4 0, .pairLoRead 2, .bar2Write (2 ^ 28) 4 0,
      .bar2Write 0 4 (2 ^ 32), .tcamRowWrite 2 0, .dramWindowWrite 0 [1] 2, .frameArrival 1 68 false 0 [], .frameArrival 1 3 false 0 [1], .frameArrival 1 3 false 3 [],
      .parseThreadStart 1 64, .beadWaitServed 11, .beadWaitServed 16, .schedulerSelect 68, .linkFaultDetect 0 0 6, .pauseTimerExpiry 64 0,
      .pauseTimerExpiry 0 8, .verifyTimeout 64, .housekeepingTaskStart 5 0 0, .patchWordRewrite 5 0, .patchWordRewrite 0 2048,
      .tcamRowCheck 4 0 0 0, .tcamRowCheck 0 24 0 0, .tcamRowCheck 0 0 512 0, .tableFind 64 false, .dqxSpill 0 8, .laneRetry 24, .reqPark 65536 false,
      .domainStep 2, .gateChange (.port 68), .gateChange (.stream 256), .ropeFcRelease 8, .ropeLaneLoss 5, .twnSwap 4 false, .rankRetire 8 false,
      .refreshCatchup 4 0, .wckOscRead 4, .dmaGo 32, .ringDoorbell 16 0, .ringDoorbell 0 65536, .txDescriptorProcess 0 1 [] [],
      .rxCompletion 1 [] false, .ringShutdown 16, .msixUnmask 256, .faultEvent 412 ⟨.noUnit, none⟩, .belayExpiry 48, .quadrantHeartbeatTimeout 4,
      .rwlCrcCheck 16, .pmbusAlert 4 false, .cairnWindowRead 4096, .cairnWindowRead 2, .strmSel 65536, .i2cWrite 256 [],
      .i2cRead 256 1] : List Instr).all (fun i => !i.wf) = true := by decide

/-- Commands at the ends of their ranges are well-formed. -/
theorem test_wf_admits :
    ([.add 16 63 15 15 15, .br 0 0 7 32767, .jx 3 1 65535, .exk 0 0 255 16 63, .wait 0 0 3 255 true false, .registerWrite .bar4 0xFFFFFC 4 0 0,
      .frameArrival 1 67 false 2 [], .frameArrival 1 65 false 0 [1], .gateChange (.stream 255), .faultEvent 411 ⟨.noUnit, none⟩, .dmaGo 31,
      .cairnWindowRead 4092, .clearPorts] : List Instr).all (fun i => i.wf) = true := by decide

/-! ### Microwords written out from the formats of R134 -/

/-- One word of each format, from its fields: opcode × 2^18 and the operands at their places. -/
theorem test_decode_formats :
    decodeMicro 0 1 (0x01 * 2 ^ 18 + 5 * 2 ^ 14 + 6 * 2 ^ 10 + 7 * 2 ^ 6) = some (.add 0 1 5 6 7) ∧
    decodeMicro 0 1 (0x06 * 2 ^ 18 + 5 * 2 ^ 14 + 6 * 2 ^ 10 + 33) = some (.shf 0 1 5 6 33) ∧
    decodeMicro 0 1 (0x07 * 2 ^ 18 + 5 * 2 ^ 14 + 6 * 2 ^ 10 + 1023) = some (.addi 0 1 5 6 1023) ∧
    decodeMicro 0 1 (0x11 * 2 ^ 18 + 200 * 2 ^ 10 + 15 * 2 ^ 6 + 63) = some (.exk 0 1 200 16 63) ∧
    decodeMicro 0 1 (0x20 * 2 ^ 18 + 5 * 2 ^ 15 + 0x7FFF) = some (.br 0 1 5 0x7FFF) ∧
    decodeMicro 0 1 (0x28 * 2 ^ 18 + 2 * 2 ^ 16 + 0xAB * 2 ^ 8 + 2 ^ 7) = some (.wait 0 1 2 0xAB true false) ∧
    decodeMicro 0 1 (0x18 * 2 ^ 18 + 63 * 2 ^ 12 + 5 * 2 ^ 9 + 3 * 2 ^ 7) = some (.lkp 0 1 63 5 3) ∧
    decodeMicro 0 1 (0x19 * 2 ^ 18 + 5 * 2 ^ 14 + 6 * 2 ^ 7 + 2 * 2 ^ 5) = some (.ldt 0 1 5 6 2) ∧
    decodeMicro 0 1 (0x31 * 2 ^ 18 + 0x7F) = some (.drop 0 1 0x7F) := by decide

/-- Words that are no opcode: a value R134 does not list, an operand bit that must be 0, more than 24 bits. -/
theorem test_decode_refuses :
    decodeMicro 0 1 (0x0D * 2 ^ 18) = none ∧ decodeMicro 0 1 (0x30 * 2 ^ 18 + 1) = none ∧ decodeMicro 0 1 (2 ^ 24) = none ∧
    decodeTableWord 16 5 = none := by decide

/-! ### Single operations -/

/-- CRC-32C of the digits 1 to 9 is E3069283h, the check value of the polynomial 1EDC6F41h. -/
theorem test_crc32c : crc32c [0x31, 0x32, 0x33, 0x34, 0x35, 0x36, 0x37, 0x38, 0x39] = 0xE3069283 := by decide +kernel

/-- R420: at 8 GT/s on one lane the available rate of P64 is 7.8 Gbit/s, at 32 GT/s on eight lanes 250 Gbit/s. -/
theorem test_pcie_rate : pcieMbps 3 1 / 100 = 78 ∧ pcieMbps 5 8 = 250000 := by decide

/-- R492: 750 mV and a slowdown of 1.01 % give 760.1 mV, rounded up to 765 mV. -/
theorem test_core_target : coreTarget 750 101 = 765 ∧ coreTarget 750 0 = 750 ∧ coreTarget 750 100 = 760 := by decide

/-- R3: the word at offset 0 after reset names the vendor and the variant. -/
theorem test_identity : State.reset.rd 0 = 0x24000A21 := by decide +kernel

/-- The front command runs and the rest waits; an empty queue lets a core cycle pass. -/
theorem test_step_queue :
    (match step { State.reset with pending := [.clearStrm, .clearEvt] } with | .next t => t.pending | _ => []) = [.clearEvt] ∧
    (match step State.reset with | .next t => t.now | _ => 0) = 20 := by decide +kernel

/-- R455, R457: with N = 1 one event of a group of class C2 begins its belay. -/
theorem test_belay :
    (match exec (.faultEvent 300 ⟨.hostIf, none⟩) ((wMode 3).setF (FLT_GRP_CFG_CLASS (groupOf 300)) 2) with
     | .next t => t.getF (FLT_GRP_STATUS_STATE (groupOf 300)) | _ => 9) = 1 := by decide +kernel

/-! ### Hypotheses of the statements about the whole machine -/

/-- The hypotheses of the statements about every step and every command. -/
theorem witness_steps :
    (∃ s t : State, s.canon ∧ step s = .next t) ∧ (∃ s t : State, s.gens.bounded ∧ step s = .next t) ∧
    (∃ (c : Instr) (s t : State), exec c s = .next t) ∧ (∃ s : State, s.pending = []) := by
  refine ⟨⟨State.reset, _, ?_, rfl⟩, ⟨State.reset, _, ?_, rfl⟩, ⟨.clearEvt, State.reset, _, rfl⟩, ⟨State.reset, rfl⟩⟩
  · exact ⟨rfl, rfl, rfl, rfl, rfl, rfl, fun x hx => nomatch hx⟩
  · exact ⟨by decide, by decide, by decide⟩

/-- The hypotheses of `MicrowordsDecodeToThemselves`. -/
theorem witness_MicrowordsDecodeToThemselves :
    ∃ (i : Instr) (e sl w : Nat), i.wf = true ∧ i.threadOf = some (e, sl) ∧ encodeMicro i = some w :=
  ⟨.exk 16 63 255 16 63, 16, 63, 0x47FFFF, by decide⟩

/-- The hypotheses of `InterruptsSendOneMessage`: a bit that is set, one that is not, enabled or not, masked or not. -/
theorem witness_InterruptsSendOneMessage :
    (∃ (s : State) (st en n i : Nat), (st, en, n) ∈ intRegs ∧ i < n ∧ s.flag ⟨st, i, 1⟩ = true) ∧
    (∃ (s : State) (st en n i : Nat), (st, en, n) ∈ intRegs ∧ i < n ∧ s.flag ⟨st, i, 1⟩ = false ∧ (s.rd en).getLsbD i = false) ∧
    (∃ (s : State) (st en n i v : Nat), (st, en, n) ∈ intRegs ∧ i < n ∧ v < 256 ∧ s.flag ⟨st, i, 1⟩ = false ∧ (s.rd en).getLsbD i = true ∧
      (s.rd4 (rMSIX_CTL v)).getLsbD 0 = false) ∧
    (∃ (s : State) (st en n i v : Nat), (st, en, n) ∈ intRegs ∧ i < n ∧ v < 256 ∧ s.flag ⟨st, i, 1⟩ = false ∧ (s.rd en).getLsbD i = true ∧
      (s.rd4 (rMSIX_CTL v)).getLsbD 0 = true) := by
  refine ⟨?_, ?_, ?_, ?_⟩
  · exact ⟨w0.setF TWN_INT_STATUS_REJOIN 1, rTWN_INT_STATUS, rTWN_INT_EN, 8, TWN_INT_STATUS_REJOIN.lo, by decide +kernel⟩
  · exact ⟨w0, rCRN_INT_STATUS, rCRN_INT_EN, 5, 4, by decide +kernel⟩
  · exact ⟨(w0.wr rAGE_INT_EN 4).wr4 (rMSIX_CTL 255) 0, rAGE_INT_STATUS, rAGE_INT_EN, 3, 2, 255, by decide +kernel⟩
  · exact ⟨(w0.wr rAGE_INT_EN 1).wr4 (rMSIX_CTL 0) 1, rAGE_INT_STATUS, rAGE_INT_EN, 3, 0, 0, by decide +kernel⟩

/-- The hypotheses of `FetchesOutsideTheAddressSpaceAbort`, at both ends of the range of addresses. -/
theorem witness_FetchesOutsideTheAddressSpaceAbort :
    (∃ (i : Instr) (e sl w k : Nat) (th : Thread) (s : State), encodeMicro i = some w ∧ i.threadOf = some (e, sl) ∧ e < 17 ∧ sl < 64 ∧
      s.thread e sl = some th ∧ th.wait = none ∧ th.target = .task k ∧ 0x8800 ≤ th.pc ∧ th.pc < 0x10000 ∧ s.patchBad = [] ∧ s.quiet (101 + e) ∧ s.gatedSource (101 + e) (.engine e) = false) ∧
    (∃ (s : State) (th : Thread), 0x8000 ≤ th.pc ∨ th.patched = false ∨ s.matchOf (romCopy th.eng) th.pc = none) ∧
    (∃ (s : State) (th : Thread) (n : Nat), th.pc < 0x8000 ∧ th.patched = true ∧ s.matchOf (romCopy th.eng) th.pc = some n) := by
  refine ⟨?_, ?_, ?_⟩
  · exact ⟨.jx 16 63 5, 16, 63, 0x8C0005, 2, newThread 16 63 (.task 2) 0x8800 0 false,
      ({ w0 with threads := [newThread 16 63 (.task 2) 0x8800 0 false] } : State).setF (FLT_SRC_CFG_N 117) 2, by decide +kernel⟩
  · exact ⟨w0, newThread 16 63 (.task 2) 0x100 0 false, by decide +kernel⟩
  · exact ⟨(w0.setF (HSQ_MATCH_VALID 4 63) 1).setF (HSQ_MATCH_ROM_ADDR 4 63) 0x7FFF, newThread 16 63 (.task 2) 0x7FFF 0 true, 63, by decide +kernel⟩

/-- The hypotheses of the clauses of `EventCairnsMerge`. -/
theorem witness_EventCairnsMerge :
    (∃ (s : State) (kind key : Nat) (l : Cairn) (q : List Cairn), s.modeCode ≠ mBivouac ∧ s.crn.queue = q ++ [l] ∧ 0x40 ≤ kind ∧ l.kind = kind ∧
      l.key = key ∧ l.pcycle = s.getF AON_PCYCLE_COUNT) ∧
    (∃ (s : State) (kind key u : Nat), s.modeCode ≠ mBivouac ∧ s.crn.queue = [] ∧ s.getF CRN_STATUS_USED = u + 1 ∧ 0x40 ≤ kind ∧
      slotValid (s.slotBytes u) = true ∧ ((s.slotBytes u).getD 0 0).toNat = kind ∧ leNat (((s.slotBytes u).drop 4).take 4) = key ∧
      leNat (((s.slotBytes u).drop 13).take 3) = s.getF AON_PCYCLE_COUNT) ∧
    (∃ (s : State) (kind : Nat), s.modeCode ≠ mBivouac ∧ s.crn.queue.length < 256 ∧ kind < 0x40) := by
  refine ⟨?_, ?_, ?_⟩
  · exact ⟨{ wMode 3 with crn := { (wMode 3).crn with queue := [⟨0x42, 0, 5, 7, 0, 8, 65535, [1]⟩] } }, 0x42, 5, ⟨0x42, 0, 5, 7, 0, 8, 65535, [1]⟩, [],
      by decide +kernel⟩
  · exact ⟨({ wMode 3 with crn := { (wMode 3).crn with mram := [(64, 0x4B), (65, 1), (68, 9), (120, 0x5B), (121, 0x6A)] } } : State).setF CRN_STATUS_USED 2,
      0x4B, 9, 1, by decide +kernel⟩
  · exact ⟨wMode 3, 0x3F, by decide +kernel⟩

/-! ### Hypotheses that can be met, clause by clause -/

/-- The hypotheses of the clauses of `HostAccessesTakeEffect` can be met. -/
theorem witness_HostAccessesTakeEffect :
    (∃ (st en n : Nat), (st, en, n) ∈ intRegs) ∧
    (∃ (st en n : Nat), (st, en, n) ∈ intRegs) ∧
    (∃ (o : Nat), o ∈ clearedByRead) ∧
    (∃ (o : Nat), o % 4 = 0 ∧ isPairLo o = true ∧ inSpan o = true ∧ ¬ (0x681000 ≤ o ∧ o < 0x681440) ∧ ¬ (0xC01000 ≤ o ∧ o < 0xC02000) ∧
      latched o = false) ∧
    (∃ (s : State) (o : Nat) (w : Word), o % 4 = 0 ∧ isPairLo o = true ∧ inSpan (o + 4) = true ∧ ¬ (0x681000 ≤ o + 4 ∧ o + 4 < 0x681440) ∧
      ¬ (0xC01000 ≤ o + 4 ∧ o + 4 < 0xC02000) ∧ s.latch.lookup (o + 4) = some w) ∧
    (∃ (a : Nat), a % 4 = 0 ∧ ((0x0F600000 ≤ a ∧ a < 0x0F618000) ∨ (0x0FA00000 ≤ a ∧ a < 0x0FA40000))) ∧
    (∃ (a : Nat), a % 8 = 0 ∧ ((0x0F600000 ≤ a ∧ a < 0x0F618000) ∨ (0x0FA00000 ≤ a ∧ a < 0x0FA40000))) ∧
    (∃ (m : Nat), 1 ≤ m ∧ m < 65536) ∧
    (∃ (m w : Nat), 1 ≤ m ∧ m < 65536 ∧ w < 3) ∧
    (∃ (s : State) (h d : Nat), h < 65536 ∧ s.replicated h = true ∧ d % 2 = 1) ∧
    (∃ (s : State) (a : Nat), 0x04000000 ≤ a ∧ a + 4 ≤ 0x0C000000 ∧ a % 4 = 0 ∧ s.getF DRC_WIN_BASE_MIB * 1048576 + (a - 0x04000000) + 4 ≤ s.mapped ∧
      s.region (s.getF DRC_WIN_BASE_MIB * 1048576 + (a - 0x04000000)) = .staging) ∧
    (∃ (s : State) (q b r w : Nat), q < 4 ∧ b < 24 ∧ r < 512 ∧ w < 11 ∧ s.flag (ASM_Q_BLK_USED q b) = true ∧ s.flag (ASM_Q_BLK_ODD q b) = false ∧
      s.flag (ASM_TBL_CFG_GLOBAL (s.getF (ASM_Q_BLK_TABLE q b))) = false ∧ s.gens.op = 0 ∧ openObj (s.memLe (rowAddr q b r + 48) 2) s.nextTag = true) ∧
    (∃ (s : State) (q b r w : Nat), q ∈ s.liveQuads ∧ b < 24 ∧ r < 512 ∧ w < 11 ∧ s.flag (ASM_Q_BLK_USED q b) = true ∧
      s.flag (ASM_Q_BLK_ODD q b) = false ∧ s.flag (ASM_TBL_CFG_GLOBAL (s.getF (ASM_Q_BLK_TABLE q b))) = true ∧ s.gens.op = 0 ∧
      openObj (s.memLe (rowAddr q b r + 48) 2) s.nextTag = true) := by
  refine ⟨?_, ?_, ?_, ?_, ?_, ?_, ?_, ?_, ?_, ?_, ?_, ?_, ?_⟩
  · exact ⟨rTWN_INT_STATUS, rTWN_INT_EN, 8, by decide +kernel⟩
  · exact ⟨rCLS_INT_STATUS, rCLS_INT_EN, 6, by decide +kernel⟩
  · exact ⟨rCRN_DROPPED, by decide +kernel⟩
  · exact ⟨rCLS_WREF_ADDR_LO, by decide +kernel⟩
  · exact ⟨({ w0 with latch := [(rCLS_WREF_ADDR_LO + 4, 9)] } : State), rCLS_WREF_ADDR_LO, (9 : Word), by decide +kernel⟩
  · exact ⟨0x0FA00010, by decide +kernel⟩
  · exact ⟨0x0F617FF8, by decide +kernel⟩
  · exact ⟨3, by decide +kernel⟩
  · exact ⟨65535, 2, by decide +kernel⟩
  · exact ⟨wImg, 7, 1, by decide +kernel⟩
  · exact ⟨(w0.setF DRC_MAPPED_MIB 1024).setF DRC_WIN_BASE_MIB 3, 0x04000010, by decide +kernel⟩
  · exact ⟨({ (w0.setF (ASM_Q_BLK_USED 1 2) 1) with lost := [rowAddr 1 2 5] } : State), 1, 2, 5, 10, by decide +kernel⟩
  · exact ⟨({ (((wNet.setF (ASM_Q_BLK_USED 0 2) 1).setF (ASM_Q_BLK_TABLE 0 2) 5).setF (ASM_TBL_CFG_GLOBAL 5) 1) with lost := [rowAddr 1 2 5, rowAddr 2 2 5] } : State), 0, 2, 5, 10, by decide +kernel⟩

/-- The hypotheses of the clauses of `ArrivingFramesAreParsed` can be met. -/
theorem witness_ArrivingFramesAreParsed :
    (∃ (s : State) (fid port wr : Nat) (x : PortSt), s.frame fid = none ∧ s.port port = some x ∧ x.mode ≠ 0 ∧ s.notAdmitted port = none ∧ wr < 3) ∧
    (∃ (s : State) (fid port why wr : Nat) (x : PortSt), s.frame fid = none ∧ s.port port = some x ∧ x.mode ≠ 0 ∧ s.notAdmitted port = some why ∧
      wr < 3) ∧
    (∃ (s : State) (fid slot e : Nat) (f : Frame), s.frame fid = some f ∧ f.phase = .waiting ∧ f.known = true ∧ f.macControl = false ∧
      s.pickEngine (4 * s.quadOf f.port) (4 * s.quadOf f.port + 1) = some e ∧ slot ∈ s.freeSlots e) ∧
    (∃ (s : State) (fid : Nat) (f : Frame), s.frame fid = some f ∧ f.phase = .waiting ∧ f.ended = false ∧ f.beads = [] ∧ f.macControl = false ∧
      f.arriveAt + tCyc 64 ≤ s.now ∧ s.pickEngine (4 * s.quadOf f.port) (4 * s.quadOf f.port + 1) = none ∧ (∀ c ∈ s.copies, c.fid ≠ fid)) ∧
    (∃ (s : State) (fid : Nat) (f : Frame), s.frame fid = some f ∧ f.phase = .parsed ∧ s.earlierHeld f = false ∧
      (f.bytes.length + 255) / 256 ≤ f.beads.length) ∧
    (∃ (s : State) (fid b : Nat) (f : Frame), s.frame fid = some f ∧ f.phase = .parsed ∧ s.earlierHeld f = false ∧ s.quadOf f.port < 4 ∧
      f.beads = [] ∧ 0 < f.bytes.length ∧ f.bytes.length ≤ 256 ∧ s.freeHead = some b ∧
      (f.byHost && s.buf.waits.any (fun w => w.slot == 14)) = false ∧
      s.getF (BPM_POOL_OCC_BEADS (s.poolOf (s.ingressClass f))) + (s.buf.waits.filter (fun w => w.pool == s.poolOf (s.ingressClass f))).length <
      s.getF (BPM_POOL_BEADS_QUOTA (s.poolOf (s.ingressClass f))) ∧
      s.getF (BPM_POOL_OCC_BEADS (s.poolOf (s.ingressClass f))) < s.thr (s.poolOf (s.ingressClass f)) (s.getF (BPM_POOL_FULL_BEADS (s.poolOf
      (s.ingressClass f))))) ∧
    (∃ (s : State) (fid : Nat) (f : Frame), s.frame fid = some f ∧ (f.phase = .waiting ∨ f.phase = .parsing ∨ f.phase = .parsed) ∧ f.ended = false ∧
      f.filtered = false ∧ (f.port < 64 ∨ f.port = 65) ∧ s.hasSecY f.port = false ∧ f.sec = none) ∧
    (∃ (s : State) (fid : Nat) (f : Frame), s.frame fid = some f ∧ (f.phase = .waiting ∨ f.phase = .parsing ∨ f.phase = .parsed) ∧ f.ended = false ∧
      f.filtered = false ∧ 64 ≤ f.port ∧ f.port ≠ 65) ∧
    (∃ (s : State) (fid : Nat) (f : Frame) (x : SecRx), s.frame fid = some f ∧ (f.phase = .waiting ∨ f.phase = .parsing ∨ f.phase = .parsed) ∧
      f.ended = false ∧ f.filtered = false ∧ (f.port < 64 ∨ f.port = 65) ∧ f.sec = some x) ∧
    (∃ (s : State) (fid b : Nat) (data : List Byte) (f : Frame), s.frame fid = some f ∧ f.phase = .station ∧ f.ended = false ∧ f.filtered = false ∧
      f.beads ≠ [] ∧ f.beads.length * 256 < (s.addBytes f data (s.maxFrame f.port)).bytes.length ∧
      (s.addBytes f data (s.maxFrame f.port)).bytes.length ≤ f.beads.length * 256 + 256 ∧
      (f.byHost && s.buf.waits.any (fun w => w.slot == 14)) = false ∧
      s.getF (BPM_POOL_OCC_BEADS f.pool) + (s.buf.waits.filter (fun w => w.pool == f.pool)).length < s.getF (BPM_POOL_BEADS_QUOTA f.pool) ∧
      s.freeHead = some b) ∧
    (∃ (s : State) (fid : Nat) (e : FrameEndInfo) (f : Frame), s.frame fid = some f ∧ f.phase = .parsing ∧ f.ended = false ∧ f.why = none ∧
      f.meters = [] ∧ f.filtered = false ∧ (s.addBytes f e.data (s.maxFrame f.port)).macControl = false ∧ (∀ x ∈ e.codewords, x.1 < 24) ∧
      e.fcsBad = false ∧ e.tailMarked = false ∧ e.assyErr = false ∧ 64 ≤ e.wire ∧ e.wire ≤ s.maxFrame f.port ∧ s.hasSecY f.port = false) ∧
    (∃ (s : State) (fid : Nat) (e : FrameEndInfo) (f : Frame), s.frame fid = some f ∧ f.phase = .parsing ∧ f.ended = false ∧ f.why = none ∧
      f.meters = [] ∧ f.beads = [] ∧ f.filtered = false ∧ (s.addBytes f e.data (s.maxFrame f.port)).macControl = false ∧
      (∀ x ∈ e.codewords, x.1 < 24) ∧ e.fcsBad = true ∧ e.tailMarked = false ∧ (∀ c ∈ s.copies, c.fid ≠ fid)) := by
  refine ⟨?_, ?_, ?_, ?_, ?_, ?_, ?_, ?_, ?_, ?_, ?_, ?_⟩
  · exact ⟨wFr [wF 1 0] [], 2, 1, 2, wPort 1 0, by decide +kernel⟩
  · exact ⟨(wFr [wF 1 0] []).setF (MAC_CTL_EN 1) 0, 2, 1, tRX_PORT_DOWN, 0, wPort 1 0, by decide +kernel⟩
  · exact ⟨wEng (wFr [wF 1 0] []), 1, 63, 0, wF 1 0, by decide +kernel⟩
  · exact ⟨(wFr [wF 1 0] []).setF FLT_ISO_ENG_ENGINES 3, 1, wF 1 0, by decide +kernel⟩
  · exact ⟨wFr [{ wF 1 0 with phase := .parsed, beads := [7] }] [], 1, { wF 1 0 with phase := .parsed, beads := [7] }, by decide +kernel⟩
  · exact ⟨wPool (wFr [{ wF 1 0 with phase := .parsed }] []), 1, 0, { wF 1 0 with phase := .parsed }, by decide +kernel⟩
  · exact ⟨wFr [wF 1 0] [], 1, wF 1 0, by decide +kernel⟩
  · exact ⟨wFr [wF 1 64] [], 1, wF 1 64, by decide +kernel⟩
  · exact ⟨wFr [{ wF 1 0 with sec := some ⟨1, 0, 5, 8, true, 0, [1], 7⟩ }] [], 1, { wF 1 0 with sec := some ⟨1, 0, 5, 8, true, 0, [1], 7⟩ }, ⟨1, 0, 5, 8, true, 0, [1], 7⟩, by decide +kernel⟩
  · exact ⟨wPool (wFr [{ wF 1 0 with phase := .station, beads := [9] }] []), 1, 0, List.replicate 157 1, { wF 1 0 with phase := .station, beads := [9] }, by decide +kernel⟩
  · exact ⟨wFr [{ wF 1 0 with phase := .parsing }] [], 1, ⟨[5], 105, false, false, false, [(3, 1, 0)]⟩, { wF 1 0 with phase := .parsing }, by decide +kernel⟩
  · exact ⟨wFr [{ wF 1 0 with phase := .parsing }] [], 1, ⟨[5], 105, true, false, false, []⟩, { wF 1 0 with phase := .parsing }, by decide +kernel⟩

/-- The hypotheses of the clauses of `FramesPassTheirStations` can be met. -/
theorem witness_FramesPassTheirStations :
    (∃ (s : State) (fid : Nat) (f : Frame), s.frame fid = some f ∧ f.phase = .station ∧ f.looking = false ∧ f.pos < 10 ∧
      s.fetchFull (s.quadOf f.port) f.pos = false) ∧
    (∃ (s : State) (fid port : Nat) (c : Copy), s.copy fid port = some c ∧ c.phase = .station ∧ c.looking = false ∧ c.pos < 14 ∧
      s.fetchFull (s.quadOf port) c.pos = false) ∧
    (∃ (s : State) (fid w : Nat) (f : Frame), s.frame fid = some f ∧ f.phase = .station ∧ f.looking = true ∧ s.earlierBehind f = false ∧ f.pos < 9 ∧
      (s.getF (CLS_Q_POS_KIND (s.quadOf f.port) f.pos) = 1 ∨ s.getF (CLS_Q_POS_KIND (s.quadOf f.port) f.pos) = 2) ∧
      s.tblKind (s.getF (CLS_Q_POS_TABLE (s.quadOf f.port) f.pos)) = 3 ∧
      s.flowChip (s.getF (CLS_Q_POS_TABLE (s.quadOf f.port) f.pos)) (s.quadOf f.port) (f.gen % 8) (padTo 22 (s.keyWin f.keys (s.getF
      (CLS_Q_POS_KEYSEL (s.quadOf f.port) f.pos)))) = some w) ∧
    (∃ (s : State) (fid : Nat) (f : Frame), s.frame fid = some f ∧ f.phase = .station ∧ f.looking = true ∧ s.earlierBehind f = false ∧ f.pos < 9 ∧
      (s.getF (CLS_Q_POS_KIND (s.quadOf f.port) f.pos) = 1 ∨ s.getF (CLS_Q_POS_KIND (s.quadOf f.port) f.pos) = 2) ∧
      s.tblKind (s.getF (CLS_Q_POS_TABLE (s.quadOf f.port) f.pos)) = 3 ∧
      s.flowChip (s.getF (CLS_Q_POS_TABLE (s.quadOf f.port) f.pos)) (s.quadOf f.port) (f.gen % 8) (padTo 22 (s.keyWin f.keys (s.getF
      (CLS_Q_POS_KEYSEL (s.quadOf f.port) f.pos)))) = none ∧
      s.flowDram (s.getF (CLS_Q_POS_TABLE (s.quadOf f.port) f.pos)) (f.gen % 8) (padTo 22 (s.keyWin f.keys (s.getF (CLS_Q_POS_KEYSEL (s.quadOf
      f.port) f.pos)))) = none) ∧
    (∃ (s : State) (e sl slot k sel since w fid : Nat) (th : Thread) (f : Frame), s.thread e sl = some th ∧ e < 16 ∧ th.target = .frame fid ∧
      s.frame fid = some f ∧ th.results.getD slot .empty = .issued k sel since ∧ s.tblKind k = 3 ∧
      s.flowChip k (e / 4) (f.gen % 8) (padTo 22 (s.keyWin f.keys sel)) = some w) ∧
    (∃ (s : State) (fid : Nat) (f : Frame), s.frame fid = some f ∧ f.phase = .resolving ∧ f.ended = false ∧ f.stream = none ∧ f.res.fwdOp = 1 ∧
      f.res.dest < 68 ∧ f.res.dp < 2 ∧ f.res.copyHost = false ∧ f.res.mirror = false ∧ f.port ≠ 65) ∧
    (∃ (s : State) (fid : Nat) (f : Frame), s.frame fid = some f ∧ f.phase = .resolving ∧ f.ended = false ∧ f.stream = none ∧ f.why = none ∧
      f.res.fwdOp = 3 ∧ f.res.dp < 2 ∧ f.res.copyHost = false ∧ f.res.mirror = false ∧ f.beads.Nodup ∧ f.writer ≠ 0xFFE ∧
      (∀ b ∈ f.beads, (s.buf.held.lookup b).map (·.owner) = some f.writer)) ∧
    (∃ (s : State) (fid : Nat) (f : Frame) (r : CopyReq), s.frame fid = some f ∧ f.phase = .listed ∧ f.list = [r] ∧ s.admitCheck f r.port 0 = none ∧
      s.copy fid r.port = none) ∧
    (∃ (s : State) (slot b : Nat) (w : BeadWait) (f : Frame), s.buf.waits.find? (fun x => x.slot == slot) = some w ∧
      s.buf.waits.find? (fun x => x.pool == w.pool) = some w ∧ slot ≠ 12 ∧ slot ≠ 13 ∧
      s.getF (BPM_POOL_OCC_BEADS w.pool) < s.getF (BPM_POOL_BEADS_QUOTA w.pool) ∧ s.freeHead = some b ∧ s.frame w.fid = some f ∧
      (f.bytes.length + 255) / 256 ≤ f.beads.length + 1 ∧ (f.ended = false ∨ f.phase ≠ .enqueued) ∧ (∀ g ∈ s.frames, g.fid ≠ w.fid →
      g.byHost = true → s.frame g.fid = some g ∧ (g.bytes.length + 255) / 256 ≤ g.beads.length)) ∧
    (∃ (s : State) (b rq : Nat) (r : Bead), b < 262144 ∧ s.bankOk b = true ∧ s.buf.held.lookup b = some r ∧ r.owner = rq ∧ r.owner ≠ 0xFFE ∧
      s.buf.badFrees = []) ∧
    (∃ (s : State) (b rq : Nat) (r : Bead), b < 262144 ∧ s.bankOk b = true ∧ s.buf.held.lookup b = some r ∧ r.owner = 0xFFE ∧ rq ≤ 0x21F ∧
      1 < r.refs ∧ s.buf.badFrees = []) ∧
    (∃ (s : State) (b : Nat) (x : Quar), s.buf.quar.find? (fun y => y.bead == b) = some x ∧ x.readyAt ≤ s.now) ∧
    (∃ (s : State) (fid port : Nat) (f : Frame) (c : Copy), s.frame fid = some f ∧ s.copy fid port = some c ∧ s.cutOk f c = true ∧
      s.cutLenOk f c = true) ∧
    (∃ (s : State) (fid port : Nat) (f : Frame) (c : Copy), s.frame fid = some f ∧ s.copy fid port = some c ∧ s.cutOk f c = true ∧
      s.cutLenOk f c = false) := by
  refine ⟨?_, ?_, ?_, ?_, ?_, ?_, ?_, ?_, ?_, ?_, ?_, ?_, ?_, ?_⟩
  · exact ⟨wFr [{ wF 1 0 with phase := .station, pos := 9 }] [], 1, { wF 1 0 with phase := .station, pos := 9 }, by decide +kernel⟩
  · exact ⟨wFr [wF 1 0] [{ wC 1 1 with phase := .station, pos := 13 }], 1, 1, { wC 1 1 with phase := .station, pos := 13 }, by decide +kernel⟩
  · exact ⟨wFlow [{ wF 1 0 with phase := .station, looking := true, gen := 1 }], 1, 0x0001000A00000521, { wF 1 0 with phase := .station, looking := true, gen := 1 }, by decide +kernel⟩
  · exact ⟨wFlow [{ wF 1 0 with phase := .station, looking := true, gen := 1, keys := List.replicate 128 9 }], 1, { wF 1 0 with phase := .station, looking := true, gen := 1, keys := List.replicate 128 9 }, by decide +kernel⟩
  · exact ⟨{ wFlow [{ wF 1 0 with gen := 1 }] with threads := [{ newThread 1 5 (.frame 1) 0 0 true with results := [.empty, .issued 2 0 77, .empty, .empty] }] }, 1, 5, 1, 2, 0, 77, 0x0001000A00000521, 1, { newThread 1 5 (.frame 1) 0 0 true with results := [.empty, .issued 2 0 77, .empty, .empty] }, { wF 1 0 with gen := 1 }, by decide +kernel⟩
  · exact ⟨wFr [{ wF 1 0 with phase := .resolving, res := { freshRes with fwdOp := 1, dest := 5 } }] [], 1, { wF 1 0 with phase := .resolving, res := { freshRes with fwdOp := 1, dest := 5 } }, by decide +kernel⟩
  · exact ⟨{ wFr [{ wF 1 0 with phase := .resolving, beads := [4], res := { freshRes with fwdOp := 3 } }] [] with buf := { BufSt.empty with fresh := 5, held := [(4, ⟨none, 0x300, 0, 2⟩)] } }, 1, { wF 1 0 with phase := .resolving, beads := [4], res := { freshRes with fwdOp := 3 } }, by decide +kernel⟩
  · exact ⟨(wFr [{ wF 1 0 with phase := .listed, list := [⟨5, 0, 0, false, none⟩] }] []).setF (SCH_PORT_QRES_MAX_RES_US 5 0) 1000000, 1, { wF 1 0 with phase := .listed, list := [⟨5, 0, 0, false, none⟩] }, ⟨5, 0, 0, false, none⟩, by decide +kernel⟩
  · exact ⟨wPool { wFr [wF 1 64] [] with buf := { BufSt.empty with waits := [⟨14, 0, 0x30C, 1, 0, 0⟩] } }, 14, 0, ⟨14, 0, 0x30C, 1, 0, 0⟩, wF 1 64, by decide +kernel⟩
  · exact ⟨{ wNet with buf := { BufSt.empty with fresh := 4, held := [(2, ⟨none, 0x28, 1, 3⟩)] } }, 2, 0x28, ⟨none, 0x28, 1, 3⟩, by decide +kernel⟩
  · exact ⟨{ wNet with buf := { BufSt.empty with fresh := 4, held := [(2, ⟨none, 0xFFE, 2, 3⟩)] } }, 2, 0x28, ⟨none, 0xFFE, 2, 3⟩, by decide +kernel⟩
  · exact ⟨{ wNet with buf := { BufSt.empty with fresh := 4, quar := [⟨2, 0, 1280⟩] } }, 2, ⟨2, 0, 1280⟩, by decide +kernel⟩
  · exact ⟨(wFr [{ wF 1 0 with phase := .enqueued }] [wC 1 1]).setF (SWC_PORT_CT_CT_EN 1) 1, 1, 1, { wF 1 0 with phase := .enqueued }, wC 1 1, by decide +kernel⟩
  · exact ⟨{ ((wFr [{ wF 1 0 with phase := .enqueued }] [{ wC 1 1 with profile := 3 }]).setF (SWC_PORT_CT_CT_EN 1) 1) with gens := { genFirst with outs := [{ gen := 1, rwg := [(0x800030, 0x1000#32)], journal := [], superAt := none, drained := false, settled := false }] } }, 1, 1, { wF 1 0 with phase := .enqueued }, { wC 1 1 with profile := 3 }, by decide +kernel⟩

/-- The hypotheses of the clauses of `CopiesLeaveTheDevice` can be met. -/
theorem witness_CopiesLeaveTheDevice :
    (∃ (s u : State) (port tc : Nat) (f : Frame) (c : Copy), s.macReady port = true ∧ u = ((s.headsOf port (List.range 8)).cbsAll port).raiseFrees ∧
      u.macBusy port (fun x => !u.onPmac port x) = false ∧ tc < 8 ∧ 8 ≤ tc + u.getF (SCH_PORT_CFG_STRICT port) ∧ u.onPmac port tc = false ∧
      u.eligible port tc = true ∧ (∀ x, x < 8 → tc < x → u.onPmac port x = true ∨ u.eligible port x = false) ∧ (∀ d ∈ u.copies, d.port = port →
      d.phase = .sending → u.onPmac port d.tc = false) ∧ port ≠ 64 ∧ u.head port tc = some c ∧ u.copy c.fid port = some c ∧ u.frame c.fid = some f ∧
      u.dequeueCheck f c = none ∧ u.readOk c = true) ∧
    (∃ (s : State) (fid port : Nat) (f : Frame) (c : Copy), s.frame fid = some f ∧ s.copy fid port = some c ∧ c.phase = .dequeued) ∧
    (∃ (s : State) (fid port : Nat) (f : Frame) (c : Copy), s.frame fid = some f ∧ s.copy fid port = some c ∧ c.phase = .station ∧ c.pos = 14 ∧
      c.looking = false ∧ c.res.copyHost = false ∧ c.res.mirror = false ∧ c.res.dp < 2 ∧ c.egDrop = false) ∧
    (∃ (s : State) (fid port : Nat) (f : Frame) (c : Copy), s.frame fid = some f ∧ s.copy fid port = some c ∧ c.phase = .station ∧ c.pos = 14 ∧
      c.looking = false ∧ c.res.copyHost = false ∧ c.res.mirror = false ∧ c.res.dp < 2 ∧ c.egDrop = true) ∧
    (∃ (s : State) (fid port slot e : Nat) (f : Frame) (c : Copy), s.frame fid = some f ∧ s.copy fid port = some c ∧ c.phase = .resolved ∧
      c.profile = 0 ∧ f.ended = true ∧ s.hasSecY port = false ∧ s.quadOf port < 4 ∧ (∀ d ∈ s.copies, d.port = port → d.fid ≠ fid →
      d.phase = .queued ∨ d.phase = .rewriting ∨ d.phase = .sending) ∧ (∀ th ∈ s.threads, th.target ≠ .copy fid port) ∧
      s.pickEngine (4 * s.quadOf port + 2) (4 * s.quadOf port + 3) = some e ∧ slot ∈ s.freeSlots e) ∧
    (∃ (s : State) (fid port slot e : Nat) (f : Frame) (c : Copy), s.frame fid = some f ∧ s.copy fid port = some c ∧ c.phase = .resolved ∧
      s.profW c 0 = 0 ∧ s.profW c 3 % 65536 ≠ 0 ∧ c.profile < 1024 ∧ f.ended = true ∧ s.quadOf port < 4 ∧ (∀ d ∈ s.copies, d.port = port →
      d.fid ≠ fid → d.phase = .queued ∨ d.phase = .rewriting ∨ d.phase = .sending) ∧ (∀ th ∈ s.threads, th.target ≠ .copy fid port) ∧
      s.pickEngine (4 * s.quadOf port + 2) (4 * s.quadOf port + 3) = some e ∧ slot ∈ s.freeSlots e) ∧
    (∃ (s : State) (fid port slot e : Nat) (f : Frame) (c : Copy), s.frame fid = some f ∧ s.copy fid port = some c ∧ c.phase = .resolved ∧
      c.profile = 0 ∧ f.ended = true ∧ f.l4full = false ∧ port < 64 ∧ s.quadOf port < 4 ∧ (∀ d ∈ s.copies, d.port = port → d.fid ≠ fid →
      d.phase = .queued ∨ d.phase = .rewriting ∨ d.phase = .sending) ∧ (∀ th ∈ s.threads, th.target ≠ .copy fid port) ∧
      s.pickEngine (4 * s.quadOf port + 2) (4 * s.quadOf port + 3) = some e ∧ slot ∈ s.freeSlots e ∧ s.hasSecY port = true ∧
      s.flag (MAC_SEC_CTL_PROTECT port) = true ∧ be16 f.bytes 12 ≠ 0x888E ∧
      (s.getF (MAC_SEC_TX_EN_EN port)).testBit (s.getF (MAC_SEC_CTL_TX_AN port)) = true ∧
      (s.getF (MAC_SEC_TX_EN_EXHAUSTED port)).testBit (s.getF (MAC_SEC_CTL_TX_AN port)) = false) ∧
    (∃ (s : State) (fid port slot e : Nat) (f : Frame) (c : Copy), s.frame fid = some f ∧ s.copy fid port = some c ∧ c.phase = .resolved ∧
      c.profile = 0 ∧ f.ended = true ∧ f.l4full = false ∧ port < 64 ∧ s.quadOf port < 4 ∧ (∀ d ∈ s.copies, d.port = port → d.fid ≠ fid →
      d.phase = .queued ∨ d.phase = .rewriting ∨ d.phase = .sending) ∧ (∀ th ∈ s.threads, th.target ≠ .copy fid port) ∧
      s.pickEngine (4 * s.quadOf port + 2) (4 * s.quadOf port + 3) = some e ∧ slot ∈ s.freeSlots e ∧ s.hasSecY port = true ∧
      s.flag (MAC_SEC_CTL_PROTECT port) = true ∧ be16 f.bytes 12 ≠ 0x888E ∧
      (s.getF (MAC_SEC_TX_EN_EN port)).testBit (s.getF (MAC_SEC_CTL_TX_AN port)) = false) ∧
    (∃ (s : State) (fid port : Nat) (f : Frame) (c : Copy), s.frame fid = some f ∧ s.copy fid port = some c ∧ c.phase = .sending ∧ f.ended = true ∧
      port < 64 ∧ (∀ d ∈ s.copies, d.port = port → d.phase = .sending → d.fragAt.isSome = true) ∧ s.readOk c = true ∧ c.cut = false ∧
      c.tailMark = false ∧ s.buf.badFrees = [] ∧ c.tc < 8 ∧ c.seg ≠ 1 ∧ (s.copyBeads c).Nodup) ∧
    (∃ (s : State) (fid gid port : Nat) (f : Frame) (c d : Copy), s.frame fid = some f ∧ s.copy fid port = some c ∧ c.phase = .sending ∧
      c.fragAt.isSome = true ∧ f.ended = true ∧ port < 64 ∧ s.copies = [c, d] ∧ d.fid = gid ∧ gid ≠ fid ∧ d.port = port ∧ d.phase = .sending ∧
      d.fragAt = none ∧ s.onPmac port d.tc = true ∧ s.readOk c = true ∧ c.cut = false ∧ c.tailMark = false ∧ s.buf.badFrees = [] ∧ c.tc < 8 ∧
      c.seg ≠ 1 ∧ (s.copyBeads c).Nodup ∧ (s.schSt port).hold = false) ∧
    (∃ (s : State) (fid newFid : Nat) (f : Frame) (c : Copy), s.frame fid = some f ∧ s.copy fid 67 = some c ∧ c.phase = .sending ∧ f.ended = true ∧
      s.frame newFid = none ∧ c.tailMark = false ∧ s.readOk c = true ∧ s.notAdmitted 66 = none ∧ s.quadOf 67 < 4 ∧ s.buf.badFrees = [] ∧ c.tc < 8 ∧
      c.seg ≠ 1 ∧ (s.copyBeads c).Nodup) ∧
    (∃ (s : State) (port tc : Nat) (c : Copy), s.spillable port tc = some c ∧ s.deeperFirst port tc = false ∧ s.copy c.fid port = some c ∧
      s.getF SWC_DQX_USED_SLOTS + c.beads ≤ s.getF SWC_DQX_CFG_SIZE_MIB * 4096) ∧
    (∃ (s : State) (port tc b : Nat) (c : Copy), (s.segment port tc 1).head? = some c ∧ s.copy c.fid port = some c ∧
      ((s.segment port tc 0).map (·.beads)).sum < s.getF SWC_DQX_THR_REFILL ∧ c.beads = 1 ∧ c.own = [] ∧ (∀ w ∈ s.buf.waits, w.slot ≠ 12 ∧
      w.slot ≠ 13) ∧ s.getF (BPM_POOL_OCC_BEADS (s.poolOf c.tc)) + (s.buf.waits.filter (fun w => w.pool == s.poolOf c.tc)).length < s.getF
      (BPM_POOL_BEADS_QUOTA (s.poolOf c.tc)) ∧ s.freeHead = some b) := by
  refine ⟨?_, ?_, ?_, ?_, ?_, ?_, ?_, ?_, ?_, ?_, ?_, ?_, ?_⟩
  · exact ⟨wSch, ((wSch.headsOf 1 (List.range 8)).cbsAll 1).raiseFrees, 1, 7, { wF 1 0 with phase := .enqueued, ended := true, wire := 104, beads := [0] }, { wC 1 1 with beads := 1, tc := 7 }, by decide +kernel⟩
  · exact ⟨wFr [wF 1 0] [{ wC 1 1 with phase := .dequeued }], 1, 1, wF 1 0, { wC 1 1 with phase := .dequeued }, by decide +kernel⟩
  · exact ⟨wFr [wF 1 0] [{ wC 1 1 with phase := .station, pos := 14 }], 1, 1, wF 1 0, { wC 1 1 with phase := .station, pos := 14 }, by decide +kernel⟩
  · exact ⟨wFr [wF 1 0] [{ wC 1 1 with phase := .station, pos := 14, egDrop := true }], 1, 1, wF 1 0, { wC 1 1 with phase := .station, pos := 14, egDrop := true }, by decide +kernel⟩
  · exact ⟨wEng (wFr [{ wF 1 0 with ended := true }] [{ wC 1 1 with phase := .resolved }]), 1, 1, 0, 2, { wF 1 0 with ended := true }, { wC 1 1 with phase := .resolved }, by decide +kernel⟩
  · exact ⟨wEng { (wFr [{ wF 1 0 with ended := true }] [{ wC 1 1 with phase := .resolved, profile := 3, gen := 1 }]) with gens := { genFirst with outs := [{ gen := 1, rwg := [(0x80003C, 0x77#32)], journal := [], superAt := none, drained := false, settled := false }] } }, 1, 1, 0, 2, { wF 1 0 with ended := true }, { wC 1 1 with phase := .resolved, profile := 3, gen := 1 }, by decide +kernel⟩
  · exact ⟨wEng ((({ wFr [{ wF 1 0 with ended := true }] [{ wC 1 1 with phase := .resolved }] with ports := [wPort 0 0, { wPort 1 0 with macsec := true }], sas := [⟨1, 0, 0, [], [], 0, 41⟩] } : State).setF (MAC_SEC_CTL_PROTECT 1) 1).setF (MAC_SEC_TX_EN_EN 1) 1), 1, 1, 0, 2, { wF 1 0 with ended := true }, { wC 1 1 with phase := .resolved }, by decide +kernel⟩
  · exact ⟨wEng (({ wFr [{ wF 1 0 with ended := true }] [{ wC 1 1 with phase := .resolved }] with ports := [wPort 0 0, { wPort 1 0 with macsec := true }] } : State).setF (MAC_SEC_CTL_PROTECT 1) 1), 1, 1, 0, 2, { wF 1 0 with ended := true }, { wC 1 1 with phase := .resolved }, by decide +kernel⟩
  · exact ⟨wFr [{ wF 1 0 with phase := .enqueued, ended := true }] [{ wC 1 1 with phase := .sending, started := true, fragAt := some 7 }], 1, 1, { wF 1 0 with phase := .enqueued, ended := true }, { wC 1 1 with phase := .sending, started := true, fragAt := some 7 }, by decide +kernel⟩
  · exact ⟨(wFr [{ wF 1 0 with phase := .enqueued, ended := true }] [{ wC 1 1 with phase := .sending, started := true, fragAt := some 5 }, { wC 2 1 with tc := 3, phase := .sending, started := true }]).setF (MAC_PREEMPT_PMAC_MASK 1) 8 |>.setF (MAC_CTL_PREEMPT_EN 1) 1 |>.setF (MAC_CTL_VERIFY_DIS 1) 1, 1, 2, 1, { wF 1 0 with phase := .enqueued, ended := true }, { wC 1 1 with phase := .sending, started := true, fragAt := some 5 }, { wC 2 1 with tc := 3, phase := .sending, started := true }, by decide +kernel⟩
  · exact ⟨wFr [{ wF 1 0 with phase := .enqueued, ended := true }] [{ wC 1 67 with phase := .sending, started := true }], 1, 2, { wF 1 0 with phase := .enqueued, ended := true }, { wC 1 67 with phase := .sending, started := true }, by decide +kernel⟩
  · exact ⟨wDqx [{ wC 1 1 with beads := 2 }, { wC 2 1 with beads := 1 }], 1, 0, { wC 2 1 with beads := 1 }, by decide +kernel⟩
  · exact ⟨wDqx [{ wC 2 1 with beads := 1, seg := 1 }], 1, 0, 0, { wC 2 1 with beads := 1, seg := 1 }, by decide +kernel⟩

/-- The hypotheses of the clauses of `ArithmeticWords` can be met. -/
theorem witness_ArithmeticWords :
    (∃ (s : State) (e sl a : Nat) (th : Thread), s.fetches e sl (.nop e sl) kPEH th a) ∧
    (∃ (s : State) (e sl d ga gb a : Nat) (th : Thread), s.fetches e sl (.add e sl d ga gb) kPEH th a) ∧
    (∃ (s : State) (e sl d ga imm a : Nat) (th : Thread), s.fetches e sl (.addi e sl d ga imm) kPEH th a) ∧
    (∃ (s : State) (e sl d ga gb a : Nat) (th : Thread), s.fetches e sl (.sub e sl d ga gb) kPEH th a) ∧
    (∃ (s : State) (e sl d ga gb a : Nat) (th : Thread), s.fetches e sl (.andW e sl d ga gb) kPEH th a) ∧
    (∃ (s : State) (e sl d ga gb a : Nat) (th : Thread), s.fetches e sl (.orW e sl d ga gb) kPEH th a) ∧
    (∃ (s : State) (e sl d ga gb a : Nat) (th : Thread), s.fetches e sl (.xor e sl d ga gb) kPEH th a) ∧
    (∃ (s : State) (e sl d ga k a : Nat) (th : Thread), s.fetches e sl (.shf e sl d ga k) kPEH th a) ∧
    (∃ (s : State) (e sl d ga imm a : Nat) (th : Thread), s.fetches e sl (.andi e sl d ga imm) kPEH th a) ∧
    (∃ (s : State) (e sl ga gb a : Nat) (th : Thread), s.fetches e sl (.cmp e sl ga gb) kPEH th a) ∧
    (∃ (s : State) (e sl ga imm a : Nat) (th : Thread), s.fetches e sl (.cmpi e sl ga imm) kPEH th a) ∧
    (∃ (s : State) (e sl d imm a : Nat) (th : Thread), s.fetches e sl (.movi e sl d imm) kPEH th a) ∧
    (∃ (s : State) (e sl d imm a : Nat) (th : Thread), s.fetches e sl (.orh e sl d imm) kPEH th a) := by
  refine ⟨?_, ?_, ?_, ?_, ?_, ?_, ?_, ?_, ?_, ?_, ?_, ?_, ?_⟩
  · exact ⟨wWord (wTh 1 (.frame 1)), 1, 5, 0x100, wTh 1 (.frame 1), by decide +kernel⟩
  · exact ⟨wWord (wTh 1 (.frame 1)), 1, 5, 4, 2, 2, 0x100, wTh 1 (.frame 1), by decide +kernel⟩
  · exact ⟨wWord (wTh 1 (.frame 1)), 1, 5, 4, 3, 1, 0x100, wTh 1 (.frame 1), by decide +kernel⟩
  · exact ⟨wWord (wTh 1 (.frame 1)), 1, 5, 4, 0, 3, 0x100, wTh 1 (.frame 1), by decide +kernel⟩
  · exact ⟨wWord (wTh 1 (.frame 1)), 1, 5, 4, 2, 3, 0x100, wTh 1 (.frame 1), by decide +kernel⟩
  · exact ⟨wWord (wTh 1 (.frame 1)), 1, 5, 4, 2, 1, 0x100, wTh 1 (.frame 1), by decide +kernel⟩
  · exact ⟨wWord (wTh 1 (.frame 1)), 1, 5, 4, 3, 3, 0x100, wTh 1 (.frame 1), by decide +kernel⟩
  · exact ⟨wWord (wTh 1 (.frame 1)), 1, 5, 4, 3, 0x24, 0x100, wTh 1 (.frame 1), by decide +kernel⟩
  · exact ⟨wWord (wTh 1 (.frame 1)), 1, 5, 4, 3, 0x3FF, 0x100, wTh 1 (.frame 1), by decide +kernel⟩
  · exact ⟨wWord (wTh 1 (.frame 1)), 1, 5, 4, 4, 0x100, wTh 1 (.frame 1), by decide +kernel⟩
  · exact ⟨wWord (wTh 1 (.frame 1)), 1, 5, 0, 2, 0x100, wTh 1 (.frame 1), by decide +kernel⟩
  · exact ⟨wWord (wTh 1 (.frame 1)), 1, 5, 4, 0x3FFF, 0x100, wTh 1 (.frame 1), by decide +kernel⟩
  · exact ⟨wWord (wTh 1 (.frame 1)), 1, 5, 4, 0x88, 0x100, wTh 1 (.frame 1), by decide +kernel⟩

/-- The hypotheses of the clauses of `HeaderAndKeyWords` can be met. -/
theorem witness_HeaderAndKeyWords :
    (∃ (s : State) (e sl d off fid a : Nat) (th : Thread) (f : Frame), s.fetches e sl (.exr e sl d off 1) kPE th a ∧ th.target = .frame fid ∧
      s.frame fid = some f ∧ th.hp + off + 1 ≤ f.bytes.length ∧ th.hp + off + 1 ≤ s.reach) ∧
    (∃ (s : State) (e sl d off fid a : Nat) (th : Thread) (f : Frame), s.fetches e sl (.exr e sl d off 2) kPE th a ∧ th.target = .frame fid ∧
      s.frame fid = some f ∧ th.hp + off + 2 ≤ f.bytes.length ∧ th.hp + off + 2 ≤ s.reach) ∧
    (∃ (s : State) (e sl d off fid a : Nat) (th : Thread) (f : Frame), s.fetches e sl (.exr e sl d off 1) kPE th a ∧ th.target = .frame fid ∧
      s.frame fid = some f ∧ f.bytes.length ≤ th.hp + off ∧ f.ended = false ∧ th.hp + off < s.reach) ∧
    (∃ (s : State) (e sl off len kpos fid a : Nat) (th : Thread) (f : Frame), s.fetches e sl (.exk e sl off len kpos) kPE th a ∧
      th.target = .frame fid ∧ s.frame fid = some f ∧ th.hp + off + len ≤ f.bytes.length ∧ th.hp + off + len ≤ s.reach ∧ kpos ≠ 0 ∧
      2 * kpos + len ≤ 128) ∧
    (∃ (s : State) (e sl ga kpos fid a : Nat) (th : Thread) (f : Frame), s.fetches e sl (.keyr e sl ga kpos) kPE th a ∧ th.target = .frame fid ∧
      s.frame fid = some f ∧ kpos ≠ 0 ∧ kpos < 64) ∧
    (∃ (s : State) (e sl ga fid a : Nat) (th : Thread) (f : Frame), s.fetches e sl (.keyr e sl ga 0) kPE th a ∧ th.target = .frame fid ∧
      s.frame fid = some f ∧ th.kc < 64) ∧
    (∃ (s : State) (e sl imm kpos fid a : Nat) (th : Thread) (f : Frame), s.fetches e sl (.keyi e sl imm kpos) kPE th a ∧ th.target = .frame fid ∧
      s.frame fid = some f ∧ kpos ≠ 0 ∧ kpos < 64) ∧
    (∃ (s : State) (e sl ga imm a : Nat) (th : Thread), s.fetches e sl (.advh e sl ga imm) kP th a ∧ th.hp + th.reg ga + imm ≤ 255) ∧
    (∃ (s : State) (e sl ga imm a : Nat) (th : Thread), s.fetches e sl (.advh e sl ga imm) kP th a ∧ 255 < th.hp + th.reg ga + imm) ∧
    (∃ (s : State) (e sl k fid a : Nat) (th : Thread) (f : Frame), s.fetches e sl (.setl e sl k) kP th a ∧ th.target = .frame fid ∧
      s.frame fid = some f ∧ th.hp < s.reach ∧ s.layerLimit f k = false) ∧
    (∃ (s : State) (e sl i fid a : Nat) (th : Thread) (f : Frame), s.fetches e sl (.setf e sl i true) kPE th a ∧ th.target = .frame fid ∧
      s.frame fid = some f) ∧
    (∃ (s : State) (e sl i fid a : Nat) (th : Thread) (f : Frame), s.fetches e sl (.setf e sl i false) kPE th a ∧ th.target = .frame fid ∧
      s.frame fid = some f) ∧
    (∃ (s : State) (e sl fid a : Nat) (th : Thread) (f : Frame), s.fetches e sl (.stamp e sl) kP th a ∧ th.target = .frame fid ∧
      s.frame fid = some f ∧ th.looked = false) ∧
    (∃ (s : State) (e sl fid a : Nat) (th : Thread) (f : Frame), s.fetches e sl (.stamp e sl) kP th a ∧ th.target = .frame fid ∧
      s.frame fid = some f ∧ th.looked = true) ∧
    (∃ (s : State) (e sl k sel slot a : Nat) (th : Thread), s.fetches e sl (.lkp e sl k sel slot) kPEH th a) ∧
    (∃ (s : State) (e sl d w slot v a : Nat) (th : Thread) (ws : List Nat), s.fetches e sl (.ldt e sl d w slot) kPEH th a ∧
      th.results.getD (slot % 4) .empty = .returned ws ∧ ws[w]? = some v) ∧
    (∃ (s : State) (e sl d w slot k sel since a : Nat) (th : Thread), s.fetches e sl (.ldt e sl d w slot) kPEH th a ∧
      th.results.getD (slot % 4) .empty = .issued k sel since) ∧
    (∃ (s : State) (e sl k a : Nat) (th : Thread), s.fetches e sl (.ldm e sl k) kH th a) ∧
    (∃ (s : State) (e sl k a : Nat) (th : Thread), s.fetches e sl (.stm e sl k) kH th a ∧
      s.memLe (Config.tileWordAddr k (th.reg 0) (th.reg 1)) 4 = th.reg 4 + 65536 * th.reg 5) ∧
    (∃ (s : State) (e sl k a : Nat) (th : Thread), s.fetches e sl (.stm e sl k) kH th a ∧
      s.memLe (Config.tileWordAddr k (th.reg 0) (th.reg 1)) 4 ≠ th.reg 4 + 65536 * th.reg 5) := by
  refine ⟨?_, ?_, ?_, ?_, ?_, ?_, ?_, ?_, ?_, ?_, ?_, ?_, ?_, ?_, ?_, ?_, ?_, ?_, ?_, ?_⟩
  · exact ⟨wWord (wTh 1 (.frame 1)), 1, 5, 1, 94, 1, 0x100, wTh 1 (.frame 1), wFp, by decide +kernel⟩
  · exact ⟨wWord (wTh 1 (.frame 1)), 1, 5, 1, 94, 1, 0x100, wTh 1 (.frame 1), wFp, by decide +kernel⟩
  · exact ⟨wWord (wTh 1 (.frame 1)), 1, 5, 1, 96, 1, 0x100, wTh 1 (.frame 1), wFp, by decide +kernel⟩
  · exact ⟨wWord (wTh 1 (.frame 1)), 1, 5, 0, 16, 56, 1, 0x100, wTh 1 (.frame 1), wFp, by decide +kernel⟩
  · exact ⟨wWord (wTh 1 (.frame 1)), 1, 5, 3, 63, 1, 0x100, wTh 1 (.frame 1), wFp, by decide +kernel⟩
  · exact ⟨wWord (wTh 1 (.frame 1)), 1, 5, 3, 1, 0x100, wTh 1 (.frame 1), wFp, by decide +kernel⟩
  · exact ⟨wWord (wTh 1 (.frame 1)), 1, 5, 0x5A, 8, 1, 0x100, wTh 1 (.frame 1), wFp, by decide +kernel⟩
  · exact ⟨wWord (wTh 1 (.frame 1)), 1, 5, 0, 250, 0x100, wTh 1 (.frame 1), by decide +kernel⟩
  · exact ⟨wWord (wTh 1 (.frame 1)), 1, 5, 0, 251, 0x100, wTh 1 (.frame 1), by decide +kernel⟩
  · exact ⟨wWord (wTh 1 (.frame 1)), 1, 5, 7, 1, 0x100, wTh 1 (.frame 1), wFp, by decide +kernel⟩
  · exact ⟨wWord (wTh 1 (.frame 1)), 1, 5, 48, 1, 0x100, wTh 1 (.frame 1), wFp, by decide +kernel⟩
  · exact ⟨{ wWord (wTh 1 (.frame 1)) with frames := [{ wFp with flags := 0xFF }] }, 1, 5, 3, 1, 0x100, wTh 1 (.frame 1), { wFp with flags := 0xFF }, by decide +kernel⟩
  · exact ⟨wWord (wTh 1 (.frame 1)), 1, 5, 1, 0x100, wTh 1 (.frame 1), wFp, by decide +kernel⟩
  · exact ⟨wWord { wTh 1 (.frame 1) with looked := true }, 1, 5, 1, 0x100, { wTh 1 (.frame 1) with looked := true }, wFp, by decide +kernel⟩
  · exact ⟨wWord (wTh 1 (.frame 1)), 1, 5, 3, 2, 1, 0x100, wTh 1 (.frame 1), by decide +kernel⟩
  · exact ⟨wWord { wTh 1 (.frame 1) with results := [.empty, .returned [11, 22, 33, 44], .empty, .empty] }, 1, 5, 2, 3, 1, 44, 0x100, { wTh 1 (.frame 1) with results := [.empty, .returned [11, 22, 33, 44], .empty, .empty] }, [11, 22, 33, 44], by decide +kernel⟩
  · exact ⟨wWord { wTh 1 (.frame 1) with results := [.empty, .issued 2 0 3, .empty, .empty] }, 1, 5, 2, 3, 1, 2, 0, 3, 0x100, { wTh 1 (.frame 1) with results := [.empty, .issued 2 0 3, .empty, .empty] }, by decide +kernel⟩
  · exact ⟨(wWord (wTh 16 (.task 0))).wrMem 0 [1, 0, 2, 0], 16, 5, 1, 0x100, wTh 16 (.task 0), by decide +kernel⟩
  · exact ⟨wWord { wTh 16 (.task 0) with g := [1, 2, 3, 4, 0, 0, 0, 0, 0, 0, 0, 0, 0, 0, 0, 0] }, 16, 5, 1, 0x100, { wTh 16 (.task 0) with g := [1, 2, 3, 4, 0, 0, 0, 0, 0, 0, 0, 0, 0, 0, 0, 0] }, by decide +kernel⟩
  · exact ⟨wWord (wTh 16 (.task 0)), 16, 5, 1, 0x100, wTh 16 (.task 0), by decide +kernel⟩

/-- The hypotheses of the clauses of `ControlWords` can be met. -/
theorem witness_ControlWords :
    (∃ (s : State) (e sl k tgt a : Nat) (th : Thread), s.fetches e sl (.br e sl k tgt) kPEH th a) ∧
    (∃ (s : State) (e sl tgt a : Nat) (th : Thread), s.fetches e sl (.call e sl tgt) kPEH th a ∧ th.stack.length < 4) ∧
    (∃ (s : State) (e sl tgt a : Nat) (th : Thread), s.fetches e sl (.call e sl tgt) kPEH th a ∧ 4 ≤ th.stack.length) ∧
    (∃ (s : State) (e sl r a : Nat) (th : Thread) (st : List Nat), s.fetches e sl (.ret e sl) kPEH th a ∧ th.stack = r :: st) ∧
    (∃ (s : State) (e sl a : Nat) (th : Thread), s.fetches e sl (.ret e sl) kPEH th a ∧ th.stack = []) ∧
    (∃ (s : State) (e sl x a : Nat) (th : Thread), s.fetches e sl (.jx e sl x) kPEH th a ∧ (x ≠ 0 ∨ s.threadFrame th = none)) ∧
    (∃ (s : State) (e sl fid a : Nat) (th : Thread) (f : Frame) (nd nx : Node) (ed : Edge), s.fetches e sl (.jx e sl 0) kPEH th a ∧
      th.target = .frame fid ∧ s.frame fid = some f ∧ e < 17 ∧ s.node th.node = some nd ∧
      nd.edges.find? (fun x => th.reg 3 &&& x.mask == x.value) = some ed ∧ th.hp + ed.adv < s.reach ∧ th.hp + ed.adv ≤ 255 ∧
      s.node ed.next = some nx ∧ nx.record = true ∧ s.layerLimit f nx.kind = false) ∧
    (∃ (s : State) (e sl ga imm a : Nat) (th : Thread), s.fetches e sl (.btab e sl ga imm) kPEH th a) ∧
    (∃ (s : State) (e sl n fid a : Nat) (th : Thread) (f : Frame), s.fetches e sl (.wait e sl 0 n false false) kPEH th a ∧ th.target = .frame fid ∧
      s.frame fid = some f ∧ e < 17 ∧ n < s.reach ∧ n < f.bytes.length) ∧
    (∃ (s : State) (e sl n a : Nat) (th : Thread) (ts tf : Bool), s.fetches e sl (.wait e sl 0 n ts tf) kPEH th a ∧ e < 17 ∧ s.reach ≤ n) ∧
    (∃ (s : State) (e sl n k sel since a : Nat) (th : Thread) (ts tf : Bool), s.fetches e sl (.wait e sl 1 n ts tf) kPEH th a ∧
      th.results.getD (n % 4) .empty = .issued k sel since) ∧
    (∃ (s : State) (e sl n a : Nat) (ts tf : Bool) (th : Thread), s.fetches e sl (.wait e sl 3 n ts tf) kPEH th a) ∧
    (∃ (s : State) (e sl fid : Nat) (th : Thread) (w : WaitSt) (eof : Bool), s.thread e sl = some th ∧ th.wait = some w ∧ w.implied = false ∧
      th.target = .frame fid ∧ s.waitMet th w = some eof) ∧
    (∃ (s : State) (e sl : Nat) (th : Thread) (w : WaitSt), s.thread e sl = some th ∧ th.wait = some w ∧ w.tf = true ∧ w.deadline ≤ s.now ∧
      s.waitMet th w = none) ∧
    (∃ (s : State) (e sl : Nat) (th : Thread) (w : WaitSt), s.thread e sl = some th ∧ th.wait = some w ∧ w.tf = false ∧ w.deadline ≤ s.now ∧
      s.waitMet th w = none) := by
  refine ⟨?_, ?_, ?_, ?_, ?_, ?_, ?_, ?_, ?_, ?_, ?_, ?_, ?_, ?_, ?_⟩
  · exact ⟨wWord (wTh 1 (.frame 1)), 1, 5, 0, 7, 0x100, wTh 1 (.frame 1), by decide +kernel⟩
  · exact ⟨wWord (wTh 1 (.frame 1)), 1, 5, 0x222, 0x100, wTh 1 (.frame 1), by decide +kernel⟩
  · exact ⟨wWord { wTh 1 (.frame 1) with stack := [1, 2, 3, 4] }, 1, 5, 3, 0x100, { wTh 1 (.frame 1) with stack := [1, 2, 3, 4] }, by decide +kernel⟩
  · exact ⟨wWord { wTh 1 (.frame 1) with stack := [0x8001, 9] }, 1, 5, 0x8001, 0x100, { wTh 1 (.frame 1) with stack := [0x8001, 9] }, [9], by decide +kernel⟩
  · exact ⟨wWord (wTh 1 (.frame 1)), 1, 5, 0x100, wTh 1 (.frame 1), by decide +kernel⟩
  · exact ⟨wWord (wTh 1 (.frame 1)), 1, 5, 0x8004, 0x100, wTh 1 (.frame 1), by decide +kernel⟩
  · exact ⟨wWord { wTh 1 (.frame 1) with g := [0, 0, 0, 0x800] }, 1, 5, 1, 0x100, { wTh 1 (.frame 1) with g := [0, 0, 0, 0x800] }, wFp, ⟨0, 1, 0x10, true, [⟨0x800, 0xFFFF, 1, 7⟩]⟩, ⟨1, 4, 0x20, true, []⟩, ⟨0x800, 0xFFFF, 1, 7⟩, by decide +kernel⟩
  · exact ⟨wWord (wTh 1 (.frame 1)), 1, 5, 3, 2, 0x100, wTh 1 (.frame 1), by decide +kernel⟩
  · exact ⟨wWord (wTh 1 (.frame 1)), 1, 5, 99, 1, 0x100, wTh 1 (.frame 1), wFp, by decide +kernel⟩
  · exact ⟨wWord (wTh 1 (.frame 1)), 1, 5, 384, 0x100, wTh 1 (.frame 1), true, false, by decide +kernel⟩
  · exact ⟨wWord { wTh 1 (.frame 1) with results := [.empty, .issued 2 0 3, .empty, .empty] }, 1, 5, 1, 2, 0, 3, 0x100, { wTh 1 (.frame 1) with results := [.empty, .issued 2 0 3, .empty, .empty] }, true, true, by decide +kernel⟩
  · exact ⟨wWord (wTh 1 (.frame 1)), 1, 5, 0, 0x100, false, true, wTh 1 (.frame 1), by decide +kernel⟩
  · exact ⟨wWord { wTh 1 (.frame 1) with wait := some ⟨1, 1, true, 500, 0, false, 0x100⟩, results := [.empty, .returned [1], .empty, .empty] }, 1, 5, 1, { wTh 1 (.frame 1) with wait := some ⟨1, 1, true, 500, 0, false, 0x100⟩, results := [.empty, .returned [1], .empty, .empty] }, ⟨1, 1, true, 500, 0, false, 0x100⟩, false, by decide +kernel⟩
  · exact ⟨wWord { wTh 1 (.frame 1) with wait := some ⟨1, 1, true, 500, 0, false, 0x100⟩, results := [.empty, .issued 2 0 3, .empty, .empty] }, 1, 5, { wTh 1 (.frame 1) with wait := some ⟨1, 1, true, 500, 0, false, 0x100⟩, results := [.empty, .issued 2 0 3, .empty, .empty] }, ⟨1, 1, true, 500, 0, false, 0x100⟩, by decide +kernel⟩
  · exact ⟨wWord { wTh 1 (.frame 1) with wait := some ⟨1, 1, false, 500, 0, false, 0x100⟩, results := [.empty, .issued 2 0 3, .empty, .empty] }, 1, 5, { wTh 1 (.frame 1) with wait := some ⟨1, 1, false, 500, 0, false, 0x100⟩, results := [.empty, .issued 2 0 3, .empty, .empty] }, ⟨1, 1, false, 500, 0, false, 0x100⟩, by decide +kernel⟩

/-- The hypotheses of the clauses of `EditAndEndWords` can be met. -/
theorem witness_EditAndEndWords :
    (∃ (s : State) (e sl off len kpos fid p a : Nat) (th : Thread) (c : Copy), s.fetches e sl (.push e sl off len kpos) kE th a ∧
      th.target = .copy fid p ∧ s.copy fid p = some c ∧ 2 * kpos + len ≤ c.keys.length ∧ c.window.length + len ≤ 384) ∧
    (∃ (s : State) (e sl off len fid p a : Nat) (th : Thread) (c : Copy), s.fetches e sl (.pop e sl off len 0) kE th a ∧ th.target = .copy fid p ∧
      s.copy fid p = some c ∧ c.window.length ≤ 384) ∧
    (∃ (s : State) (e sl off len kpos fid p a : Nat) (th : Thread) (c : Copy), s.fetches e sl (.repl e sl off len kpos) kE th a ∧
      th.target = .copy fid p ∧ s.copy fid p = some c ∧ 2 * kpos + len ≤ c.keys.length ∧ c.window.length ≤ 384 ∧ th.hp + off + len ≤ c.window.length) ∧
    (∃ (s : State) (e sl off kpos fid p a : Nat) (th : Thread) (c : Copy), s.fetches e sl (.csum e sl off 1 kpos) kE th a ∧ th.target = .copy fid p ∧
      s.copy fid p = some c ∧ c.window.length ≤ 384 ∧ th.hp + off + 2 ≤ c.window.length) ∧
    (∃ (s : State) (e sl fid a : Nat) (th : Thread) (f : Frame), s.fetches e sl (.done e sl) kPEH th a ∧ th.target = .frame fid ∧
      s.frame fid = some f ∧ f.ended = false) ∧
    (∃ (s : State) (e sl fid p a : Nat) (th : Thread) (c : Copy) (f : Frame), s.fetches e sl (.done e sl) kPEH th a ∧ th.target = .copy fid p ∧
      s.copy fid p = some c ∧ s.frame fid = some f ∧ s.hasSecY p = false) ∧
    (∃ (s : State) (e sl k a : Nat) (th : Thread), s.fetches e sl (.done e sl) kPEH th a ∧ th.target = .task k) ∧
    (∃ (s : State) (e sl r fid a : Nat) (th : Thread) (f : Frame), s.fetches e sl (.drop e sl r) kPE th a ∧ th.target = .frame fid ∧
      s.frame fid = some f ∧ f.ended = false ∧ f.beads = [] ∧ (∀ c ∈ s.copies, c.fid ≠ fid)) ∧
    (∃ (s : State) (e sl r fid p a : Nat) (th : Thread) (c : Copy), s.fetches e sl (.drop e sl r) kPE th a ∧ th.target = .copy fid p ∧
      s.copy fid p = some c ∧ c.started = false) ∧
    (∃ (s : State) (e sl r fid a : Nat) (th : Thread) (f : Frame), s.fetches e sl (.trap e sl r) kPE th a ∧ th.target = .frame fid ∧
      s.frame fid = some f ∧ f.ended = false ∧ (f.bytes.length + 255) / 256 ≤ f.beads.length) ∧
    (∃ (s : State) (e sl : Nat) (x : Sample), s.samples.find? (fun y => y.eng == e && y.slot == sl) = some x) ∧
    (∃ (s : State) (k slot : Nat), s.engineOk 16 = true ∧ slot ∈ s.freeSlots 16 ∧
      (s.threads.filter (fun th => th.eng == 16 && th.target == .task k)).length < taskReserve k) ∧
    (∃ (s : State) (c w : Nat), c < 5 ∧ w < 2048 ∧ s.quiet (118 + c) ∧ s.gatedSource (118 + c) (copyUnit c) = false) ∧
    (∃ (s : State) (c w n : Nat), c < 5 ∧ w < 2048 ∧ 2 ≤ n ∧ s.quiet (123 + c) ∧ s.gatedSource (123 + c) (copyUnit c) = false) ∧
    (∃ (s : State) (e sl a : Nat) (th : Thread), s.thread e sl = some th ∧ th.wait = none ∧ (s.fetchAddr th).1 = a ∧ 0x8000 ≤ a ∧ a < 0x8800 ∧
      s.patchBad.find? (fun x => x.1 == romCopy e && x.2.1 + 0x8000 == a) = none ∧
      decodeMicro e sl (s.getF (HSQ_PATCH_WORD_WORD (romCopy e) (a - 0x8000))) = none) ∧
    (∃ (s : State) (c w : Nat) (b : Bool), (c, w, b) ∈ s.patchBad) ∧
    (∃ (c : Nat), c < 5) := by
  refine ⟨?_, ?_, ?_, ?_, ?_, ?_, ?_, ?_, ?_, ?_, ?_, ?_, ?_, ?_, ?_, ?_, ?_⟩
  · exact ⟨wWord (wTh 2 (.copy 1 1)), 2, 5, 2, 4, 8, 1, 1, 0x100, wTh 2 (.copy 1 1), wCr, by decide +kernel⟩
  · exact ⟨wWord (wTh 2 (.copy 1 1)), 2, 5, 2, 4, 1, 1, 0x100, wTh 2 (.copy 1 1), wCr, by decide +kernel⟩
  · exact ⟨wWord (wTh 2 (.copy 1 1)), 2, 5, 2, 4, 8, 1, 1, 0x100, wTh 2 (.copy 1 1), wCr, by decide +kernel⟩
  · exact ⟨wWord (wTh 2 (.copy 1 1)), 2, 5, 2, 0, 1, 1, 0x100, wTh 2 (.copy 1 1), wCr, by decide +kernel⟩
  · exact ⟨wWord (wTh 1 (.frame 1)), 1, 5, 1, 0x100, wTh 1 (.frame 1), wFp, by decide +kernel⟩
  · exact ⟨wWord (wTh 2 (.copy 1 1)), 2, 5, 1, 1, 0x100, wTh 2 (.copy 1 1), wCr, wFp, by decide +kernel⟩
  · exact ⟨wWord (wTh 16 (.task 0)), 16, 5, 0, 0x100, wTh 16 (.task 0), by decide +kernel⟩
  · exact ⟨{ wWord (wTh 1 (.frame 1)) with copies := [] }, 1, 5, 3, 1, 0x100, wTh 1 (.frame 1), wFp, by decide +kernel⟩
  · exact ⟨wWord (wTh 2 (.copy 1 1)), 2, 5, 3, 1, 1, 0x100, wTh 2 (.copy 1 1), wCr, by decide +kernel⟩
  · exact ⟨{ wWord (wTh 1 (.frame 1)) with frames := [{ wFp with beads := [5] }] }, 1, 5, 3, 1, 0x100, wTh 1 (.frame 1), { wFp with beads := [5] }, by decide +kernel⟩
  · exact ⟨{ wNet with samples := [⟨3, 9, 0x123, 4, false, 0, 1⟩] }, 3, 9, ⟨3, 9, 0x123, 4, false, 0, 1⟩, by decide +kernel⟩
  · exact ⟨{ wEng wNet with tasks := [2, 1] }, 2, 63, by decide +kernel⟩
  · exact ⟨wNet, 4, 2047, by decide +kernel⟩
  · exact ⟨{ wNet with patchBad := [(4, 7, true)] }.setF (FLT_SRC_CFG_N 127) 9, 4, 2047, 2, by decide +kernel⟩
  · exact ⟨(wWord { wTh 1 (.frame 1) with pc := 0x8005 }).setF (HSQ_PATCH_WORD_WORD 0 5) 0xFFFFFF, 1, 5, 0x8005, { wTh 1 (.frame 1) with pc := 0x8005 }, by decide +kernel⟩
  · exact ⟨{ wNet with patchBad := [(4, 7, true), (1, 2, false)] }, 4, 7, true, by decide +kernel⟩
  · exact ⟨4, by decide +kernel⟩

/-- The hypotheses of the clauses of `CommitsAndGenerations` can be met. -/
theorem witness_CommitsAndGenerations :
    (∃ (s : State), s.gens.op = 0 ∧ s.gens.outs.length < 4 ∧ s.rootClash = false) ∧
    (∃ (s : State), s.gens.op ≠ 0) ∧
    (∃ (s : State), s.gens.op = 0 ∧ 4 ≤ s.gens.outs.length) ∧
    (∃ (s : State), s.gens.op = 0 ∧ s.gens.outs.length < 4 ∧ s.rootClash = true) ∧
    (∃ (s : State), s.gens.op = 1 ∧ s.gens.held = [] ∧ s.heldLo = []) ∧
    (∃ (s : State), s.gens.op = 0) ∧
    (∃ (s : State), s.gens.op ≠ 0) ∧
    (∃ (s : State) (a : Nat), s.gens.op = 2 ∧ s.gens.held = [] ∧ s.gens.journal = [.mem a] ∧ s.recCopies a = [a] ∧
      stagedBirth (s.memLe a 2) s.nextTag = true) ∧
    (∃ (s : State) (gen at_ : Nat) (g : GenSt), s.gen gen = some g ∧ g.superAt = some at_ ∧ g.drained = false ∧ s.drainCount gen = 0) ∧
    (∃ (s : State) (gen at_ q i : Nat) (g : GenSt), s.gen gen = some g ∧ g.superAt = some at_ ∧ g.drained = false ∧ at_ + tUs 20 ≤ s.now ∧
      s.holders gen = [(q, i)] ∧ q < 4 ∧ i < 16 ∧ s.quiet (183 + 16 * q + i) ∧ s.quiet 180 ∧
      s.gatedSource (183 + 16 * q + i) (.station q i) = false ∧ s.gatedSource 180 .trafficMgr = false) ∧
    (∃ (s : State) (gen a : Nat) (g n : GenSt), s.gens.outs.getLast? = some g ∧ g.gen = gen ∧ g.drained = true ∧ s.gen ((gen + 1) % 65536) = some n ∧
      n.gen ≠ gen ∧ n.journal = [.mem a] ∧ s.recCopies a = [a]) := by
  refine ⟨?_, ?_, ?_, ?_, ?_, ?_, ?_, ?_, ?_, ?_, ?_⟩
  · exact ⟨wNet, by decide +kernel⟩
  · exact ⟨{ wNet with gens := { genFirst with op := 2 } }, by decide +kernel⟩
  · exact ⟨{ wNet with gens := { genFirst with outs := [⟨4, [], [], none, false, false⟩, ⟨3, [], [], some 1, false, false⟩, ⟨2, [], [], some 1, false, false⟩, ⟨1, [], [], some 1, false, false⟩] } }, by decide +kernel⟩
  · exact ⟨((wNet.setF (FWD_TBL_GEOM_KIND 3) 5).setF (CLS_ROOT_LIFE_LIFE 3 0) 1).setF (CLS_ROOT_LIFE_LIFE 3 1) 1, by decide +kernel⟩
  · exact ⟨{ wNet with gens := { genFirst with op := 1, journal := [.mem 0x16] } }, by decide +kernel⟩
  · exact ⟨wNet, by decide +kernel⟩
  · exact ⟨{ wNet with gens := { genFirst with op := 1 } }, by decide +kernel⟩
  · exact ⟨{ wExact.wrMem 0x16 [0x0B, 0] with gens := { genFirst with op := 2, journal := [.mem 0x16] } }, 0x16, by decide +kernel⟩
  · exact ⟨{ wNet with gens := { genFirst with outs := [⟨2, [], [], none, false, false⟩, ⟨1, [], [], some 100, false, false⟩] } }, 1, 100, ⟨1, [], [], some 100, false, false⟩, by decide +kernel⟩
  · exact ⟨({ wFr [{ wF 1 0 with phase := .station, pos := 4, gen := 1 }] [] with gens := { genFirst with outs := [⟨2, [], [], none, false, false⟩, ⟨1, [], [], some 100, false, false⟩] } } : State).setF (FLT_SRC_CFG_N 188) 3 |>.setF (FLT_SRC_CFG_N 180) 3, 1, 100, 0, 5, ⟨1, [], [], some 100, false, false⟩, by decide +kernel⟩
  · exact ⟨{ wExact.wrMem 0x16 [0x0B, 0] with gens := { genFirst with outs := [⟨2, [], [.mem 0x16], none, false, false⟩, ⟨1, [], [], some 100, true, false⟩] } }, 1, 0x16, ⟨1, [], [], some 100, true, false⟩, ⟨2, [], [.mem 0x16], none, false, false⟩, by decide +kernel⟩

/-- The hypotheses of the clauses of `VersionedWritesAndTableCommands` can be met. -/
theorem witness_VersionedWritesAndTableCommands :
    (∃ (s : State) (q j a v d : Nat) (r : TileRec), q < 4 ∧ j < 96 ∧ a = 0xC00000 * q + 0x20000 * j + v ∧ v < 0x20000 ∧ v % 32 = 20 ∧
      s.tileOwner q j = some r ∧ r.kind = .exactFlow ∧ r.glob = false ∧ s.gens.op = 0 ∧ s.cmd = none ∧ s.memLe (a + 2) 2 = 0 ∧
      d = s.memLe a 2 + 65536 * (3 + 4 * s.nextTag) ∧ s.journalFull = false) ∧
    (∃ (s : State) (q j a v d n : Nat) (r : TileRec), q < 4 ∧ j < 96 ∧ a = 0xC00000 * q + 0x20000 * j + v ∧ v < 0x20000 ∧ v % 32 = 20 ∧
      s.tileOwner q j = some r ∧ r.kind = .exactFlow ∧ r.glob = false ∧ s.gens.op = 0 ∧ s.cmd = none ∧ s.memLe (a + 2) 2 = 0 ∧ n < 8 ∧
      n ≠ s.nextTag ∧ d = s.memLe a 2 + 65536 * (3 + 4 * n) ∧ s.quiet srcRefusedWrite) ∧
    (∃ (s : State) (k i b : Nat) (key : List Byte), k < 64 ∧ s.tblKind k = 1 ∧ s.getF FWD_INS_STATUS_RESULT ≠ 2 ∧ s.gens.op = 0 ∧
      s.journalFull = false ∧ b = s.getF (FWD_TBL_BANK_ACTIVE k) ∧ key = fdbKey s.insKey ∧ s.present k b key = some i) ∧
    (∃ (s : State) (k b : Nat) (key : List Byte), k < 64 ∧ s.tblKind k = 1 ∧ s.getF FWD_INS_STATUS_RESULT ≠ 2 ∧ s.gens.op = 0 ∧
      s.journalFull = false ∧ b = s.getF (FWD_TBL_BANK_ACTIVE k) ∧ key = fdbKey s.insKey ∧ s.present k b key = none) ∧
    (∃ (s : State) (k i b : Nat) (key : List Byte), k < 64 ∧ s.tblKind k = 1 ∧ s.getF FWD_INS_STATUS_RESULT ≠ 2 ∧ s.gens.op = 0 ∧
      s.journalFull = false ∧ b = s.getF (FWD_TBL_BANK_ACTIVE k) ∧ key = fdbKey s.insKey ∧ s.present k b key = none ∧ s.freeSlot k b key [] = some i) ∧
    (∃ (s : State) (k i b : Nat) (key : List Byte), k < 64 ∧ s.tblKind k = 1 ∧ s.getF FWD_INS_STATUS_RESULT ≠ 2 ∧ s.gens.op = 0 ∧
      s.journalFull = false ∧ b = s.getF (FWD_TBL_BANK_ACTIVE k) ∧ key = fdbKey s.insKey ∧ s.present k b key = some i ∧
      stagedBirth (s.slotLife k b i) s.nextTag = false) ∧
    (∃ (s : State) (c : CmdSt) (i b : Nat), s.cmd = some c ∧ c.held = [] ∧ c.result ≠ 3 ∧ c.result < 8 ∧ c.moves < 64 ∧ c.slot = some (i, b) ∧
      i < 2 ^ 18 ∧ b < 2) ∧
    (∃ (s : State) (k b : Nat), k < 64 ∧ s.tblKind k = 1 ∧ s.shadowFree k = true ∧ s.cmdBank k true = some b) ∧
    (∃ (s : State) (k b : Nat), k < 64 ∧ s.flag (FWD_TBL_BANK_CLEARING k) = true ∧ s.fwd.clearing.lookup k = some b) ∧
    (∃ (s : State) (i h : Nat) (x : FiltEnt), s.filt[i]? = some x ∧ x.expires ≤ s.now ∧ s.flag FWD_LRING_CFG_EN = true ∧
      s.flag (HDM_DMA_CTL_EN 13) = true ∧ s.flag (HDM_DMA_STATUS_SHUTDOWN 13) = false ∧ s.fwd.learnQ = [] ∧ s.getF FWD_LRING_HEAD_INDEX = h ∧
      (h + 1) % 65536 ≠ s.getF FWD_LRING_TAIL_INDEX) ∧
    (∃ (s : State) (i : Nat) (x : FiltEnt), s.filt[i]? = some x ∧ x.expires ≤ s.now ∧ s.flag FWD_LRING_CFG_EN = false) ∧
    (∃ (s : State) (k i b a home : Nat), k < 64 ∧ s.tblKind k = 1 ∧ 0 < s.getF (FWD_TBL_AGE_AGE_S k) ∧ s.gens.op ≠ 1 ∧ s.cmd = none ∧
      i < 16 * s.tblBuckets k ∧ s.sweepAt k i = true ∧ b = s.rwgF s.curGen (FWD_TBL_BANK_ACTIVE k) ∧ a = s.slotAddr k b i ∧
      liveFor (s.memLe (a + 8) 2) (s.curGen % 8) = true ∧ lifeB (s.memLe (a + 8) 2) = false ∧ lifeD (s.memLe (a + 8) 2) = false ∧
      (s.memLe (a + 10) 1).testBit 1 = false ∧ (s.memLe (a + 10) 1).testBit 2 = false ∧ home = s.fdbCopies.at (s.quadOf (s.memLe (a + 12) 2)) a ∧
      (s.memLe (home + 10) 1).testBit 0 = true) ∧
    (∃ (s : State) (k i b a home : Nat), k < 64 ∧ s.tblKind k = 1 ∧ 0 < s.getF (FWD_TBL_AGE_AGE_S k) ∧ s.gens.op ≠ 1 ∧ s.cmd = none ∧
      i < 16 * s.tblBuckets k ∧ s.sweepAt k i = true ∧ b = s.rwgF s.curGen (FWD_TBL_BANK_ACTIVE k) ∧ a = s.slotAddr k b i ∧
      liveFor (s.memLe (a + 8) 2) (s.curGen % 8) = true ∧ lifeB (s.memLe (a + 8) 2) = false ∧ lifeD (s.memLe (a + 8) 2) = false ∧
      (s.memLe (a + 10) 1).testBit 1 = false ∧ (s.memLe (a + 10) 1).testBit 2 = false ∧ home = s.fdbCopies.at (s.quadOf (s.memLe (a + 12) 2)) a ∧
      (s.memLe (home + 10) 1).testBit 0 = false ∧ s.journalFull = false) ∧
    (∃ (s : State) (q b r : Nat), q < 4 ∧ b < 24 ∧ r < 512 ∧ s.flag (ASM_Q_BLK_POWERED q b) = true ∧ s.quiet (155 + 4 * q) ∧
      s.gatedSource (155 + 4 * q) (.tile q) = false) ∧
    (∃ (q b r : Nat), q < 4 ∧ b < 24 ∧ r < 512) := by
  refine ⟨?_, ?_, ?_, ?_, ?_, ?_, ?_, ?_, ?_, ?_, ?_, ?_, ?_, ?_, ?_⟩
  · exact ⟨wExact, 0, 0, 0x14, 0x14, 0x000B0000, ⟨2, .exactFlow, false, [1, 0, 0, 0], [0, 0, 0, 0], 1, 0, 0, 0, 0⟩, by decide +kernel⟩
  · exact ⟨wExact.wrMem 0x16 [0, 0], 0, 0, 0x14, 0x14, 0x001F0000, 7, ⟨2, .exactFlow, false, [1, 0, 0, 0], [0, 0, 0, 0], 1, 0, 0, 0, 0⟩, by decide +kernel⟩
  · exact ⟨wFdb1, 3, 0, 0, List.replicate 8 0, by decide +kernel⟩
  · exact ⟨wFdb1.setF (FWD_INS_KEY_KEY 1) 5, 3, 0, [0, 0, 0, 0, 5, 0, 0, 0], by decide +kernel⟩
  · exact ⟨(wFdb1.setF (FWD_INS_KEY_KEY 1) 5).setF FWD_INS_DATA_LO_DATA 0x20004, 3, 1, 0, [0, 0, 0, 0, 5, 0, 0, 0], by decide +kernel⟩
  · exact ⟨wFdb1, 3, 0, 0, List.replicate 8 0, by decide +kernel⟩
  · exact ⟨{ wFdb1 with cmd := some ⟨3, [], 1, 2, some (9, 1), []⟩ }, ⟨3, [], 1, 2, some (9, 1), []⟩, 9, 1, by decide +kernel⟩
  · exact ⟨wFdb1, 3, 1, by decide +kernel⟩
  · exact ⟨{ (wFdb1.setF (FWD_TBL_BANK_CLEARING 3) 1).wrMem 0x108 [1, 0, 1] with fwd := { wFdb1.fwd with clearing := [(3, 1)] } }, 3, 1, by decide +kernel⟩
  · exact ⟨({ wNet with filt := [⟨List.replicate 8 1, none, 3, 77, none, 0, 0, 5⟩] } : State).setF FWD_LRING_CFG_EN 1 |>.setF FWD_LRING_HEAD_INDEX 65535 |>.setF FWD_LRING_TAIL_INDEX 9 |>.setF (HDM_DMA_CTL_EN 13) 1, 0, 65535, ⟨List.replicate 8 1, none, 3, 77, none, 0, 0, 5⟩, by decide +kernel⟩
  · exact ⟨{ wNet with filt := [⟨List.replicate 8 1, none, 3, 77, none, 0, 0, 5⟩] }, 0, ⟨List.replicate 8 1, none, 3, 77, none, 0, 0, 5⟩, by decide +kernel⟩
  · exact ⟨wFdb1.setF (FWD_TBL_AGE_AGE_S 3) 300, 3, 0, 0, 0, 0, by decide +kernel⟩
  · exact ⟨(wFdb1.setF (FWD_TBL_AGE_AGE_S 3) 300).wrMem 10 [0], 3, 0, 0, 0, 0, by decide +kernel⟩
  · exact ⟨({ wNet with mirror := [(rowAddr 1 2 3, 5)], img := some { wImage with tiles := [⟨4, .tcam, false, [0, 0, 0, 0], [0, 4, 0, 0], 512, 0, 0, 0, 0⟩] } } : State).setF (ASM_Q_BLK_POWERED 1 2) 1 |>.setF (FLT_SRC_CFG_N 159) 9, 1, 2, 3, by decide +kernel⟩
  · exact ⟨1, 2, 3, by decide +kernel⟩

/-- The hypotheses of the clauses of `LanesComeUpAndAreLost` can be met. -/
theorem witness_LanesComeUpAndAreLost :
    (∃ (s : State) (c : Nat) (l : LaneSt), c < 24 ∧ s.lane c = some l ∧ s.isSealed = true ∧ l.began = none ∧ l.retryAt = none ∧
      s.flag (LAN_STATUS_LOCKED c) = false ∧ (l.rate < 2 ∨ s.flag (LAN_CTL_LT_EN c) = false)) ∧
    (∃ (s : State) (c : Nat) (l : LaneSt), c < 24 ∧ s.lane c = some l ∧ s.isSealed = true ∧ l.began = none ∧ l.retryAt = none ∧
      s.flag (LAN_STATUS_LOCKED c) = false ∧ 2 ≤ l.rate ∧ s.flag (LAN_CTL_LT_EN c) = true ∧ s.mode.ascent ≠ .short) ∧
    (∃ (s : State) (c p t0 : Nat) (l : LaneSt) (x : PortSt), c < 24 ∧ p < 64 ∧ s.lane c = some l ∧ s.port p = some x ∧ l.began = some t0 ∧
      s.now ≤ t0 + s.trainLimit c ∧ s.negotiates l = false ∧ s.flag (LAN_STATUS_AN_MISMATCH c) = false ∧
      s.flag (LAN_STATUS_DOWN_DECLARED c) = false ∧ x.ctlDown = false ∧ s.flag (LAN_CTL_LT_EN c) = false ∧ s.portsOfLane l = [p] ∧
      (s.lanes.filter (fun y => y.port ≤ p && p < y.port + 4 && (y.port == p || x.mode == 9)) = [l]) ∧ s.flag (MAC_STATUS_LOCAL_FAULT p) = false ∧
      s.flag (MAC_STATUS_REMOTE_FAULT p) = false ∧ s.flag (MAC_STATUS_LINK p) = false ∧ s.mayRise p = true ∧ s.modeCode ≠ mAscent) ∧
    (∃ (s : State) (c t0 : Nat) (l : LaneSt), c < 24 ∧ s.lane c = some l ∧ l.began = some t0 ∧ s.now ≤ t0 + s.trainLimit c ∧
      s.flag (LAN_STATUS_AN_MISMATCH c) = false) ∧
    (∃ (s : State) (c t0 step fec : Nat) (modes : List Nat) (l : LaneSt), c < 24 ∧ s.lane c = some l ∧ l.began = some t0 ∧
      s.now ≤ t0 + s.trainLimit c ∧ s.negotiates l = true ∧ s.flag (LAN_STATUS_AN_MISMATCH c) = false ∧ 2 ≤ step ∧ s.mismatch l modes fec = true) ∧
    (∃ (s : State) (c t0 : Nat) (l : LaneSt), 0x40 ≤ c ∧ c < 0x45 ∧ s.lane c = some l ∧ l.began = some t0 ∧ t0 + s.trainLimit c ≤ s.now ∧
      s.getF TWN_LANE_MAP_ACTIVE ≠ 0) ∧
    (∃ (s : State) (c at_ : Nat) (l : LaneSt), c < 24 ∧ s.lane c = some l ∧ s.flag (LAN_STATUS_DOWN_DECLARED c) = true ∧ l.retryAt = some at_ ∧
      at_ ≤ s.now ∧ (l.rate < 2 ∨ s.flag (LAN_CTL_LT_EN c) = false)) ∧
    (∃ (s : State) (c at_ : Nat) (l : LaneSt), c < 24 ∧ s.lane c = some l ∧ s.flag (LAN_STATUS_AN_MISMATCH c) = true ∧ l.retryAt = some at_ ∧
      at_ ≤ s.now ∧ (l.rate < 2 ∨ s.flag (LAN_CTL_LT_EN c) = false)) ∧
    (∃ (s : State) (c p : Nat) (l : LaneSt) (x : PortSt), c < 24 ∧ p < 64 ∧ s.lane c = some l ∧ s.port p = some x ∧ s.isSealed = true ∧
      s.portsOfLane l = [p] ∧ (l.rate < 2 ∨ s.flag (LAN_CTL_LT_EN c) = false) ∧ (∀ f ∈ s.frames, f.port ≠ p) ∧ (∀ k ∈ s.copies, k.port ≠ p) ∧
      s.getF (SWC_PORT_HOLD_STATE p) = 0 ∧ 1 ≤ s.getF (SWC_PORT_HOLD_HOLD_MS p) ∧ s.getF (SWC_PORT_HOLD_HOLD_MS p) ≤ 1000) ∧
    (∃ (s : State) (c p : Nat) (l : LaneSt) (x : PortSt), c < 24 ∧ p < 64 ∧ s.lane c = some l ∧ s.port p = some x ∧ x.mode ≠ 0 ∧
      s.portsOfLane l = [p]) ∧
    (∃ (s : State) (p : Nat) (x : PortSt), p < 64 ∧ s.port p = some x ∧ x.mode ≠ 0) ∧
    (∃ (s : State) (p : Nat) (x : PortSt), p < 64 ∧ s.port p = some x ∧ x.mode ≠ 0 ∧ s.flag (MAC_STATUS_LOCAL_FAULT p) = false ∧ s.modeCode ≠ mHold) ∧
    (∃ (s : State) (p : Nat) (x : PortSt) (l : LaneSt), p < 64 ∧ l.lane < 24 ∧ s.port p = some x ∧ x.mode ≠ 0 ∧ s.lanesOf p = [l] ∧ l.began = none ∧
      s.flag (LAN_STATUS_DOWN_DECLARED l.lane) = false ∧ s.flag (MAC_STATUS_LINK p) = true) := by
  refine ⟨?_, ?_, ?_, ?_, ?_, ?_, ?_, ?_, ?_, ?_, ?_, ?_, ?_⟩
  · exact ⟨wLinks.setF (LAN_CTL_LT_EN 1) 0 |>.setF (LAN_STATUS_SIGNAL 1) 1, 1, wLane 1 1, by decide +kernel⟩
  · exact ⟨wLinks.setF (LAN_CTL_LT_EN 1) 1 |>.setF (LAN_STATUS_SIGNAL 1) 1, 1, wLane 1 1, by decide +kernel⟩
  · exact ⟨({ wLinks with lanes := [wLane 0 0, { wLane 1 1 with began := some 5 }], now := 9 } : State).setF (LAN_CTL_LT_EN 1) 0 |>.setF (LAN_CTL_AN_EN 1) 0 |>.setF (MAC_STATUS_LINK 1) 0 |>.setF GLB_MODE_MODE 3, 1, 1, 5, { wLane 1 1 with began := some 5 }, wPort 1 0, by decide +kernel⟩
  · exact ⟨{ wLinks with lanes := [wLane 0 0, { wLane 1 1 with began := some 5 }], now := 9 }, 1, 5, { wLane 1 1 with began := some 5 }, by decide +kernel⟩
  · exact ⟨({ wLinks with lanes := [{ wLane 1 1 with began := some 5 }], now := 9 } : State).setF (LAN_CTL_AN_EN 1) 1, 1, 5, 2, 0, [1, 3], { wLane 1 1 with began := some 5 }, by decide +kernel⟩
  · exact ⟨({ wLinks with lanes := [{ wLane 64 65 with began := some 5 }], now := 5 + tMs 85 } : State).setF TWN_LANE_MAP_ACTIVE 2 |>.setF (LAN_CTL_TRAIN_LIMIT 64) 127, 64, 5, { wLane 64 65 with began := some 5 }, by decide +kernel⟩
  · exact ⟨({ wLinks with lanes := [wLane 0 0, { wLane 1 1 with rate := 1, retryAt := some 7 }] } : State).setF (LAN_STATUS_DOWN_DECLARED 1) 1, 1, 7, { wLane 1 1 with rate := 1, retryAt := some 7 }, by decide +kernel⟩
  · exact ⟨({ wLinks with lanes := [wLane 0 0, { wLane 1 1 with rate := 1, retryAt := some 7 }] } : State).setF (LAN_STATUS_AN_MISMATCH 1) 1, 1, 7, { wLane 1 1 with rate := 1, retryAt := some 7 }, by decide +kernel⟩
  · exact ⟨({ wLinks with lanes := [wLane 0 0, { wLane 1 1 with rate := 1 }] } : State).setF (SWC_PORT_HOLD_HOLD_MS 1) 100, 1, 1, { wLane 1 1 with rate := 1 }, wPort 1 0, by decide +kernel⟩
  · exact ⟨wLinks.setF (LAN_STATUS_LOCKED 1) 1, 1, 1, wLane 1 1, wPort 1 0, by decide +kernel⟩
  · exact ⟨({ wLinks with ports := [wPort 0 0, { wPort 1 0 with faultAt := some 3 }] } : State), 1, { wPort 1 0 with faultAt := some 3 }, by decide +kernel⟩
  · exact ⟨wLinks, 1, wPort 1 0, by decide +kernel⟩
  · exact ⟨({ wLinks with ports := [wPort 0 0, { wPort 1 0 with faultAt := some 3 }] } : State).setF (MAC_STATUS_REMOTE_FAULT 1) 1, 1, { wPort 1 0 with faultAt := some 3 }, wLane 1 1, by decide +kernel⟩

/-- The hypotheses of the clauses of `PortsGoDownRiseAndShutDown` can be met. -/
theorem witness_PortsGoDownRiseAndShutDown :
    (∃ (s : State) (p t0 : Nat) (x : PortSt), p < 64 ∧ s.port p = some x ∧ x.faultAt = some t0 ∧ s.flag (MAC_STATUS_LINK p) = true ∧
      t0 + tUs (min 1000 (s.getF (MAC_LINK_CFG_DOWN_US p))) ≤ s.now ∧ s.withLane p = [p] ∧ (∀ f ∈ s.frames, f.port ≠ p) ∧
      (∀ k ∈ s.copies, k.port ≠ p) ∧ s.getF (SWC_PORT_HOLD_STATE p) = 0 ∧ 1 ≤ s.getF (SWC_PORT_HOLD_HOLD_MS p) ∧
      s.getF (SWC_PORT_HOLD_HOLD_MS p) ≤ 1000) ∧
    (∃ (s : State) (p t0 : Nat) (x : PortSt), p < 64 ∧ s.port p = some x ∧ x.lockAt = some t0 ∧ s.flag (MAC_STATUS_LINK p) = false ∧
      s.mayRise p = true ∧ t0 + tMs (min 100 (s.getF (MAC_LINK_CFG_UP_MS p))) ≤ s.now ∧ s.flag (MAC_CTL_PREEMPT_EN p) = false ∧
      s.getF (SWC_PORT_HOLD_STATE p) ≠ 3) ∧
    (∃ (s : State) (p t0 : Nat) (x : PortSt), p < 64 ∧ s.port p = some x ∧ x.lockAt = some t0 ∧ s.flag (MAC_STATUS_LINK p) = false ∧
      s.mayRise p = true ∧ t0 + tMs (min 100 (s.getF (MAC_LINK_CFG_UP_MS p))) ≤ s.now ∧ s.flag (MAC_CTL_PREEMPT_EN p) = true ∧
      s.flag (MAC_CTL_VERIFY_DIS p) = false ∧ s.getF (SWC_PORT_HOLD_STATE p) ≠ 3 ∧ s.modeCode ≠ mHold) ∧
    (∃ (s : State) (p e : Nat) (x : PortSt), p < 68 ∧ s.port p = some x ∧ x.holdEnd = some e ∧ e ≤ s.now ∧ s.getF (SWC_PORT_HOLD_STATE p) = 1 ∧
      (∀ k ∈ s.copies, k.port ≠ p)) ∧
    (∃ (s : State) (p : Nat), p < 68 ∧ s.getF (SWC_PORT_HOLD_STATE p) = 3 ∧ (∀ k ∈ s.copies, k.port ≠ p)) ∧
    (∃ (s : State) (p : Nat), (p < 64 ∨ p = 65) ∧ s.flag (MAC_CTL_EN p) = true) ∧
    (∃ (s : State) (p : Nat) (x : PortSt), p < 64 ∧ s.port p = some x ∧ s.flag (MAC_STATUS_SHUTDOWN p) = true ∧
      s.flag (MAC_STATUS_EN_PENDING p) = false ∧ (∀ f ∈ s.frames, f.port ≠ p) ∧ (∀ k ∈ s.copies, k.port ≠ p)) ∧
    (∃ (s : State) (p : Nat), p < 66 ∧ s.getF (MAC_STATUS_VERIFY p) = 1) ∧
    (∃ (s : State) (p n : Nat) (x : PortSt), p < 64 ∧ s.port p = some x ∧ s.getF (MAC_STATUS_VERIFY p) = 1 ∧ x.verifyAt ≤ s.now ∧
      x.verifyLeft = n + 1 ∧ s.modeCode ≠ mHold) ∧
    (∃ (s : State) (p : Nat) (x : PortSt), p < 64 ∧ s.port p = some x ∧ s.getF (MAC_STATUS_VERIFY p) = 1 ∧ x.verifyAt ≤ s.now ∧ x.verifyLeft = 0) ∧
    (∃ (s : State) (p : Nat) (x : PortSt), p < 64 ∧ s.port p = some x ∧ (x.mode = 1 ∨ x.mode = 2) ∧ s.modeCode ≠ mHold) ∧
    (∃ (s : State) (p e : Nat) (x : PortSt), p < 64 ∧ s.port p = some x ∧ x.wakeEnd = some e ∧ e ≤ s.now) := by
  refine ⟨?_, ?_, ?_, ?_, ?_, ?_, ?_, ?_, ?_, ?_, ?_, ?_⟩
  · exact ⟨({ wLinks with ports := [wPort 0 0, { wPort 1 0 with faultAt := some 3, pauseEnd := [(8, 5)] }], now := 3 + tUs 1000 } : State).setF (SWC_PORT_HOLD_HOLD_MS 1) 1000 |>.setF (LAN_STATUS_LOCKED 1) 1, 1, 3, { wPort 1 0 with faultAt := some 3, pauseEnd := [(8, 5)] }, by decide +kernel⟩
  · exact ⟨({ wLinks with ports := [wPort 0 0, { wPort 1 0 with lockAt := some 3, holdEnd := some 5 }], now := 3 + tMs 100 } : State).setF (SWC_PORT_HOLD_STATE 1) 1 |>.setF (MAC_STATUS_LINK 1) 0, 1, 3, { wPort 1 0 with lockAt := some 3, holdEnd := some 5 }, by decide +kernel⟩
  · exact ⟨({ wLinks with ports := [wPort 0 0, { wPort 1 0 with lockAt := some 3, holdEnd := some 5 }], now := 3 + tMs 100 } : State).setF (MAC_CTL_PREEMPT_EN 1) 1 |>.setF (MAC_STATUS_LINK 1) 0, 1, 3, { wPort 1 0 with lockAt := some 3, holdEnd := some 5 }, by decide +kernel⟩
  · exact ⟨({ wNet with ports := [wPort 0 0, { wPort 1 0 with holdEnd := some 5 }] } : State).setF (SWC_PORT_HOLD_STATE 1) 1, 1, 5, { wPort 1 0 with holdEnd := some 5 }, by decide +kernel⟩
  · exact ⟨wNet.setF (SWC_PORT_HOLD_STATE 67) 3, 67, by decide +kernel⟩
  · exact ⟨wNet.setF (MAC_STATUS_EN_PENDING 1) 1, 1, by decide +kernel⟩
  · exact ⟨wNet.setF (MAC_STATUS_SHUTDOWN 1) 1, 1, wPort 1 0, by decide +kernel⟩
  · exact ⟨wNet.setF (MAC_STATUS_VERIFY 1) 1, 1, by decide +kernel⟩
  · exact ⟨({ wNet with ports := [wPort 0 0, { wPort 1 0 with verifyLeft := 1 }] } : State).setF (MAC_STATUS_VERIFY 1) 1, 1, 0, { wPort 1 0 with verifyLeft := 1 }, by decide +kernel⟩
  · exact ⟨wNet.setF (MAC_STATUS_VERIFY 1) 1, 1, wPort 1 0, by decide +kernel⟩
  · exact ⟨wNet, 1, wPort 1 0, by decide +kernel⟩
  · exact ⟨({ wNet with ports := [wPort 0 0, { wPort 1 0 with wakeEnd := some 5 }] } : State).setF (MAC_STATUS_WAKE_TX_BUSY 1) 1, 1, 5, { wPort 1 0 with wakeEnd := some 5 }, by decide +kernel⟩

/-- The hypotheses of the clauses of `PauseHoldsClasses` can be met. -/
theorem witness_PauseHoldsClasses :
    (∃ (s : State) (p q : Nat) (x : PortSt), p < 64 ∧ s.port p = some x ∧ x.mode ≠ 0 ∧ s.flag (MAC_STATUS_LINK p) = true ∧
      s.getF (MAC_CTL_FC_MODE p) = 0 ∧ s.flag (MAC_CTL_RX_PAUSE_EN p) = true ∧ 0 < q ∧ q < 65536) ∧
    (∃ (s : State) (p : Nat) (x : PortSt), p < 64 ∧ s.port p = some x ∧ x.mode ≠ 0 ∧ s.flag (MAC_STATUS_LINK p) = true ∧
      s.getF (MAC_CTL_FC_MODE p) = 0 ∧ s.flag (MAC_CTL_RX_PAUSE_EN p) = true) ∧
    (∃ (s : State) (p i q : Nat) (x : PortSt), p < 64 ∧ i < 8 ∧ s.port p = some x ∧ x.mode ≠ 0 ∧ s.flag (MAC_STATUS_LINK p) = true ∧
      s.getF (MAC_CTL_FC_MODE p) = 1 ∧ s.flag (MAC_CTL_RX_PAUSE_EN p) = true ∧ 0 < q ∧ q < 65536) ∧
    (∃ (s : State) (p op : Nat) (x : PortSt), p < 64 ∧ s.port p = some x ∧ x.mode ≠ 0 ∧ s.flag (MAC_STATUS_LINK p) = true ∧
      op ≠ s.getF (MAC_CTL_FC_MODE p)) ∧
    (∃ (s : State) (p i e : Nat) (x : PortSt), p < 64 ∧ i < 8 ∧ s.port p = some x ∧ x.pauseEnd = [(i, e)] ∧ e ≤ s.now) ∧
    (∃ (s : State) (p : Nat) (x : PortSt), s.port p = some x ∧ s.pauseReady p = true ∧ x.genPause = 0 ∧ s.bpPrios p ≠ 0 ∧
      s.getF (MAC_CTL_FC_MODE p) = 0) ∧
    (∃ (s : State) (p : Nat) (x : PortSt), s.port p = some x ∧ s.pauseReady p = true ∧ x.genPause ≠ 0 ∧ s.bpPrios p = 0 ∧
      s.getF (MAC_CTL_FC_MODE p) = 0) ∧
    (∃ (s : State) (p : Nat) (x : PortSt), s.port p = some x ∧ s.pauseReady p = true ∧ x.genPause ≠ 0 ∧ x.refreshAt ≤ s.now ∧
      s.bpPrios p = x.genPause ∧ s.getF (MAC_CTL_FC_MODE p) = 0) := by
  refine ⟨?_, ?_, ?_, ?_, ?_, ?_, ?_, ?_⟩
  · exact ⟨({ wNet with ports := [wPort 0 0, { wPort 1 0 with pauseEnd := [(8, 7)] }] } : State).setF (MAC_CTL_RX_PAUSE_EN 1) 1 |>.setF (MAC_CTL_FC_MODE 1) 0, 1, 65535, { wPort 1 0 with pauseEnd := [(8, 7)] }, by decide +kernel⟩
  · exact ⟨({ wNet with ports := [wPort 0 0, { wPort 1 0 with pauseEnd := [(8, 7)] }] } : State).setF (MAC_CTL_RX_PAUSE_EN 1) 1 |>.setF (MAC_STATUS_PAUSED 1) 255 |>.setF (MAC_CTL_FC_MODE 1) 0, 1, { wPort 1 0 with pauseEnd := [(8, 7)] }, by decide +kernel⟩
  · exact ⟨(wNet.setF (MAC_CTL_RX_PAUSE_EN 1) 1).setF (MAC_CTL_FC_MODE 1) 1, 1, 7, 10, wPort 1 0, by decide +kernel⟩
  · exact ⟨wNet.setF (MAC_CTL_FC_MODE 1) 0, 1, 1, wPort 1 0, by decide +kernel⟩
  · exact ⟨({ wNet with ports := [wPort 0 0, { wPort 1 0 with pauseEnd := [(5, 7)] }] } : State).setF (MAC_STATUS_PAUSED 1) 32, 1, 5, 7, { wPort 1 0 with pauseEnd := [(5, 7)] }, by decide +kernel⟩
  · exact ⟨(wNet.setF (MAC_CTL_TX_PAUSE_EN 1) 1 |>.setF (MAC_CTL_FC_MODE 1) 0).setF (BPM_POOL_OCC_BP 0) 1, 1, wPort 1 0, by decide +kernel⟩
  · exact ⟨({ wNet with ports := [wPort 0 0, { wPort 1 0 with genPause := 3 }] } : State).setF (MAC_CTL_TX_PAUSE_EN 1) 1 |>.setF (MAC_CTL_FC_MODE 1) 0, 1, { wPort 1 0 with genPause := 3 }, by decide +kernel⟩
  · exact ⟨({ wNet with ports := [wPort 0 0, { wPort 1 0 with genPause := 255 }] } : State).setF (MAC_CTL_TX_PAUSE_EN 1) 1 |>.setF (MAC_CTL_FC_MODE 1) 0 |>.setF (BPM_POOL_OCC_BP 0) 1, 1, { wPort 1 0 with genPause := 255 }, by decide +kernel⟩

/-- The hypotheses of the clauses of `ModeRequestsAreCarriedOut` can be met. -/
theorem witness_ModeRequestsAreCarriedOut :
    (∃ (s : State), s.asks ∧ s.running = true ∧ s.flt.reactions.any (fun r => r.done.isNone) = false) ∧
    (∃ (s : State), s.asks ∧ s.running = false) ∧
    (∃ (s : State), s.modeCode ≠ mBivouac ∧ s.mode.porst = false ∧ s.moving = true) ∧
    (∃ (key : Nat), key ≠ 0xA5C3) ∧
    (∃ (s : State), s.asks ∧ s.mayHold = true ∧ s.frames = [] ∧ s.copies = []) ∧
    (∃ (s : State), s.modeCode ≠ mBivouac ∧ s.mode.porst = false ∧ s.moving = true) ∧
    (∃ (s : State), s.flag AON_MODE_INFO_HOLD_PENDING = true ∧ s.moving = false ∧ s.mode.porst = false ∧ s.mayHold = true ∧ s.frames = [] ∧
      s.copies = []) ∧
    (∃ (s : State), s.asks ∧ s.flag AON_MODE_INFO_C4_LATCH = false ∧ s.otp.descGood) ∧
    (∃ (s : State), s.asks ∧ s.modeCode = mAscent ∧ s.isSealed = false) ∧
    (∃ (s : State), s.asks ∧ s.running = true) ∧
    (∃ (s : State), s.asks ∧ s.modeCode = mService ∧ s.load.reimage = false ∧ s.mode.resume < 8 ∧ s.mode.abseilDue = false ∧ s.anyIso = false ∧
      ¬(s.twin = twPaired ∧ s.svcFwd = false)) := by
  refine ⟨?_, ?_, ?_, ?_, ?_, ?_, ?_, ?_, ?_, ?_, ?_⟩
  · exact ⟨(wMode 2).setF TWN_STATUS_LANES 4, by decide +kernel⟩
  · exact ⟨wMode 7, by decide +kernel⟩
  · exact ⟨{ wMode 3 with mode := { (wMode 3).mode with park := 2 } }, by decide +kernel⟩
  · exact ⟨0x5A3C, by decide +kernel⟩
  · exact ⟨((wMode 4).setF TWN_STATUS_LANES 4).setF FLT_ISO_QUAD 2, by decide +kernel⟩
  · exact ⟨{ wMode 3 with mode := { (wMode 3).mode with park := 2 } }, by decide +kernel⟩
  · exact ⟨(wMode 3).setF AON_MODE_INFO_HOLD_PENDING 1, by decide +kernel⟩
  · exact ⟨((wMode 5).setF FLT_C4_CAUSE_SOURCE 3).wr rGLB_SCRATCH 9, by decide +kernel⟩
  · exact ⟨{ wAsc .cold 9 with load := { LoadSt.reset with reading := 1 } }, by decide +kernel⟩
  · exact ⟨(wMode 3).setF TWN_STATUS_STATE 3 |>.setF TWN_STATUS_LANES 1, by decide +kernel⟩
  · exact ⟨{ wMode 7 with mode := { (wMode 7).mode with resume := 4, admitStop := true } }, by decide +kernel⟩

/-- The hypotheses of the clauses of `ParkingAndWaking` can be met. -/
theorem witness_ParkingAndWaking :
    (∃ (s : State), s.mode.park = 1 ∧ s.mode.parkEnd ≤ s.now ∧ (∀ c ∈ s.copies, c.started = true)) ∧
    (∃ (s : State), s.mode.park = 1 ∧ s.mode.parkEnd ≤ s.now) ∧
    (∃ (s : State), s.mode.park ≠ 0 ∧ s.parkIdle = true ∧ s.mode.wakeLatched = false) ∧
    (∃ (s : State) (pins levels ms : Nat), s.modeCode = mBivouac ∧ s.mode.porst = false ∧ s.pinsActive pins levels ≠ 0 ∧
      s.getF AON_WAKE_CFG_DEBOUNCE ≤ ms) ∧
    (∃ (s : State) (pins levels ms : Nat), s.modeCode ≠ mBivouac ∧ s.mode.porst = false ∧ s.mode.park ≠ 0 ∧ s.pinsActive pins levels ≠ 0 ∧
      s.getF AON_WAKE_CFG_DEBOUNCE ≤ ms) ∧
    (∃ (s : State) (d : Nat) (sets : List (Nat × List Nat)), s.modeCode = mBivouac ∧ s.mode.porst = false ∧ d < 8 ∧
      s.flag (AON_WAKE_DET_ARMED d) = true ∧ s.mode.park = 0 ∧ wakeRun (wakeSet ((s.mode.detRates.lookup d).getD 0)) sets 0 0 = true) ∧
    (∃ (s : State) (d : Nat) (l : LaneSt) (sets : List (Nat × List Nat)), d < 8 ∧ s.flag (AON_WAKE_DET_ARMED d) = false ∧
      s.lane (s.getF (AON_WAKE_DET_LANE d)) = some l ∧ l.rate < 2 ∧ l.port < 64 ∧ sets.length < 2 ^ 48) ∧
    (∃ (s : State), s.modeCode = mBivouac ∧ s.mode.porst = false ∧ s.flag AON_WAKE_CFG_ALARM_EN = true ∧
      s.rtc / 32768 % 2 ^ 32 = s.getF AON_ALARM_SECONDS) ∧
    (∃ (s : State), s.modeCode = mBivouac ∧ s.mode.porst = false ∧ s.flag AON_WAKE_CFG_I2C_EN = true) ∧
    (∃ (s : State), s.mode.ascent = .short ∧ s.mode.step = 1) ∧
    (∃ (s : State), s.mode.ascent = .short ∧ s.mode.step = 1 ∧ s.mode.railRetryAt ≤ s.now) ∧
    (∃ (s : State), s.mode.ascent = .short ∧ s.mode.step = 3 ∧ s.mode.arrays = true ∧ s.dramc.resume = none) ∧
    (∃ (s : State) (i : Image), s.mode.ascent = .short ∧ s.mode.step = 3 ∧ s.mode.arrays = true ∧ s.mode.retValid = true ∧ s.load.copy = some i ∧
      i.digest = s.mode.retImage ∧ s.load.programming = 0 ∧ s.dramc.resume = none) ∧
    (∃ (s : State) (n : Snap), s.mode.ascent = .short ∧ s.mode.step = 5 ∧ s.snap = some n ∧ n.gen < 65536 ∧ n.digest = s.mode.retSnap) ∧
    (∃ (s : State), s.mode.ascent = .short ∧ s.mode.step = 5) := by
  refine ⟨?_, ?_, ?_, ?_, ?_, ?_, ?_, ?_, ?_, ?_, ?_, ?_, ?_, ?_, ?_⟩
  · exact ⟨{ wMode 3 with mode := { (wMode 3).mode with park := 1, parkEnd := 5 } }, by decide +kernel⟩
  · exact ⟨{ wSch with now := 9000000, mode := { (wMode 3).mode with park := 1, parkEnd := 5 } }, by decide +kernel⟩
  · exact ⟨{ wMode 3 with mode := { (wMode 3).mode with park := 2 } }, by decide +kernel⟩
  · exact ⟨((wMode 0).setF AON_WAKE_CFG_PIN_EN 0xFF).setF AON_WAKE_CFG_PIN_POL 0xF0, 0x81, 0x80, 15, by decide +kernel⟩
  · exact ⟨(({ wMode 3 with mode := { (wMode 3).mode with park := 2 } } : State).setF AON_WAKE_CFG_PIN_EN 0xFF).setF AON_WAKE_CFG_PIN_POL 0xF0, 0x81, 0x81, 15, by decide +kernel⟩
  · exact ⟨({ wMode 0 with mode := { (wMode 0).mode with detRates := [(7, 2)] } } : State).setF (AON_WAKE_DET_ARMED 7) 1, 7, List.replicate 16 (1000, [0x3C, 0x4A, 0x21, 0x57]), by decide +kernel⟩
  · exact ⟨({ wLinks with lanes := [{ wLane 0 0 with rate := 1 }] } : State), 3, { wLane 0 0 with rate := 1 }, [(9, [0x4B, 0x0F, 0x0A, 0x21, 0x57]), (5, [1]), (2, [0x4B, 0x0F, 0x0A, 0x21, 0x57])], by decide +kernel⟩
  · exact ⟨(wMode 0).setF AON_WAKE_CFG_ALARM_EN 1 |>.setF AON_ALARM_SECONDS 0, by decide +kernel⟩
  · exact ⟨(wMode 0).setF AON_WAKE_CFG_I2C_EN 1, by decide +kernel⟩
  · exact ⟨wAsc .short 1, by decide +kernel⟩
  · exact ⟨wAsc .short 1, by decide +kernel⟩
  · exact ⟨{ wAsc .short 3 with mode := { (wAsc .short 3).mode with arrays := true } }, by decide +kernel⟩
  · exact ⟨{ wAsc .short 3 with mode := { (wAsc .short 3).mode with arrays := true, retValid := true, retImage := wImage.digest }, load := { LoadSt.reset with copy := some wImage } }, wImage, by decide +kernel⟩
  · exact ⟨{ wAsc .short 5 with snap := some ⟨[], [], [], [], [5], [], [], [(3, 4)], [], [], [], 7, 0⟩ }, ⟨[], [], [], [], [5], [], [], [(3, 4)], [], [], [], 7, 0⟩, by decide +kernel⟩
  · exact ⟨{ wAsc .short 5 with snap := some ⟨[], [], [], [], [5], [], [], [(3, 4)], [], [], [], 7, 0⟩ }, by decide +kernel⟩

/-- The hypotheses of the clauses of `ResetsAndAscentSteps` can be met. -/
theorem witness_ResetsAndAscentSteps :
    (∃ (s : State), s.otp.descGood) ∧
    (∃ (s : State), s.mode.aonAt + tSec 2 ≤ s.now) ∧
    (∃ (s : State), s.mode.porst = false ∧ s.flag AON_MODE_INFO_C4_LATCH = false ∧ s.otp.descGood) ∧
    (∃ (s : State), s.mode.porst = false ∧ s.flag AON_MODE_INFO_C4_LATCH = true ∧ s.otp.descGood) ∧
    (∃ (s : State), s.flag AON_MODE_INFO_C4_LATCH = true ∧ s.otp.descGood) ∧
    (∃ (s : State), s.modeCode ≠ mBivouac ∧ s.mode.pwrgood = true ∧ s.flag AON_MODE_INFO_C4_LATCH = false ∧ s.otp.descGood) ∧
    (∃ (s : State), s.modeCode = mBivouac) ∧
    (∃ (s : State), s.mode.porst = true ∧ s.modeCode = mAscent) ∧
    (∃ (s : State), s.mode.ascent = .cold ∧ s.mode.step = 1) ∧
    (∃ (s : State), s.mode.ascent = .short ∧ s.mode.step = 2) ∧
    (∃ (s : State), s.mode.ascent = .cold ∧ s.mode.step = 2 ∧ s.modeCode = mAscent ∧ s.mode.c4Hold = none) ∧
    (∃ (s : State), s.mode.romOk = true ∧ s.mode.arrays = false ∧ s.load.ready = none) ∧
    (∃ (s : State) (i : Image), s.mode.romOk = true ∧ s.mode.arrays = false ∧ s.mode.dramOpen = true ∧ s.mode.ascent = .cold ∧ s.modeCode = mAscent ∧
      s.load.ready = some (1, i) ∧ i.hostSeal = true) ∧
    (∃ (s : State) (g w : Nat), 3 ≤ s.mode.step ∧ s.mode.pcieUp = false ∧ s.mode.porst = false ∧ s.modeCode ≠ mBivouac ∧ (g = 3 ∨ g = 4 ∨ g = 5) ∧
      (w = 1 ∨ w = 2 ∨ w = 4 ∨ w = 8) ∧ s.reservations 64 = []) ∧
    (∃ (s : State), s.mode.ascent = .cold ∧ s.mode.romOk = true ∧ s.modeCode = mAscent ∧ s.mode.dramOpen = false ∧
      s.flag DRC_STATUS_TRAIN_FAIL = false ∧ s.flag DRC_STATUS_DESC_BAD = false ∧ s.descOk = true ∧ s.load.ready = none) ∧
    (∃ (s : State), s.mode.ascent = .cold ∧ s.mode.romOk = true ∧ s.modeCode = mAscent ∧ s.mode.dramOpen = false ∧
      s.flag DRC_STATUS_TRAIN_FAIL = false ∧ s.flag DRC_STATUS_DESC_BAD = false ∧ s.descOk = false) ∧
    (∃ (s : State) (f : Nat), s.mode.ascent = .cold ∧ s.mode.romOk = true ∧ s.modeCode = mAscent ∧ s.mode.dramOpen = false ∧
      s.flag DRC_STATUS_TRAIN_FAIL = false ∧ s.flag DRC_STATUS_DESC_BAD = false ∧ s.descOk = true ∧ f < 8 ∧ s.flag DRC_GEOM_SPARE_EN = false ∧
      s.fitted f = true ∧ s.getF (rkF f) = 0) ∧
    (∃ (s : State), s.modeCode = mAscent ∧ s.flag DRC_STATUS_TRAIN_FAIL = true ∧ s.dramc.retryAt ≤ s.now ∧ s.descOk = true ∧ s.load.ready = none) ∧
    (∃ (s : State) (i : Image), s.modeCode = mAscent ∧ s.isSealed = true ∧ s.rope.started = false ∧ s.lanesSettled = true ∧ s.mode.ascent = .cold ∧
      s.img = some i ∧ i.pair = false ∧ s.mode.abseilDue = false ∧ s.anyIso = false) := by
  refine ⟨?_, ?_, ?_, ?_, ?_, ?_, ?_, ?_, ?_, ?_, ?_, ?_, ?_, ?_, ?_, ?_, ?_, ?_, ?_⟩
  · exact ⟨{ wFr [wF 1 0] [wC 1 1] with otp := { Otp.blank with is2416 := true, desc := [(rDRC_GEOM, 0x105)], floor := 3 } }, by decide +kernel⟩
  · exact ⟨{ w0 with now := tSec 2 }, by decide +kernel⟩
  · exact ⟨({ wMode 3 with frames := [wF 1 0], mem := [(5, 6)] } : State).setF CRN_LOST_COUNT 3 |>.setF AON_MODE_INFO_HOLD_PENDING 1, by decide +kernel⟩
  · exact ⟨(wMode 5).setF AON_MODE_INFO_C4_LATCH 1, by decide +kernel⟩
  · exact ⟨(wMode 5).setF AON_MODE_INFO_C4_LATCH 1, by decide +kernel⟩
  · exact ⟨{ wMode 2 with frames := [wF 1 0] }, by decide +kernel⟩
  · exact ⟨wMode 0, by decide +kernel⟩
  · exact ⟨{ w0 with crn := { CairnSt.blank with mram := [(0, 1), (64, 2)] } }, by decide +kernel⟩
  · exact ⟨wAsc .cold 1, by decide +kernel⟩
  · exact ⟨wAsc .short 2, by decide +kernel⟩
  · exact ⟨wAsc .cold 2, by decide +kernel⟩
  · exact ⟨{ wAsc .cold 3 with mode := { (wAsc .cold 3).mode with romOk := true } }, by decide +kernel⟩
  · exact ⟨{ wAsc .cold 6 with mode := { (wAsc .cold 6).mode with romOk := true, dramOpen := true }, load := { LoadSt.reset with ready := some (1, { wImage with flags := 1 }) } }, { wImage with flags := 1 }, by decide +kernel⟩
  · exact ⟨wAsc .cold 3, 5, 8, by decide +kernel⟩
  · exact ⟨wDesc { wAsc .cold 3 with mode := { (wAsc .cold 3).mode with romOk := true } }, by decide +kernel⟩
  · exact ⟨{ wAsc .cold 3 with mode := { (wAsc .cold 3).mode with romOk := true } }, by decide +kernel⟩
  · exact ⟨wDesc { wAsc .cold 3 with mode := { (wAsc .cold 3).mode with romOk := true } }, 4, by decide +kernel⟩
  · exact ⟨(wDesc (wAsc .cold 3)).setF DRC_STATUS_TRAIN_FAIL 1, by decide +kernel⟩
  · exact ⟨{ wAsc .cold 10 with isSealed := true, img := some wImage }, wImage, by decide +kernel⟩

/-- The hypotheses of the clauses of `ImagesAreLoadedAndSealed` can be met. -/
theorem witness_ImagesAreLoadedAndSealed :
    (∃ (s : State), s.load.reading = 1 ∧ s.modeCode ≠ mService ∧ s.mode.arrays = false) ∧
    (∃ (s : State) (img : ImageFile) (code : Nat), s.load.reading = 1 ∧ s.verify (imageOf img) none = code ∧ code ≠ 0) ∧
    (∃ (s : State) (img : ImageFile) (code : Nat), s.load.reading = 2 ∧ s.verify (imageOf img) none = code ∧ code ≠ 0 ∧ s.modeCode ≠ mService ∧
      s.load.programming = 0) ∧
    (∃ (s : State) (i : Image), s.getF IMG_STATUS_STATE = 3 ∧ s.isSealed = false ∧ s.img = some i ∧ s.lanes = [] ∧ s.load.programming = 0) ∧
    (∃ (s : State) (i : Image), s.modeCode = mAscent ∧ s.getF IMG_STATUS_STATE = 3 ∧ s.isSealed = false ∧ s.load.sealAt ≤ s.now ∧ s.img = some i ∧
      s.lanes = [] ∧ s.load.programming = 0) ∧
    (∃ (s : State) (d n : Nat), s.heldLo = [] ∧ s.getF IMG_CTL_DEST = d ∧ s.getF IMG_PUSH_LEN_LEN = n ∧ (d = 1 ∨ d = 2) ∧ s.pushOk d = true ∧
      s.load.push = none ∧ s.load.programming = 0 ∧ s.getF IMG_PUSH_ADDR_LO_ADDR % 64 = 0 ∧ 512 ≤ n ∧ n ≤ 4194304 ∧ n % 64 = 0) ∧
    (∃ (s : State) (n : Nat), s.heldLo = [] ∧ s.getF IMG_CTL_DEST = 0 ∧ s.getF IMG_PUSH_LEN_LEN = n ∧ s.modeCode = mService ∧ s.load.push = none ∧
      s.load.programming = 0 ∧ s.getF IMG_PUSH_ADDR_LO_ADDR % 64 = 0 ∧ 512 ≤ n ∧ n ≤ 4194304 ∧ n % 64 = 0) ∧
    (∃ (s : State), s.heldLo = [] ∧ s.pushOk (s.getF IMG_CTL_DEST) = false) ∧
    (∃ (s : State) (n : Nat), s.load.push = some (1, n) ∧ s.load.chkB = some true ∧ ¬(1 ≤ s.getF IMG_STATUS_STATE ∧ s.getF IMG_STATUS_STATE ≤ 3)) ∧
    (∃ (s : State) (img : ImageFile) (d n code : Nat), s.load.push = some (d, n) ∧ d ≠ 0 ∧ s.verify (imageOf img) (some n) = code ∧ code ≠ 0) ∧
    (∃ (s : State) (img : ImageFile) (code : Nat), s.load.programming = 1 ∧ s.verify (imageOf img) none = code ∧ code ≠ 0 ∧
      s.getF IMG_STATUS_STATE = 6 ∧ s.load.saved < 16) ∧
    (∃ (s : State), s.load.programming = 2 ∧ s.getF IMG_STATUS_STATE = 6 ∧ s.load.saved < 16) ∧
    (∃ (s : State), s.modeCode = mService ∧ s.otp.floor < s.getF IMG_RUN_EPOCH ∧ s.otp.raises < 63) ∧
    (∃ (s : State) (i : Image), s.modeCode = mPaired ∧ s.twin = twPaired ∧ s.getF TWN_STATUS_PARTNER_MODE = mPaired ∧ s.rope.peerTwin = twPaired ∧
      s.anyIso = false ∧ s.rope.peerIso = 0 ∧ s.load.leap = 0 ∧ s.moving = false ∧ s.load.programming = 0 ∧ s.img = some i) ∧
    (∃ (s : State), s.modeCode ≠ mPaired) ∧
    (∃ (s : State), s.load.leap = 1 ∧ s.load.programming = 0 ∧ s.modeCode ≠ mHold) ∧
    (∃ (s : State), s.load.leap = 1 ∧ s.copies = [] ∧ s.frames = []) ∧
    (∃ (s : State), s.load.leap = 1 ∧ s.load.leapEnd ≤ s.now ∧ s.copies = [] ∧ (∀ f ∈ s.frames, f.inIngress = false)) := by
  refine ⟨?_, ?_, ?_, ?_, ?_, ?_, ?_, ?_, ?_, ?_, ?_, ?_, ?_, ?_, ?_, ?_, ?_, ?_⟩
  · exact ⟨{ wAsc .cold 3 with load := { LoadSt.reset with reading := 1 } }, by decide +kernel⟩
  · exact ⟨{ wAsc .cold 3 with load := { LoadSt.reset with reading := 1 } }, wFile [] true, 1, by decide +kernel⟩
  · exact ⟨{ wAsc .cold 3 with load := { LoadSt.reset with reading := 2 } }, wFile [] false, 0x0C, by decide +kernel⟩
  · exact ⟨({ wAsc .cold 9 with img := some wImage } : State).setF IMG_STATUS_STATE 3, wImage, by decide +kernel⟩
  · exact ⟨({ wAsc .cold 9 with img := some wImage } : State).setF IMG_STATUS_STATE 3, wImage, by decide +kernel⟩
  · exact ⟨((wMode 3).setF IMG_CTL_DEST 2).setF IMG_PUSH_LEN_LEN 4194304, 2, 4194304, by decide +kernel⟩
  · exact ⟨(wMode 7).setF IMG_PUSH_LEN_LEN 512, 512, by decide +kernel⟩
  · exact ⟨wMode 5, by decide +kernel⟩
  · exact ⟨{ wMode 3 with load := { LoadSt.reset with push := some (1, 512), chkB := some true } }, 512, by decide +kernel⟩
  · exact ⟨{ wMode 3 with load := { LoadSt.reset with push := some (2, 512), chkB := some true } }, wFile [] true, 2, 512, 1, by decide +kernel⟩
  · exact ⟨({ wMode 3 with load := { LoadSt.reset with programming := 1, saved := 4 } } : State).setF IMG_STATUS_STATE 6, wFile [] false, 12, by decide +kernel⟩
  · exact ⟨({ wMode 3 with load := { LoadSt.reset with programming := 2, saved := 4 } } : State).setF IMG_STATUS_STATE 6, by decide +kernel⟩
  · exact ⟨(wMode 7).setF IMG_RUN_EPOCH 65535, by decide +kernel⟩
  · exact ⟨({ wMode 2 with rope := { RopeSt.reset with peerTwin := 3 } } : State).setF TWN_STATUS_STATE 3 |>.setF TWN_STATUS_PARTNER_MODE 2 |>.setF TWN_STATUS_LANES 4, wImage, by decide +kernel⟩
  · exact ⟨wMode 3, by decide +kernel⟩
  · exact ⟨({ wMode 2 with load := { LoadSt.reset with leap := 1 } } : State).setF TWN_STATUS_LANES 4 |>.setF IMG_STATUS_STATE 7, by decide +kernel⟩
  · exact ⟨{ wMode 2 with load := { LoadSt.reset with leap := 1 } }, by decide +kernel⟩
  · exact ⟨{ wMode 2 with load := { LoadSt.reset with leap := 1 }, frames := [{ wF 1 0 with phase := .enqueued }] }, by decide +kernel⟩

/-- The hypotheses of the clauses of `TimeCommandsAct` can be met. -/
theorem witness_TimeCommandsAct :
    (∃ (s : State) (n : Nat), n < 2 ∧ s.time.doms.length = 2 ∧ -999999999 ≤ signedOf 32 (s.getF (TSY_DOM_ADJ_ADJ n)) ∧
      signedOf 32 (s.getF (TSY_DOM_ADJ_ADJ n)) ≤ 999999999) ∧
    (∃ (s : State) (n : Nat), n < 2 ∧ 999999999 < signedOf 32 (s.getF (TSY_DOM_ADJ_ADJ n)) ∧ s.quiet srcHostOther) ∧
    (∃ (s : State) (n : Nat), n < 2 ∧ s.time.doms.length = 2 ∧ s.heldLo = [] ∧ s.getF (TSY_DOM_SET_NS_NS n) ≤ 999999999) ∧
    (∃ (s : State) (n : Nat), n < 2 ∧ s.time.doms.length = 2) ∧
    (∃ (s : State) (n : Nat) (d : DomSt), s.time.doms[n]? = some d ∧ n < 2 ∧ s.flag (TSY_DOM_STATUS_SLEWING n) = true ∧
      d.slewAdj.natAbs * 10000 ≤ s.localNs - d.slewAt) ∧
    (∃ (s : State) (d : Int), s.time.ppsDone = some d ∧ s.flag TSY_PPS_OUT_CFG_EN = true ∧ d < s.ppsIndex ∧ s.time.ppsHigh = false) ∧
    (∃ (s : State), s.time.ppsHigh = true ∧ s.time.ppsFall ≤ s.now) ∧
    (∃ (s : State), ((∃ k, s.time.rtcLoad = some k ∧ s.workNs / 1000000000 ≠ k) ∨ s.flag TSY_RTC_CTL_AUTO = true)) ∧
    (∃ (s : State) (p : Nat) (e : TsEntry) (l : List TsEntry), (p < 64 ∨ p = 65) ∧ s.time.fifos.lookup p = some (e :: l) ∧ l ≠ []) ∧
    (∃ (s : State) (p : Nat), (p < 64 ∨ p = 65) ∧ s.time.fifos.lookup p = none ∧ s.getF (TSY_PORT_TX_INFO_OVERFLOW p) = 0) := by
  refine ⟨?_, ?_, ?_, ?_, ?_, ?_, ?_, ?_, ?_, ?_⟩
  · exact ⟨(({ w0 with now := 123456789 } : State).setF (TSY_DOM_ADJ_ADJ 1) 0xFFFFFFFE).setF (TSY_DOM_RATE_RATE 1) 77, 1, by decide +kernel⟩
  · exact ⟨(w0.setF (TSY_DOM_ADJ_ADJ 0) 1000000000).setF (FLT_SRC_CFG_N srcHostOther) 9, 0, by decide +kernel⟩
  · exact ⟨((w0.setF (TSY_DOM_SET_NS_NS 1) 999999999).setF (TSY_DOM_SET_SEC_LO_SEC 1) 5).setF (TSY_DOM_SET_SEC_HI_SEC 1) 65535, 1, by decide +kernel⟩
  · exact ⟨({ w0 with now := 123456789 } : State).setF (TSY_DOM_ADJ_ADJ 0) 500, 0, by decide +kernel⟩
  · exact ⟨({ w0 with now := 27 * 20000, time := { TimeSt.reset with doms := [⟨5, 0, -2, 0⟩, ⟨0, 0, 0, 0⟩] } } : State).setF (TSY_DOM_STATUS_SLEWING 0) 1, 0, ⟨5, 0, -2, 0⟩, by decide +kernel⟩
  · exact ⟨({ w0 with now := 27000000000, time := { TimeSt.reset with ppsDone := some 0 } } : State).setF TSY_PPS_OUT_CFG_EN 1 |>.setF TSY_PPS_OUT_CFG_WIDTH_US 100, (0 : Int), by decide +kernel⟩
  · exact ⟨{ w0 with time := { TimeSt.reset with ppsHigh := true } }, by decide +kernel⟩
  · exact ⟨{ w0 with now := 27000000000 * 3 + 5, time := { TimeSt.reset with rtcLoad := some 1 } }, by decide +kernel⟩
  · exact ⟨({ w0 with time := { TimeSt.reset with fifos := [(3, [⟨1, 2, 3⟩, ⟨4, 5, 6⟩])] } } : State).setF (TSY_PORT_TX_INFO_OVERFLOW 3) 9, 3, ⟨1, 2, 3⟩, [⟨4, 5, 6⟩], by decide +kernel⟩
  · exact ⟨w0, 65, by decide +kernel⟩

/-- The hypotheses of the clauses of `GateListsChange` can be met. -/
theorem witness_GateListsChange :
    (∃ (s : State) (g : GateId), gateExists g = true ∧ s.heldLo = [] ∧ s.flag (GATE_GSTATUS_PENDING (gateBlock g)) = false ∧ s.gateCause g = 0) ∧
    (∃ (s : State) (g : GateId), gateExists g = true ∧ s.heldLo = [] ∧ s.flag (GATE_GSTATUS_PENDING (gateBlock g)) = false ∧ s.gateCause g ≠ 0) ∧
    (∃ (s : State) (g : GateId), gateExists g = true ∧ s.flag (GATE_GSTATUS_PENDING (gateBlock g)) = true ∧ s.quiet srcHostOther) ∧
    (∃ (s : State) (g : GateId), gateExists g = true ∧ s.flag (GATE_GSTATUS_PENDING (gateBlock g)) = true) ∧
    (∃ (s : State) (g : GateId) (at_ n : Nat), gateExists g = true ∧ (s.gateSt g).switchAt = some at_ ∧
      s.flag (GATE_GSTATUS_PENDING (gateBlock g)) = true ∧ (at_ : Int) ≤ s.workNs ∧ n = s.getF (GATE_GCTL_ADMIN_LEN (gateBlock g)) ∧ n ≤ maxList g ∧
      (match g with | .port p => s.preemptOn p | .stream _ => false) = false) ∧
    (∃ (s : State) (g : GateId), gateExists g = true ∧ (match g with | .port p => s.preemptOn p | .stream _ => false) = false) ∧
    (∃ (s : State) (p : Nat), p < 68 ∧ s.preemptOn p = true ∧ s.flag (GATE_GCTL_GATE_EN (gateBlock (.port p))) = true ∧
      (s.operGate (.port p)).1 ≠ [] ∧ s.gateWord (.port p) s.workNs / 256 % 8 = 2) := by
  refine ⟨?_, ?_, ?_, ?_, ?_, ?_, ?_⟩
  · exact ⟨wGate, .port 67, by decide +kernel⟩
  · exact ⟨wGate.setF (GATE_ADMIN_CYCLE_NS_NS (gateBlock (.stream 255))) 0 |>.setF (GATE_GCTL_ADMIN_LEN (gateBlock (.stream 255))) 32, .stream 255, by decide +kernel⟩
  · exact ⟨(wGate.setF (GATE_GSTATUS_PENDING (gateBlock (.port 0))) 1).setF (FLT_SRC_CFG_N srcHostOther) 9, .port 0, by decide +kernel⟩
  · exact ⟨{ wGate.setF (GATE_GSTATUS_PENDING (gateBlock (.port 0))) 1 with gates := [⟨.port 0, 7, some 9⟩, ⟨.port 1, 8, some 9⟩] }, .port 0, by decide +kernel⟩
  · exact ⟨{ wGate.setF (GATE_GSTATUS_PENDING (gateBlock (.port 67))) 1 with gates := [⟨.port 67, 7, some 9⟩, ⟨.port 1, 8, some 9⟩] }, .port 67, 9, 2, by decide +kernel⟩
  · exact ⟨wGate.setF (GATE_GCTL_GATE_EN (gateBlock (.port 3))) 1, .port 3, by decide +kernel⟩
  · exact ⟨{ ((((wGate.setF (GATE_GCTL_GATE_EN (gateBlock (.port 1))) 1).setF (MAC_CTL_PREEMPT_EN 1) 1).setF (MAC_STATUS_VERIFY 1) 2).setF (GATE_OPER_LEN_LEN (gateBlock (.port 1))) 1).wrMem (operList (.port 1)) [0xFF, 2, 0, 0, 1] with scheds := [⟨1, 7, false, 7, false, true⟩] }, 1, by decide +kernel⟩

/-- The hypotheses of the clauses of `TwinsPairAndPart` can be met. -/
theorem witness_TwinsPairAndPart :
    (∃ (s : State), s.beats = true) ∧
    (∃ (s : State) (m : Heartbeat), s.ropeUp = true ∧ m.crcOk = true ∧ s.rope.heard = none ∧ s.twin ≠ twHandover ∧ s.load.leap ≠ 1) ∧
    (∃ (s : State) (m : Heartbeat) (c : Nat), s.ropeUp = true ∧ m.crcOk = true ∧ s.rope.heard = some (m.session, c) ∧ m.counter = c + 1 ∧
      m.counter < 2 ^ 32 ∧ s.twin ≠ twHandover ∧ s.load.leap ≠ 1) ∧
    (∃ (s : State) (m : Heartbeat) (c : Nat), s.ropeUp = true ∧ m.crcOk = true ∧ s.rope.heard = some (m.session, c) ∧ m.counter = c) ∧
    (∃ (s : State), s.ropeUp = false ∧ s.twin = twPaired ∧ s.pairImage = true ∧ s.rope.away = false ∧ s.rope.heardAt + tUs 150 ≤ s.now ∧
      s.quiet 370 ∧ s.replicas = [] ∧ s.modeCode = mPaired ∧ s.mode.park = 0 ∧ s.load.leap = 0) ∧
    (∃ (s : State), s.ropeUp = true ∧ s.pairImage = true ∧ s.rope.away = true ∧ s.rope.heardAt + tUs 150 ≤ s.now ∧ (∀ f ∈ s.frames, f.port ≠ 65) ∧
      (∀ c ∈ s.copies, c.port ≠ 65)) ∧
    (∃ (s : State), s.ropeUp = true ∧ s.pairImage = true ∧ s.rope.started = true ∧ s.modeCode ≠ mHold ∧ s.modeCode ≠ mTest ∧ s.twin = twNegotiating) ∧
    (∃ (s : State) (m : Hello), s.ropeUp = true ∧ m.kind = 1 ∧ s.pairImage = true ∧ s.rope.started = true ∧ s.twin = twNegotiating ∧
      s.refusal m = 0 ∧ m.ack = false) ∧
    (∃ (s : State) (m : Hello), s.ropeUp = true ∧ m.kind = 1 ∧ s.pairImage = true ∧ s.rope.started = true ∧ s.twin = twNegotiating ∧
      s.refusal m = 0 ∧ m.ack = true ∧ m.vmax = 1 ∧ s.modeCode = mSolo ∧ s.mode.park = 0 ∧ s.rope.broken = false) ∧
    (∃ (s : State) (m : Hello) (c : Nat), s.ropeUp = true ∧ m.kind = 1 ∧ s.pairImage = true ∧ s.rope.started = true ∧ s.twin = twNegotiating ∧
      s.refusal m = c ∧ c ≠ 0 ∧ s.modeCode = mSolo ∧ s.load.leap = 0) ∧
    (∃ (s : State) (h n : Nat) (m : SeqResume) (r : StreamRec), s.ropeUp = true ∧ m = ⟨s.viram, [(h, n)], false⟩ ∧ s.viram ≠ 0 ∧ n < 65536 ∧
      h < 65536 ∧ s.streamRec h = some r ∧ r.replicate = true ∧ s.serves r = true ∧ s.genUsed.contains h = false) ∧
    (∃ (s : State) (m : SeqResume), s.ropeUp = true ∧ m = ⟨s.viram, [], true⟩ ∧ s.viram ≠ 0 ∧ s.twin ≠ twNegotiating) ∧
    (∃ (s : State), s.ropeUp = true ∧ s.viram ≠ 0 ∧ s.twin = twPaired ∧ s.modeCode = mPaired ∧ s.mode.park = 0 ∧ s.replicas = [] ∧ s.load.leap = 0) ∧
    (∃ (s : State), s.ropeUp = true ∧ s.viram ≠ 0 ∧ s.twin = twPaired) ∧
    (∃ (s : State), s.ropeUp = true ∧ s.viram ≠ 0 ∧ s.twin = twPaired ∧ s.modeCode = mPaired ∧ s.mode.park = 0 ∧ s.replicas = [] ∧ s.load.leap = 0) ∧
    (∃ (s : State), s.ropeUp = true ∧ s.viram ≠ 0 ∧ s.twin = twPaired ∧ s.load.leap = 0 ∧ s.replicas = []) ∧
    (∃ (s : State), s.ropeUp = true ∧ s.viram = 1 ∧ s.twin = twHandover ∧ s.modeCode = mPaired ∧ s.rope.broken = false) ∧
    (∃ (s : State) (m : List Byte), s.ropeUp = true ∧ (m.getD 3 0).toNat.testBit 4 = false) := by
  refine ⟨?_, ?_, ?_, ?_, ?_, ?_, ?_, ?_, ?_, ?_, ?_, ?_, ?_, ?_, ?_, ?_, ?_, ?_⟩
  · exact ⟨wTwin 2 3 2, by decide +kernel⟩
  · exact ⟨wTwin 2 3 2, wBeat, by decide +kernel⟩
  · exact ⟨{ wTwin 2 3 2 with rope := { RopeSt.reset with heard := some (1, 8), heardAt := 5 } }, wBeat, 8, by decide +kernel⟩
  · exact ⟨{ wTwin 2 3 2 with rope := { RopeSt.reset with heard := some (1, 9), heardAt := 5 } }, wBeat, 9, by decide +kernel⟩
  · exact ⟨({ wTwin 2 3 2 with } : State).setF (MAC_STATUS_LINK 65) 0 |>.setF (FLT_SRC_CFG_N 370) 9, by decide +kernel⟩
  · exact ⟨{ wTwin 3 5 2 with rope := { RopeSt.reset with away := true } }, by decide +kernel⟩
  · exact ⟨wTwin 1 2 0, by decide +kernel⟩
  · exact ⟨wTwin 1 2 0, wHello, by decide +kernel⟩
  · exact ⟨wTwin 3 2 0, { wHello with ack := true, vmax := 1 }, by decide +kernel⟩
  · exact ⟨wTwin 3 2 0, { wHello with senior := false }, 3, by decide +kernel⟩
  · exact ⟨{ wTwin 3 7 2 with img := some wImage }, 7, 65535, ⟨2, [(7, 65535)], false⟩, wStream, by decide +kernel⟩
  · exact ⟨wTwin 2 3 2, ⟨2, [], true⟩, by decide +kernel⟩
  · exact ⟨wTwin 2 3 2, by decide +kernel⟩
  · exact ⟨wTwin 2 3 2, by decide +kernel⟩
  · exact ⟨wTwin 2 3 2, by decide +kernel⟩
  · exact ⟨wTwin 2 3 2, by decide +kernel⟩
  · exact ⟨wTwin 2 7 1, by decide +kernel⟩
  · exact ⟨wTwin 2 3 2, [4, 2, 9, 3], by decide +kernel⟩

/-- The hypotheses of the clauses of `TheRopeCarriesTimeLanesAndRoles` can be met. -/
theorem witness_TheRopeCarriesTimeLanesAndRoles :
    (∃ (s : State), s.twin = twPaired ∧ s.ropeUp = true ∧ s.modeCode ≠ mHold) ∧
    (∃ (s : State), s.ropeUp = true ∧ s.rope.timePend = none) ∧
    (∃ (s : State) (m : List Byte) (t1 t2 t3 t4 : Nat), s.ropeUp = true ∧ s.rope.timePend = some (t1, t2, t4) ∧ tsOf (m.drop 8) = t3 ∧ t3 ≠ 0 ∧
      (((t2 : Int) - t1) - ((t4 : Int) - t3)) % 2 = 0 ∧ 0 ≤ ((t4 : Int) - t1) - ((t3 : Int) - t2) ∧ ((t4 : Int) - t1) - ((t3 : Int) - t2) < 131072) ∧
    (∃ (s : State), s.ropeUp = true ∧ s.bpTcs ≠ 0 ∧ s.ropeCarries 6 = true) ∧
    (∃ (s : State), s.ropeUp = true) ∧
    (∃ (s : State) (c at_ : Nat), c < 8 ∧ s.rope.fcAt.lookup c = some at_ ∧ at_ + tUs 300 ≤ s.now) ∧
    (∃ (s : State) (k : Nat), k < 4 ∧ (s.getF TWN_LANE_MAP_ACTIVE).testBit k = true ∧ s.rope.reform = [] ∧ (∃ j, j < 4 ∧ j ≠ k ∧
      (s.getF TWN_LANE_MAP_ACTIVE).testBit j = true) ∧ (∀ f ∈ s.frames, f.port ≠ 65)) ∧
    (∃ (s : State) (k : Nat), k < 4 ∧ s.rope.reform = [k] ∧ (s.getF TWN_LANE_MAP_ACTIVE).testBit k = true ∧ s.getF TWN_LANE_MAP_ACTIVE ≠ 2 ^ k ∧
      s.reservations 65 = []) ∧
    (∃ (s : State) (k : Nat) (l : List Nat), k < 4 ∧ s.rope.reform = k :: l ∧ s.reforming = [] ∧ s.flag TWN_STATUS_SPARE_READY = true ∧
      s.rope.retired.contains (s.physLane k) = false) ∧
    (∃ (s : State) (k : Nat), s.ropeUp = true ∧ s.viram = 2 ∧ s.swappable k = true ∧ s.flag TWN_STATUS_SPARE_READY = true ∧
      s.flag TWN_STATUS_SENIOR = true ∧ s.modeCode ≠ mHold) ∧
    (∃ (s : State) (k : Nat), s.ropeUp = true ∧ s.viram = 2 ∧ s.flag TWN_STATUS_SENIOR = true ∧ s.swappable k = true ∧
      s.flag TWN_STATUS_SPARE_READY = true ∧ s.modeCode ≠ mHold) ∧
    (∃ (s : State) (k : Nat), s.ropeUp = true ∧ s.viram = 2 ∧ k < 4 ∧ s.flag TWN_STATUS_SPARE_READY = true ∧ s.rope.reform = [] ∧
      (s.getF TWN_LANE_MAP_ACTIVE).testBit k = true ∧ s.rope.swap = some (k, s.physLane k)) ∧
    (∃ (s : State), (s.twin = twCrevasse ∨ s.twin = twRefused)) ∧
    (∃ (s : State), s.twin ≠ twCrevasse ∧ s.twin ≠ twRefused) ∧
    (∃ (s : State) (h at_ : Nat), h < 65536 ∧ s.frerAt.lookup h = some at_ ∧ at_ + tMs (max 1 (s.getF TWN_FRER_CFG_RESET_MS)) ≤ s.now) := by
  refine ⟨?_, ?_, ?_, ?_, ?_, ?_, ?_, ?_, ?_, ?_, ?_, ?_, ?_, ?_, ?_⟩
  · exact ⟨wTwin 2 3 2, by decide +kernel⟩
  · exact ⟨{ wTwin 2 3 2 with rope := { RopeSt.reset with timeTx := some 5 } }, by decide +kernel⟩
  · exact ⟨{ wTwin 2 3 2 with rope := { RopeSt.reset with timePend := some (100, 90, 110) } }, [5, 2, 1, 0, 0, 0, 0, 0, 94, 0, 0, 0, 0, 0, 0, 0, 0, 0, 7], 100, 90, 94, 110, by decide +kernel⟩
  · exact ⟨((wTwin 2 3 2).setF (BPM_POOL_OCC_BP 3) 1).setF (BPM_POOL_CFG_TCS 3) 0x82, by decide +kernel⟩
  · exact ⟨(wTwin 2 3 2).setF (MAC_CTL_PFC_IGNORE 65) 2, by decide +kernel⟩
  · exact ⟨({ wTwin 2 3 2 with rope := { RopeSt.reset with fcAt := [(3, 5), (7, 6)] } } : State).setF TWN_FC_XOFF_RX 0x88, 7, 6, by decide +kernel⟩
  · exact ⟨wTwin 2 3 2, 3, by decide +kernel⟩
  · exact ⟨{ wTwin 2 3 2 with rope := { RopeSt.reset with reform := [3] } }, 3, by decide +kernel⟩
  · exact ⟨({ wTwin 2 3 2 with rope := { RopeSt.reset with reform := [3] } } : State).setF TWN_LANE_MAP_ACTIVE 7 |>.setF TWN_STATUS_SPARE_READY 1, 3, [], by decide +kernel⟩
  · exact ⟨((wTwin 2 3 2).setF TWN_STATUS_SPARE_READY 1).setF TWN_STATUS_SENIOR 1, 3, by decide +kernel⟩
  · exact ⟨((wTwin 2 3 2).setF TWN_STATUS_SPARE_READY 1).setF TWN_STATUS_SENIOR 1, 0, by decide +kernel⟩
  · exact ⟨({ wTwin 2 3 2 with rope := { RopeSt.reset with swap := some (3, 3) } } : State).setF TWN_STATUS_SPARE_READY 1, 3, by decide +kernel⟩
  · exact ⟨wTwin 3 4 0, by decide +kernel⟩
  · exact ⟨wTwin 2 3 0, by decide +kernel⟩
  · exact ⟨{ wTwin 2 3 2 with frerAt := [(7, 5)], now := 5 + tMs 65535 }, 7, 5, by decide +kernel⟩

/-- The hypotheses of the clauses of `DramKeepsItsRanks` can be met. -/
theorem witness_DramKeepsItsRanks :
    (∃ (s : State) (r : Nat), r < 8 ∧ s.fitted r = true ∧ s.getF (rkF r) = 0 ∧ s.spareFree (r / 4) = true ∧ s.flag DRC_STATUS_MIGRATING = false) ∧
    (∃ (s : State) (r : Nat), r < 8 ∧ s.spareFree (r / 4) = false) ∧
    (∃ (s : State) (r : Nat), s.flag DRC_STATUS_MIGRATING = true ∧ s.getF DRC_STATUS_MIG_RANK = r ∧ s.dramc.selfRefresh = false ∧
      s.age.retrainLater = false ∧ s.dramc.waits = []) ∧
    (∃ (s : State), s.mode.dramOpen = true ∧ s.dramc.selfRefresh = false) ∧
    (∃ (s : State), s.dramc.retrain = true) ∧
    (∃ (s : State), s.modeCode = mTest ∧ s.otp.descBurned = false) ∧
    (∃ (s : State) (c k : Nat), c < 4 ∧ k < 2 ∧ s.fitted (2 * c + k) = true ∧ s.mode.dramOpen = true ∧ s.dramc.selfRefresh = false ∧
      s.strictOn c = true) ∧
    (∃ (s : State) (c k : Nat), c < 4 ∧ k < 2 ∧ s.fitted (2 * c + k) = true ∧ s.mode.dramOpen = true ∧ s.dramc.selfRefresh = false ∧
      s.strictOn c = false ∧ s.postponedOf (2 * c + k) < 8) ∧
    (∃ (s : State) (c k : Nat), c < 4 ∧ k < 2 ∧ s.fitted (2 * c + k) = true ∧ s.mode.dramOpen = true ∧ s.dramc.selfRefresh = false ∧
      s.strictOn c = false ∧ 8 ≤ s.postponedOf (2 * c + k)) ∧
    (∃ (s : State) (c k code : Nat), c < 4 ∧ k < 2 ∧ s.fitted (2 * c + k) = true ∧ s.mode.dramOpen = true ∧ s.dramc.selfRefresh = false ∧ code ≤ 4) ∧
    (∃ (s : State) (c k : Nat), c < 4 ∧ k < 2 ∧ s.postponedOf (2 * c + k) ≠ 0) ∧
    (∃ (s : State) (c : Nat), c < 4 ∧ s.mode.dramOpen = true ∧ s.dramc.selfRefresh = false ∧ s.fitted (2 * c) = true ∧ s.fitted (2 * c + 1) = false ∧
      s.flag (DRC_CH_STATE_SPARE_HERE c) = false) ∧
    (∃ (s : State) (r : DramDone) (l : Look), s.reqOk r = true ∧ r.write = false ∧ (r.user = .treeFill l ∨ r.user = .flow l) ∧ r.first = .ok ∧
      s.poisoned r = false) ∧
    (∃ (s : State) (r : DramDone), s.reqOk r = true ∧ r.write = false ∧ r.user = .host ∧ r.first = .single ∧ s.poisoned r = false ∧
      s.quiet (345 + 7 * (r.rank / 2))) ∧
    (∃ (s : State) (r : DramDone), s.reqOk r = true ∧ r.write = false ∧ r.user = .host ∧ r.first = .double ∧ r.spare = false ∧ r.line < 2 ^ 26 ∧
      s.spareFree (r.rank / 4) = false ∧ s.quiet (339 + 7 * (r.rank / 2))) ∧
    (∃ (s : State) (r : DramDone), s.reqOk r = true ∧ r.write = false ∧ r.user = .host ∧ r.first = .parity ∧ r.again = .ok ∧ s.poisoned r = false) ∧
    (∃ (s : State) (r : DramDone), s.reqOk r = true ∧ r.user = .host ∧ s.quiet (342 + 7 * (r.rank / 2))) ∧
    (∃ (s : State) (r : DramDone), s.reqOk r = true ∧ r.first = .ok ∧ s.poisoned r = false) ∧
    (∃ (s : State) (r : DramDone), s.reqOk r = true ∧ r.first = .single ∧ s.poisoned r = false ∧ s.quiet (345 + 7 * (r.rank / 2))) := by
  refine ⟨?_, ?_, ?_, ?_, ?_, ?_, ?_, ?_, ?_, ?_, ?_, ?_, ?_, ?_, ?_, ?_, ?_, ?_, ?_⟩
  · exact ⟨wDram 3, 6, by decide +kernel⟩
  · exact ⟨{ wDram 3 with dramc := { DramSt.reset with used := 2 } }, 6, by decide +kernel⟩
  · exact ⟨((wDram 3).setF DRC_STATUS_MIGRATING 1).setF DRC_STATUS_MIG_RANK 6, 6, by decide +kernel⟩
  · exact ⟨wDram 3, by decide +kernel⟩
  · exact ⟨{ wDram 3 with dramc := { DramSt.reset with retrain := true } }, by decide +kernel⟩
  · exact ⟨wDram 6, by decide +kernel⟩
  · exact ⟨wDram 1, 3, 0, by decide +kernel⟩
  · exact ⟨{ wDram 3 with dramc := { DramSt.reset with postponed := [(6, 7)] } }, 3, 0, by decide +kernel⟩
  · exact ⟨{ wDram 3 with dramc := { DramSt.reset with postponed := [(6, 8)] } }, 3, 0, by decide +kernel⟩
  · exact ⟨wDram 3, 3, 0, 4, by decide +kernel⟩
  · exact ⟨{ wDram 3 with dramc := { DramSt.reset with postponed := [(6, 7)] } }, 3, 0, by decide +kernel⟩
  · exact ⟨wDram 3, 1, by decide +kernel⟩
  · exact ⟨wDram 3, { wDone with user := .flow (.frame 1) }, .frame 1, by decide +kernel⟩
  · exact ⟨(wDram 3).setF (FLT_SRC_CFG_N 352) 9, { wDone with first := .single }, by decide +kernel⟩
  · exact ⟨({ wDram 3 with dramc := { DramSt.reset with used := 1 } } : State).setF (FLT_SRC_CFG_N 346) 9, { wDone with first := .double, line := 67108863 }, by decide +kernel⟩
  · exact ⟨wDram 3, { wDone with first := .parity }, by decide +kernel⟩
  · exact ⟨(wDram 3).setF (FLT_SRC_CFG_N 349) 9, wDone, by decide +kernel⟩
  · exact ⟨wDram 3, wDone, by decide +kernel⟩
  · exact ⟨(wDram 3).setF (FLT_SRC_CFG_N 352) 9, { wDone with first := .single }, by decide +kernel⟩

/-- The hypotheses of the clauses of `TheMailboxAnswers` can be met. -/
theorem witness_TheMailboxAnswers :
    (∃ (s : State) (lo hi v : Nat), s.mbTakes 0 ∧ 2 ≤ s.mbReq.len ∧ lo = (s.mbReq.payload.getD 0 0).toNat ∧ hi = (s.mbReq.payload.getD 1 0).toNat ∧
      max lo 1 ≤ min hi 2 ∧ v = min hi 2) ∧
    (∃ (s : State) (lo hi : Nat), s.mbTakes 0 ∧ 2 ≤ s.mbReq.len ∧ lo = (s.mbReq.payload.getD 0 0).toNat ∧ hi = (s.mbReq.payload.getD 1 0).toNat ∧
      min hi 2 < max lo 1) ∧
    (∃ (s : State), s.mbTakes 1) ∧
    (∃ (s : State), s.mbReq.op = 1 ∧ HDM_MB_STATUS_BUSY.get (s.rd4 rHDM_MB_STATUS) = 1 ∧ s.quiet srcMailbox) ∧
    (∃ (s : State), s.mbTakes 0x10 ∧ s.mbReq.len = 0) ∧
    (∃ (s : State), s.mbTakes 0x10 ∧ s.mbReq.len = 8 ∧ s.crn.nonce = none) ∧
    (∃ (s : State), s.mbTakes 0x20) ∧
    (∃ (s : State), s.mbTakes 0x21 ∧ s.mbReq.len = 194 ∧ s.load.jtagNonce = none) ∧
    (∃ (s : State) (n hash : List Byte) (slot : Nat), s.mbTakes 0x21 ∧ s.mbReq.len = 194 ∧ s.load.jtagNonce = some n ∧
      slot = (s.mbReq.payload.getD 0 0).toNat ∧ hash = s.otp.keyHash.getD slot [] ∧ hash ≠ [] ∧ s.otp.revoked.testBit slot = false) ∧
    (∃ (s : State) (slot : Nat), s.mbTakes 0x30 ∧ s.mbReq.len = 49 ∧ slot = (s.mbReq.payload.getD 0 0).toNat ∧ slot < 4 ∧
      s.otp.keyHash.getD slot [] = []) ∧
    (∃ (s : State) (slot : Nat), s.mbTakes 0x31 ∧ s.mbReq.len = 1 ∧ slot = (s.mbReq.payload.getD 0 0).toNat ∧ slot < 4 ∧
      s.img.any (fun i => i.keySlot == slot) = false) := by
  refine ⟨?_, ?_, ?_, ?_, ?_, ?_, ?_, ?_, ?_, ?_, ?_⟩
  · exact ⟨wMb (wMode 3) 1 0 [1, 9], 1, 9, 2, by decide +kernel⟩
  · exact ⟨wMb (wMode 3) 1 0 [3, 9], 3, 9, by decide +kernel⟩
  · exact ⟨wMb (wMode 3) 2 1 [1, 2, 3, 4, 5], by decide +kernel⟩
  · exact ⟨((wMb (wMode 3) 2 1 [1]).wr4 rHDM_MB_STATUS 1).setF (FLT_SRC_CFG_N srcMailbox) 9, by decide +kernel⟩
  · exact ⟨wMb (wMode 7) 2 0x10 [], by decide +kernel⟩
  · exact ⟨wMb (wMode 7) 2 0x10 [1, 2, 3, 4, 5, 6, 7, 8], by decide +kernel⟩
  · exact ⟨wMb (wMode 3) 1 0x20 [], by decide +kernel⟩
  · exact ⟨wMb (wMode 3) 2 0x21 (List.replicate 194 1), by decide +kernel⟩
  · exact ⟨({ wMb (wMode 3) 2 0x21 (0 :: List.replicate 193 1) with load := { LoadSt.reset with jtagNonce := some [1] }, otp := { Otp.blank with keyHash := [[1], [], [], []] } } : State), [1], [1], 0, by decide +kernel⟩
  · exact ⟨wMb (wMode 6) 1 0x30 (3 :: List.replicate 48 7), 3, by decide +kernel⟩
  · exact ⟨wMb (wMode 7) 1 0x31 [3], 3, by decide +kernel⟩

/-- The hypotheses of the clauses of `DmaMovesBytes` can be met. -/
theorem witness_DmaMovesBytes :
    (∃ (s : State) (c n : Nat), c < 13 ∧ s.heldLo = [] ∧ s.getF (HDM_DMA_STATUS_BUSY c) = 0 ∧ s.getF (HDM_DMA_STATUS_SHUTDOWN c) = 0 ∧
      s.getF (HDM_DMA_CTL_EN c) = 1 ∧ s.getF (HDM_DMA_CTL_SRC_SPACE c) = 0 ∧ s.getF (HDM_DMA_CTL_DST_SPACE c) = 0 ∧
      s.getF (HDM_DMA_CTL_CRC_WR c) = 0 ∧ s.getF (HDM_DMA_CNT_BYTES c) = n ∧ 1 ≤ n ∧ n ≤ 16777216 ∧ s.pair (rHDM_DMA_SRC_LO c) + n ≤ 2 ^ 64 ∧
      s.pair (rHDM_DMA_DST_LO c) + n ≤ 2 ^ 64) ∧
    (∃ (s : State) (c : Nat), c < 13 ∧ s.heldLo = [] ∧ s.getF (HDM_DMA_STATUS_BUSY c) = 0 ∧ s.getF (HDM_DMA_CTL_EN c) = 0) ∧
    (∃ (s : State) (c : Nat), c < 13 ∧ s.getF (HDM_DMA_STATUS_BUSY c) = 1 ∧ s.quiet srcHostOther) ∧
    (∃ (s : State) (c : Nat) (r : DmaRun), s.dmaRun c = some r) ∧
    (∃ (s : State) (c : Nat) (r : DmaRun), c < 32 ∧ s.dmaRun c = some r ∧ s.getF (HDM_DMA_STATUS_BUSY c) = 1) ∧
    (∃ (s : State) (c : Nat), c < 32 ∧ s.getF (HDM_DMA_STATUS_BUSY c) = 0) ∧
    (∃ (s : State) (c n : Nat) (data : List Byte) (r : DmaRun), c < 32 ∧ s.dmaRun c = some r ∧ r.chan = c ∧ r.srcSpace = 0 ∧ r.dstSpace = 0 ∧
      r.desc = false ∧ r.stop = false ∧ n = min (r.cnt - r.moved) (512 - (r.dst + r.moved) % 512) ∧ r.moved < r.cnt ∧ r.cnt < 2 ^ 25 ∧
      data.length = n) ∧
    (∃ (s : State) (c : Nat) (data : List Byte) (r : DmaRun), c < 32 ∧ s.dmaRun c = some r ∧ r.chan = c ∧ r.srcSpace = 0 ∧ r.dstSpace = 0 ∧
      r.desc = false ∧ r.stop = true ∧ r.moved + 512 < r.cnt ∧ (r.dst + r.moved) % 512 = 0 ∧ r.cnt < 2 ^ 25 ∧ data.length = 512 ∧
      s.getF (HDM_DMA_STATUS_SHUTDOWN c) = 0) ∧
    (∃ (s : State) (c : Nat) (r : DmaRun), c < 32 ∧ s.dmaRun c = some r ∧ r.chan = c ∧ r.moved = r.cnt ∧ r.cnt < 2 ^ 25 ∧ r.crcWr = false ∧
      s.getF (HDM_DMA_STATUS_SHUTDOWN c) = 0) ∧
    (∃ (s : State) (c kind : Nat) (r : DmaRun), c < 32 ∧ 1 ≤ kind ∧ kind ≤ 4 ∧ s.dmaRun c = some r ∧ r.chan = c ∧ r.moved < 2 ^ 25 ∧
      s.getF (HDM_DMA_STATUS_SHUTDOWN c) = 0 ∧ s.quiet srcPcie) := by
  refine ⟨?_, ?_, ?_, ?_, ?_, ?_, ?_, ?_, ?_, ?_⟩
  · exact ⟨(wDma 12 0 0 16777216).wr (rHDM_DMA_DST_LO 12) 0x40, 12, 16777216, by decide +kernel⟩
  · exact ⟨(wDma 3 0 0 8).setF (HDM_DMA_CTL_EN 3) 0, 3, by decide +kernel⟩
  · exact ⟨((wDma 3 0 0 8).setF (HDM_DMA_STATUS_BUSY 3) 1).setF (FLT_SRC_CFG_N srcHostOther) 9, 3, by decide +kernel⟩
  · exact ⟨{ wDma 3 0 0 8 with dma := [wRun 2 8 0 [], wRun 3 8 0 []] }, 3, wRun 3 8 0 [], by decide +kernel⟩
  · exact ⟨{ (wDma 3 0 0 8).setF (HDM_DMA_STATUS_BUSY 3) 1 with dma := [wRun 2 8 0 [], wRun 3 8 0 []] }, 3, wRun 3 8 0 [], by decide +kernel⟩
  · exact ⟨wDma 31 0 0 8, 31, by decide +kernel⟩
  · exact ⟨{ wDma 3 0 0 8 with dma := [wRun 2 8 0 [], wRun 3 8 4 [9, 9, 9, 9]] }, 3, 4, [1, 2, 3, 4], wRun 3 8 4 [9, 9, 9, 9], by decide +kernel⟩
  · exact ⟨{ (wDma 3 0 0 8).setF (HDM_DMA_STATUS_BUSY 3) 1 with dma := [{ wRun 3 2000 0 [] with stop := true }] }, 3, List.replicate 512 7, { wRun 3 2000 0 [] with stop := true }, by decide +kernel⟩
  · exact ⟨{ (wDma 3 0 0 8).setF (HDM_DMA_STATUS_BUSY 3) 1 with dma := [wRun 2 8 0 [], wRun 3 9 9 [0x31, 0x32, 0x33, 0x34, 0x35, 0x36, 0x37, 0x38, 0x39]] }, 3, wRun 3 9 9 [0x31, 0x32, 0x33, 0x34, 0x35, 0x36, 0x37, 0x38, 0x39], by decide +kernel⟩
  · exact ⟨({ (wDma 3 0 0 8).setF (HDM_DMA_STATUS_BUSY 3) 1 with dma := [wRun 3 9 4 []] } : State).setF (FLT_SRC_CFG_N srcPcie) 9, 3, 4, wRun 3 9 4 [], by decide +kernel⟩

/-- The hypotheses of the clauses of `RingsLinkAndMessages` can be met. -/
theorem witness_RingsLinkAndMessages :
    (∃ (s : State) (n v : Nat), n < 16 ∧ v < s.ringSize n) ∧
    (∃ (s : State) (n v : Nat), n < 16 ∧ v < 65536 ∧ s.ringSize n ≤ v ∧ s.quiet srcHostOther) ∧
    (∃ (s : State) (r fid : Nat) (desc data : List Byte) (len : Nat), r < 8 ∧ s.flag (HDM_RING_CFG_EN r) = true ∧ s.ringHas r = true ∧
      s.frame fid = none ∧ s.notAdmitted 64 = none ∧ s.flag (BPM_POOL_OCC_BP (s.poolOf ((desc.getD 11 0).toNat % 8))) = false ∧ desc.length = 32 ∧
      s.txBad desc = false ∧ len = leNat ((desc.drop 8).take 2) ∧ data.length = len ∧ (desc.getD 10 0).toNat.testBit 0 = true) ∧
    (∃ (s : State) (r fid : Nat) (desc : List Byte), r < 8 ∧ s.flag (HDM_RING_CFG_EN r) = true ∧ s.ringHas r = true ∧ s.frame fid = none ∧
      s.notAdmitted 64 = none ∧ s.flag (BPM_POOL_OCC_BP (s.poolOf ((desc.getD 11 0).toNat % 8))) = false ∧ desc.length = 32 ∧ s.txBad desc = true) ∧
    (∃ (s : State) (fid n : Nat) (desc : List Byte) (f : Frame) (c : Copy), s.frame fid = some f ∧ s.copy fid 64 = some c ∧ c.phase = .sending ∧
      c.fid = fid ∧ c.port = 64 ∧ c.tailMark = false ∧ f.ended = true ∧ s.readOk c = true ∧ n = s.rxRing c.tc ∧ s.ringHas n = true ∧
      desc.length = 32 ∧ (s.copyBytes f c).1.length ≤ leNat ((desc.drop 8).take 2)) ∧
    (∃ (s : State) (n : Nat), n < 16 ∧ s.flag (HDM_RING_CFG_EN n) = true ∧ s.ringBusy n = false) ∧
    (∃ (s : State) (n : Nat), n < 16 ∧ s.flag (HDM_RING_CFG_EN n) = true ∧ s.ringBusy n = true) ∧
    (∃ (s : State) (n : Nat), n < 16 ∧ s.getF (HDM_RING_CFG_COAL_US n) ≠ 0 ∧ (s.ringSt n).unrep ≠ 0 ∧
      (s.ringSt n).since + tUs (s.getF (HDM_RING_CFG_COAL_US n)) ≤ s.now ∧ (s.ringSt n).ring = n ∧ (s.rd4 (rMSIX_CTL (64 + n))).getLsbD 0 = false) ∧
    (∃ (s : State) (g w : Nat), (g = 3 ∨ g = 4 ∨ g = 5) ∧ (w = 1 ∨ w = 2 ∨ w = 4 ∨ w = 8) ∧ s.mode.pcieUp = true ∧ s.reservations 64 = [] ∧
      s.getF HDM_LINK_GEN ≠ g) ∧
    (∃ (s : State), s.modeCode ≠ mBivouac ∧ s.frames = [] ∧ s.copies = []) ∧
    (∃ (s : State) (v : Nat), v < 256 ∧ (s.rd4 (rMSIX_PBA v)).getLsbD (v % 32) = true) ∧
    (∃ (s : State) (v : Nat), v < 256 ∧ (s.rd4 (rMSIX_PBA v)).getLsbD (v % 32) = false) ∧
    (∃ (ptr : Nat), ptr ≠ 9) ∧
    (∃ (b : List Byte), b.length < 4) ∧
    (∃ (s : State) (b : List Byte), s.asks ∧ s.running = true ∧ b.length = 4 ∧ leNat b = 0xA5C30005) ∧
    (∃ (s : State) (b : List Byte), s.modeCode = mBivouac ∧ s.mode.porst = false ∧ s.flag AON_WAKE_CFG_I2C_EN = true ∧ b.length = 4 ∧
      b.head? = some 0xA5) := by
  refine ⟨?_, ?_, ?_, ?_, ?_, ?_, ?_, ?_, ?_, ?_, ?_, ?_, ?_, ?_, ?_, ?_⟩
  · exact ⟨wRing 15, 15, 63, by decide +kernel⟩
  · exact ⟨(wRing 3).setF (FLT_SRC_CFG_N srcHostOther) 9, 3, 64, by decide +kernel⟩
  · exact ⟨wRing 7, 7, 9, [0, 0, 0, 0, 0, 0, 0, 0, 64, 0, 1, 3, 5, 0] ++ List.replicate 18 0, List.replicate 64 8, 64, by decide +kernel⟩
  · exact ⟨wRing 7, 7, 9, List.replicate 32 0, by decide +kernel⟩
  · exact ⟨{ wRing 8 with frames := [{ wF 1 0 with phase := .enqueued, ended := true }], copies := [{ wC 1 64 with phase := .sending, window := [], keys := List.replicate 128 0 }] }, 1, 8, [0, 16, 0, 0, 0, 0, 0, 0, 100, 0] ++ List.replicate 22 0, { wF 1 0 with phase := .enqueued, ended := true }, { wC 1 64 with phase := .sending, window := [], keys := List.replicate 128 0 }, by decide +kernel⟩
  · exact ⟨wRing 15, 15, by decide +kernel⟩
  · exact ⟨{ wRing 8 with copies := [{ wC 1 64 with phase := .sending }] }, 8, by decide +kernel⟩
  · exact ⟨({ (wRing 8).wr4 (rMSIX_CTL 72) 0 with rings := [⟨8, 3, 5⟩, ⟨9, 1, 1⟩] } : State).setF (HDM_RING_CFG_COAL_US 8) 255, 8, by decide +kernel⟩
  · exact ⟨({ wMode 3 with mode := { (wMode 3).mode with pcieUp := true } } : State).setF HDM_LINK_GEN 5, 3, 1, by decide +kernel⟩
  · exact ⟨{ (wDma 3 0 0 8) with dma := [wRun 3 9 4 []] }, by decide +kernel⟩
  · exact ⟨(wMode 3).wr4 (rMSIX_PBA 255) 0xC0000000, 255, by decide +kernel⟩
  · exact ⟨wMode 3, 0, by decide +kernel⟩
  · exact ⟨0, by decide +kernel⟩
  · exact ⟨[0xA5, 0, 0], by decide +kernel⟩
  · exact ⟨wMode 3, [0x05, 0, 0xC3, 0xA5], by decide +kernel⟩
  · exact ⟨(wMode 0).setF AON_WAKE_CFG_I2C_EN 1, [0xA5, 0, 0, 0], by decide +kernel⟩

/-- The hypotheses of the clauses of `FaultEventsAreCounted` can be met. -/
theorem witness_FaultEventsAreCounted :
    (∃ (s : State) (src : Nat) (u : FUnit) (v : Option Look), s.reaches src u v ∧ s.quiet src) ∧
    (∃ (s : State) (src fid p : Nat) (c : Copy), s.detects src ∧ 247 ≤ src ∧ src ≤ 262 ∧ s.quiet src ∧ s.copy fid p = some c ∧ c.started = true ∧
      s.threads.all (fun th => th.target != .copy fid p) = true) ∧
    (∃ (s : State) (src : Nat) (u : FUnit), s.gatedSource src u = true) ∧
    (∃ (s : State) (sl k : Nat) (th : Thread), s.detects 117 ∧ s.quiet 117 ∧ s.thread 16 sl = some th ∧ th.target = .task k ∧ sl < 64 ∧
      th.pc < 65536 ∧ th.patched = false) ∧
    (∃ (s : State) (src : Nat) (u : FUnit) (v : Option Look) (r : Reaction), s.reaches src u v ∧ s.shadowOf src = some r) ∧
    (∃ (s : State) (src g : Nat) (u : FUnit) (v : Option Look), s.reaches src u v ∧ s.severeNow src ∧ g = groupOf src ∧
      s.getF (FLT_GRP_STATUS_STATE g) = 0 ∧ 1 ≤ s.getF (FLT_GRP_CFG_CLASS g) ∧ s.getF (FLT_GRP_CFG_CLASS g) ≤ 3 ∧
      (s.flt.shadowEnd.lookup src).all (fun e => decide (e.1 + tMs 100 ≤ s.now)) = true ∧ s.rivalBelay g (eventUnit src u) = none) ∧
    (∃ (s : State) (src g : Nat) (u : FUnit) (v : Option Look), s.reaches src u v ∧ s.severeNow src ∧ g = groupOf src ∧
      s.getF (FLT_GRP_STATUS_STATE g) ≠ 0 ∧ s.getF (FLT_GRP_CFG_CLASS g) ≤ 3) ∧
    (∃ (s : State) (src g : Nat) (u : FUnit) (v : Option Look), s.reaches src u v ∧ s.severeNow src ∧ g = groupOf src ∧
      s.getF (FLT_GRP_STATUS_STATE g) = 0 ∧ s.getF (FLT_GRP_CFG_CLASS g) = 0) ∧
    (∃ (s : State) (src g : Nat) (u : FUnit) (v : Option Look), s.reaches src u v ∧ s.severeNow src ∧ g = groupOf src ∧
      s.getF (FLT_GRP_CFG_CLASS g) = 4 ∧ s.frames = [] ∧ s.copies = []) ∧
    (∃ (s : State) (g : Nat), g < 48 ∧ s.modeCode ≠ mBivouac ∧ s.getF (FLT_GRP_STATUS_STATE g) = 1) ∧
    (∃ (s : State) (g : Nat), s.getF (FLT_GRP_STATUS_STATE g) ≠ 1 ∧ s.quiet srcHostOther) ∧
    (∃ (s : State) (g : Nat), s.getF (FLT_GRP_STATUS_STATE g) ≠ 1 ∧ s.quiet srcHostOther) ∧
    (∃ (s : State) (g src d : Nat), g < 48 ∧ s.modeCode ≠ mBivouac ∧ s.getF (FLT_GRP_STATUS_STATE g) = 1 ∧ s.getF (FLT_GRP_CFG_CLASS g) = 1 ∧
      s.getF (FLT_GRP_STATUS_LAST_SOURCE g) = src ∧ 128 ≤ src ∧ src ≤ 151 ∧ s.isIso (.tile ((src - 128) / 6)) = false ∧
      (s.flt.sevUnit.lookup g).getD (.tile ((src - 128) / 6)) = .tile ((src - 128) / 6) ∧ s.flt.belay = [(g, d)] ∧ s.flt.reactions = []) ∧
    (∃ (s : State) (g src d : Nat), g < 48 ∧ s.modeCode ≠ mBivouac ∧ s.getF (FLT_GRP_STATUS_STATE g) = 1 ∧ s.getF (FLT_GRP_CFG_CLASS g) = 1 ∧
      s.getF (FLT_GRP_STATUS_LAST_SOURCE g) = src ∧ 128 ≤ src ∧ src ≤ 151 ∧ s.isIso (.tile ((src - 128) / 6)) = false ∧
      (s.flt.sevUnit.lookup g).getD (.tile ((src - 128) / 6)) = .tile ((src - 128) / 6) ∧ s.flt.belay = [(g, d)] ∧ d ≤ s.now ∧ s.flt.reactions = []) ∧
    (∃ (s : State) (g d : Nat), s.flt.belay.lookup g = some d ∧ s.now < d) ∧
    (∃ (s : State) (g q : Nat) (r : Reaction), g < 48 ∧ s.reactionOf g = some r ∧ r.done = none ∧ r.cls = 1 ∧ r.unit = .tile q ∧
      s.mode.parkWaits = false) ∧
    (∃ (s : State) (g b : Nat) (r : Reaction), g < 48 ∧ s.reactionOf g = some r ∧ r.done = none ∧ r.cls = 2 ∧ r.unit = .bankGroup b ∧
      s.mode.parkWaits = false ∧ s.getF TWN_STATUS_LANES ≠ 0) ∧
    (∃ (s : State) (g : Nat) (r : Reaction), s.reactionOf g = some r ∧ s.now < r.start + tUs (reactionBound r.cls)) ∧
    (∃ (s : State) (g c : Nat) (r : Reaction), g < 48 ∧ s.modeCode = mAbseil ∧ s.flt.reactions = [r] ∧ r.group = g ∧ r.done = none ∧ r.cls = 1 ∧
      r.unit = .lane c ∧ escalates r.source = true ∧ r.start + tUs 25 ≤ s.now ∧ s.isIso (.lane c) = false ∧ s.lanes = [] ∧ s.flt.belay = []) ∧
    (∃ (s : State) (g d : Nat) (r : Reaction), g < 48 ∧ s.reactionOf g = some r ∧ r.done = some d ∧ d + tUs 20 ≤ s.now) ∧
    (∃ (s : State) (g d : Nat) (r : Reaction), s.reactionOf g = some r ∧ r.done = some d ∧ s.now < d + tUs 20) ∧
    (∃ (s : State) (src : Nat), s.flag FLT_CTL_INJ_EN = true ∧ src < 412 ∧ s.quiet src ∧ s.injectUnit src = (s, (s.injectUnit src).2) ∧
      s.gatedSource src (s.injectUnit src).2 = false) ∧
    (∃ (s : State), s.flag FLT_CTL_INJ_EN = false ∧ s.quiet srcHostOther) ∧
    (∃ (s : State) (q : Nat), q < 4 ∧ s.quadPowered q = true ∧ (s.getF FLT_ISO_QUAD).testBit q = false ∧
      (s.flt.probeAt.lookup q).getD 0 + tUs 100 ≤ s.now ∧ s.quiet (277 + q)) ∧
    (∃ (s : State) (q : Nat), s.now < (s.flt.probeAt.lookup q).getD 0 + tUs 100) ∧
    (∃ (s : State) (q : Nat), q < 4 ∧ s.isSealed = true ∧ s.quadPowered q = true ∧ s.quiet (396 + q)) ∧
    (∃ (s : State), s.modeCode = mHold ∧ s.flt.holdMsg.head? = some 4 ∧ s.getF TWN_STATUS_LANES ≠ 0) ∧
    (∃ (s : State), s.modeCode ≠ mHold) := by
  refine ⟨?_, ?_, ?_, ?_, ?_, ?_, ?_, ?_, ?_, ?_, ?_, ?_, ?_, ?_, ?_, ?_, ?_, ?_, ?_, ?_, ?_, ?_, ?_, ?_, ?_, ?_, ?_, ?_⟩
  · exact ⟨(wMode 3).setF (FLT_SRC_CFG_N 300) 3, 300, .hostIf, none, by decide +kernel⟩
  · exact ⟨(wFr [{ wF 1 0 with phase := .enqueued, ended := true }] [{ wC 1 1 with phase := .sending, started := true }]).setF (FLT_SRC_CFG_N 250) 3, 250, 1, 1, { wC 1 1 with phase := .sending, started := true }, by decide +kernel⟩
  · exact ⟨wNet, 169, .noUnit, by decide +kernel⟩
  · exact ⟨({ wMode 3 with threads := [wTh 16 (.task 2)] } : State).setF (FLT_SRC_CFG_N 117) 3, 5, 2, wTh 16 (.task 2), by decide +kernel⟩
  · exact ⟨{ wMode 3 with flt := { (wMode 3).flt with reactions := [⟨7, 374, 1, .engine 16, false, 5, 0, [], [], none⟩] } }, 117, .noUnit, none, ⟨7, 374, 1, .engine 16, false, 5, 0, [], [], none⟩, by decide +kernel⟩
  · exact ⟨((wMode 3).setF (FLT_GRP_CFG_CLASS (groupOf 300)) 2).setF (FLT_GRP_CFG_BELAY_US (groupOf 300)) 1000, 300, groupOf 300, .hostIf, none, by decide +kernel⟩
  · exact ⟨((wMode 3).setF (FLT_GRP_CFG_CLASS (groupOf 411)) 1).setF (FLT_GRP_STATUS_STATE (groupOf 411)) 3, 411, groupOf 411, .noUnit, none, by decide +kernel⟩
  · exact ⟨(wMode 3).setF (FLT_GRP_CFG_CLASS (groupOf 300)) 0, 300, groupOf 300, .hostIf, none, by decide +kernel⟩
  · exact ⟨(wMode 3).setF (FLT_GRP_CFG_CLASS (groupOf 2)) 4, 2, groupOf 2, .noUnit, none, by decide +kernel⟩
  · exact ⟨((wMode 3).setF (FLT_GRP_STATUS_STATE 47) 1).setF FLT_PENDING_HI_GROUPS 0x8001, 47, by decide +kernel⟩
  · exact ⟨(wMode 3).setF (FLT_SRC_CFG_N srcHostOther) 9, 3, by decide +kernel⟩
  · exact ⟨((wMode 3).setF (FLT_SRC_CFG_N srcHostOther) 9).setF (FLT_GRP_STATUS_STATE 3) 2, 3, by decide +kernel⟩
  · exact ⟨(({ wMode 3 with flt := { (wMode 3).flt with belay := [(groupOf 130, 99)] } } : State).setF (FLT_GRP_STATUS_STATE (groupOf 130)) 1).setF (FLT_GRP_STATUS_LAST_SOURCE (groupOf 130)) 130 |>.setF (FLT_GRP_CFG_CLASS (groupOf 130)) 1, groupOf 130, 130, 99, by decide +kernel⟩
  · exact ⟨(({ wMode 3 with flt := { (wMode 3).flt with belay := [(groupOf 151, 99)] } } : State).setF (FLT_GRP_STATUS_STATE (groupOf 151)) 1).setF (FLT_GRP_STATUS_LAST_SOURCE (groupOf 151)) 151 |>.setF (FLT_GRP_CFG_CLASS (groupOf 151)) 1, groupOf 151, 151, 99, by decide +kernel⟩
  · exact ⟨{ wMode 3 with flt := { (wMode 3).flt with belay := [(4, 10000001)] } }, 4, 10000001, by decide +kernel⟩
  · exact ⟨{ wMode 3 with flt := { (wMode 3).flt with reactions := [⟨3, 130, 1, .engine 2, false, 0, 0, [], [], none⟩, ⟨7, 130, 1, .tile 0, false, 5, 0, [], [], none⟩] } }, 7, 0, ⟨7, 130, 1, .tile 0, false, 5, 0, [], [], none⟩, by decide +kernel⟩
  · exact ⟨({ wMode 3 with flt := { (wMode 3).flt with reactions := [⟨20, 250, 2, .bankGroup 3, true, 5, 0, [], [], none⟩] } } : State).setF TWN_STATUS_LANES 4, 20, 3, ⟨20, 250, 2, .bankGroup 3, true, 5, 0, [], [], none⟩, by decide +kernel⟩
  · exact ⟨{ wMode 3 with flt := { (wMode 3).flt with reactions := [⟨20, 250, 2, .bankGroup 3, true, 9999999, 0, [], [], none⟩] } }, 20, ⟨20, 250, 2, .bankGroup 3, true, 9999999, 0, [], [], none⟩, by decide +kernel⟩
  · exact ⟨{ wMode 4 with flt := { (wMode 4).flt with reactions := [⟨26, 290, 1, .lane 6, false, 1, 0, [], [], none⟩] } }, 26, 6, ⟨26, 290, 1, .lane 6, false, 1, 0, [], [], none⟩, by decide +kernel⟩
  · exact ⟨{ wMode 3 with flt := { (wMode 3).flt with reactions := [⟨3, 130, 1, .engine 2, false, 0, 0, [], [], none⟩, ⟨7, 130, 1, .tile 0, false, 5, 0, [], [], some 6⟩] } }, 7, 6, ⟨7, 130, 1, .tile 0, false, 5, 0, [], [], some 6⟩, by decide +kernel⟩
  · exact ⟨{ wMode 3 with flt := { (wMode 3).flt with reactions := [⟨7, 130, 1, .tile 0, false, 5, 0, [], [], some 9999999⟩] } }, 7, 9999999, ⟨7, 130, 1, .tile 0, false, 5, 0, [], [], some 9999999⟩, by decide +kernel⟩
  · exact ⟨((wMode 3).setF FLT_CTL_INJ_EN 1).setF (FLT_SRC_CFG_N 411) 9, 411, by decide +kernel⟩
  · exact ⟨(wMode 3).setF (FLT_SRC_CFG_N srcHostOther) 9, by decide +kernel⟩
  · exact ⟨wNet.setF (FLT_SRC_CFG_N 280) 2, 3, by decide +kernel⟩
  · exact ⟨{ wNet with flt := { wNet.flt with probeAt := [(2, 9999999)] } }, 2, by decide +kernel⟩
  · exact ⟨wNet.setF (FLT_SRC_CFG_N 397) 2, 1, by decide +kernel⟩
  · exact ⟨({ wMode mHold with flt := { (wMode mHold).flt with holdMsg := [4, 1, 5, 20] } } : State).setF TWN_STATUS_LANES 4, by decide +kernel⟩
  · exact ⟨(wMode 3).setF TWN_STATUS_LANES 4, by decide +kernel⟩

/-- The hypotheses of the clauses of `MarginsAreReplanned` can be met. -/
theorem witness_MarginsAreReplanned :
    (∃ (s : State) (base : Nat), (s.modeCode = mPaired ∨ s.modeCode = mSolo ∨ s.modeCode = mAbseil ∨ s.modeCode = mService) ∧ s.img.isSome = true ∧
      s.lastKind 4 = base ∧ base + 3600 * s.getF AGE_CFG_INTERVAL_H ≤ s.opSec ∧ s.age.firedFor ≠ some base ∧ s.flag AGE_CTL_REPLAN_EN = true ∧
      s.flag AGE_STATUS_RUNNING = false ∧ s.mode.park = 0) ∧
    (∃ (s : State), s.opSec < s.lastKind 4 + 3600 * s.getF AGE_CFG_INTERVAL_H) ∧
    (∃ (s : State) (n : Nat) (x : Int), s.modeCode ≠ mBivouac ∧ n < 8 ∧ s.img.isSome = true ∧ (x < signedOf 8 (s.getF AGE_CFG_T_LOW) ∨
      signedOf 8 (s.getF AGE_CFG_T_HIGH) < x)) ∧
    (∃ (s : State) (x : Int), signedOf 8 (s.getF AGE_CFG_T_LOW) ≤ x ∧ x ≤ signedOf 8 (s.getF AGE_CFG_T_HIGH)) ∧
    (∃ (s : State), (s.modeCode = mPaired ∨ s.modeCode = mSolo ∨ s.modeCode = mAbseil ∨ s.modeCode = mService) ∧ s.age.hot = true ∧
      s.flag AGE_CTL_REPLAN_EN = true ∧ s.flag AGE_STATUS_RUNNING = false ∧ s.mode.park = 0) ∧
    (∃ (s : State), (s.modeCode = mPaired ∨ s.modeCode = mSolo ∨ s.modeCode = mAbseil ∨ s.modeCode = mService) ∧ s.age.entryDue = true ∧
      s.flag AGE_CTL_REPLAN_EN = true ∧ s.flag AGE_STATUS_RUNNING = false ∧ s.mode.park = 0) ∧
    (∃ (s : State), (s.modeCode = mPaired ∨ s.modeCode = mSolo ∨ s.modeCode = mAbseil ∨ s.modeCode = mService) ∧ s.flag AGE_CTL_REPLAN_EN = true ∧
      s.flag AGE_STATUS_RUNNING = false ∧ s.mode.park = 0) ∧
    (∃ (s : State), ((s.modeCode ≠ mPaired ∧ s.modeCode ≠ mSolo ∧ s.modeCode ≠ mAbseil ∧ s.modeCode ≠ mService) ∨ s.flag AGE_STATUS_RUNNING = true ∨
      s.mode.park ≠ 0) ∧ s.flag AGE_CTL_REPLAN_EN = true) ∧
    (∃ (s : State), s.flag AGE_CTL_REPLAN_EN = false) ∧
    (∃ (s : State) (r : RoReading) (v : Nat), s.modeCode ≠ mBivouac ∧ s.img.isSome = true ∧ r.ro < 64 ∧ s.measured (roUnit r.ro) = true ∧
      -3000 ≤ r.slow ∧ r.slow ≤ 3000 ∧ s.flag AGE_STATUS_RUNNING = false ∧
      v = s.clampMv (coreTarget (s.getF AGE_CORE_BASE_MV) (max 0 r.slow).toNat) ∧
      coreTarget (s.getF AGE_CORE_BASE_MV) (max 0 r.slow).toNat ≤ s.getF AGE_AVS_WIN_MAX_MV) ∧
    (∃ (s : State) (r : RoReading), s.modeCode ≠ mBivouac ∧ s.img.isSome = true ∧ r.ro < 64 ∧ s.measured (roUnit r.ro) = true ∧ (r.slow < -3000 ∨
      3000 < r.slow) ∧ s.quiet 392) ∧
    (∃ (s : State) (g : Nat), s.age.goal = some g ∧ s.age.nackAt = none ∧ s.modeCode ≠ mHold ∧ s.age.stepAt + tUs 100 ≤ s.now ∧
      nextMv s.age.vcore g ≠ g) ∧
    (∃ (s : State) (g v : Nat), s.age.goal = some g ∧ s.age.nackAt = none ∧ s.modeCode ≠ mHold ∧ s.age.stepAt + tUs 100 ≤ s.now ∧
      nextMv s.age.vcore g = g ∧ s.getF AGE_AVS_WIN_MIN_MV ≤ v + 10 ∧ v ≤ s.getF AGE_AVS_WIN_MAX_MV + 10) ∧
    (∃ (s : State) (g : Nat), s.age.goal = some g ∧ s.age.nackAt = none ∧ s.modeCode ≠ mHold ∧ s.age.stepAt + tUs 100 ≤ s.now) ∧
    (∃ (s : State) (g n : Nat), s.age.goal = some g ∧ s.age.nackAt = some n ∧ n + tMs 1 ≤ s.now ∧ nextMv s.age.vcore g ≠ g) ∧
    (∃ (s : State) (g n : Nat), s.age.goal = some g ∧ s.age.nackAt = some n ∧ n + tMs 1 ≤ s.now ∧ s.quiet 393) ∧
    (∃ (s : State) (c : Nat), s.laneUp c = true ∧ (c < 24 ∨ (64 ≤ c ∧ c < 69))) ∧
    (∃ (s : State) (c : Nat), s.laneUp c = false) ∧
    (∃ (s : State) (m : Margins) (e0 e1 e2 e3 : Nat × Nat), s.flag AGE_STATUS_RUNNING = true ∧ 3 ≤ s.getF AGE_STATUS_STEP ∧
      s.flag AGE_STATUS_PENDING = false ∧ s.flag DRC_STATUS_MIGRATING = false ∧ s.lanes = [] ∧ m.eyes = [] ∧ m.tunes = [] ∧
      m.dram = [e0, e1, e2, e3] ∧ (∀ e ∈ m.dram, s.getF AGE_DRAM_FLOOR_PS ≤ e.1 ∧ s.getF AGE_DRAM_FLOOR_PS ≤ e.2) ∧
      s.getF AGE_SRAM_FLOOR_MV + 10 ≤ m.sram ∧ m.sram ≤ s.getF AGE_SRAM_FLOOR_MV + 40 ∧ m.sram < 256 ∧ s.history.length < 5) ∧
    (∃ (s : State), (s.flag AGE_STATUS_RUNNING = false ∨ s.getF AGE_STATUS_STEP < 3)) ∧
    (∃ (s : State) (n : Nat), n < 4 ∧ s.modeCode ≠ mBivouac ∧ s.mode.porst = false) ∧
    (∃ (s : State) (n : Nat), n < 4 ∧ s.modeCode ≠ mBivouac ∧ s.mode.porst = false ∧ s.quiet 395) := by
  refine ⟨?_, ?_, ?_, ?_, ?_, ?_, ?_, ?_, ?_, ?_, ?_, ?_, ?_, ?_, ?_, ?_, ?_, ?_, ?_, ?_, ?_, ?_⟩
  · exact ⟨({ wMode 3 with mode := { (wMode 3).mode with opBase := 3600 * 24 * 27000000000 } } : State).setF AGE_CTL_REPLAN_EN 1 |>.setF AGE_CFG_INTERVAL_H 24, 0, by decide +kernel⟩
  · exact ⟨(wMode 3).setF AGE_CFG_INTERVAL_H 24, by decide +kernel⟩
  · exact ⟨(wMode 3).setF AGE_CFG_T_HIGH 90 |>.setF AGE_CFG_T_LOW 0xF0, 7, -17, by decide +kernel⟩
  · exact ⟨(wMode 3).setF AGE_CFG_T_HIGH 90 |>.setF AGE_CFG_T_LOW 0xF0, -16, by decide +kernel⟩
  · exact ⟨({ wMode 3 with age := { (wMode 3).age with hot := true } } : State).setF AGE_CTL_REPLAN_EN 1, by decide +kernel⟩
  · exact ⟨({ wMode 2 with age := { (wMode 2).age with entryDue := true } } : State).setF AGE_CTL_REPLAN_EN 1, by decide +kernel⟩
  · exact ⟨(wMode mService).setF AGE_CTL_REPLAN_EN 1 |>.setF AGE_STATUS_PENDING 1, by decide +kernel⟩
  · exact ⟨(wMode mHold).setF AGE_CTL_REPLAN_EN 1, by decide +kernel⟩
  · exact ⟨(wMode 3).setF AGE_CTL_REPLAN_EN 0, by decide +kernel⟩
  · exact ⟨(wMode 3).setF AGE_CORE_BASE_MV 750 |>.setF AGE_AVS_WIN_MAX_MV 900 |>.setF AGE_AVS_WIN_MIN_MV 700, ⟨63, 70000, 101⟩, 765, by decide +kernel⟩
  · exact ⟨(wMode 3).setF (FLT_SRC_CFG_N 392) 5, ⟨63, 100, 3001⟩, by decide +kernel⟩
  · exact ⟨{ wMode 3 with age := { (wMode 3).age with goal := some 765, vcore := 750 } }, 765, by decide +kernel⟩
  · exact ⟨({ wMode 3 with age := { (wMode 3).age with goal := some 765, vcore := 763 } } : State).setF AGE_AVS_WIN_MAX_MV 900 |>.setF AGE_AVS_WIN_MIN_MV 700 |>.setF AGE_STATUS_RUNNING 1 |>.setF AGE_STATUS_STEP 2, 765, 766, by decide +kernel⟩
  · exact ⟨{ wMode 3 with age := { (wMode 3).age with goal := some 765, vcore := 750 } }, 765, by decide +kernel⟩
  · exact ⟨{ wMode 3 with age := { (wMode 3).age with goal := some 700, vcore := 750, nackAt := some 1 }, now := 100000000 }, 700, 1, by decide +kernel⟩
  · exact ⟨({ wMode 3 with age := { (wMode 3).age with goal := some 765, vcore := 750, nackAt := some 1 }, now := 100000000 } : State).setF (FLT_SRC_CFG_N 393) 2, 765, 1, by decide +kernel⟩
  · exact ⟨wLinks.setF (LAN_STATUS_LOCKED 1) 1, 1, by decide +kernel⟩
  · exact ⟨wLinks, 1, by decide +kernel⟩
  · exact ⟨(wMode 3).setF AGE_STATUS_RUNNING 1 |>.setF AGE_STATUS_STEP 3 |>.setF AGE_DRAM_FLOOR_PS 10, ⟨20, 0, [], [], [(40, 41), (42, 43), (44, 45), (46, 70000)]⟩, (40, 41), (42, 43), (44, 45), (46, 70000), by decide +kernel⟩
  · exact ⟨wMode 3, by decide +kernel⟩
  · exact ⟨wMode 3, 3, by decide +kernel⟩
  · exact ⟨(wMode 3).setF (FLT_SRC_CFG_N 395) 2, 0, by decide +kernel⟩

/-- The hypotheses of the clauses of `CairnsAreKept` can be met. -/
theorem witness_CairnsAreKept :
    (∃ (s : State) (c : Cairn) (rest : List Cairn) (u : Nat), s.modeCode ≠ mBivouac ∧ s.flag CRN_STATUS_CLEARING = false ∧
      s.flag CRN_STATUS_FULL = false ∧ s.crn.queue = c :: rest ∧ s.getF CRN_STATUS_USED = u ∧ u < 65535 ∧ u + 1 ≠ 256 * s.getF CRN_CFG_NEAR_FULL ∧
      (s.slotBytes u).all (· == 0) = true) ∧
    (∃ (s : State) (u : Nat), s.modeCode ≠ mBivouac ∧ s.flag CRN_STATUS_CLEARING = false ∧ s.flag CRN_STATUS_FULL = false ∧ s.crn.queue ≠ [] ∧
      s.getF CRN_STATUS_USED = u ∧ u < 65535 ∧ u + 1 ≠ 256 * s.getF CRN_CFG_NEAR_FULL ∧ (s.slotBytes u).any (· != 0) = true) ∧
    (∃ (s : State) (c : Cairn) (rest : List Cairn), s.modeCode ≠ mBivouac ∧ s.flag CRN_STATUS_CLEARING = false ∧ s.flag CRN_STATUS_FULL = true ∧
      s.crn.queue = c :: rest) ∧
    (∃ (s : State) (u : Nat), s.modeCode ≠ mBivouac ∧ s.flag CRN_STATUS_CLEARING = false ∧ s.flag CRN_STATUS_FULL = false ∧ s.crn.queue ≠ [] ∧
      s.getF CRN_STATUS_USED = u ∧ u < 65535 ∧ u + 1 ≠ 256 * s.getF CRN_CFG_NEAR_FULL ∧ (s.slotBytes u).all (· == 0) = true ∧ s.quiet 378) ∧
    (∃ (s : State), s.modeCode ≠ mBivouac ∧ s.lastKind 2 + 3600 * max 1 (s.getF CRN_CFG_INTERVAL_H) ≤ s.opSec ∧ s.ports = [] ∧ s.flt.accum = [] ∧
      s.crn.queue.length < 256) ∧
    (∃ (s : State), s.opSec < s.lastKind 2 + 3600 * max 1 (s.getF CRN_CFG_INTERVAL_H)) ∧
    (∃ (s : State), s.modeCode ≠ mBivouac) ∧
    (∃ (s : State), s.flag CRN_STATUS_EXPORTING = false ∧ s.flag CRN_STATUS_CLEARING = false ∧ s.heldLo = []) ∧
    (∃ (s : State), (s.flag CRN_STATUS_EXPORTING = true ∨ s.flag CRN_STATUS_CLEARING = true)) ∧
    (∃ (s : State), s.flag CRN_STATUS_EXPORTING = true) ∧
    (∃ (s : State), s.flag CRN_STATUS_EXPORTING = false) ∧
    (∃ (s : State) (i : Nat), s.flag CRN_STATUS_EXPORTING = true ∧ s.flag (HDM_DMA_CTL_EN 14) = true ∧ s.crn.exportNext = i ∧
      s.crn.exportEnd = i + 1 ∧ s.getF CRN_EXPORT_DONE_SLOTS < 65536) ∧
    (∃ (s : State), s.flag (HDM_DMA_CTL_EN 14) = false) ∧
    (∃ (s : State), s.modeCode = mTest ∧ s.otp.cairnKey = none) ∧
    (∃ (s : State) (k : List Byte), s.modeCode = mTest ∧ s.otp.cairnKey = some k) ∧
    (∃ (s : State), s.modeCode ≠ mTest) ∧
    (∃ (s : State), s.flag CRN_STATUS_CLEARING = true) ∧
    (∃ (s : State), s.flag CRN_STATUS_CLEARING = false) ∧
    (∃ (s : State) (o i : Nat), o % 8 = 0 ∧ o < 4096 ∧ i = s.getF CRN_CURSOR_INDEX / 64 * 64 + o / 64 ∧ slotValid (s.slotBytes i) = true) ∧
    (∃ (s : State) (o : Nat) (w : Word), o % 8 = 4 ∧ o < 4092 ∧ s.latch.lookup (0xC01000 + o) = some w) ∧
    (∃ (s : State) (o i : Nat), o % 64 = 0 ∧ o < 4096 ∧ i = s.getF CRN_CURSOR_INDEX / 64 * 64 + o / 64 ∧ slotValid (s.slotBytes i) = false) ∧
    (∃ (s : State) (w : Word), s.flag CRN_CTL_AUTO_ADV = true ∧ s.latch.lookup 0xC01FFC = some w) := by
  refine ⟨?_, ?_, ?_, ?_, ?_, ?_, ?_, ?_, ?_, ?_, ?_, ?_, ?_, ?_, ?_, ?_, ?_, ?_, ?_, ?_, ?_, ?_⟩
  · exact ⟨({ wMode 3 with crn := { (wMode 3).crn with queue := [⟨0x42, 0, 5, 7, 3, 8, 1, [1, 2]⟩, ⟨2, 0, 0, 7, 3, 8, 1, []⟩] } } : State).setF CRN_STATUS_USED 3 |>.setF CRN_CFG_FMT_REQ 2, ⟨0x42, 0, 5, 7, 3, 8, 1, [1, 2]⟩, [⟨2, 0, 0, 7, 3, 8, 1, []⟩], 3, by decide +kernel⟩
  · exact ⟨({ wMode 3 with crn := { (wMode 3).crn with queue := [⟨0x42, 0, 5, 7, 3, 8, 1, [1, 2]⟩], mram := [(193, 1)] } } : State).setF CRN_STATUS_USED 3, 3, by decide +kernel⟩
  · exact ⟨({ wMode 3 with crn := { (wMode 3).crn with queue := [⟨0x42, 0, 5, 7, 3, 8, 1, [1, 2]⟩] } } : State).setF CRN_STATUS_FULL 1, ⟨0x42, 0, 5, 7, 3, 8, 1, [1, 2]⟩, [], by decide +kernel⟩
  · exact ⟨({ wMode 3 with crn := { (wMode 3).crn with queue := [⟨0x42, 0, 5, 7, 3, 8, 1, [1, 2]⟩] } } : State).setF (FLT_SRC_CFG_N 378) 2, 0, by decide +kernel⟩
  · exact ⟨({ wMode 3 with mode := { (wMode 3).mode with opBase := 16 * 3600 * 27000000000 } } : State), by decide +kernel⟩
  · exact ⟨wMode 3, by decide +kernel⟩
  · exact ⟨{ wMode 3 with crn := { (wMode 3).crn with tBins := [(6, 4)] } }, by decide +kernel⟩
  · exact ⟨(wMode 3).setF CRN_STATUS_USED 9 |>.setF CRN_EXPORT_FROM_INDEX 2 |>.setF CRN_EXPORT_ADDR_LO_ADDR 0x1000, by decide +kernel⟩
  · exact ⟨(wMode 3).setF CRN_STATUS_CLEARING 1, by decide +kernel⟩
  · exact ⟨(wMode 3).setF CRN_STATUS_EXPORTING 1, by decide +kernel⟩
  · exact ⟨wMode 3, by decide +kernel⟩
  · exact ⟨({ wMode 3 with crn := { (wMode 3).crn with exportNext := 2, exportEnd := 3, exportFrom := 1, exportAddr := 0x1000 } } : State).setF CRN_STATUS_EXPORTING 1 |>.setF (HDM_DMA_CTL_EN 14) 1, 2, by decide +kernel⟩
  · exact ⟨(wMode 3).setF CRN_STATUS_EXPORTING 1 |>.setF (HDM_DMA_CTL_EN 14) 0, by decide +kernel⟩
  · exact ⟨(wMode mTest).setF (CRN_OTP_KEY_KEY 7) 0x12345678, by decide +kernel⟩
  · exact ⟨{ wMode mTest with otp := { (wMode mTest).otp with cairnKey := some [1] } }, [1], by decide +kernel⟩
  · exact ⟨wMode 3, by decide +kernel⟩
  · exact ⟨({ wMode 3 with crn := { (wMode 3).crn with mram := [(193, 1)] } } : State).setF CRN_STATUS_CLEARING 1 |>.setF CRN_STATUS_FULL 1 |>.setF CRN_LOST_COUNT 5, by decide +kernel⟩
  · exact ⟨wMode 3, by decide +kernel⟩
  · exact ⟨({ wMode 3 with crn := { (wMode 3).crn with mram := [(64, 0x4B), (65, 1), (68, 9), (120, 0x5B), (121, 0x6A)] } } : State), 64, 1, by decide +kernel⟩
  · exact ⟨{ wMode 3 with latch := [(0xC01044, 7)] }, 0x44, 7, by decide +kernel⟩
  · exact ⟨wMode 3, 0, 0, by decide +kernel⟩
  · exact ⟨({ wMode 3 with latch := [(0xC01FFC, 7)] } : State).setF CRN_CTL_AUTO_ADV 1 |>.setF CRN_CURSOR_INDEX 65535, 7, by decide +kernel⟩

/-- The hypotheses of the clauses of `TalliesAreClearedAndCaptured` can be met. -/
theorem witness_TalliesAreClearedAndCaptured :
    (∃ (s : State), s.flag TLY_SNAP_STATUS_BUSY = false ∧ s.heldLo = []) ∧
    (∃ (s : State), s.flag TLY_SNAP_STATUS_BUSY = true) ∧
    (∃ (s : State), s.flag TLY_SNAP_STATUS_BUSY = true) ∧
    (∃ (s : State) (p : Nat), s.getF TLY_CFG_SNAP_PERIOD_MS = p ∧ p ≠ 0 ∧ s.tly.periodAt + p * 1000000 ≤ s.localNs ∧
      s.flag TLY_SNAP_STATUS_BUSY = false ∧ s.heldLo = []) ∧
    (∃ (s : State), (s.getF TLY_CFG_SNAP_PERIOD_MS = 0 ∨ s.localNs < s.tly.periodAt + s.getF TLY_CFG_SNAP_PERIOD_MS * 1000000)) ∧
    (∃ (s : State) (r : SnapRun) (body : List Byte), s.tly.run = some r ∧ s.flag (HDM_DMA_CTL_EN 15) = true ∧ r.scope.testBit 2 = false ∧
      body = r.body.flatMap (leBytes 8)) ∧
    (∃ (s : State), s.flag (HDM_DMA_CTL_EN 15) = false) ∧
    (∃ (s : State) (p : Nat), p < 68 ∧ s.tly.cut = false ∧ s.tly.winAt / (1000 * s.winUs) < s.localNs / (1000 * s.winUs)) ∧
    (∃ (s : State), s.tly.cut = true ∧ s.tly.winAt / (1000 * s.winUs) < s.localNs / (1000 * s.winUs)) ∧
    (∃ (s : State), s.localNs / (1000 * s.winUs) ≤ s.tly.winAt / (1000 * s.winUs)) ∧
    (∃ (s : State) (h k v : Nat), h < 65536 ∧ k < 6 ∧ v = (s.strm.lookup (8 * h + k)).getD 0 ∧ v < 2 ^ 48) := by
  refine ⟨?_, ?_, ?_, ?_, ?_, ?_, ?_, ?_, ?_, ?_, ?_⟩
  · exact ⟨(wNet.setF TLY_SNAP_ADDR_LO_ADDR 0x1040).setF TLY_SNAP_SCOPE_EVENTS 1, by decide +kernel⟩
  · exact ⟨wNet.setF TLY_SNAP_STATUS_BUSY 1, by decide +kernel⟩
  · exact ⟨({ wNet with tly := { wNet.tly with run := some ⟨64, 1, 7, 5, 6, 0, 9, [1]⟩ } } : State).setF TLY_SNAP_STATUS_BUSY 1, by decide +kernel⟩
  · exact ⟨({ wNet with now := 27000000 * 5 } : State).setF TLY_CFG_SNAP_PERIOD_MS 3, 3, by decide +kernel⟩
  · exact ⟨wNet.setF TLY_CFG_SNAP_PERIOD_MS 3, by decide +kernel⟩
  · exact ⟨({ wNet with tly := { wNet.tly with run := some ⟨64, 1, 3, 5, 6, 0, 9, [1, 2]⟩ } } : State).setF TLY_SNAP_STATUS_BUSY 1 |>.setF (HDM_DMA_CTL_EN 15) 1, ⟨64, 1, 3, 5, 6, 0, 9, [1, 2]⟩, [1, 0, 0, 0, 0, 0, 0, 0, 2, 0, 0, 0, 0, 0, 0, 0], by decide +kernel⟩
  · exact ⟨({ wNet with tly := { wNet.tly with run := some ⟨64, 1, 3, 5, 6, 0, 9, [1, 2]⟩ } } : State).setF (HDM_DMA_CTL_EN 15) 0, by decide +kernel⟩
  · exact ⟨({ wNet with bw := [(67, (12345, 999999999))] } : State), 67, by decide +kernel⟩
  · exact ⟨{ wNet with bw := [(67, (12345, 999999999))], tly := { wNet.tly with cut := true } }, by decide +kernel⟩
  · exact ⟨{ wNet with now := 0 }, by decide +kernel⟩
  · exact ⟨{ wNet with strm := [(8 * 65535 + 5, 2 ^ 47 + 3)], strmCarry := [8 * 65535 + 5] }, 65535, 5, 2 ^ 47 + 3, by decide +kernel⟩

/-- The hypotheses of the clauses of `UndefinedOffsetsReadZero` can be met. -/
theorem witness_UndefinedOffsetsReadZero :
    (∃ (o : Nat), undefinedAt o ∧ inSpan o = true) ∧
    (∃ (o : Nat), undefinedAt o ∧ inSpan o = true) ∧
    (∃ (s : State) (o : Nat), o % 4 = 0 ∧ inSpan o = false ∧ s.quiet srcAccess) ∧
    (∃ (s : State) (o : Nat), o % 4 = 0 ∧ inSpan o = false ∧ s.quiet srcAccess) := by
  refine ⟨?_, ?_, ?_, ?_⟩
  · exact ⟨0xFFF0, by decide +kernel⟩
  · exact ⟨0x20FFC, by decide +kernel⟩
  · exact ⟨w0, 0xFFFFFC, by decide +kernel⟩
  · exact ⟨w0, 0x30000, by decide +kernel⟩

/-- The hypotheses of the clauses of `InjectionPresentsAnEvent` can be met. -/
theorem witness_InjectionPresentsAnEvent :
    (∃ (s : State) (src val : Nat), s.flag FLT_CTL_INJ_EN = true ∧ val < 2 ^ 32 ∧ val.testBit 31 = true ∧ val % 512 = src ∧ s.detects src) ∧
    (∃ (s : State) (val : Nat), s.flag FLT_CTL_INJ_EN = false ∧ val < 2 ^ 32 ∧ val.testBit 31 = true ∧ s.quiet srcHostOther) ∧
    (∃ (s : State) (val : Nat), s.isSealed = true ∧ b2n (s.flag FLT_CTL_INJ_EN) ≠ val % 2 ∧ s.quiet srcRwl) ∧
    (∃ (s : State), s.isSealed = false) := by
  refine ⟨?_, ?_, ?_, ?_⟩
  · exact ⟨((wMode 3).setF FLT_CTL_INJ_EN 1), 300, 0x8000012C, by decide +kernel⟩
  · exact ⟨(wMode 3).setF (FLT_SRC_CFG_N srcHostOther) 9, 0x80000002, by decide +kernel⟩
  · exact ⟨(wMode 3).setF (FLT_SRC_CFG_N srcRwl) 9, 1, by decide +kernel⟩
  · exact ⟨w0, by decide +kernel⟩

/-- The hypotheses of the clauses of `ABusyGroupOnlyCounts` can be met. -/
theorem witness_ABusyGroupOnlyCounts :
    (∃ (s : State) (src g : Nat) (u : FUnit) (v : Option Look), s.reaches src u v ∧ s.severeNow src ∧ g = groupOf src ∧
      s.getF (FLT_GRP_STATUS_STATE g) ≠ 0 ∧ s.getF (FLT_GRP_CFG_CLASS g) ≤ 3) ∧
    (∃ (s : State) (src g : Nat) (u : FUnit) (v : Option Look), s.reaches src u v ∧ s.severeNow src ∧ g = groupOf src ∧
      s.getF (FLT_GRP_STATUS_STATE g) = 0 ∧ 1 ≤ s.getF (FLT_GRP_CFG_CLASS g) ∧ s.getF (FLT_GRP_CFG_CLASS g) ≤ 3 ∧
      (s.flt.shadowEnd.lookup src).all (fun e => decide (e.1 + tMs 100 ≤ s.now)) = true ∧ s.rivalBelay g (eventUnit src u) = none) := by
  refine ⟨?_, ?_⟩
  · exact ⟨(((wMode 3).setF (FLT_GRP_CFG_CLASS (groupOf 411)) 1).setF (FLT_GRP_STATUS_STATE (groupOf 411)) 3).setF (FLT_SRC_CFG_N 411) 3 |>.setF (FLT_SRC_STATE_WIN_COUNT 411) 2 |>.setF (FLT_SRC_CFG_W_US 411) 100000, 411, groupOf 411, .noUnit, none, by decide +kernel⟩
  · exact ⟨(((wMode 3).setF (FLT_GRP_CFG_CLASS (groupOf 411)) 1).setF (FLT_SRC_CFG_N 411) 3 |>.setF (FLT_SRC_STATE_WIN_COUNT 411) 2 |>.setF (FLT_SRC_CFG_W_US 411) 100000), 411, groupOf 411, .noUnit, none, by decide +kernel⟩

/-- The hypotheses of the clauses of `TheClearingKeyIsBurnedOnce` can be met. -/
theorem witness_TheClearingKeyIsBurnedOnce :
    (∃ (s : State) (n val : Nat), n < 8 ∧ val < 2 ^ 32 ∧ s.modeCode = mTest) ∧
    (∃ (s : State) (k : List Byte), s.modeCode = mTest ∧ s.otp.cairnKey = none ∧
      k = (List.range 8).flatMap (fun n => leBytes 4 (s.getF (CRN_OTP_KEY_KEY n)))) ∧
    (∃ (s : State) (k : List Byte), s.modeCode = mTest ∧ s.otp.cairnKey = some k) ∧
    (∃ (s : State), s.modeCode ≠ mTest) ∧
    (∃ (s : State), s.modeCode ≠ mBivouac ∧ s.frames = [] ∧ s.copies = []) := by
  refine ⟨?_, ?_, ?_, ?_, ?_⟩
  · exact ⟨wMode mTest, 7, 0x12345678, by decide +kernel⟩
  · exact ⟨(wMode mTest).setF (CRN_OTP_KEY_KEY 0) 0x12345678, leBytes 4 0x12345678 ++ List.replicate 28 0, by decide +kernel⟩
  · exact ⟨{ wMode mTest with otp := { (wMode mTest).otp with cairnKey := some [1] } }, [1], by decide +kernel⟩
  · exact ⟨wMode 3, by decide +kernel⟩
  · exact ⟨{ wMode 3 with otp := { (wMode 3).otp with cairnKey := some [1] } }, by decide +kernel⟩

/-- The hypotheses of the clauses of `TheCoreTargetFollowsTheWorstOscillator` can be met. -/
theorem witness_TheCoreTargetFollowsTheWorstOscillator :
    (∃ (s : State), s.getF AGE_AVS_WIN_MIN_MV ≤ s.getF AGE_AVS_WIN_MAX_MV) ∧
    (∃ (s : State) (l : List RoReading), s.modeCode ≠ mBivouac ∧ s.img.isSome = true ∧ l ≠ [] ∧ s.flag AGE_STATUS_RUNNING = false ∧
      (∀ r ∈ l, r.ro < 64 ∧ s.measured (roUnit r.ro) = true ∧ -3000 ≤ r.slow ∧ r.slow ≤ 3000 ∧
      coreTarget (s.getF AGE_CORE_BASE_MV) (max 0 r.slow).toNat ≤ s.getF AGE_AVS_WIN_MAX_MV)) ∧
    (∃ (s : State) (r : RoReading) (m : Nat), s.modeCode ≠ mBivouac ∧ s.img.isSome = true ∧ r.ro < 64 ∧ s.measured (roUnit r.ro) = true ∧
      -3000 ≤ r.slow ∧ r.slow ≤ 3000 ∧ s.flag AGE_STATUS_RUNNING = false ∧ s.flag AGE_STATUS_VCORE_LIMIT = false ∧ s.getF AGE_AVS_WIN_MAX_MV = m ∧
      s.getF AGE_AVS_WIN_MIN_MV ≤ m ∧ m < coreTarget (s.getF AGE_CORE_BASE_MV) (max 0 r.slow).toNat ∧ s.quiet 387) := by
  refine ⟨?_, ?_, ?_⟩
  · exact ⟨w0, by decide +kernel⟩
  · exact ⟨(wMode 3).setF AGE_CORE_BASE_MV 750 |>.setF AGE_AVS_WIN_MAX_MV 900 |>.setF AGE_AVS_WIN_MIN_MV 700, [⟨63, 700, 101⟩, ⟨62, 700, 202⟩, ⟨61, 700, -3⟩], by decide +kernel⟩
  · exact ⟨(wMode 3).setF AGE_CORE_BASE_MV 750 |>.setF AGE_AVS_WIN_MAX_MV 760 |>.setF AGE_AVS_WIN_MIN_MV 700 |>.setF (FLT_SRC_CFG_N 387) 9, ⟨63, 700, 101⟩, 760, by decide +kernel⟩

end Sys2Proof.Tests
end

section
/-!
PROOFS. Host accesses (R3, R5-R9, R190, R207, R213, R323, R389, R398, R423): what each write and read of a register, of a BAR2 record, of the
DRAM window and of a TCAM row leaves, as an equation of states; from these the statements O42 and O13.
-/

namespace Sys2Proof.Machine

/-! ### Frames from masks -/

theorem Part.mem_allParts (p : Part) : p ∈ allParts := by cases p <;> decide

/-- A mask that names only parts of a list, checked over all parts. -/
theorem Keeps.sameBut_of_all {m : Nat} {s t : State} {l : List Part} (h : Keeps m s t)
    (hl : allParts.all (fun p => l.contains p || !m.testBit p.idx) = true) : SameBut l s t := by
  refine h.sameBut l fun p hp => ?_
  have hpl := List.all_eq_true.1 hl p p.mem_allParts
  simpa [hp] using hpl

theorem State.wr_sameBut (s : State) (o : Nat) (w : Word) : SameBut [.regs] s (s.wr o w) := (keeps_wr s o w).sameBut_of_all (by decide)

theorem State.wrMem_sameBut (s : State) (a : Nat) (l : List Byte) : SameBut [.mem] s (s.wrMem a l) :=
  (keeps_wrMem s a l).sameBut_of_all (by decide)

/-! ### Words as their fields take a write (R6) -/

/-- A register without RWL fields has none that changes. -/
theorem rwlChange_eq_false (old val : Nat) {flds : List RegFld} (h : flds.all (fun f => f.acc != .rwl) = true) : rwlChange old val flds = false := by
  rw [rwlChange, List.any_eq_false]
  intro f hf
  have := List.all_eq_true.1 h f hf
  simp_all

/-- A register of one RW field from bit 0 takes the low bits of the word written. -/
theorem writeWord_rw (rwl : Bool) (old val ev n r : Nat) : writeWord rwl old val ev [⟨0, n, .rw, r⟩] = val % 2 ^ n := by
  simp [writeWord, writeField]

/-- A status bit after a write: cleared by a 1, unless an event sets it in the same cycle (R7). -/
theorem writeField_w1c (rwl : Bool) (old val ev i : Nat) :
    writeField rwl old val ev ⟨i, 1, .w1c, 0⟩ = (old.testBit i && !(val.testBit i && !ev.testBit i)).toNat := by
  have bit (x : Nat) : x / 2 ^ i % 2 = (x.testBit i).toNat := (Nat.toNat_testBit x i).symm
  simp only [writeField, Nat.pow_one, bit]
  cases old.testBit i <;> cases val.testBit i <;> cases ev.testBit i <;> rfl

theorem writeWord_append (rwl : Bool) (old val ev : Nat) (l l' : List RegFld) :
    writeWord rwl old val ev (l ++ l') = writeWord rwl old val ev l + writeWord rwl old val ev l' := by
  induction l with
  | nil => simp [writeWord]
  | cons f l ih => simp [writeWord, ih, Nat.add_assoc]

/-- The bits of a status register after a write. -/
theorem testBit_writeWord_w1c (rwl : Bool) (old val ev n i : Nat) :
    (writeWord rwl old val ev ((List.range n).map (fun j => ⟨j, 1, .w1c, 0⟩))).testBit i =
      (decide (i < n) && old.testBit i && !(val.testBit i && !ev.testBit i)) := by
  induction n generalizing i with
  | zero => simp [writeWord]
  | succ n ih =>
    have hlt : writeWord rwl old val ev ((List.range n).map (fun j => ⟨j, 1, .w1c, 0⟩)) < 2 ^ n := by
      refine Nat.lt_pow_two_of_testBit _ fun j hj => ?_
      simp [ih, Nat.not_lt.2 hj]
    have hlast : writeWord rwl old val ev [⟨n, 1, .w1c, 0⟩] = 2 ^ n * writeField rwl old val ev ⟨n, 1, .w1c, 0⟩ := by
      simp [writeWord, Nat.mul_comm]
    rw [List.range_succ, List.map_append, writeWord_append, List.map_singleton, hlast, Nat.add_comm, Nat.testBit_two_pow_mul_add _ hlt, ih,
      writeField_w1c]
    rcases Nat.lt_trichotomy i n with h | rfl | h
    · simp [h, Nat.lt_succ_of_lt h]
    · rw [if_neg (Nat.lt_irrefl i), Nat.sub_self, Nat.testBit_bool_toNat]
      simp
    · simp [Nat.not_lt.2 (Nat.le_of_lt h), Nat.testBit_bool_toNat, show ¬ i < n + 1 by omega, show i - n ≠ 0 by omega]

/-- What the register tables give the interrupt registers: one-bit W1C fields, and one RW field as wide as there are bits. -/
theorem fldsAt_intRegs : ∀ x ∈ intRegs, fldsAt .bar0 x.1 = (List.range x.2.2).map (fun j => ⟨j, 1, .w1c, 0⟩) ∧
    fldsAt .bar0 x.2.1 = [⟨0, x.2.2, .rw, 0⟩] ∧ x.2.2 ≤ 32 := by decide +kernel

/-! ### Registers whose writes their fields take, and nothing else -/

/-- What the offset of such a register alone decides: no half of a pair, no RWL or RWG field, no register that takes a write otherwise. -/
def plainOffset (o : Nat) : Bool :=
  o % 4 == 0 && inSpan o && !(fldsAt .bar0 o).isEmpty && !isPairLo o && !(decide (4 ≤ o) && isPairLo (o - 4)) && !hasRwg o &&
  (fldsAt .bar0 o).all (fun f => f.acc != .rwl) && !descRegs.contains o && !decide (0x200000 ≤ o ∧ o < 0x244000) &&
  !decide (0x408000 ≤ o ∧ o < 0x409000) && !decide (0x680100 ≤ o ∧ o < 0x680180) && !decide (0xC00040 ≤ o ∧ o < 0xC00060)

/-- A write of the register at `o` is taken by its fields as it stands and commands nothing. -/
structure PlainReg (o : Nat) : Prop where
  offset : plainOffset o = true
  taking : ∀ (s : State) (val : Nat), s.taking o val = ⟨true, false, val⟩
  commands : ∀ (s old : State) (val ev : Nat), s.commands old o val ev = s

/-- The word after a write of such a register. -/
theorem PlainReg.write {o : Nat} (h : PlainReg o) (s : State) (val ev : Nat) :
    s.write .bar0 o 4 val ev =
      s.wr o (BitVec.ofNat 32 (writeWord false (s.rd o).toNat (val % 2 ^ 32) (ev % 2 ^ 32) (fldsAt .bar0 o))) := by
  obtain ⟨ho, htake, hcmd⟩ := h
  simp only [plainOffset, Bool.and_eq_true, Bool.not_eq_true', beq_iff_eq, List.isEmpty_eq_false_iff, decide_eq_false_iff_not] at ho
  obtain ⟨⟨⟨⟨⟨⟨⟨⟨⟨⟨⟨hal, hspan⟩, hne⟩, hlo⟩, hhi⟩, hrwg⟩, hrwl⟩, hdesc⟩, hmac⟩, hroot⟩, hrate⟩, hkey⟩ := ho
  have hfields (w e : Nat) : s.writeFields o w e = s.wr o (BitVec.ofNat 32 (writeWord false (s.rd o).toNat w e (fldsAt .bar0 o))) := by
    simp [State.writeFields, rwlChange_eq_false _ _ hrwl]
  have htaken (w e : Nat) : s.writeTaken o w w e = s.writeFields o w e := by
    have hr : ¬ (0x680100 ≤ o ∧ o < 0x680180 ∧ (o - 0x680100) % 0x40 = 4) := by omega
    have hm : ¬ (0x20009C ≤ o ∧ o < 0x244000 ∧ (o % 0x1000 = 0x9C ∨ o % 0x1000 = 0xA0)) := by omega
    simp only [State.writeTaken, hkey, hr, hdesc, hm, State.completePair, hhi, hrwg, hcmd]
    simp
  have hm : ¬ (0x200000 ≤ o ∧ o < 0x240000 ∧ 0x58 ≤ o % 0x1000 ∧ o % 0x1000 < 0x9C) := by omega
  simp only [State.write, State.writeReg, hal, hspan, hne, hroot, htake, hm, hlo]
  simp [htaken, hfields]

theorem plainReg_idLo : PlainReg rGLB_ID_LO := ⟨by decide +kernel, fun _ _ => rfl, fun _ _ _ _ => rfl⟩

/-- Every interrupt register is one: each offset goes past every range that takes a write otherwise or commands something. -/
theorem plainReg_intRegs : ∀ x ∈ intRegs, PlainReg x.1 ∧ PlainReg x.2.1 := by
  have hoff : ∀ x ∈ intRegs, plainOffset x.1 = true ∧ plainOffset x.2.1 = true := by decide +kernel
  have htake : ∀ x ∈ intRegs, ∀ (s : State) (val : Nat), s.taking x.1 val = ⟨true, false, val⟩ ∧ s.taking x.2.1 val = ⟨true, false, val⟩ := by
    simp only [intRegs, List.forall_mem_cons, List.not_mem_nil, false_imp_iff, implies_true, and_true]
    refine ⟨?_, ?_, ?_, ?_, ?_, ?_, ?_, ?_, ?_, ?_, ?_, ?_⟩ <;> exact fun _ _ => ⟨rfl, rfl⟩
  have hcmd : ∀ x ∈ intRegs, ∀ (s old : State) (val ev : Nat), s.commands old x.1 val ev = s ∧ s.commands old x.2.1 val ev = s := by
    simp only [intRegs, List.forall_mem_cons, List.not_mem_nil, false_imp_iff, implies_true, and_true]
    refine ⟨?_, ?_, ?_, ?_, ?_, ?_, ?_, ?_, ?_, ?_, ?_, ?_⟩ <;> exact fun _ _ _ _ => ⟨rfl, rfl⟩
  exact fun x hx => ⟨⟨(hoff x hx).1, fun s v => (htake x hx s v).1, fun s o v e => (hcmd x hx s o v e).1⟩,
    ⟨(hoff x hx).2, fun s v => (htake x hx s v).2, fun s o v e => (hcmd x hx s o v e).2⟩⟩

/-! ### Reads (R5-R9) -/

theorem State.read_bar0 (s : State) {o : Nat} (h : o % 4 = 0) (ev : Nat) : s.read .bar0 o 4 ev = s.readReg o ev := by
  simp [State.read, h]

/-- A register of a span, outside the cairn window and the timestamp FIFOs. -/
def readsPlain (o : Nat) : Prop := inSpan o = true ∧ ¬ (0x681000 ≤ o ∧ o < 0x681440) ∧ ¬ (0xC01000 ≤ o ∧ o < 0xC02000)

/-- A register that returns no latched value answers what stands there; then a high half is latched and RC fields are cleared. -/
theorem State.readReg_plain (s : State) {o : Nat} (h : readsPlain o) (hl : latched o = false) (ev : Nat) :
    s.readReg o ev = (({ s with readData := readable (fldsAt .bar0 o) (s.view o) }.latchHi o).readClears o ev).readMax o := by
  obtain ⟨hs, hf, hw⟩ := h
  have hf' : ¬ (0x681000 ≤ o ∧ o < 0x681440 ∧ o % 16 = 8) := fun hc => hf ⟨hc.1, hc.2.1⟩
  simp only [State.readReg, hs, hw, hf', hl]
  rfl

theorem State.readReg_latched (s : State) {o : Nat} (h : readsPlain o) (hl : latched o = true) (ev : Nat) :
    s.readReg o ev = { s with readData := ((s.latch.lookup o).getD (s.view o)).toNat } := by
  obtain ⟨hs, hf, hw⟩ := h
  have hf' : ¬ (0x681000 ≤ o ∧ o < 0x681440 ∧ o % 16 = 8) := fun hc => hf ⟨hc.1, hc.2.1⟩
  simp only [State.readReg, hs, hw, hf', hl]
  rfl

/-- What a register reports does not rest on the last answer. -/
theorem State.view_readData (s : State) (v o : Nat) : { s with readData := v }.view o = s.view o := rfl

/-- A read of a register that is no low half latches nothing. -/
theorem State.latchHi_single (s : State) {o : Nat} (h : isPairLo o = false) : s.latchHi o = s := by simp [State.latchHi, h]

theorem State.readMax_other (s : State) {o : Nat} (h : ¬ (0xC90000 ≤ o ∧ o < 0xCD4000)) : s.readMax o = s :=
  if_neg fun hc => h ⟨hc.1, hc.2.1⟩

theorem State.readClears_none (s : State) {o : Nat} (h : (fldsAt .bar0 o).any (fun f => f.acc == .rc) = false) (ev : Nat) : s.readClears o ev = s := by
  simp only [State.readClears, h]
  rfl

/-- A counter of 32 bits that a read clears holds what the events of the cycle left. -/
theorem State.readClears_counter (s : State) {o r : Nat} (h : fldsAt .bar0 o = [⟨0, 32, .rc, r⟩]) (ev : Nat) :
    s.readClears o ev = s.wr o (BitVec.ofNat 32 ev) := by
  have hword : BitVec.ofNat 32 (ev % 2 ^ 32) = BitVec.ofNat 32 ev := BitVec.eq_of_toNat_eq (by simp)
  rw [← hword]
  simp [State.readClears, h, mergeFields]

/-! ### R3 -/

/-- The two read-only halves of the word at offset 0. -/
theorem fldsAt_idLo : fldsAt .bar0 0 = [⟨0, 16, .ro, 0xA21⟩, ⟨16, 16, .ro, 0x2400⟩] := by decide +kernel

theorem halves_toNat (w : Word) : w.toNat % 2 ^ 16 + w.toNat / 2 ^ 16 % 2 ^ 16 * 2 ^ 16 = w.toNat := by
  have := w.isLt
  omega

/-- Both fields are read as they stand. -/
theorem State.readReg_idLo (s : State) (ev : Nat) : s.readReg 0 ev = { s with readData := (s.rd 0).toNat } := by
  have hread : readable (fldsAt .bar0 0) (s.view 0) = (s.rd 0).toNat := by
    rw [fldsAt_idLo, show s.view 0 = s.rd 0 from rfl]
    simpa [readable, mergeFields] using halves_toNat (s.rd 0)
  rw [s.readReg_plain ⟨by decide, by decide, by decide⟩ (by decide +kernel), hread, State.latchHi_single _ (by decide +kernel),
    State.readClears_none _ (by decide +kernel), State.readMax_other _ (by decide)]

/-- RO fields keep what they hold (R6). -/
theorem writeWord_idLo (rwl : Bool) (w : Word) (val ev : Nat) : writeWord rwl w.toNat val ev (fldsAt .bar0 0) = w.toNat := by
  rw [fldsAt_idLo]
  simpa [writeWord, writeField] using halves_toNat w

/-! ### Interrupt registers -/

/-- An enable register takes the low bits of the word written. -/
theorem State.write_intEn (s : State) {st en n : Nat} (h : (st, en, n) ∈ intRegs) (val ev : Nat) :
    s.write .bar0 en 4 val ev = s.wr en (BitVec.ofNat 32 (val % 2 ^ n)) := by
  obtain ⟨_, hflds, hn⟩ := fldsAt_intRegs _ h
  rw [(plainReg_intRegs _ h).2.write, hflds, writeWord_rw, Nat.mod_mod_of_dvd _ (Nat.pow_dvd_pow 2 hn)]

/-- The bits of a status register after a write of it. -/
theorem State.getLsbD_write_intStatus (s : State) {st en n : Nat} (h : (st, en, n) ∈ intRegs) (val ev i : Nat) :
    ((s.write .bar0 st 4 val ev).rd st).getLsbD i =
      (decide (i < n) && (s.rd st).getLsbD i && !(val.testBit i && !ev.testBit i)) := by
  obtain ⟨hflds, _, hn⟩ := fldsAt_intRegs _ h
  rw [(plainReg_intRegs _ h).1.write, hflds, s.rd_wr_same, BitVec.getLsbD_ofNat, testBit_writeWord_w1c, Nat.testBit_mod_two_pow,
    Nat.testBit_mod_two_pow, BitVec.testBit_toNat]
  by_cases hi : i < n
  · simp [hi, show i < 32 by exact Nat.lt_of_lt_of_le hi hn]
  · simp [hi]

/-! ### Counters that a read clears -/

/-- Each is a plain register of one RC field of 32 bits, and no half of a pair. -/
theorem offsets_clearedByRead : ∀ o ∈ clearedByRead, o % 4 = 0 ∧ readsPlain o ∧ isPairLo o = false ∧ latched o = false ∧
    fldsAt .bar0 o = [⟨0, 32, .rc, 0⟩] ∧ ¬ (0xC90000 ≤ o ∧ o < 0xCD4000) := by
  unfold readsPlain
  decide +kernel

/-- Such a counter stands in its word. -/
theorem State.view_clearedByRead (s : State) : ∀ o ∈ clearedByRead, s.view o = s.rd o := by
  simp only [clearedByRead, List.forall_mem_cons, List.not_mem_nil, false_imp_iff, implies_true, and_true]
  refine ⟨?_, ?_, ?_, ?_, ?_, ?_, ?_, ?_, ?_, ?_, ?_, ?_, ?_, ?_, ?_, ?_, ?_, ?_⟩ <;> rfl

/-- A read answers the counter and leaves what the events of its cycle left. -/
theorem State.read_clearedByRead (s : State) {o : Nat} (h : o ∈ clearedByRead) (ev : Nat) :
    s.read .bar0 o 4 ev = { s with readData := (s.rd o).toNat }.wr o (BitVec.ofNat 32 ev) := by
  obtain ⟨hal, hplain, hpair, hlatch, hflds, hmax⟩ := offsets_clearedByRead o h
  have hread : readable (fldsAt .bar0 o) (s.view o) = (s.rd o).toNat := by
    rw [hflds, s.view_clearedByRead o h]
    simpa [readable, mergeFields] using Nat.mod_eq_of_lt (s.rd o).isLt
  rw [s.read_bar0 hal, s.readReg_plain hplain hlatch, hread, State.latchHi_single _ hpair, State.readClears_counter _ hflds,
    State.readMax_other _ hmax]

/-! ### Pairs (R9) -/

theorem lookup_sput_same {α : Type} (m : List (Nat × α)) (k : Nat) (v : α) : (sput m k v).lookup k = some v := by
  induction m with
  | nil => simp [sput]
  | cons e t ih =>
    obtain ⟨k', v'⟩ := e
    by_cases h : k < k'
    · simp [sput, h]
    · by_cases h' : k' = k
      · simp [sput, h']
      · have hk : (k == k') = false := by simpa using Ne.symm h'
        simp [sput, h, h', List.lookup_cons, hk, ih]

theorem lookup_sput_other {α : Type} (m : List (Nat × α)) {j k : Nat} (v : α) (hj : j ≠ k) : (sput m k v).lookup j = m.lookup j := by
  have hjk : (j == k) = false := by simpa using hj
  induction m with
  | nil => simp [sput, List.lookup_cons, hjk]
  | cons e t ih =>
    obtain ⟨k', v'⟩ := e
    by_cases h : k < k'
    · simp [sput, h, List.lookup_cons, hjk]
    · by_cases h' : k' = k
      · simp [sput, h', List.lookup_cons, hjk]
      · simp [sput, h, h', List.lookup_cons, ih]

/-- A read of a low half latches the high half. -/
theorem State.latchHi_lookup (s : State) {o : Nat} (h : isPairLo o = true) : (s.latchHi o).latch.lookup (o + 4) = some (s.view (o + 4)) := by
  by_cases ho : o = rTSY_RTC_SEC_LO
  · have hne : o + 4 ≠ rTSY_RTC_SUB := by subst ho; decide
    simp only [State.latchHi, h, if_true, if_pos ho]
    rw [lookup_sput_other _ _ hne, lookup_sput_same]
  · simp only [State.latchHi, h, if_true, if_neg ho]
    exact lookup_sput_same _ _ _

/-- A read of a low half: the value that stands there is answered, the high half is latched, RC fields are cleared. -/
theorem State.read_pairLo (s : State) {o : Nat} (hal : o % 4 = 0) (hpair : isPairLo o = true) (hplain : readsPlain o) (hl : latched o = false) (ev : Nat) :
    (s.read .bar0 o 4 ev).latch.lookup (o + 4) = some (s.view (o + 4)) ∧
    (s.read .bar0 o 4 ev).readData = readable (fldsAt .bar0 o) (s.view o) ∧ SameBut [.regs, .readData, .latch] s (s.read .bar0 o 4 ev) := by
  rw [s.read_bar0 hal, s.readReg_plain hplain hl]
  generalize hr : ({ s with readData := readable (fldsAt .bar0 o) (s.view o) } : State) = r
  have hregs : SameBut [.regs] (r.latchHi o) (((r.latchHi o).readClears o ev).readMax o) :=
    ((State.readClears_keeps _ o ev).app (State.readMax_keeps _ o) rfl).sameBut_of_all (by decide)
  have hlatch : SameBut [.latch] r (r.latchHi o) := (r.latchHi_keeps o).sameBut_of_all (by decide)
  have hread : SameBut [.readData] s r := hr ▸ (keeps_readData s _).sameBut_of_all (by decide)
  refine ⟨?_, ?_, ((hread.mono (by simp)).trans (hlatch.mono (by simp))).trans (hregs.mono (by simp))⟩
  · rw [show _ = _ from hregs .latch (by simp), r.latchHi_lookup hpair, ← hr, s.view_readData]
  · rw [show _ = _ from hregs .readData (by simp), show _ = _ from hlatch .readData (by simp), ← hr]

/-- A read of a high half answers what the read of the low half has latched. -/
theorem State.read_pairHi (s : State) {o : Nat} {w : Word} (hal : o % 4 = 0) (hpair : isPairLo o = true) (hplain : readsPlain (o + 4))
    (hw : s.latch.lookup (o + 4) = some w) (ev : Nat) : s.read .bar0 (o + 4) 4 ev = { s with readData := w.toNat } := by
  have hl : latched (o + 4) = true := by simp [latched, hpair]
  rw [s.read_bar0 (by omega), s.readReg_latched hplain hl, hw]
  rfl

/-! ### Runs of bytes -/

@[simp] theorem leBytes_length (n v : Nat) : (leBytes n v).length = n := by
  induction n generalizing v with
  | zero => rfl
  | succ n ih => simp [leBytes, ih]

/-- The low bytes of a number depend on its low bits alone. -/
theorem leBytes_mod (n v m : Nat) (h : 8 * n ≤ m) : leBytes n (v % 2 ^ m) = leBytes n v := by
  induction n generalizing v m with
  | zero => rfl
  | succ n ih =>
    obtain ⟨k, rfl⟩ : ∃ k, m = 8 + k := ⟨m - 8, by omega⟩
    have hhead : BitVec.ofNat 8 (v % 2 ^ (8 + k)) = BitVec.ofNat 8 v :=
      BitVec.eq_of_toNat_eq (by simpa using Nat.mod_mod_of_dvd v (Nat.pow_dvd_pow 2 (Nat.le_add_right 8 k)))
    have htail : v % 2 ^ (8 + k) / 256 = v / 256 % 2 ^ k := by rw [Nat.pow_add]; exact Nat.mod_mul_right_div_self v (2 ^ 8) (2 ^ k)
    rw [leBytes, hhead, htail, ih _ _ (by omega), leBytes]

theorem leBytes_add (m n v : Nat) : leBytes (m + n) v = leBytes m v ++ leBytes n (v / 256 ^ m) := by
  induction m generalizing v with
  | zero => simp [leBytes]
  | succ m ih => rw [Nat.succ_add, leBytes, ih, leBytes, List.cons_append, Nat.div_div_eq_div_mul, Nat.pow_succ']

theorem writeBytes_append (m : List Host.Cell) (a : Nat) (l l' : List Byte) :
    writeBytes m a (l ++ l') = writeBytes (writeBytes m a l) (a + l.length) l' := by
  induction l generalizing m a with
  | nil => rfl
  | cons b l ih => rw [List.cons_append, writeBytes, ih, writeBytes, List.length_cons, Nat.add_right_comm, Nat.add_assoc a]

theorem State.rdMem_wrMem (s : State) (a : Nat) (l : List Byte) : (s.wrMem a l).rdMem a l.length = l := readBytes_writeBytes _ _ _

theorem State.wrMem_memBut (s : State) (a : Nat) (l : List Byte) : MemBut a l.length s (s.wrMem a l) :=
  fun _ hx => sget_writeBytes_outside _ _ _ hx

/-! ### Records of BAR2 (R323, R389, R422, R423) -/

/-- A write of 4 bytes at an aligned address. -/
theorem State.bar2Write_four (s : State) {a : Nat} (h : a % 4 = 0) (d : Nat) : s.bar2Write a 4 d = s.bar2Word a (d % 2 ^ 32) := by
  simp [State.bar2Write, h]

/-- A region of records that a write stores as it stands. -/
abbrev plainRecord (a : Nat) : Prop := (0x0F600000 ≤ a ∧ a < 0x0F618000) ∨ (0x0FA00000 ≤ a ∧ a < 0x0FA40000)

theorem State.bar2Word_plain (s : State) {a : Nat} (h : plainRecord a) (d : Nat) : s.bar2Word a d = s.wrMem a (leBytes 4 d) := by
  unfold State.bar2Word
  rw [if_neg (by omega), if_neg (by omega), if_neg (by omega), if_neg (by omega), if_neg (by omega), if_neg (by omega), if_neg (by omega)]
  rcases h with h | h
  · rw [if_pos h]
  · rw [if_neg (by omega), if_neg (by omega), if_pos h]

theorem exec_bar2Write_plain (s : State) {a : Nat} (h : plainRecord a) (n d : Nat) : exec (.bar2Write a n d) s = .next (s.bar2Write a n d) := by
  show Host.Outcome.next _ = _
  rw [if_neg (by omega)]

theorem State.bar2Write_plain_four (s : State) {a : Nat} (h : plainRecord a) (hal : a % 4 = 0) (d : Nat) :
    s.bar2Write a 4 d = s.wrMem a (leBytes 4 d) := by
  rw [s.bar2Write_four hal, s.bar2Word_plain h, leBytes_mod 4 d 32 (by decide)]

/-- Two writes of 4 bytes, the lower first, come to one of 8. -/
theorem State.bar2Write_plain_eight (s : State) {a : Nat} (h : plainRecord a) (hal : a % 8 = 0) (d : Nat) :
    s.bar2Write a 8 d = s.wrMem a (leBytes 8 d) := by
  have hwrite : s.bar2Write a 8 d = (s.bar2Word a (d % 2 ^ 32)).bar2Word (a + 4) (d / 2 ^ 32 % 2 ^ 32) := by
    unfold State.bar2Write
    rw [if_neg (by omega), if_pos ⟨rfl, hal⟩, if_neg (by omega)]
  rw [hwrite, s.bar2Word_plain h, State.bar2Word_plain _ (by unfold plainRecord; omega), leBytes_mod 4 d 32 (by decide),
    leBytes_mod 4 _ 32 (by decide), leBytes_add 4 4 d]
  simp [State.wrMem, writeBytes_append]

/-- A write of a plain record stores its bytes and nothing else. -/
theorem State.wrMem_leBytes (s : State) (a n d : Nat) :
    (s.wrMem a (leBytes n d)).rdMem a n = leBytes n d ∧ MemBut a n s (s.wrMem a (leBytes n d)) ∧ SameBut [.mem] s (s.wrMem a (leBytes n d)) := by
  have hread := s.rdMem_wrMem a (leBytes n d)
  have hbut := s.wrMem_memBut a (leBytes n d)
  rw [leBytes_length] at hread hbut
  exact ⟨hread, hbut, s.wrMem_sameBut a _⟩

theorem filter_putBuckets (s : State) (m : Nat) (c e : Int) :
    (s.putBuckets m c e).meters.filter (fun x => x.meter != m) = s.meters.filter (fun x => x.meter != m) := by
  simp [State.putBuckets, List.filter_append]

theorem find_putBuckets (s : State) (m : Nat) (c e : Int) :
    (s.putBuckets m c e).meters.find? (fun x => x.meter == m) = some { meter := m, c := c, e := e, at_ := s.now } := by
  have hnone : (s.meters.filter (fun x => x.meter != m)).find? (fun x => x.meter == m) = none := by
    simp [List.find?_eq_none]
  simp [State.putBuckets, List.find?_append, hnone]

/-- A write of a word of a meter record settles the buckets of its meter first. -/
theorem exec_meterRecordWrite (s : State) {m o : Nat} (hm : 1 ≤ m) (hm' : m < 65536) (ho : o < 16) (hal : o % 4 = 0) (d : Nat) :
    exec (.meterRecordWrite (0x0F100000 + 16 * m + o) d) s =
      .next (let t := (s.putBuckets m (s.buckets m).1 (s.buckets m).2).wrMem (0x0F100000 + 16 * m + o) (leBytes 4 d)
        if o = 12 then { t with meters := t.meters.filter (fun x => x.meter != m) } else t) := by
  have hmeter : (0x0F100000 + 16 * m + o - 0x0F100000) / 16 = m := by omega
  have hoff : (0x0F100000 + 16 * m + o) % 16 = o := by omega
  show Host.Outcome.next _ = _
  rw [if_pos (by omega), s.bar2Write_four (by omega), State.bar2Word, if_neg (by omega), if_neg (by omega), if_neg (by omega), if_pos (by omega)]
  simp only [State.meterWrite, hmeter, hoff, leBytes_mod 4 d 32 (by decide)]
  rw [if_neg (by omega)]

theorem leNat_leBytes (n v : Nat) : leNat (leBytes n v) = v % 256 ^ n := by
  induction n generalizing v with
  | zero => simp [leBytes, leNat, Nat.mod_one]
  | succ n ih => rw [leBytes, leNat, ih, Nat.pow_succ', Nat.mod_mul, BitVec.toNat_ofNat]

/-- A field of a record reads as it was written. -/
theorem State.frer_putFrer (s : State) (h o n v : Nat) : (s.putFrer h o n v).frer h o n = v % 256 ^ n := by
  rw [State.frer, State.memLe, State.putFrer, (s.wrMem_leBytes _ n v).1, leNat_leBytes]

/-- A flag that has been set. -/
theorem State.frerFlag_setFrerFlag (s : State) (h i : Nat) (hi : i < 8) : (s.setFrerFlag h i true).frerFlag h i = true := by
  rw [State.frerFlag, State.setFrerFlag, State.frer_putFrer, if_pos rfl, show 256 ^ 1 = 2 ^ 8 from rfl, Nat.testBit_mod_two_pow]
  simp [hi]

/-- Bit 0 of the word at bytes 12-15 sets TAKE_ANY. -/
theorem exec_recoveryRecordWrite_takeAny (s : State) {h d : Nat} (hh : h < 65536) (hr : s.replicated h = true) (hd : d % 2 = 1) :
    exec (.recoveryRecordWrite (0x0F800000 + 32 * h + 12) d) s = .next (s.setFrerFlag h 0 true) := by
  have hbit : (d % 2 ^ 32).testBit 0 = true := by simp [Nat.testBit_zero]; omega
  have hrec : (0x0F800000 + 32 * h + 12 - 0x0F800000) / 32 = h := by omega
  show Host.Outcome.next _ = _
  rw [if_pos (by omega), s.bar2Write_four (by omega), State.bar2Word, if_neg (by omega), if_neg (by omega), if_neg (by omega), if_neg (by omega),
    if_neg (by omega), if_neg (by omega), if_neg (by omega), if_neg (by omega), if_pos (by omega)]
  simp only [State.recoveryWrite, hrec]
  rw [if_pos ⟨by omega, hbit, hr⟩]

/-! ### The DRAM window (R398) -/

/-- A whole aligned word written to host staging. -/
theorem State.dramWrite_staging (s : State) {x : Nat} (b0 b1 b2 b3 : Byte) (hal : x % 4 = 0) (hmap : x + 4 ≤ s.mapped)
    (hreg : s.region x = .staging) : s.dramWrite x [b0, b1, b2, b3] 15 = s.wrDram x [b0, b1, b2, b3] := by
  have hword : x / 4 * 4 = x := by omega
  have hbytes (old : List Byte) : mergeWord old [b0, b1, b2, b3] 15 = [b0, b1, b2, b3] := rfl
  simp [State.dramWrite, hword, List.range_succ, hreg, Nat.not_lt.2 hmap, State.dramWords, State.dramWord, hbytes]

theorem exec_dramWindowWrite (s : State) {a : Nat} {data : List Byte} (ha : 0x04000000 ≤ a) (ha' : a + data.length ≤ 0x0C000000) (en : Nat) :
    exec (.dramWindowWrite a data en) s = .next (s.dramWrite (s.getF DRC_WIN_BASE_MIB * 1048576 + (a - 0x04000000)) data en) := by
  show Host.Outcome.next _ = _
  rw [if_pos ⟨ha, ha'⟩]

theorem State.rdDram_wrDram (s : State) (a : Nat) (l : List Byte) : (s.wrDram a l).rdDram a l.length = l := readBytes_writeBytes _ _ _

theorem State.wrDram_dramBut (s : State) (a : Nat) (l : List Byte) : DramBut a l.length s (s.wrDram a l) :=
  fun _ hx => sget_writeBytes_outside _ _ _ hx

/-! ### Copies of a run of bytes -/

/-- The same bytes written at each address of a list. -/
def writeEach (l : List Byte) (m : List Host.Cell) (as : List Nat) : List Host.Cell := as.foldl (fun m a => writeBytes m a l) m

theorem writeEach_cons (l : List Byte) (m : List Host.Cell) (a : Nat) (as : List Nat) :
    writeEach l m (a :: as) = writeEach l (writeBytes m a l) as := rfl

theorem writeEach_concat (l : List Byte) (m : List Host.Cell) (as : List Nat) (a : Nat) :
    writeEach l m (as ++ [a]) = writeBytes (writeEach l m as) a l := List.foldl_append

/-- A byte outside every copy reads as before. -/
theorem sget_writeEach_outside (l : List Byte) (m : List Host.Cell) (as : List Nat) {x : Nat} (h : ∀ a ∈ as, x < a ∨ a + l.length ≤ x) :
    sget zeroByte (writeEach l m as) x = sget zeroByte m x := by
  induction as generalizing m with
  | nil => rfl
  | cons a as ih =>
    rw [List.forall_mem_cons] at h
    rw [writeEach_cons, ih _ h.2, sget_writeBytes_outside _ _ _ h.1]

/-- A run that is one of the copies, or stands there already, is read back where it overlaps no other copy. -/
theorem readBytes_writeEach (l : List Byte) (m : List Host.Cell) (as : List Nat) {a : Nat}
    (hap : ∀ b ∈ as, a ≠ b → a + l.length ≤ b ∨ b + l.length ≤ a) (ha : a ∈ as ∨ readBytes m a l.length = l) :
    readBytes (writeEach l m as) a l.length = l := by
  induction as generalizing m with
  | nil => exact ha.resolve_left List.not_mem_nil
  | cons b as ih =>
    rw [List.forall_mem_cons] at hap
    rw [writeEach_cons]
    refine ih _ hap.2 ?_
    by_cases hab : a = b
    · exact .inr (by rw [hab, readBytes_writeBytes])
    · rcases ha with ha | ha
      · exact .inl ((List.mem_cons.1 ha).resolve_left hab)
      · exact .inr (by rw [readBytes_writeBytes_outside _ _ _ _ _ (hap.1 hab), ha])

/-- Every copy of an object of BAR2 memory is written. -/
theorem State.wrAll_mem (s : State) (c : Copies) (hc : c.dram = false) (a : Nat) (l : List Byte) :
    s.wrAll c a l = { s with mem := writeEach l s.mem (c.reps.map (fun r => c.at r a)) } := by
  rw [State.wrAll, writeEach, List.foldl_map, hc]
  generalize c.reps = reps
  induction reps generalizing s with
  | nil => rfl
  | cons r reps ih => exact ih (s.wrMem (c.at r a) l)

/-- The same bytes put at several places of the mirrors. -/
theorem foldl_mirror (s : State) (reps : List Nat) (f : Nat → Nat) (l : List Byte) :
    reps.foldl (fun (t : State) x => { t with mirror := writeBytes t.mirror (f x) l }) s = { s with mirror := writeEach l s.mirror (reps.map f) } := by
  rw [writeEach, List.foldl_map]
  induction reps generalizing s with
  | nil => rfl
  | cons r reps ih => exact ih { s with mirror := writeBytes s.mirror (f r) l }

/-! ### TCAM rows (R190, R206, R207, R213) -/

/-- The quadrants whose copies of a row of block `b` a write in quadrant `q` reaches. -/
def State.rowQuads (s : State) (q b : Nat) : List Nat :=
  if s.flag (ASM_TBL_CFG_GLOBAL (s.getF (ASM_Q_BLK_TABLE q b))) then s.liveQuads else [q]

/-- The copies of a row of block `b` in those quadrants, seen from quadrant `q`. -/
def State.rowCopies (s : State) (q b : Nat) : Copies := { dram := false, unit := 0x200000, q := q, reps := s.rowQuads q b }

theorem State.liveQuads_lt (s : State) {q : Nat} (h : q ∈ s.liveQuads) : q < 4 := by
  have hl : q ∈ (List.range 4).filter (fun q => s.quadPowered q && !(s.getF FLT_ISO_QUAD).testBit q) := by
    simp only [State.liveQuads] at h
    split at h
    · exact h
    · exact (List.mem_filter.1 h).1
  exact List.mem_range.1 (List.mem_filter.1 hl).1

theorem State.rowCopies_at (s : State) (q b r x o : Nat) : (s.rowCopies q b).at x (rowAddr q b r + o) = rowAddr x b r + o := by
  simp only [Copies.at, State.rowCopies, rowAddr]
  omega

/-- Every copy of a run of bytes of a row is written. -/
theorem State.wrAll_row (s : State) (q b r o : Nat) (l : List Byte) :
    s.wrAll (s.rowCopies q b) (rowAddr q b r + o) l =
      { s with mem := writeEach l s.mem ((s.rowQuads q b).map (fun x => rowAddr x b r + o)) } := by
  rw [s.wrAll_mem _ rfl]
  simp only [State.rowCopies_at]
  rfl

/-- A record is one of the copies of a row if it stands at the row's address in one of those quadrants. -/
theorem State.any_rowCopies (s : State) (q b r e : Nat) :
    (s.rowQuads q b).any (fun y => (s.rowCopies q b).at y (rowAddr q b r) == e) = ((s.rowQuads q b).map (fun x => rowAddr x b r)).contains e := by
  have hat (y : Nat) : (s.rowCopies q b).at y (rowAddr q b r) = rowAddr y b r := s.rowCopies_at q b r y 0
  rw [Bool.eq_iff_iff]
  simp [hat, List.any_eq_true]

/-- The address of a compare word lies in the span of the rows and gives back quadrant, block, row record and word. -/
theorem rowAddr_parts {q b r w : Nat} (hq : q < 4) (hb : b < 24) (hr : r < 512) (hw : w < 11) :
    let a := rowAddr q b r + 4 * w
    0x0E000000 ≤ a ∧ a < 0x0E800000 ∧ a % 4 = 0 ∧ (a - 0x0E000000) / 0x200000 = q ∧ (a - 0x0E000000) % 0x200000 / 0x8000 = b ∧
    a % 64 = 4 * w ∧ a / 64 * 64 = rowAddr q b r := by
  simp only [rowAddr]
  omega

/-- A write of words other than the life word of an object that is free or staged reaches every copy (R190). -/
theorem State.objWrite_open (s : State) (c : Copies) (a life : Nat) (new : List Byte) (hne : c.reps ≠ []) (hl : life ≠ a) (hl' : life ≠ a + 2)
    (ho : openObj (leNat (s.rdSp c.dram (c.at c.home life) 2)) s.nextTag = true) : s.objWrite c a life new = (s.wrAll c a new, true) := by
  simp [State.objWrite, hne, hl, hl', ho, keepLife]

/-- A compare word of a free or staged row of an even block is written to the memory and the mirror of every quadrant reached, and LOST is cleared. -/
theorem State.tcamWrite_open (s : State) {q b r w : Nat} (d : Nat) (hq : q < 4) (hb : b < 24) (hr : r < 512) (hw : w < 11)
    (hx : q ∈ s.rowQuads q b) (hused : s.flag (ASM_Q_BLK_USED q b) = true) (hodd : s.flag (ASM_Q_BLK_ODD q b) = false) (hop : s.gens.op = 0)
    (hopen : openObj (s.memLe (rowAddr q b r + 48) 2) s.nextTag = true) :
    s.tcamWrite (rowAddr q b r + 4 * w) d = { s with
      mem := writeEach (leBytes 4 d) s.mem ((s.rowQuads q b).map (fun x => rowAddr x b r + 4 * w))
      mirror := writeEach (leBytes 4 d) s.mirror ((s.rowQuads q b).map (fun x => rowAddr x b r + 4 * w))
      lost := s.lost.filter (fun e => !((s.rowQuads q b).map (fun x => rowAddr x b r)).contains e) } := by
  obtain ⟨_, _, hal, hqa, hba, hoa, hrow⟩ := rowAddr_parts hq hb hr hw
  have hhome : (s.rowCopies q b).home = q := if_pos (by simpa [State.rowCopies] using hx)
  have hobj := s.objWrite_open (s.rowCopies q b) (rowAddr q b r + 4 * w) (rowAddr q b r + 48) (leBytes 4 d) (List.ne_nil_of_mem hx)
    (by omega) (by omega) (by rw [s.rowCopies_at, hhome]; exact hopen)
  have hhold : s.holdMem none (.mem (rowAddr q b r + 4 * w) d) = none := by simp [State.holdMem, hop]
  have hword : (leBytes 4 d).take (45 - 4 * w) = leBytes 4 d := List.take_of_length_le (by rw [leBytes_length]; omega)
  have hreps : (if s.flag (ASM_TBL_CFG_GLOBAL (s.getF (ASM_Q_BLK_TABLE q b))) = true then s.liveQuads else [q]) = s.rowQuads q b := rfl
  have hcopies : ({ dram := false, unit := 0x200000, q := q, reps := s.rowQuads q b } : Copies) = s.rowCopies q b := rfl
  simp only [State.tcamWrite, hqa, hba, hoa, hused, hodd, hhold, hword, hreps, hcopies, hobj, hrow, Nat.not_le.2 hb, show 4 * w < 45 by omega,
    Bool.false_eq_true, reduceCtorEq, or_self, Bool.false_and, if_false, decide_true, Bool.and_self, if_true, foldl_mirror, s.rowCopies_at,
    s.wrAll_row, s.any_rowCopies]

/-- What a write of a compare word of a free or staged row leaves, in terms of the quadrants it reaches. -/
theorem exec_tcamRowWrite_open (s : State) {q b r w : Nat} (d : Nat) (hq : q < 4) (hb : b < 24) (hr : r < 512) (hw : w < 11)
    (hx : q ∈ s.rowQuads q b) (hused : s.flag (ASM_Q_BLK_USED q b) = true) (hodd : s.flag (ASM_Q_BLK_ODD q b) = false) (hop : s.gens.op = 0)
    (hopen : openObj (s.memLe (rowAddr q b r + 48) 2) s.nextTag = true) :
    Runs (.tcamRowWrite (rowAddr q b r + 4 * w) d) s (fun t =>
      (∀ x ∈ s.rowQuads q b, t.rdMem (rowAddr x b r + 4 * w) 4 = leBytes 4 d ∧ readBytes t.mirror (rowAddr x b r + 4 * w) 4 = leBytes 4 d) ∧
      MemButAll ((s.rowQuads q b).map (fun x => rowAddr x b r + 4 * w)) 4 s t ∧
      t.lost = s.lost.filter (fun e => !((s.rowQuads q b).map (fun x => rowAddr x b r)).contains e) ∧ SameBut [.mem, .mirror, .lost] s t) := by
  obtain ⟨hlo, hhi, hal, _⟩ := rowAddr_parts hq hb hr hw
  have hexec : exec (.tcamRowWrite (rowAddr q b r + 4 * w) d) s = .next (s.tcamWrite (rowAddr q b r + 4 * w) (d % 2 ^ 32)) := by
    show Host.Outcome.next _ = _
    rw [if_pos ⟨hlo, hhi⟩, s.bar2Write_four hal, State.bar2Word, if_neg (by omega), if_pos ⟨hlo, hhi⟩]
  have hread (m : List Host.Cell) (x : Nat) (hx : x ∈ s.rowQuads q b) :
      readBytes (writeEach (leBytes 4 d) m ((s.rowQuads q b).map (fun x => rowAddr x b r + 4 * w))) (rowAddr x b r + 4 * w) 4 = leBytes 4 d := by
    have h := readBytes_writeEach (leBytes 4 d) m _ ?_ (.inl (List.mem_map_of_mem (f := fun x => rowAddr x b r + 4 * w) hx))
    · rwa [leBytes_length] at h
    · simp only [List.forall_mem_map, leBytes_length, rowAddr]
      omega
  refine ⟨_, hexec, ?_⟩
  rw [s.tcamWrite_open _ hq hb hr hw hx hused hodd hop hopen, leBytes_mod 4 d 32 (by decide)]
  refine ⟨fun x hx => ⟨hread _ x hx, hread _ x hx⟩, fun x hx => sget_writeEach_outside _ _ _ (by simpa using hx), rfl, ?_⟩
  intro p hp
  cases p <;> simp at hp <;> rfl

/-! ### The statements -/

/-- Settles O42: both fields of the word at offset 0 are RO, so a read finds the word and a write puts the word back. -/
theorem theDeviceIdentifiesItself : Obligations.TheDeviceIdentifiesItself := by
  unfold Obligations.TheDeviceIdentifiesItself
  refine ⟨rfl, by decide +kernel, .inl (by decide +kernel), fun s ev => ?_, fun s val ev => ?_⟩
  · show Host.Outcome.next (s.read .bar0 0 4 ev) = _
    rw [s.read_bar0 rfl, s.readReg_idLo]
  · refine ⟨_, rfl, ?_⟩
    rw [plainReg_idLo.write, writeWord_idLo, BitVec.ofNat_toNat]
    refine ⟨fun o _ => ?_, s.wr_sameBut _ _⟩
    by_cases ho : o = rGLB_ID_LO
    · rw [ho, s.rd_wr_same]; rfl
    · exact s.rd_wr_other _ ho

/-- Settles O13, access by access: each is an equation of states (above), from which what it stores and what it leaves alone follow. -/
theorem hostAccessesTakeEffect : Obligations.HostAccessesTakeEffect := by
  unfold Obligations.HostAccessesTakeEffect
  refine ⟨?intEn, ?intStatus, ?counter, ?pairLo, ?pairHi, ?record4, ?record8, ?meterFull, ?meterWord, ?recovery, ?dram, ?tcamLocal, ?tcamGlobal⟩
  case intEn =>
    intro s st en n val ev h
    refine ⟨_, rfl, ?_⟩
    rw [s.write_intEn h]
    exact ⟨s.rd_wr_same _ _, s.wr_regsBut _ _, s.wr_sameBut _ _⟩
  case intStatus =>
    intro s st en n val ev h
    refine ⟨_, rfl, s.getLsbD_write_intStatus h val ev, ?_⟩
    rw [(plainReg_intRegs _ h).1.write]
    exact ⟨s.wr_regsBut _ _, s.wr_sameBut _ _⟩
  case counter =>
    intro s o ev h
    refine ⟨_, rfl, ?_⟩
    rw [s.read_clearedByRead h]
    have hread : Keeps 0x40 s { s with readData := (s.rd o).toNat } := keeps_readData s _
    exact ⟨rfl, State.rd_wr_same _ _ _, State.wr_regsBut { s with readData := (s.rd o).toNat } _ _,
      (hread.sameBut_of_all (by decide)).trans ((State.wr_sameBut _ _ _).mono (by simp))⟩
  case pairLo =>
    intro s o hal hpair hspan hfifo hwin hl
    have hexec : exec (.pairLoRead o) s = .next (s.read .bar0 o 4 0) := by
      show Host.Outcome.next _ = _
      rw [if_pos hpair]
    exact ⟨_, hexec, s.read_pairLo hal hpair ⟨hspan, hfifo, hwin⟩ hl 0⟩
  case pairHi =>
    intro s o ev w hal hpair hspan hfifo hwin hw
    refine ⟨_, rfl, ?_⟩
    rw [s.read_pairHi hal hpair ⟨hspan, hfifo, hwin⟩ hw]
    exact ⟨rfl, (keeps_readData s _).sameBut_of_all (by decide)⟩
  case record4 =>
    intro s a d hal ha
    refine ⟨_, exec_bar2Write_plain s ha 4 d, ?_⟩
    rw [s.bar2Write_plain_four ha hal]
    exact s.wrMem_leBytes a 4 d
  case record8 =>
    intro s a d hal ha
    refine ⟨_, exec_bar2Write_plain s ha 8 d, ?_⟩
    rw [s.bar2Write_plain_eight ha hal]
    exact s.wrMem_leBytes a 8 d
  case meterFull =>
    intro s m d hm hm'
    refine ⟨_, exec_meterRecordWrite s hm hm' (o := 12) (by omega) (by omega) d, ?_⟩
    obtain ⟨hread, hbut, hsame⟩ := (s.putBuckets m (s.buckets m).1 (s.buckets m).2).wrMem_leBytes (0x0F100000 + 16 * m + 12) 4 d
    have hput := (s.putBuckets_keeps m (s.buckets m).1 (s.buckets m).2).sameBut_of_all (l := [.mem, .meters]) (by decide)
    exact ⟨hread, hbut, filter_putBuckets s m _ _,
      (hput.trans (hsame.mono (by simp))).trans ((keeps_meters _ _).sameBut_of_all (by decide))⟩
  case meterWord =>
    intro s m w d hm hm' hw
    refine ⟨_, exec_meterRecordWrite s hm hm' (o := 4 * w) (by omega) (by omega) d, ?_⟩
    obtain ⟨hread, hbut, hsame⟩ := (s.putBuckets m (s.buckets m).1 (s.buckets m).2).wrMem_leBytes (0x0F100000 + 16 * m + 4 * w) 4 d
    have hput := (s.putBuckets_keeps m (s.buckets m).1 (s.buckets m).2).sameBut_of_all (l := [.mem, .meters]) (by decide)
    rw [if_neg (by omega)]
    exact ⟨hread, hbut, find_putBuckets s m _ _, filter_putBuckets s m _ _, hput.trans (hsame.mono (by simp))⟩
  case recovery =>
    intro s h d hh hr hd
    refine ⟨_, exec_recoveryRecordWrite_takeAny s hh hr hd, s.frerFlag_setFrerFlag h 0 (by omega), ?_,
      (s.setFrerFlag_keeps h 0 true).sameBut_of_all (by decide)⟩
    have haddr : 0x0F800000 + 32 * h + 12 = frerAddr h + 12 := rfl
    rw [haddr]
    exact (s.wrMem_leBytes _ 1 _).2.1
  case dram =>
    intro s a b0 b1 b2 b3 ha ha' hal hmap hreg
    refine ⟨_, exec_dramWindowWrite s (data := [b0, b1, b2, b3]) ha ha' 15, ?_⟩
    rw [s.dramWrite_staging b0 b1 b2 b3 (by omega) hmap hreg]
    exact ⟨s.rdDram_wrDram _ [b0, b1, b2, b3], s.wrDram_dramBut _ [b0, b1, b2, b3], (s.wrDram_keeps _ _).sameBut_of_all (by decide)⟩
  case tcamLocal =>
    intro s q b r w d hq hb hr hw hused hodd hlocal hop hopen
    have hquads : s.rowQuads q b = [q] := by simp [State.rowQuads, hlocal]
    obtain ⟨t, ht, hread, hbut, hlost, hsame⟩ := exec_tcamRowWrite_open s d hq hb hr hw (by simp [hquads]) hused hodd hop hopen
    simp only [hquads, List.mem_singleton, forall_eq] at hread
    refine ⟨t, ht, hread.1, fun x hx => hbut x (by simpa [hquads] using hx), hread.2, ?_, hsame⟩
    rw [hlost, hquads]
    refine List.filter_congr fun e _ => Bool.eq_iff_iff.2 ?_
    simp
  case tcamGlobal =>
    intro s q b r w d hq hb hr hw hused hodd hglobal hop hopen
    have hquads : s.rowQuads q b = s.liveQuads := by simp [State.rowQuads, hglobal]
    have h := exec_tcamRowWrite_open s d (s.liveQuads_lt hq) hb hr hw (hquads ▸ hq) hused hodd hop hopen
    rwa [hquads] at h

end Sys2Proof.Machine
end

section
/-!
PROOFS. Arriving frames (R14, R98, R104, R115, R120, R129, R130, R154, R163, R165, R258, R268): what a look-up of a frame finds after a
frame was added, replaced or removed; the grant of a bead; the drop of a frame that holds no bead and has no copy; from these the statement
O14.
-/

namespace Sys2Proof.Machine

/-! ### The frames of a state -/

theorem FramesBut.trans {fid : Nat} {s t u : State} (h : FramesBut fid s t) (h' : FramesBut fid t u) : FramesBut fid s u :=
  fun i hi => (h' i hi).trans (h i hi)

theorem State.frame_of_frames {s t : State} (h : t.frames = s.frames) (i : Nat) : t.frame i = s.frame i := by
  rw [State.frame, h, State.frame]

theorem FramesBut.of_frames {s t : State} (fid : Nat) (h : t.frames = s.frames) : FramesBut fid s t := fun i _ => State.frame_of_frames h i

theorem State.fid_of_frame {s : State} {fid : Nat} {f : Frame} (h : s.frame fid = some f) : f.fid = fid := by
  simpa using List.find?_some h

/-- The first element with a property is found again after it was replaced by another one with the property. -/
theorem find?_updFirst_same {α : Type} {p : α → Bool} {a b : α} (hb : p b = true) (l : List α) (h : l.find? p = some a) :
    (updFirst p (fun _ => b) l).find? p = some b := by
  induction l with
  | nil => simp at h
  | cons x l ih =>
    by_cases hx : p x = true
    · simp [updFirst, hx, hb]
    · simp only [List.find?_cons, hx] at h
      simp [updFirst, hx, ih h]

/-- Replacing an element does not show in a search that neither the element nor its replacement answers. -/
theorem find?_updFirst_other {α : Type} {p q : α → Bool} {b : α} (hb : q b = false) (hpq : ∀ a, p a = true → q a = false) (l : List α) :
    (updFirst p (fun _ => b) l).find? q = l.find? q := by
  induction l with
  | nil => rfl
  | cons x l ih =>
    by_cases hx : p x = true
    · simp [updFirst, hx, hb, hpq x hx]
    · simp [updFirst, hx, List.find?_cons, ih]

theorem State.frame_putFrame_same {s : State} {fid : Nat} {f g : Frame} (hf : s.frame fid = some f) (hg : g.fid = fid) :
    (s.putFrame g).frame fid = some g := by
  subst hg
  exact find?_updFirst_same (by simp) _ hf

theorem State.putFrame_framesBut (s : State) {fid : Nat} {g : Frame} (hg : g.fid = fid) : FramesBut fid s (s.putFrame g) := by
  subst hg
  exact fun i hi => find?_updFirst_other (by simpa using Ne.symm hi) (fun a ha => by simp_all [Ne.symm hi]) s.frames

theorem State.frame_delFrame_same (s : State) (fid : Nat) : (s.delFrame fid).frame fid = none := by
  simp [State.delFrame, State.frame]

theorem State.delFrame_framesBut (s : State) (fid : Nat) : FramesBut fid s (s.delFrame fid) := by
  intro i hi
  simp only [State.delFrame, State.frame, List.find?_filter]
  congr 1
  funext x
  by_cases hx : x.fid = i <;> simp [hx, hi]

/-- A frame added under an identifier that is not in use. -/
theorem State.frame_addFrame_same {s : State} {fid : Nat} {f : Frame} (hfree : s.frame fid = none) (hf : f.fid = fid) :
    ({ s with frames := s.frames ++ [f] } : State).frame fid = some f := by
  have hnone : s.frames.find? (fun x => x.fid == fid) = none := hfree
  simp [State.frame, List.find?_append, hnone, hf]

theorem State.addFrame_framesBut (s : State) {fid : Nat} {f : Frame} (hf : f.fid = fid) : FramesBut fid s { s with frames := s.frames ++ [f] } := by
  intro i hi
  simp [State.frame, List.find?_append, hf, Ne.symm hi]

/-! ### Arrival (R14, R98, R115, R268) -/

/-- A frame at its first bit, as its port takes it or refuses it; a Viram header may give it a stream handle. -/
def State.arrived (s : State) (fid port wr : Nat) (pre : Bool) (vhdr : List Byte) (stream : Option Nat) : Frame :=
  { newFrame fid port s.now (s.ingressTs port) (0x300 + 3 * s.quadOf port + wr % 3) with
    preempt := pre, vhdr := vhdr, stream := stream, why := s.notAdmitted port,
    phase := if (s.notAdmitted port).isSome then .dropped else .waiting }

theorem execFrameArrival_adds {s : State} {fid port : Nat} {x : PortSt} (hfree : s.frame fid = none) (hport : s.port port = some x)
    (hmode : x.mode ≠ 0) (wr : Nat) (pre : Bool) (vhdr : List Byte) :
    ∃ h, execFrameArrival fid port pre wr vhdr s = .next { s with frames := s.frames ++ [s.arrived fid port wr pre vhdr h] } := by
  have hopen : s.ports.any (fun y => y.port == port && y.mode != 0) = true :=
    List.any_eq_true.2 ⟨x, List.mem_of_find?_eq_some hport, by simpa [hmode] using List.find?_some hport⟩
  rw [execFrameArrival, if_neg (by simp [hfree, hopen])]
  extract_lets f g k
  have hk : ∃ h, k = { g with stream := h } := by
    unfold k
    split
    · exact ⟨_, rfl⟩
    · exact ⟨g.stream, rfl⟩
  obtain ⟨h, hk⟩ := hk
  refine ⟨h, ?_⟩
  rw [hk]
  simp only [State.arrived]
  cases s.notAdmitted port <;> rfl

/-- What a first bit leaves at a port in service: a frame more. -/
theorem runs_frameArrival {s : State} {fid port : Nat} {x : PortSt} (hfree : s.frame fid = none) (hport : s.port port = some x)
    (hmode : x.mode ≠ 0) (wr : Nat) (pre : Bool) (vhdr : List Byte) :
    Runs (.frameArrival fid port pre wr vhdr) s (fun t => (∃ h, t.frame fid = some (s.arrived fid port wr pre vhdr h)) ∧ FramesBut fid s t ∧
      SameBut [.frames] s t) := by
  obtain ⟨h, hexec⟩ := execFrameArrival_adds hfree hport hmode wr pre vhdr
  exact ⟨_, hexec, ⟨h, State.frame_addFrame_same hfree rfl⟩, s.addFrame_framesBut rfl, (keeps_frames s _).sameBut_of_all (by decide)⟩

/-! ### Beads (R255, R258) -/

/-- The pools whose WARN2 interrupt waits to be re-armed stand apart from the beads' records. -/
theorem State.held_warn2 (s : State) (l : List Nat) : ({ s with buf := { s.buf with warn2 := l } } : State).buf.held = s.buf.held := rfl

/-- The evaluation of a pool's thresholds leaves every bead's record. -/
theorem State.poolEval_held (s : State) (n : Nat) : (s.poolEval n).buf.held = s.buf.held := by
  have hraise (u : State) : u.raiseWarn2.buf = u.buf := u.raiseWarn2_keeps.same .buf rfl
  unfold State.poolEval
  extract_lets occ gap w1 w2 s1 s2
  have hs2 : s2.buf.held = s.buf.held := by
    show (s1.setB _ _).buf.held = _
    rw [State.setB_buf]
    unfold s1
    split
    · rfl
    · split
      · rw [State.setF_buf]
      · split
        · rw [State.setF_buf]
        · rfl
  split
  · rfl
  · split
    · split
      · exact hs2
      · rw [hraise, State.orF_buf]
        exact (s2.held_warn2 _).trans hs2
    · split
      · exact (s2.held_warn2 _).trans hs2
      · exact hs2

/-- The head of the free list goes to its new owner, with no copy that reads it. -/
theorem State.takeBead_head {s : State} {b : Nat} (pool owner : Nat) (hb : s.freeHead = some b) :
    ∃ t, s.takeBead pool owner = some (b, t) ∧ t.buf.held = sput s.buf.held b { next := none, owner := owner, refs := 0, pool := pool } := by
  unfold State.takeBead
  rw [hb]
  refine ⟨_, rfl, ?_⟩
  rw [State.charge, State.poolEval_held]
  rfl

/-- A pool with room beyond the requests that wait for it grants the head of the free list. -/
theorem State.grantBead_room {s : State} {pool b : Nat} (owner : Nat)
    (hroom : s.getF (BPM_POOL_OCC_BEADS pool) + (s.buf.waits.filter (fun w => w.pool == pool)).length < s.getF (BPM_POOL_BEADS_QUOTA pool))
    (hb : s.freeHead = some b) :
    ∃ t, s.grantBead pool owner = some (b, t) ∧ t.buf.held = sput s.buf.held b { next := none, owner := owner, refs := 0, pool := pool } := by
  rw [State.grantBead, if_neg (by omega)]
  exact s.takeBead_head pool owner hb

/-- A bead that joins a chain leaves the owner and the readers of every bead. -/
theorem lookup_linkBead (held : List (Nat × Bead)) (l : List Nat) (b x : Nat) :
    ((linkBead held l b).lookup x).map (fun r => (r.owner, r.refs)) = (held.lookup x).map (fun r => (r.owner, r.refs)) := by
  unfold linkBead
  split
  · next last _ =>
    split
    · next r hr =>
      by_cases hx : x = last
      · rw [hx, lookup_sput_same, hr]
        rfl
      · rw [lookup_sput_other _ _ hx]
    · rfl
  · rfl

/-- A bead joins a frame of the state: the frame's chain ends with it. -/
theorem State.joinBead_frame {s : State} {fid : Nat} {f : Frame} (hf : s.frame fid = some f) (b : Nat) :
    (s.joinBead f b).frame fid = some { f with beads := f.beads ++ [b] } ∧ FramesBut fid s (s.joinBead f b) := by
  have hfid : f.fid = fid := State.fid_of_frame hf
  exact ⟨State.frame_putFrame_same (s := { s with buf := { s.buf with held := linkBead s.buf.held f.beads b } }) hf hfid,
    State.putFrame_framesBut { s with buf := { s.buf with held := linkBead s.buf.held f.beads b } } hfid⟩

/-- A frame whose bytes take no beads, or that has beads for all of them, requests none. -/
theorem State.claimBeads_idle {s : State} {fid : Nat} {f : Frame} (n : Nat) (hf : s.frame fid = some f)
    (h : f.takesBeads s = false ∨ (f.bytes.length + 255) / 256 ≤ f.beads.length) : State.claimBeads n s fid = s := by
  cases n with
  | zero => rfl
  | succ n =>
    rw [State.claimBeads, hf]
    dsimp only
    rw [if_neg]
    rcases h with h | h
    · simp [h]
    · simp [Nat.not_lt.2 h]

/-- A frame whose bytes want one bead more gets the head of the free list: its pool has room, and admits it where the bead is its first. -/
theorem State.claimBeads_one {s : State} {fid b : Nat} {f : Frame} (n : Nat) (hf : s.frame fid = some f) (htakes : f.takesBeads s = true)
    (hmore : f.beads.length * 256 < f.bytes.length) (hlast : f.bytes.length ≤ f.beads.length * 256 + 256)
    (hturn : (f.byHost && s.buf.waits.any (fun w => w.slot == 14)) = false)
    (hadmit : f.beads = [] → s.getF (BPM_POOL_OCC_BEADS f.pool) < s.thr f.pool (s.getF (BPM_POOL_FULL_BEADS f.pool)))
    (hroom : s.getF (BPM_POOL_OCC_BEADS f.pool) + (s.buf.waits.filter (fun w => w.pool == f.pool)).length < s.getF (BPM_POOL_BEADS_QUOTA f.pool))
    (hb : s.freeHead = some b) :
    (State.claimBeads (n + 1) s fid).frame fid = some { f with beads := f.beads ++ [b] } ∧
    ((State.claimBeads (n + 1) s fid).buf.held.lookup b).map (fun r => (r.owner, r.refs)) = some (f.writer, 0) ∧
    FramesBut fid s (State.claimBeads (n + 1) s fid) ∧ SameBut [.regs, .bar4, .out, .frames, .buf] s (State.claimBeads (n + 1) s fid) := by
  obtain ⟨t, hgrant, hheld⟩ := s.grantBead_room f.writer hroom hb
  have hkeep := State.grantBead_keeps hgrant
  have hframes : t.frames = s.frames := hkeep.same .frames rfl
  have hclaim : s.claimBead f = t.joinBead f b := by
    rw [State.claimBead, if_neg, hgrant]
    intro h
    simp only [Bool.and_eq_true, List.isEmpty_iff, decide_eq_true_eq] at h
    exact absurd (hadmit h.1) (by omega)
  obtain ⟨hjoined, hbut⟩ := State.joinBead_frame ((State.frame_of_frames hframes fid).trans hf) b
  have hdone : State.claimBeads (n + 1) s fid = t.joinBead f b := by
    have hwant : f.beads.length < (f.bytes.length + 255) / 256 := by omega
    rw [State.claimBeads, hf]
    dsimp only
    rw [if_pos (by simp [htakes, hwant, hturn]), hclaim]
    exact State.claimBeads_idle n hjoined (.inr (by simp only [List.length_append, List.length_singleton]; omega))
  have hall : Keeps 0x500080C s (t.joinBead f b) := .app (.app (.refl _ _) hkeep rfl) (State.joinBead_keeps _ _ _) rfl
  rw [hdone]
  refine ⟨hjoined, ?_, (FramesBut.of_frames fid hframes).trans hbut, hall.sameBut_of_all (by decide)⟩
  show ((linkBead t.buf.held f.beads b).lookup b).map _ = _
  rw [lookup_linkBead, hheld, lookup_sput_same]
  rfl

/-! ### A frame that holds no bead and has no copy is dropped (R165) -/

theorem State.tailMarkFrame_alone {s : State} {fid : Nat} (hc : ∀ c ∈ s.copies, c.fid ≠ fid) : s.tailMarkFrame fid = s := by
  have hid : s.copies.map (fun c => if c.fid == fid && c.started then { c with tailMark := true } else c) = s.copies := by
    calc s.copies.map (fun c => if c.fid == fid && c.started then { c with tailMark := true } else c)
        = s.copies.map id := List.map_congr_left fun c h => by simp [hc c h]
      _ = s.copies := List.map_id _
  rw [State.tailMarkFrame, hid]

/-- Nothing is withdrawn, marked or freed: the frame's threads end, and what is left is the frame's record. -/
theorem State.dropFrame_alone {s : State} {fid : Nat} {f : Frame} (why : Nat) (hf : s.frame fid = some f) (hbeads : f.beads = [])
    (hc : ∀ c ∈ s.copies, c.fid ≠ fid) (hjudged : (f.ended && f.parses) = false) :
    s.dropFrame fid why = if f.ended then ((s.endThreads (.frame fid)).countWhy f (f.why.getD why)).delFrame fid
      else (s.endThreads (.frame fid)).putFrame { f with phase := .dropped, why := some (f.why.getD why), looking := false } := by
  have hnone : s.copies.filter (fun c => c.fid == fid && !c.started) = [] :=
    List.filter_eq_nil_iff.2 fun c h => by simp [hc c h]
  have hlast : (s.endThreads (.frame fid)).copies.any (fun c => c.fid == fid) = false :=
    List.any_eq_false.2 fun c h => by simpa using hc c h
  have hempty : ({ f with beads := [] } : Frame) = f := by rw [← hbeads]
  rw [State.dropFrame, hf]
  simp only [hjudged, Bool.false_eq_true, if_false, hnone, State.withdrawCopies, State.tailMarkFrame_alone hc, hbeads, List.filter_nil,
    State.freeAll, hempty, hlast]

/-! ### Bytes of a frame before its hand-over (R104, R120) -/

/-- Bytes that arrive change only what the frame holds of its bytes. -/
theorem State.addBytes_eq (s : State) (f : Frame) (data : List Byte) (m : Nat) : ∃ raw sec bytes macsec,
    s.addBytes f data m = { f with raw := raw, sec := sec, bytes := bytes, macsec := macsec } := by
  unfold State.addBytes
  split
  · exact ⟨f.raw, f.sec, _, f.macsec, rfl⟩
  · exact ⟨_, _, _, _, rfl⟩

/-- A port without a SecY hands on the bytes as they came, whatever else the state holds. -/
theorem State.addBytes_noSecY {s t : State} {f : Frame} (hs : s.hasSecY f.port = false) (ht : t.hasSecY f.port = false) (data : List Byte) (m : Nat) :
    s.addBytes f data m = t.addBytes f data m := by
  simp [State.addBytes, State.secTagOf, hs, ht]

/-- What came on the wire, and with it whether the frame is a MAC control frame, depends on no register. -/
theorem State.addBytes_macControl (s t : State) (f : Frame) (data : List Byte) (m : Nat) :
    (s.addBytes f data m).macControl = (t.addBytes f data m).macControl := by
  unfold State.addBytes
  split <;> rfl

theorem State.maxFrame_of_ports {s t : State} (h : t.ports = s.ports) (p : Nat) : t.maxFrame p = s.maxFrame p := by
  simp only [State.maxFrame, State.port, h]

theorem State.hasSecY_of_ports {s t : State} (h : t.ports = s.ports) (p : Nat) : t.hasSecY p = s.hasSecY p := by
  simp only [State.hasSecY, State.port, h]

/-- A frame that no stream filter has passed is not dropped by one for its length. -/
theorem State.lateSdu_unfiltered {s : State} {fid : Nat} {f : Frame} (hf : s.frame fid = some f) (h : f.filtered = false) (len : Nat) :
    s.lateSdu fid len = s := by
  rw [State.lateSdu, hf]
  cases hs : f.stream <;> simp [hs, h]

/-- The bytes that come before the hand-over join the frame and take no beads. -/
theorem State.takeBytes_early {s : State} {fid : Nat} {f : Frame} (hf : s.frame fid = some f)
    (hphase : f.phase = .waiting ∨ f.phase = .parsing ∨ f.phase = .parsed) (hfilt : f.filtered = false) (data : List Byte) (len : Frame → Nat) :
    s.takeBytes f data len = s.putFrame (s.addBytes f data (s.maxFrame f.port)) := by
  obtain ⟨raw, sec, bytes, macsec, hadd⟩ := s.addBytes_eq f data (s.maxFrame f.port)
  have hfid : f.fid = fid := State.fid_of_frame hf
  have hput : (s.putFrame (s.addBytes f data (s.maxFrame f.port))).frame f.fid = some (s.addBytes f data (s.maxFrame f.port)) :=
    State.frame_putFrame_same (hfid ▸ hf) (by rw [hadd])
  rw [State.takeBytes, State.claimBeads_idle 64 hput (.inl ?_), State.lateSdu_unfiltered hput (by rw [hadd]; exact hfilt)]
  rw [hadd]
  rcases hphase with h | h | h <;> simp [Frame.takesBeads, h]

theorem exec_frameDataBeadRequest {s : State} {fid : Nat} {f : Frame} (hf : s.frame fid = some f) (hend : f.ended = false) (data : List Byte) :
    exec (.frameDataBeadRequest fid data) s = .next (s.takeBytes f data Frame.rxLen) := by
  show execFrameDataBeadRequest fid data s = _
  simp only [execFrameDataBeadRequest, hf, hend, Bool.false_eq_true, if_false]

/-- FRAME_DATA_BEAD_REQUEST before the hand-over. -/
theorem runs_frameDataBeadRequest_early {s : State} {fid : Nat} {f : Frame} (hf : s.frame fid = some f)
    (hphase : f.phase = .waiting ∨ f.phase = .parsing ∨ f.phase = .parsed) (hend : f.ended = false) (hfilt : f.filtered = false)
    (data : List Byte) :
    Runs (.frameDataBeadRequest fid data) s (fun t => t.frame fid = some (s.addBytes f data (s.maxFrame f.port)) ∧ FramesBut fid s t ∧
      SameBut [.frames] s t) := by
  obtain ⟨raw, sec, bytes, macsec, hadd⟩ := s.addBytes_eq f data (s.maxFrame f.port)
  have hfid : f.fid = fid := State.fid_of_frame hf
  have hfid : (s.addBytes f data (s.maxFrame f.port)).fid = fid := by rw [hadd]; exact hfid
  have hexec := exec_frameDataBeadRequest hf hend data
  rw [State.takeBytes_early hf hphase hfilt] at hexec
  exact ⟨_, hexec, State.frame_putFrame_same hf hfid, s.putFrame_framesBut hfid, (s.putFrame_keeps _).sameBut_of_all (by decide)⟩

/-! ### Parse threads (R129, R154) -/

theorem State.thread_of_threads {s t : State} (h : t.threads = s.threads) (e sl : Nat) : t.thread e sl = s.thread e sl := by
  rw [State.thread, h, State.thread]

theorem State.thread_of_mem_freeSlots {s : State} {e sl : Nat} (h : sl ∈ s.freeSlots e) : s.thread e sl = none := by
  obtain ⟨_, hfree⟩ := List.mem_filter.1 h
  exact List.find?_eq_none.2 (by simpa using hfree)

theorem State.thread_startThread_same {s : State} {e sl : Nat} (hfree : s.thread e sl = none) (tg : Target) (entry : Nat) :
    (s.startThread e sl tg entry).thread e sl = some (newThread e sl tg entry s.now s.isSealed) := by
  show (s.threads ++ [newThread e sl tg entry s.now s.isSealed]).find? _ = _
  have hnone : s.threads.find? (fun x => x.eng == e && x.slot == sl) = none := hfree
  simp [List.find?_append, hnone, newThread]

theorem State.startThread_threadsBut (s : State) (e sl : Nat) (tg : Target) (entry : Nat) : ThreadsBut e sl s (s.startThread e sl tg entry) := by
  intro e' sl' hne
  show (s.threads ++ [newThread e sl tg entry s.now s.isSealed]).find? _ = _
  have hno : (e == e' && sl == sl') = false := by
    simp only [Bool.and_eq_false_iff, beq_eq_false_iff_ne]
    by_cases he : e = e'
    · exact .inr fun hs => hne ⟨he.symm, hs.symm⟩
    · exact .inl he
  simp [List.find?_append, State.thread, newThread, hno]

/-- A frame whose parse starts. -/
def State.parseStarted (s : State) (f : Frame) : Frame :=
  { f with phase := .parsing, gen := s.curGen,
           layers := match s.node 0 with | some n => if n.record then [{ kind := n.kind, off := 0 }] else [] | none => [] }

/-- PARSE_THREAD_START where an engine has a slot: the frame and the thread change, then the quadrant's counter and its event tallies. -/
theorem exec_parseThreadStart {s : State} {fid slot e : Nat} {f : Frame} (hf : s.frame fid = some f) (hphase : f.phase = .waiting)
    (hknown : f.known = true) (hctl : f.macControl = false)
    (hpick : s.pickEngine (4 * s.quadOf f.port) (4 * s.quadOf f.port + 1) = some e) (hslot : slot ∈ s.freeSlots e) :
    exec (.parseThreadStart fid slot) s = .next (((((s.putFrame (s.parseStarted f)).startThread e slot (.frame fid)
      (((s.node 0).map (·.entry)).getD 0)).count (PRS_Q_FRAMES_COUNT (s.quadOf f.port)) 1)).evt (s.quadOf f.port) 1 f.port 15) := by
  show execParseThreadStart fid slot s = _
  rw [execParseThreadStart, hf]
  dsimp only
  rw [if_neg (by simp [hphase, hknown, hctl]), hpick]
  dsimp only
  rw [if_neg (by simpa using hslot)]
  rfl

/-- A parse thread has started. -/
theorem runs_parseThreadStart {s : State} {fid slot e : Nat} {f : Frame} (hf : s.frame fid = some f) (hphase : f.phase = .waiting)
    (hknown : f.known = true) (hctl : f.macControl = false)
    (hpick : s.pickEngine (4 * s.quadOf f.port) (4 * s.quadOf f.port + 1) = some e) (hslot : slot ∈ s.freeSlots e) :
    Runs (.parseThreadStart fid slot) s (fun t => t.frame fid = some (s.parseStarted f) ∧
      t.thread e slot = some (newThread e slot (.frame fid) (((s.node 0).map (·.entry)).getD 0) s.now s.isSealed) ∧
      FramesBut fid s t ∧ ThreadsBut e slot s t ∧ SameBut [.regs, .threads, .frames] s t) := by
  refine ⟨_, exec_parseThreadStart hf hphase hknown hctl hpick hslot, ?_⟩
  generalize ((s.node 0).map (·.entry)).getD 0 = entry
  have hfid : (s.parseStarted f).fid = fid := (State.fid_of_frame hf :)
  have hfree : (s.putFrame (s.parseStarted f)).thread e slot = none := State.thread_of_mem_freeSlots (s := s) hslot
  have hstart := (s.putFrame (s.parseStarted f)).startThread_keeps e slot (.frame fid) entry
  have hsame := State.thread_startThread_same hfree (.frame fid) entry
  have hbut := (s.putFrame (s.parseStarted f)).startThread_threadsBut e slot (.frame fid) entry
  generalize (s.putFrame (s.parseStarted f)).startThread e slot (.frame fid) entry = u at *
  have hcount : Keeps 0x4 u ((u.count (PRS_Q_FRAMES_COUNT (s.quadOf f.port)) 1).evt (s.quadOf f.port) 1 f.port 15) :=
    .app (.app (.refl _ _) (u.count_keeps _ _) rfl) (State.evt_keeps _ _ _ _ _) rfl
  generalize (u.count (PRS_Q_FRAMES_COUNT (s.quadOf f.port)) 1).evt (s.quadOf f.port) 1 f.port 15 = t at *
  have hframes : t.frames = (s.putFrame (s.parseStarted f)).frames := (hcount.same .frames rfl).trans (hstart.same .frames rfl)
  have hthreads : t.threads = u.threads := hcount.same .threads rfl
  have hall : Keeps 0x1100004 s t := .app (.app (.app (.refl _ _) (s.putFrame_keeps _) rfl) hstart rfl) hcount rfl
  refine ⟨?_, ?_, ?_, ?_, hall.sameBut_of_all (by decide)⟩
  · rw [State.frame_of_frames hframes]
    exact State.frame_putFrame_same hf hfid
  · rw [State.thread_of_threads hthreads, hsame]
    rfl
  · exact (s.putFrame_framesBut hfid).trans (.of_frames fid hframes)
  · exact fun e' sl' hne => (State.thread_of_threads hthreads e' sl').trans (hbut e' sl' hne)

/-! ### No slot in time (R129) -/

theorem threadsEnd_of_endThreads {s u t : State} {tg : Target} (hth : u.threads = s.threads) (hsa : u.samples = s.samples)
    (hth' : t.threads = (u.endThreads tg).threads) (hsa' : t.samples = (u.endThreads tg).samples) : ThreadsEnd tg s t ∧ SamplesEnd tg s t := by
  rw [ThreadsEnd, SamplesEnd, hth', hsa', ← hth, ← hsa]
  exact ⟨rfl, rfl⟩

/-- PARSE_SLOT_TIMEOUT of a frame that holds no bead and has no copy. -/
theorem exec_parseSlotTimeout {s : State} {fid : Nat} {f : Frame} (hf : s.frame fid = some f) (hphase : f.phase = .waiting)
    (hend : f.ended = false) (hbeads : f.beads = []) (hctl : f.macControl = false) (htime : f.arriveAt + tCyc 64 ≤ s.now)
    (hpick : s.pickEngine (4 * s.quadOf f.port) (4 * s.quadOf f.port + 1) = none) (hc : ∀ c ∈ s.copies, c.fid ≠ fid) :
    exec (.parseSlotTimeout fid) s = .next (((s.count (HSQ_NOSLOT_CNT_COUNT (4 * s.quadOf f.port)) 1).endThreads (.frame fid)).putFrame
      { f with phase := .dropped, why := some (f.why.getD tRX_CONGESTION), looking := false }) := by
  have hdrop (u : State) (hu : Keeps 0x4 s u) : u.dropFrame fid tRX_CONGESTION = (u.endThreads (.frame fid)).putFrame
      { f with phase := .dropped, why := some (f.why.getD tRX_CONGESTION), looking := false } := by
    have hcopies : u.copies = s.copies := hu.same .copies rfl
    rw [State.dropFrame_alone _ ((State.frame_of_frames (hu.same .frames rfl) fid).trans hf) hbeads (by rwa [hcopies]) (by simp [hend]),
      if_neg (by simp [hend])]
  show execParseSlotTimeout fid s = _
  rw [execParseSlotTimeout, hf]
  dsimp only
  rw [if_pos ⟨hphase, hctl, htime, hpick⟩, hdrop _ (s.count_keeps _ _)]

/-- A frame that finds no slot in time is dropped and counted; its threads, if any, end. -/
theorem runs_parseSlotTimeout {s : State} {fid : Nat} {f : Frame} (hf : s.frame fid = some f) (hphase : f.phase = .waiting)
    (hend : f.ended = false) (hbeads : f.beads = []) (hctl : f.macControl = false) (htime : f.arriveAt + tCyc 64 ≤ s.now)
    (hpick : s.pickEngine (4 * s.quadOf f.port) (4 * s.quadOf f.port + 1) = none) (hc : ∀ c ∈ s.copies, c.fid ≠ fid) :
    Runs (.parseSlotTimeout fid) s (fun t => (t.frame fid).map (fun g => (g.phase, g.why)) = some (.dropped, some (f.why.getD tRX_CONGESTION)) ∧
      CountedBy (HSQ_NOSLOT_CNT_COUNT (4 * s.quadOf f.port)) 1 s t ∧ RegsBut [(HSQ_NOSLOT_CNT_COUNT (4 * s.quadOf f.port)).off] s t ∧
      FramesBut fid s t ∧ ThreadsEnd (.frame fid) s t ∧ SamplesEnd (.frame fid) s t ∧ SameBut [.regs, .threads, .samples, .frames] s t) := by
  refine ⟨_, exec_parseSlotTimeout hf hphase hend hbeads hctl htime hpick hc, ?_⟩
  generalize hg : ({ f with phase := .dropped, why := some (f.why.getD tRX_CONGESTION), looking := false } : Frame) = g
  have hgfid : g.fid = fid := by rw [← hg]; exact (State.fid_of_frame hf :)
  have hcounted := s.count_countedBy (HSQ_NOSLOT_CNT_COUNT (4 * s.quadOf f.port)) 1 (by show 0 + 32 ≤ 32; omega)
  have hregs := s.count_regsBut (HSQ_NOSLOT_CNT_COUNT (4 * s.quadOf f.port)) 1
  have hkeep := s.count_keeps (HSQ_NOSLOT_CNT_COUNT (4 * s.quadOf f.port)) 1
  generalize s.count (HSQ_NOSLOT_CNT_COUNT (4 * s.quadOf f.port)) 1 = u at hcounted hregs hkeep ⊢
  have hends := u.endThreads_keeps (.frame fid)
  have hframes : (u.endThreads (.frame fid)).frames = s.frames := (hends.same .frames rfl).trans (hkeep.same .frames rfl)
  have hall : Keeps 0x1300004 s ((u.endThreads (.frame fid)).putFrame g) :=
    .app (.app (.app (.refl _ _) hkeep rfl) hends rfl) (State.putFrame_keeps _ _) rfl
  obtain ⟨hthreads, hsamples⟩ := threadsEnd_of_endThreads (t := (u.endThreads (.frame fid)).putFrame g) (tg := .frame fid)
    (hkeep.same .threads rfl) (hkeep.same .samples rfl) rfl rfl
  have hwords : ((u.endThreads (.frame fid)).putFrame g).regs = u.regs := hends.same .regs rfl
  refine ⟨?_, ?_, hregs.trans (.of_regs hwords), ?_, hthreads, hsamples, hall.sameBut_of_all (by decide)⟩
  · rw [State.frame_putFrame_same ((State.frame_of_frames hframes fid).trans hf) hgfid, ← hg]
    rfl
  · rw [CountedBy, State.getF, State.rd, hwords]
    exact hcounted
  · exact (FramesBut.of_frames fid hframes).trans (State.putFrame_framesBut _ hgfid)

/-! ### The hand-over (R130, R258) -/

/-- A frame handed over: its class and its pool are taken, and it stands in front of position 0. -/
def State.handed (s : State) (f : Frame) : Frame := { s.classify f with phase := .station, pos := 0 }

/-- The state in which a frame handed over requests its beads. -/
def State.handOver (s : State) (f : Frame) : State :=
  (s.putFrame (s.handed f)).maxF (PRS_Q_PEAK_NS_NS (s.quadOf f.port)) ((s.now - f.arriveAt) / 27)

theorem exec_keySetHandover {s : State} {fid : Nat} {f : Frame} (hf : s.frame fid = some f) (hphase : f.phase = .parsed)
    (hheld : s.earlierHeld f = false) : exec (.keySetHandover fid) s = .next (State.claimBeads 64 (s.handOver f) fid) := by
  show execKeySetHandover fid s = _
  rw [execKeySetHandover, hf]
  dsimp only
  rw [if_neg (by simp [hphase, hheld])]
  rfl

/-- What the hand-over itself leaves: the frame and the quadrant's longest time to hand-over. -/
theorem State.handOver_leaves {s : State} {fid : Nat} {f : Frame} (hf : s.frame fid = some f) :
    (s.handOver f).frame fid = some (s.handed f) ∧ RegsBut [(PRS_Q_PEAK_NS_NS (s.quadOf f.port)).off] s (s.handOver f) ∧
    FramesBut fid s (s.handOver f) ∧ SameBut [.regs, .frames] s (s.handOver f) := by
  have hfid : (s.handed f).fid = fid := (State.fid_of_frame hf :)
  have hall : Keeps 0x1000004 s (s.handOver f) := .app (.app (.refl _ _) (s.putFrame_keeps _) rfl) (State.maxF_keeps _ _ _) rfl
  have hframes : (s.handOver f).frames = (s.putFrame (s.handed f)).frames := (State.maxF_keeps _ _ _).same .frames rfl
  refine ⟨?_, State.setF_regsBut (s.putFrame (s.handed f)) _ _, ?_, hall.sameBut_of_all (by decide)⟩
  · rw [State.frame_of_frames hframes]
    exact State.frame_putFrame_same hf hfid
  · exact (s.putFrame_framesBut hfid).trans (.of_frames fid hframes)

/-- The hand-over shows in no field of the pool manager, of the isolation registers or of any other block behind the parse stations. -/
theorem State.getF_handOver (s : State) (f : Frame) (g : Fld) (hq : s.quadOf f.port < 4) (hg : 0x345000 ≤ g.off) :
    (s.handOver f).getF g = s.getF g := by
  refine State.getF_setF_other (s.putFrame (s.handed f)) _ g _ ?_
  show g.off ≠ 0x341010 + 0x1000 * s.quadOf f.port
  omega

theorem State.freeHead_congr {s t : State} (hbuf : t.buf = s.buf) (hbanks : t.getF FLT_ISO_BANKS_GROUPS = s.getF FLT_ISO_BANKS_GROUPS) :
    t.freeHead = s.freeHead := by
  have hok : t.bankOk = s.bankOk := funext fun b => by rw [State.bankOk, hbanks, State.bankOk]
  rw [State.freeHead, hbuf, hok, State.freeHead]

/-- The first bytes of a frame that is handed over take their first bead where its pool admits it and has room. -/
theorem runs_keySetHandover_firstBead {s : State} {fid b : Nat} {f : Frame} (hf : s.frame fid = some f) (hphase : f.phase = .parsed)
    (hheld : s.earlierHeld f = false) (hq : s.quadOf f.port < 4) (hbeads : f.beads = []) (hpos : 0 < f.bytes.length) (hlen : f.bytes.length ≤ 256)
    (hb : s.freeHead = some b) (hturn : (f.byHost && s.buf.waits.any (fun w => w.slot == 14)) = false)
    (hroom : s.getF (BPM_POOL_OCC_BEADS (s.handed f).pool) + (s.buf.waits.filter (fun w => w.pool == (s.handed f).pool)).length <
      s.getF (BPM_POOL_BEADS_QUOTA (s.handed f).pool))
    (hadmit : s.getF (BPM_POOL_OCC_BEADS (s.handed f).pool) < s.thr (s.handed f).pool (s.getF (BPM_POOL_FULL_BEADS (s.handed f).pool))) :
    Runs (.keySetHandover fid) s (fun t => (t.frame fid).map (fun g => (g.phase, g.pos, g.beads)) = some (.station, 0, [b]) ∧
      (t.buf.held.lookup b).map (fun r => (r.owner, r.refs)) = some (f.writer, 0) ∧ FramesBut fid s t ∧
      SameBut [.regs, .bar4, .out, .frames, .buf] s t) := by
  obtain ⟨hframe, -, hbut, hsame⟩ := State.handOver_leaves hf
  have hbuf : (s.handOver f).buf = s.buf := hsame .buf (by decide)
  have hhead : (s.handOver f).freeHead = some b := (State.freeHead_congr hbuf (s.getF_handOver f _ hq (by decide))).trans hb
  have hnil : (s.handed f).beads = [] := hbeads
  have hbytes : (s.handed f).bytes = f.bytes := rfl
  have hpool (n a : Nat) (ha : 0x345000 ≤ a) : 0x345000 ≤ a + 0x40 * n := by omega
  have hocc := s.getF_handOver f (BPM_POOL_OCC_BEADS (s.handed f).pool) hq (hpool _ _ (by decide))
  have hquota := s.getF_handOver f (BPM_POOL_BEADS_QUOTA (s.handed f).pool) hq (hpool _ _ (by decide))
  have hfull := s.getF_handOver f (BPM_POOL_FULL_BEADS (s.handed f).pool) hq (hpool _ _ (by decide))
  obtain ⟨hgot, hbead, hbut', hsame'⟩ := State.claimBeads_one 63 hframe rfl (by simpa [hnil, hbytes] using hpos)
    (by simpa [hnil, hbytes] using hlen)
    (by rw [hbuf]; exact hturn) (fun _ => by rw [State.thr, hocc, hquota, hfull]; exact hadmit) (by rw [hbuf, hocc, hquota]; exact hroom) hhead
  refine ⟨_, exec_keySetHandover hf hphase hheld, ?_, hbead, hbut.trans hbut', (hsame.mono (by decide)).trans hsame'⟩
  rw [hgot, hnil]
  rfl

/-! ### Data after the hand-over (R258) -/

/-- The bytes of a frame in front of a station join it and take the bead that they want. -/
theorem runs_frameDataBeadRequest_bead {s : State} {fid b : Nat} {data : List Byte} {f : Frame} (hf : s.frame fid = some f)
    (hphase : f.phase = .station) (hend : f.ended = false) (hfilt : f.filtered = false) (hbeads : f.beads ≠ [])
    (hmore : f.beads.length * 256 < (s.addBytes f data (s.maxFrame f.port)).bytes.length)
    (hlast : (s.addBytes f data (s.maxFrame f.port)).bytes.length ≤ f.beads.length * 256 + 256)
    (hturn : (f.byHost && s.buf.waits.any (fun w => w.slot == 14)) = false)
    (hroom : s.getF (BPM_POOL_OCC_BEADS f.pool) + (s.buf.waits.filter (fun w => w.pool == f.pool)).length < s.getF (BPM_POOL_BEADS_QUOTA f.pool))
    (hb : s.freeHead = some b) :
    Runs (.frameDataBeadRequest fid data) s (fun t =>
      (t.frame fid).map (fun g => (g.bytes, g.beads)) = some ((s.addBytes f data (s.maxFrame f.port)).bytes, f.beads ++ [b]) ∧
      (t.buf.held.lookup b).map (fun r => (r.owner, r.refs)) = some (f.writer, 0) ∧ FramesBut fid s t ∧
      SameBut [.regs, .bar4, .out, .frames, .buf] s t) := by
  have hexec := exec_frameDataBeadRequest hf hend data
  obtain ⟨raw, sec, bytes, macsec, hadd⟩ := s.addBytes_eq f data (s.maxFrame f.port)
  rw [State.takeBytes, hadd] at hexec
  rw [hadd] at hmore hlast ⊢
  generalize hg : ({ f with raw := raw, sec := sec, bytes := bytes, macsec := macsec } : Frame) = g at hexec hmore hlast ⊢
  have hgfid : g.fid = fid := by rw [← hg]; exact (State.fid_of_frame hf :)
  have hgbeads : g.beads = f.beads := by rw [← hg]
  have hgpool : g.pool = f.pool := by rw [← hg]
  have hgwriter : g.writer = f.writer := by rw [← hg]
  have htakes (u : State) : g.takesBeads u = true := by rw [← hg]; simp [Frame.takesBeads, hphase]
  obtain ⟨hframe, hbead, hbut, hsame⟩ := State.claimBeads_one (s := s.putFrame g) (b := b) 63 (State.frame_putFrame_same hf hgfid) (htakes _)
    (by rwa [hgbeads]) (by rwa [hgbeads]) (by rw [← hg]; exact hturn) (fun h => absurd (hgbeads ▸ h) hbeads) (by rw [hgpool]; exact hroom) hb
  have hput : SameBut [.regs, .bar4, .out, .frames, .buf] s (s.putFrame g) := (s.putFrame_keeps g).sameBut_of_all (by decide)
  rw [(State.fid_of_frame hf :), State.lateSdu_unfiltered hframe (by rw [← hg]; exact hfilt)] at hexec
  refine ⟨_, hexec, ?_, hbead.trans (by rw [hgwriter]), (s.putFrame_framesBut hgfid).trans hbut, hput.trans hsame⟩
  rw [hframe, Option.map_some, hgbeads]

/-! ### The end of a frame (R104, R163-R166) -/

/-- The count of an FCS error reaches no part but the port's tallies and their interrupt. -/
theorem State.countWhy_fcs_keeps (s : State) (f : Frame) : Keeps 0x80C s (s.countWhy f tRX_FCS_ERR) := by
  unfold State.countWhy
  refine .ite (fun _ => .refl _ _) (fun _ => ?_)
  dsimp only
  rw [if_neg (by decide), if_neg (by decide)]
  exact s.portTally_keeps _ _ _

/-- The frame as its last byte leaves it, before its bytes are judged. -/
def State.endFrame (s : State) (f : Frame) (e : FrameEndInfo) : Frame :=
  { (s.fecCount e.codewords).addBytes f e.data ((s.fecCount e.codewords).maxFrame f.port) with ended := true, wire := e.wire }

/-- The state in which the bytes of the frame are judged: codewords, bytes and tallies are counted. -/
def State.endRead (s : State) (f : Frame) (e : FrameEndInfo) : State :=
  (((s.fecCount e.codewords).putFrame ((s.fecCount e.codewords).addBytes f e.data ((s.fecCount e.codewords).maxFrame f.port))).putFrame
    (s.endFrame f e)).endTallies (s.endFrame f e) e

theorem State.endFrame_eq (s : State) (f : Frame) (e : FrameEndInfo) : ∃ raw sec bytes macsec,
    s.endFrame f e = { f with raw := raw, sec := sec, bytes := bytes, macsec := macsec, ended := true, wire := e.wire } := by
  obtain ⟨raw, sec, bytes, macsec, hadd⟩ := (s.fecCount e.codewords).addBytes_eq f e.data ((s.fecCount e.codewords).maxFrame f.port)
  exact ⟨raw, sec, bytes, macsec, by rw [State.endFrame, hadd]⟩

theorem State.fecCount_ports (s : State) (l : List (Nat × Nat × Nat)) : (s.fecCount l).ports = s.ports := (s.fecCount_keeps l).same .ports rfl

/-- At a port without a SecY the end of a frame adds the bytes that came last. -/
theorem State.endFrame_bytes {s : State} {f : Frame} (hsec : s.hasSecY f.port = false) (e : FrameEndInfo) :
    (s.endFrame f e).bytes = (s.addBytes f e.data (s.maxFrame f.port)).bytes := by
  have hports := s.fecCount_ports e.codewords
  rw [State.addBytes_noSecY hsec ((State.hasSecY_of_ports hports f.port).trans hsec), ← State.maxFrame_of_ports hports]
  rfl

/-- How a frame that is being parsed goes on once its bytes are judged: for want of a reason as a good one, or dropped for the reason. -/
def State.concludeEnd (t : State) (g : Frame) (wire : Nat) : Option Nat → State
  | none => t.endGood g wire
  | some r => ((t.reachCount g).putFrame { g with why := some r, phase := .dropped }).dropFrame g.fid r

section
variable {s : State} {fid : Nat} {f : Frame} {e : FrameEndInfo} (hf : s.frame fid = some f)
include hf

/-- What stands when the bytes of a frame are judged. -/
theorem State.endRead_leaves : (s.endRead f e).frame fid = some (s.endFrame f e) ∧ FramesBut fid s (s.endRead f e) ∧
    Keeps 0x10000100080C s (s.endRead f e) := by
  obtain ⟨raw, sec, bytes, macsec, hadd⟩ := (s.fecCount e.codewords).addBytes_eq f e.data ((s.fecCount e.codewords).maxFrame f.port)
  obtain ⟨_, _, _, _, hend⟩ := s.endFrame_eq f e
  have hfid : f.fid = fid := State.fid_of_frame hf
  have hfid₁ : ((s.fecCount e.codewords).addBytes f e.data ((s.fecCount e.codewords).maxFrame f.port)).fid = fid := by rw [hadd]; exact hfid
  have hfid₂ : (s.endFrame f e).fid = fid := by rw [hend]; exact hfid
  have hfec := s.fecCount_keeps e.codewords
  have hf₀ : (s.fecCount e.codewords).frame fid = some f := (State.frame_of_frames (hfec.same .frames rfl) fid).trans hf
  have hf₂ := State.frame_putFrame_same (State.frame_putFrame_same hf₀ hfid₁) hfid₂
  have htal := State.endTallies_keeps (((s.fecCount e.codewords).putFrame ((s.fecCount e.codewords).addBytes f e.data
    ((s.fecCount e.codewords).maxFrame f.port))).putFrame (s.endFrame f e)) (s.endFrame f e) e
  have hframes := htal.same .frames rfl
  refine ⟨(State.frame_of_frames hframes fid).trans hf₂, ?_, ?_⟩
  · exact (((FramesBut.of_frames fid (hfec.same .frames rfl)).trans (State.putFrame_framesBut _ hfid₁)).trans
      (State.putFrame_framesBut _ hfid₂)).trans (.of_frames fid hframes)
  · exact .app (.app (.app (.app (.refl _ _) hfec rfl) (State.putFrame_keeps _ _) rfl) (State.putFrame_keeps _ _) rfl) htal rfl

/-- FRAME_END of a frame that is being parsed and has met no reason yet: its bytes pass their checks, or a reason ends it. -/
theorem exec_frameEnd (hphase : f.phase = .parsing) (hopen : f.ended = false) (hwhy : f.why = none) (hmeters : f.meters = [])
    (hfilt : f.filtered = false) (hctl : (s.addBytes f e.data (s.maxFrame f.port)).macControl = false) :
    exec (.frameEnd fid e) s = .next (((s.endRead f e).endVerdict (s.endFrame f e) e).2.concludeEnd (s.endFrame f e) e.wire
      ((s.endRead f e).endVerdict (s.endFrame f e) e).1) := by
  have hfec := s.fecCount_keeps e.codewords
  have hf₀ : (s.fecCount e.codewords).frame fid = some f := (State.frame_of_frames (hfec.same .frames rfl) fid).trans hf
  have hports := s.fecCount_ports e.codewords
  obtain ⟨raw, sec, bytes, macsec, hend⟩ := s.endFrame_eq f e
  have hfid : (s.endFrame f e).fid = fid := by rw [hend]; exact (State.fid_of_frame hf :)
  have hwhy' : (s.endFrame f e).why = none := by rw [hend]; exact hwhy
  have hmeters' : (s.endFrame f e).meters = [] := by rw [hend]; exact hmeters
  have hparses : (s.endFrame f e).parses = true := by rw [hend]; simp [Frame.parses, hphase]
  have hctl' : (s.endFrame f e).macControl = false := by
    rw [← hctl, ← State.addBytes_macControl (s.fecCount e.codewords), ← State.maxFrame_of_ports hports]
    rfl
  show execFrameEnd fid e s = _
  rw [execFrameEnd, hf]
  dsimp -zeta only
  rw [if_neg (by simp [hopen])]
  extract_lets t
  have ht : t = _ := State.takeBytes_early hf₀ (.inr (.inl hphase)) hfilt e.data fun _ => e.wire
  have hframe : t.frame fid = some ((s.fecCount e.codewords).addBytes f e.data ((s.fecCount e.codewords).maxFrame f.port)) := by
    rw [ht]
    exact State.frame_putFrame_same hf₀ hfid
  rw [hframe]
  dsimp -zeta only
  extract_lets g c u g' v
  have hg : g = s.endFrame f e := rfl
  have hu : u = s.endRead f e := by
    show ((t.putFrame g).endTallies g e).meterCorrect e.wire (s.endFrame f e).meters = _
    rw [hmeters', ht, hg]
    rfl
  have hg' : g' = s.endFrame f e := by
    show ({ s.endFrame f e with meters := [] } : Frame) = _
    rw [← hmeters']
  have hv : v = (s.endRead f e).endVerdict (s.endFrame f e) e := by rw [← hu, ← hg']
  rw [if_neg (by rw [hg]; simp [hctl']), if_neg (by rw [hg']; simp [hwhy']), hg', ← hv]
  cases v.1 with
  | none => rfl
  | some r => simp only [State.concludeEnd, hparses, if_true, hfid]
/-- FRAME_END with good checks: the frame stays, marked ended. -/
theorem runs_frameEnd_good (hphase : f.phase = .parsing) (hopen : f.ended = false) (hwhy : f.why = none) (hmeters : f.meters = [])
    (hfilt : f.filtered = false) (hctl : (s.addBytes f e.data (s.maxFrame f.port)).macControl = false) (hfcs : e.fcsBad = false)
    (htail : e.tailMarked = false) (hassy : e.assyErr = false) (hmin : 64 ≤ e.wire) (hmax : e.wire ≤ s.maxFrame f.port)
    (hsec : s.hasSecY f.port = false) :
    Runs (.frameEnd fid e) s (fun t => t.frame fid = some (s.endFrame f e) ∧ FramesBut fid s t ∧
      SameBut [.regs, .bar4, .out, .frames, .bw] s t) := by
  obtain ⟨hframe, hbut, hkeep⟩ := State.endRead_leaves (e := e) hf
  obtain ⟨raw, sec, bytes, macsec, hend⟩ := s.endFrame_eq f e
  have hports : (s.endRead f e).ports = s.ports := hkeep.same .ports rfl
  have hfid : (s.endFrame f e).fid = fid := by rw [hend]; exact (State.fid_of_frame hf :)
  have hport : (s.endFrame f e).port = f.port := by rw [hend]
  have hparses : (s.endFrame f e).parses = true := by rw [hend]; simp [Frame.parses, hphase]
  have hverdict : (s.endRead f e).endVerdict (s.endFrame f e) e = (none, s.endRead f e) := by
    rw [State.endVerdict, htail, hfcs, hassy, hport, State.maxFrame_of_ports hports, if_neg (by simp), if_neg (by simp), if_neg (by omega),
      if_neg (by simp)]
    simp only [State.macsecVerdict, hport, State.hasSecY_of_ports hports, hsec, Bool.not_false, Bool.true_or, if_true]
  have hgood : (s.endRead f e).endGood (s.endFrame f e) e.wire = (s.endRead f e).putFrame (s.endFrame f e) := by
    have hrunt : isRunt (s.endFrame f e) e.wire = false := by simp [isRunt, Nat.not_lt.2 hmin]
    simp only [State.endGood, hrunt, hparses, Bool.false_and, Bool.false_eq_true, if_true, if_false]
  refine ⟨(s.endRead f e).putFrame (s.endFrame f e), ?_, State.frame_putFrame_same hframe hfid, hbut.trans (State.putFrame_framesBut _ hfid), ?_⟩
  · rw [exec_frameEnd hf hphase hopen hwhy hmeters hfilt hctl, hverdict]
    exact congrArg _ hgood
  · exact (hkeep.app (State.putFrame_keeps _ _) rfl).sameBut_of_all (by decide)

/-- FRAME_END with a bad FCS of a frame that holds no bead and has no copy: it is counted and leaves the device. -/
theorem runs_frameEnd_badFcs (hphase : f.phase = .parsing) (hopen : f.ended = false) (hwhy : f.why = none) (hmeters : f.meters = [])
    (hbeads : f.beads = []) (hfilt : f.filtered = false) (hctl : (s.addBytes f e.data (s.maxFrame f.port)).macControl = false)
    (hfcs : e.fcsBad = true) (htail : e.tailMarked = false) (hc : ∀ c ∈ s.copies, c.fid ≠ fid) :
    Runs (.frameEnd fid e) s (fun t => t.frame fid = none ∧ FramesBut fid s t ∧ ThreadsEnd (.frame fid) s t ∧ SamplesEnd (.frame fid) s t ∧
      SameBut [.regs, .bar4, .out, .threads, .samples, .frames, .bw] s t) := by
  obtain ⟨hframe, hbut, hkeep⟩ := State.endRead_leaves (e := e) hf
  obtain ⟨raw, sec, bytes, macsec, hend⟩ := s.endFrame_eq f e
  have hfid : (s.endFrame f e).fid = fid := by rw [hend]; exact (State.fid_of_frame hf :)
  have hverdict : (s.endRead f e).endVerdict (s.endFrame f e) e = (some tRX_FCS_ERR, s.endRead f e) := by
    rw [State.endVerdict, htail, hfcs, if_neg (by simp), if_pos rfl]
  have hexec := exec_frameEnd hf hphase hopen hwhy hmeters hfilt hctl
  rw [hverdict] at hexec
  generalize hg : ({ s.endFrame f e with why := some tRX_FCS_ERR, phase := .dropped } : Frame) = g
  have hgfid : g.fid = fid := by rw [← hg]; exact hfid
  have hreach := (s.endRead f e).reachCount_keeps (s.endFrame f e)
  generalize hu : ((s.endRead f e).reachCount (s.endFrame f e)).putFrame g = u
  have hukeep : Keeps 0x10000100080C s u := hu ▸ (hkeep.app hreach rfl).app (State.putFrame_keeps _ _) rfl
  have hucopies : u.copies = s.copies := hukeep.same .copies rfl
  have huframe : u.frame fid = some g := by
    rw [← hu]
    exact State.frame_putFrame_same ((State.frame_of_frames (hreach.same .frames rfl) fid).trans hframe) hgfid
  have hubut : FramesBut fid s u := by
    rw [← hu]
    exact (hbut.trans (.of_frames fid (hreach.same .frames rfl))).trans (State.putFrame_framesBut _ hgfid)
  have hdrop : u.dropFrame fid tRX_FCS_ERR = ((u.endThreads (.frame fid)).countWhy g tRX_FCS_ERR).delFrame fid := by
    have hgended : g.ended = true := by rw [← hg, hend]
    rw [State.dropFrame_alone _ huframe (by rw [← hg, hend]; exact hbeads) (by rwa [hucopies]) (by rw [← hg]; simp [Frame.parses]),
      if_pos hgended, ← hg]
    rfl
  have hends := u.endThreads_keeps (.frame fid)
  have hcount := State.countWhy_fcs_keeps (u.endThreads (.frame fid)) g
  generalize hw : (u.endThreads (.frame fid)).countWhy g tRX_FCS_ERR = w at hdrop hcount
  have hframes : w.frames = u.frames := (hcount.same .frames rfl).trans (hends.same .frames rfl)
  obtain ⟨hthreads, hsamples⟩ := threadsEnd_of_endThreads (tg := .frame fid) (t := w.delFrame fid) (hukeep.same .threads rfl)
    (hukeep.same .samples rfl) (hcount.same .threads rfl) (hcount.same .samples rfl)
  have hall : Keeps 0x10000130080C s (w.delFrame fid) :=
    .app (.app (.app (.app (.refl _ _) hukeep rfl) hends rfl) hcount rfl) (State.delFrame_keeps _ _) rfl
  refine ⟨w.delFrame fid, ?_, w.frame_delFrame_same fid, ?_, hthreads, hsamples, hall.sameBut_of_all (by decide)⟩
  · rw [hexec, ← hdrop, ← hu, ← hg, ← hfid]
    rfl
  · exact (hubut.trans (.of_frames fid hframes)).trans (w.delFrame_framesBut fid)
end

/-! ### The statement -/

/-- Settles O14, command by command: what each leaves of the frame is an equation (above), from which the clauses follow. -/
theorem arrivingFramesAreParsed : Obligations.ArrivingFramesAreParsed := by
  unfold Obligations.ArrivingFramesAreParsed
  refine ⟨?arrival, ?refusal, ?parse, ?timeout, ?handover, ?firstBead, ?dataPlain, ?dataNoMac, ?dataSecTag, ?dataBead, ?endGood, ?endBad⟩
  case arrival =>
    intro s fid port wr pre vhdr x hfree hport hmode hadmit hwr
    obtain ⟨t, hexec, ⟨h, hframe⟩, hbut, hsame⟩ := runs_frameArrival hfree hport hmode wr pre vhdr
    refine ⟨t, hexec, ?_, ?_, hbut, hsame⟩
    · simp [hframe, State.arrived, newFrame, hadmit]
    · simp [hframe, State.arrived, newFrame, Nat.mod_eq_of_lt hwr]
  case refusal =>
    intro s fid port why wr pre vhdr x hfree hport hmode hrefuse hwr
    obtain ⟨t, hexec, ⟨h, hframe⟩, hbut, hsame⟩ := runs_frameArrival hfree hport hmode wr pre vhdr
    refine ⟨t, hexec, ?_, hbut, hsame⟩
    simp [hframe, State.arrived, newFrame, hrefuse]
  case parse =>
    intro s fid slot e f hf hphase hknown hctl hpick hslot
    obtain ⟨t, hexec, hframe, hthread, hfbut, htbut, hsame⟩ := runs_parseThreadStart hf hphase hknown hctl hpick hslot
    exact ⟨t, hexec, by rw [hframe]; rfl, by rw [hthread]; rfl, hfbut, htbut, hsame⟩
  case timeout =>
    intro s fid f hf hphase hend hbeads hctl htime hpick hc
    exact runs_parseSlotTimeout hf hphase hend hbeads hctl htime hpick hc
  case handover =>
    intro s fid f hf hphase hheld henough
    obtain ⟨hframe, hregs, hbut, hsame⟩ := State.handOver_leaves hf
    refine ⟨s.handOver f, ?_, by rw [hframe]; rfl, hregs, hbut, hsame⟩
    rw [exec_keySetHandover hf hphase hheld, State.claimBeads_idle 64 hframe (.inr henough)]
  case firstBead =>
    intro s fid b f hf hphase hheld hq hbeads hpos hlen hb hturn hroom hadmit
    exact runs_keySetHandover_firstBead hf hphase hheld hq hbeads hpos hlen hb hturn hroom hadmit
  case dataPlain =>
    intro s fid data f hf hphase hend hfilt hport hsec hnosec
    obtain ⟨t, hexec, hframe, hbut, hsame⟩ := runs_frameDataBeadRequest_early hf hphase hend hfilt data
    refine ⟨t, hexec, ?_, hbut, hsame⟩
    have hmac : ¬ (f.port ≥ 64 ∧ f.port ≠ 65) := by omega
    simp [hframe, State.addBytes, State.secTagOf, hmac, hsec, hnosec]
  case dataNoMac =>
    intro s fid data f hf hphase hend hfilt hport hrope
    obtain ⟨t, hexec, hframe, hbut, hsame⟩ := runs_frameDataBeadRequest_early hf hphase hend hfilt data
    refine ⟨t, hexec, ?_, hbut, hsame⟩
    rw [hframe, State.addBytes, if_pos ⟨hport, hrope⟩]
    rfl
  case dataSecTag =>
    intro s fid data f x hf hphase hend hfilt hport hx
    obtain ⟨t, hexec, hframe, hbut, hsame⟩ := runs_frameDataBeadRequest_early hf hphase hend hfilt data
    refine ⟨t, hexec, ?_, hbut, hsame⟩
    have hmac : ¬ (f.port ≥ 64 ∧ f.port ≠ 65) := by omega
    rw [hframe, State.addBytes, if_neg hmac, hx]
    rfl
  case dataBead =>
    intro s fid b data f hf hphase hend hfilt hbeads hmore hlast hturn hroom hb
    exact runs_frameDataBeadRequest_bead hf hphase hend hfilt hbeads hmore hlast hturn hroom hb
  case endGood =>
    intro s fid e f hf hphase hopen hwhy hmeters hfilt hctl _ hfcs htail hassy hmin hmax hsec
    obtain ⟨t, hexec, hframe, hbut, hsame⟩ := runs_frameEnd_good hf hphase hopen hwhy hmeters hfilt hctl hfcs htail hassy hmin hmax hsec
    refine ⟨t, hexec, ?_, hbut, hsame⟩
    obtain ⟨raw, sec, bytes, macsec, hend⟩ := s.endFrame_eq f e
    rw [hframe, ← State.endFrame_bytes hsec e, hend]
    simp [hphase, hwhy]
  case endBad =>
    intro s fid e f hf hphase hopen hwhy hmeters hbeads hfilt hctl _ hfcs htail hc
    exact runs_frameEnd_badFcs hf hphase hopen hwhy hmeters hbeads hfilt hctl hfcs htail hc

end Sys2Proof.Machine
end

section
/-!
PROOFS. Modes and startup (O26, O27, O28): the three statements fail.  Each refutation gives a state in which every premise of one clause holds and
its conclusion does not, and names the premise that the clause lacks.
-/

namespace Sys2Proof.Machine

/-! ### Words after a command -/

/-- The word of a register after an outcome. -/
def wordAfter (o : Nat) : Host.Outcome State Fault Refusal → Option Word
  | .next t => some (t.rd o)
  | _ => none

/-- What a run leaves in a register, where the command has been evaluated. -/
theorem rd_of_wordAfter {c : Instr} {s t : State} {o : Nat} {w : Word} (hrun : exec c s = .next t) (hw : wordAfter o (exec c s) = some w) :
    t.rd o = w := by
  rw [hrun] at hw
  exact Option.some.inj hw

/-! ### A warm reset of a register file that lists a key twice (R79) -/

/-- A register file that is not canonical: it lists GLB_SCRATCH twice, and its first entry, the one that is read, stands at the reset value. -/
def scratchTwice : State :=
  { State.reset with regs := [(rGLB_SCRATCH, 0), (rGLB_SCRATCH, 5)], mode := { ModeSt.reset with porst := false } }

/-- Refutes O26: its clause of REQ_WARM says that GLB_SCRATCH stays in every state, where it needs `State.canon`.  A warm reset drops the entries
that come to their reset value: in `scratchTwice` the first entry of GLB_SCRATCH goes, the second is read from then on, and 0 turns into 5. -/
theorem not_modeRequestsAreCarriedOut : ¬ Obligations.ModeRequestsAreCarriedOut := by
  unfold Obligations.ModeRequestsAreCarriedOut
  rintro ⟨-, -, -, -, -, -, -, hwarm, -⟩
  have hasks : scratchTwice.asks := by decide +kernel
  have hlatch : scratchTwice.flag AON_MODE_INFO_C4_LATCH = false := by decide +kernel
  have hdesc : scratchTwice.otp.descGood := List.forall_mem_nil _
  obtain ⟨t, hrun, -, -, -, -, -, -, -, -, hstays, -⟩ := hwarm scratchTwice false hasks hlatch hdesc
  have hbefore : scratchTwice.rd rGLB_SCRATCH = 0 := by decide +kernel
  have hafter : t.rd rGLB_SCRATCH = 5 := rd_of_wordAfter hrun (by decide +kernel)
  rw [hstays, hbefore] at hafter
  exact absurd hafter (by decide)

/-! ### A park over a descriptor that names AON_MODE_INFO (R87, R391) -/

/-- A device in Solo whose park has drained, and whose OTP descriptor names AON_MODE_INFO. -/
def parkedOverMode : State :=
  ({ State.reset with mode := { ModeSt.reset with porst := false, park := 2 }, otp := { Otp.blank with desc := [(rAON_MODE_INFO, 15)] } } : State).setF
    GLB_MODE_MODE mSolo

/-- Refutes O27: its clause of PARK_DRAINED lacks the premise `Otp.descGood`.  Bivouac reports the mode held before, then the words of the memory
descriptor are loaded again; in `parkedOverMode` one of them is AON_MODE_INFO, and PREV reads 15 in place of Solo. -/
theorem not_parkingAndWaking : ¬ Obligations.ParkingAndWaking := by
  unfold Obligations.ParkingAndWaking
  rintro ⟨-, -, hdrained, -⟩
  have hpark : parkedOverMode.mode.park ≠ 0 := by decide +kernel
  have hidle : parkedOverMode.parkIdle = true := by decide +kernel
  obtain ⟨t, hrun, -, hprev, -⟩ := hdrained parkedOverMode hpark hidle rfl
  have hbefore : parkedOverMode.modeCode = mSolo := by decide +kernel
  have hafter : t.rd rAON_MODE_INFO = 15 := rd_of_wordAfter hrun (by decide +kernel)
  rw [hbefore, State.getF, hafter] at hprev
  exact absurd hprev (by decide)

/-! ### The PCIe link of an isolated host interface (R65 step 5, R420, R462) -/

/-- PCIE_LINK_UP does nothing while the host interface is isolated. -/
theorem exec_pcieLinkUp_isolated {s : State} (h : s.isIso .hostIf = true) (gen width : Nat) : exec (.pcieLinkUp gen width) s = .next s := by
  have hno : ¬ (s.isIso .hostIf = false) := by simp [h]
  show Host.Outcome.next (if _ then _ else s) = _
  rw [if_neg (fun hc => hno hc.2.1)]

/-- A device at step 3 of its start whose host chiplet is isolated. -/
def hostIsolated : State :=
  ({ State.reset with mode := { ModeSt.reset with porst := false, ascent := .cold, step := 3 } } : State).setF FLT_ISO_CHIPLET 1

/-- Refutes O28: its clause of PCIE_LINK_UP lacks the premise that the host interface is not isolated.  In `hostIsolated` every premise of the
clause holds for a link of 32 GT/s and eight lanes, and the command leaves the link down. -/
theorem not_resetsAndAscentSteps : ¬ Obligations.ResetsAndAscentSteps := by
  unfold Obligations.ResetsAndAscentSteps
  rintro ⟨-, -, -, -, -, -, -, -, -, -, -, -, -, hlink, -⟩
  have hiso : hostIsolated.isIso .hostIf = true := by decide +kernel
  have hmode : hostIsolated.modeCode ≠ mBivouac := by decide +kernel
  have hqueues : hostIsolated.reservations 64 = [] := by decide +kernel
  have hgen : 5 = 3 ∨ 5 = 4 ∨ 5 = 5 := by decide
  have hwidth : 8 = 1 ∨ 8 = 2 ∨ 8 = 4 ∨ 8 = 8 := by decide
  obtain ⟨t, hrun, hup, -⟩ := hlink hostIsolated 5 8 (Nat.le_refl 3) rfl rfl hmode hgen hwidth hqueues
  rw [exec_pcieLinkUp_isolated hiso] at hrun
  cases hrun
  have hdown : hostIsolated.mode.pcieUp = false := rfl
  rw [hup] at hdown
  cases hdown

end Sys2Proof.Machine
end
